-- ==== Sys2Proof/Word.lean ====
section
/-!
DEFINITION. The word types of the TC9640 (R10: every multi-byte field is little-endian; bit 0 is the least
significant bit).
-/
namespace Sys2Proof

/-- One byte. -/
abbrev Byte := BitVec 8
/-- A CRC-16. -/
abbrev Half := BitVec 16
/-- A 32-bit register of a channel processor or a 32-bit field. -/
abbrev Word := BitVec 32
/-- A 64-bit register, address or time stamp. -/
abbrev DWord := BitVec 64
/-- A 16-byte unit: a CCW, an IDA entry, a mover instruction. -/
abbrev QWord := BitVec 128

end Sys2Proof
end

