-- ==== Sys2Proof/Syntax.lean ====
section
/-!
DEFINITION. The commands of the TC9640 (spec/opcode_table.json): one constructor for each row, with its operands.
What the outside world answers (the data of a host read, the result of a host write, a device's completion, a
sensor's value, a verdict of the Elfort core's cryptography) is an operand of the command that brings it (log entry 6).
-/
namespace Sys2Proof

/-- A PCIe function: upstream port 0 or 1, and 0 for the PF or 1 to 64 for a VF (R90 OWN_PORT, OWN_FN). -/
structure FnId where
  port : Nat
  fn : Nat
  deriving DecidableEq, Repr

/-- The origin of a register access (R404). `cp i` is physical CP i = 9d + s; `hw a` is the TC9640 itself, agent a. -/
inductive Origin where
  | hostPf (port : Nat)
  | hostVf (port vf : Nat)
  | bmc (path : Nat)
  | elfort
  | cp (i : Nat)
  | jtag
  | hw (agent : Nat)
  deriving DecidableEq, Repr

/-- Why an access of the TC9640 to host or device memory failed (R81, R296): Unsupported Request, Completer Abort,
poisoned data, completion timeout, denied translation, link down or contained. -/
inductive BusErr where
  | ur | ca | poison | timeout | xlate | linkDown
  deriving DecidableEq, Repr

/-- What a read outside the TC9640 returned. -/
inductive HostRead where
  | ok (bytes : List Byte)
  | err (e : BusErr)
  deriving DecidableEq, Repr

/-- What became of a write to host memory: it arrived, or it failed with the bytes at the listed offsets written
(R591: any subset). -/
inductive WriteRes where
  | ok
  | fail (written : List Nat)
  deriving DecidableEq, Repr

/-- The register fields of an RR instruction: rd, ra, rb and the reserved bits [10:6] (R297). -/
structure RR where
  rd : BitVec 5
  ra : BitVec 5
  rb : BitVec 5
  rsv : BitVec 5
  deriving DecidableEq, Repr

/-- The fields of an RI instruction: rd, ra and imm16 (R297). -/
structure RI where
  rd : BitVec 5
  ra : BitVec 5
  imm : BitVec 16
  deriving DecidableEq, Repr

/-- What the handlers know of an NVMe namespace: whether it is active on the controller, the log2 of its LBA data
size bs, and its number of logical blocks (R48, R52). -/
structure NsInfo where
  active : Bool
  bsLog : Nat
  blocks : Nat
  deriving DecidableEq, Repr

/-- The outside answers a command CCW needs as it begins: IDA entries in the order the engine reads them (R75), the
host data of the segments it reads in order (R73), and whether a free operation slot exists (R35). -/
structure CmdIo where
  ida : List HostRead
  data : List HostRead
  deriving DecidableEq, Repr

/-- The condition of a downstream operation (R124). -/
inductive OpCond where
  | notIssued | complete | uncertain
  deriving DecidableEq, Repr

/-- How a downstream operation ended: success with its data, an NVMe Compare Failure, a device error with its status
value (R122 code 0x07), or a failed check block with no refill left (R230, R231). -/
inductive DevRes where
  | ok (bytes : List Byte)
  | miscompare
  | error (status : Word)
  | badBlock
  deriving DecidableEq, Repr

/-- What BIND learns from outside (R109): the member list, whether the endpoint below DPORT is enumerated, the
namespace BIND_ARG names, the size of the BAR, whether the pack's BIND entry accepts (R334), and the other root port of a path
pair, where a second path to the device exists (R273). -/
structure BindEnv where
  members : HostRead
  enumerated : Bool
  ns : NsInfo
  barSize : Nat
  accepts : Bool
  alt : Option Nat
  deriving DecidableEq, Repr

/-- Which subchannels lose their device or handler (R116). -/
inductive LossScope where
  | dport (p : Nat)
  | pack (h : Nat)
  | sub (s : Nat)
  deriving DecidableEq, Repr

/-- The outside answers a mover instruction needs: the program header where the channel has just been started (R181),
the 64-byte line of instructions where it has to be fetched from host memory (R182), and what its reads outside Plaza return, in
order: the beats from the one that holds the first byte on (R204). -/
structure MovIo where
  hdr : HostRead
  line : HostRead
  reads : List HostRead
  deriving DecidableEq, Repr

/-- How a burst's write ended (R213): visible; failed with none of its TLPs transmitted; failed after some were, with
any subset of its bytes written. -/
inductive BurstRes where
  | ok
  | notSent
  | partly (written : List Nat)
  deriving DecidableEq, Repr

/-- How a burst between Plaza addresses computed a check block (R228), from bytes at offsets of a scratch area, or of all Plaza for
a firmware channel: a copy; bytes `off` to `off` + 255 of the transform `ctl` of a range; P or Q of sources (R196, R198). -/
inductive PlazaProd where
  | move (area : Option Nat) (off : Nat)
  | xform (ctl : QWord) (area : Option Nat) (src len off : Nat)
  | parityP (area : Option Nat) (srcs : List Nat)
  | parityQ (area : Option Nat) (srcs : List Nat)
  deriving DecidableEq, Repr

/-- Where the data of a failing check block came from (R228), with what its refill reads: host memory of a function; the logical blocks
of an NVMe read that cover it, with its place in their bytes; a memory window; a window read with WIDTH ≠ 0; a burst within Plaza; a scratch area written by host, CP
or mover. -/
inductive BlockSrc where
  | host (fn : FnId) (addr : DWord)
  | nvme (sub nsid lba blocks off : Nat)
  | window (sub off : Nat)
  | windowFixed
  | plaza (by_ : PlazaProd)
  | scratch
  deriving DecidableEq, Repr

/-- Who reads a failing check block (R20, R230): a mover channel, with the lowest address of its access, the handler command of an
operation, a CP's load from a data address, an upstream port for the transfer of a token, a downstream device at a root port on behalf
of an operation, with the offset in Plaza and the length it asks for, the engine's own read of a scratch area for the command in hand of
a subchannel, or the copy of a scratch slice (R233). -/
inductive BlockUser where
  | chan (c : Nat) (faddr : DWord)
  | cmd (op : Nat)
  | cpLoad (i : Nat) (addr : Word)
  | xfer (t : Nat)
  | device (p op off len : Nat)
  | engine (sub : Nat)
  | copy (slice : Nat)
  deriving DecidableEq, Repr

/-- A Boulevard flit (R236): the 64-bit header of route, class and sequence number, the payload of 128 bytes, and the CRC-16 it carries.
Where the three fields stand in the header is not given. -/
structure Flit where
  header : DWord
  payload : List Byte
  crc : Half
  deriving DecidableEq, Repr

/-- A hop of the Boulevard (R237): from the input port `port` to the switch, or from the switch to the output port `port`. -/
structure FlitHop where
  port : Nat
  out : Bool
  deriving DecidableEq, Repr

/-- A run of flits on a hop (R237, R238): what the sender put on it behind the flits its buffer holds, the failing flit first, and what
the receiver got of the failing flit at the first sending and at each replay. -/
structure FlitRun where
  sent : List Flit
  tries : List Flit
  deriving DecidableEq, Repr

/-- The traffic of a Roundabout request other than a mover channel's burst (R240). -/
inductive Traffic where
  | cp
  | checkpoint
  | mirror
  | fifoMiddle
  | journal
  | device
  | refill
  | ringLogic
  | scrub
  | bist
  | traceExport
  deriving DecidableEq, Repr

/-- What fails in a Plaza bank (R234, R431): a row of a slice, a column of a sub-array of 16 slices, or the bank. -/
inductive BankFault where
  | row (slice : Nat)
  | column (sub : Nat)
  | bank
  deriving DecidableEq, Repr

/-- An uncorrectable error the scrubber of bulk memory met (R249, R466), with its address: in a journal, audit, trace
or placement-log record, in one copy of a deep-FIFO middle, in the mirror copy of a record of district `dist` (8: of the home table), or
in both copies of a middle. -/
inductive HbmLoss where
  | journal (addr : DWord) (seq : Nat)
  | audit (addr : DWord) (seq : Nat)
  | trace (addr : DWord) (seq : Nat)
  | placement (addr : DWord) (seq : Nat)
  | oneCopy (addr : DWord)
  | mirror (addr : DWord) (dist : Nat)
  | bothCopies (addr : DWord)
  deriving DecidableEq, Repr

/-- What SIGNPOST_POLICY loads (R262, R260): SG_W_k, SG_H_k, SG_MOV_RANGE, SG_BSET, SG_REBAL, and the DIST table as
(16 × port group + attachment, cycles) with attachments 0 and 1 for U0 and U1 and 2 + a for avenue a. -/
structure Policy where
  w : List Nat
  h : List Nat
  movRange : Nat
  bset : Nat
  rebal : Nat
  dist : List (Nat × Nat)
  deriving DecidableEq, Repr

/-- What waits or is outstanding at a candidate (R259): a sum over `n` observations. -/
structure SampleSum where
  sum : Nat
  n : Nat
  deriving DecidableEq, Repr

/-- The TLP bytes of a link's busier direction in a sample, and the link's capacity in it (R259). -/
structure SampleLoad where
  bytes : Nat
  cap : Nat
  deriving DecidableEq, Repr

/-- A handler pack's payload (R328), which opens with its descriptor, and where CP_BASE_FW puts its text and data in IRAM and DRAM, as far
as the addresses are free and aligned (R331). -/
structure PackImg where
  payload : List Byte
  textAt : Nat
  dataAt : Nat
  deriving DecidableEq, Repr

/-- An image as the Elfort core reads it (R467 to R470, R476): its 512-byte header (R468); the hash of PUBKEY; whether the signature and
the payload hash verify; whether a pack's SOURCES fit in the free source budget of the CPs (R330), for which the manual gives no number;
its measurement (R469); and its payload: a policy, a pack, CP_BASE_FW's IRAM and DRAM bytes, or SDS_FW's option word (R511) as (VALID, CXL of U0 and U1,
SPLIT of U0 and U1). -/
structure Img where
  head : List Byte
  keyHash : Nat
  sigOk : Bool
  hashOk : Bool
  packOk : Bool
  digest : Nat
  policy : Option Policy
  pack : Option PackImg
  iram : List Byte
  dram : List Byte
  option_ : Option (Bool × Bool × Bool × Bool)
  deriving DecidableEq, Repr

/-- What boot finds in the flash (R471, R540, R541): the 64 bytes of both directory copies, and the images by (index, copy), 0 for copy
A and 1 for B. -/
structure BootIn where
  dir0 : List Byte
  dir1 : List Byte
  imgs : List (Nat × Nat × Img)
  deriving DecidableEq, Repr

/-- A link's state (R519): LTSSM, SPEED, WIDTH, FLIT, CXL, L1SS. -/
structure LinkState where
  ltssm : Nat
  speed : Nat
  width : Nat
  flit : Bool
  cxl : Bool
  l1ss : Nat
  deriving DecidableEq, Repr

/-- An AER error message from below a root port (R527). -/
inductive ErrMsg where
  | cor | nonfatal | fatal
  deriving DecidableEq, Repr

/-- Why a root port enters containment (R527): a message, or an uncorrectable error the port detects itself. -/
inductive ContainBy where
  | fatalMsg | nonfatalMsg | own
  deriving DecidableEq, Repr

/-- What a host's write changes in a function's configuration space or MSI-X table (R513 to R515, R168, R170). -/
inductive CfgWrite where
  | vfEnable (numVfs : Nat)
  | ats (on : Bool)
  | pasid (on : Bool)
  | ptm (on : Bool)
  | busMaster (on : Bool)
  | pmeEn (on : Bool)
  | pmeClear
  | msixMask (on : Bool)
  | vecMask (vec : Nat)
  deriving DecidableEq, Repr

/-- What a PLDM type 0 command asks (R536). -/
inductive Pldm0 where
  | getTid | getVersion | getTypes | getCommands
  deriving DecidableEq, Repr

/-- An access to an upstream or downstream reset input (R130, R550): PERST_Uu_N, hot reset or DL_Down. -/
inductive PortResetBy where
  | perst | hotReset | dlDown
  deriving DecidableEq, Repr

/-- One command for each row of spec/opcode_table.json, in the order of the table. -/
inductive Instr where
  /-- START_RING_POLL (R145). -/
  | startRingPoll (ring : Nat)
  /-- CXL_LINE_INVALIDATE (R143). -/
  | cxlLineInvalidate (ring : Nat)
  /-- DIRECT_START_WRITE (R159). -/
  | directStartWrite (fn : FnId) (off : Nat) (oneTlp : Bool) (bytes : List Byte)
  /-- TAKE_IN_RESUME (R148). -/
  | takeInResume
  /-- START (R102). -/
  | start (jseq : Nat)
  /-- RESUME (R83). -/
  | resume (jseq : Nat)
  /-- HALT (R103). -/
  | halt (jseq : Nat)
  /-- CLEAR (R104). -/
  | clear (jseq : Nat) (accepts : Bool)
  /-- MODIFY (R110). -/
  | modify (jseq : Nat) (blk : HostRead)
  /-- STORE (R112). -/
  | store (jseq : Nat) (res : WriteRes)
  /-- TEST (R113). -/
  | test (jseq : Nat)
  /-- BIND (R109). -/
  | bind (jseq : Nat) (blk : HostRead) (env : BindEnv)
  /-- WORK_CLAIM (R384). -/
  | workClaim (cp : Nat)
  /-- CCW_FETCH_COMPLETE (R38). -/
  | ccwFetchComplete (sub : Nat) (res : HostRead)
  /-- WRITE (R48). -/
  | write (sub : Nat) (io : CmdIo)
  /-- READ (R48). -/
  | read (sub : Nat) (io : CmdIo)
  /-- NOP (R61). -/
  | nop (sub : Nat)
  /-- SENSE (R62). -/
  | sense (sub : Nat) (io : CmdIo) (wr : WriteRes)
  /-- CONTROL (R53). -/
  | control (sub : Nat) (blk : HostRead) (ns : NsInfo)
  /-- TIC (R71). -/
  | tic (sub : Nat)
  /-- COPY (R63). -/
  | copy (sub : Nat) (desc data : HostRead) (wr : WriteRes)
  /-- PEER (R67). -/
  | peer (sub : Nat)
  /-- WAIT_EVENT (R65). -/
  | waitEvent (sub : Nat)
  /-- WAIT_EVENT_TIMEOUT (R65). -/
  | waitEventTimeout (sub : Nat)
  /-- SIGNAL_EVENT (R64). -/
  | signalEvent (sub : Nat)
  /-- MOVER (R66). -/
  | mover (sub : Nat) (hdr : HostRead)
  /-- STRIPE (R57). -/
  | stripe (sub : Nat) (io : CmdIo)
  /-- FLUSH (R48). -/
  | flush (sub : Nat)
  /-- DEALLOCATE (R48). -/
  | deallocate (sub : Nat)
  /-- WRITE_ZEROES (R48). -/
  | writeZeroes (sub : Nat)
  /-- IDENTIFY (R50). -/
  | identify (sub : Nat)
  /-- COMPARE (R51). -/
  | compare (sub : Nat) (io : CmdIo)
  /-- FENCE (R54). -/
  | fence (sub : Nat)
  /-- WRITE_IMM (R54). -/
  | writeImm (sub : Nat)
  /-- DOWNSTREAM_OP_COMPLETE (R124). -/
  | downstreamOpComplete (op : Nat) (res : DevRes) (wr : WriteRes)
  /-- HANDLER_TIMEOUT (R126). -/
  | handlerTimeout (op : Nat) (cond : OpCond)
  /-- DOWNSTREAM_LINK_ERROR (R127). -/
  | downstreamLinkError (op : Nat) (cond : OpCond) (aer : Word)
  /-- DEVICE_OR_HANDLER_LOST (R585). -/
  | deviceOrHandlerLost (scope : LossScope) (qual : Nat) (begun : List Nat)
  /-- ATTENTION (R115). -/
  | attention (sub : Nat)
  /-- LEASE_EXPIRY (R111). -/
  | leaseExpiry (sub : Nat)
  /-- CR_DOORBELL (R153). -/
  | crDoorbell (fn : FnId) (ring : Nat) (size : Nat) (val : Word)
  /-- MSIX_HOLDOFF_EXPIRY (R167). -/
  | msixHoldoffExpiry (ring : Nat)
  /-- MSIX_UNMASK (R168). -/
  | msixUnmask (fn : FnId) (vec : Nat)
  /-- D3HOT_ENTRY (R170). -/
  | d3hotEntry (fn : FnId)
  /-- D0_RETURN (R170). -/
  | d0Return (fn : FnId)
  /-- SR_CTL_EN_SET (R172). -/
  | srCtlEnSet (o : Origin) (ring : Nat) (val : Word)
  /-- CR_CTL_EN_WRITE (R158). -/
  | crCtlEnWrite (o : Origin) (ring : Nat) (val : Word)
  /-- CR_OWN_WRITE (R174). -/
  | crOwnWrite (o : Origin) (ring : Nat) (val : Word)
  /-- SHADOW_WRITE (R147). -/
  | shadowWrite (ring : Nat)
  /-- MOVER_GO (R181). -/
  | moverGo (o : Origin) (chan : Nat) (val : Word) (hdr : HostRead)
  /-- MOVER_DISABLE (R215). -/
  | moverDisable (o : Origin) (chan : Nat) (val : Word)
  /-- MOVER_CLR_ERR (R211). -/
  | moverClrErr (o : Origin) (chan : Nat) (val : Word)
  /-- CH_PROG_WRITE (R217). -/
  | chProgWrite (o : Origin) (chan : Nat) (val : DWord)
  /-- MOVE (R186). -/
  | move (chan : Nat) (w : QWord) (io : MovIo)
  /-- MOVEX (R191). -/
  | movex (chan : Nat) (w : QWord) (io : MovIo)
  /-- LOOP (R193). -/
  | loop (chan : Nat) (w : QWord) (io : MovIo)
  /-- MOVER_WAIT (R194). -/
  | moverWait (chan : Nat) (w : QWord) (io : MovIo)
  /-- MOVER_WAIT_DELAY_EXPIRY (R194). -/
  | moverWaitDelayExpiry (chan : Nat)
  /-- SIGNAL (R195). -/
  | signal (chan : Nat) (w : QWord) (io : MovIo)
  /-- XFORM (R196). -/
  | xform (chan : Nat) (w : QWord) (io : MovIo)
  /-- PARITY (R199). -/
  | parity (chan : Nat) (w : QWord) (io : MovIo)
  /-- MOVER_NOP (R200). -/
  | moverNop (chan : Nat) (w : QWord) (io : MovIo)
  /-- END (R200). -/
  | progEnd (chan : Nat) (w : QWord) (io : MovIo)
  /-- MOVER_BURST_COMPLETE (R207). -/
  | moverBurstComplete (chan : Nat) (res : BurstRes)
  /-- MOVER_BURST_RETRY (R213). -/
  | moverBurstRetry (chan : Nat) (io : MovIo)
  /-- PZ_RESERVATION_GRANT (R225). -/
  | pzReservationGrant (cls : Nat)
  /-- PLAZA_CRC_MISMATCH (R228). -/
  | plazaCrcMismatch (blk : Nat) (origin : BlockSrc) (reader : BlockUser)
  /-- PLAZA_REFILL_COMPLETE (R230). -/
  | plazaRefillComplete (blk : Nat) (res : HostRead) (passes : Bool)
  /-- PLAZA_HOLD_EXPIRY (R231). -/
  | plazaHoldExpiry (blk : Nat)
  /-- PLAZA_BANK_FAULT (R234). -/
  | plazaBankFault (bank : Nat) (kind : BankFault)
  /-- BANK_RETIRED (R233). -/
  | bankRetired (bank : Nat)
  /-- SCRATCH_SLICE_COPY (R233). -/
  | scratchSliceCopy (slice : Nat) (target : Nat)
  /-- BOULEVARD_FLIT_ERROR (R237). -/
  | boulevardFlitError (hop : FlitHop) (flits : FlitRun)
  /-- BOULEVARD_PORT_FAULT (R16). -/
  | boulevardPortFault (port : Nat)
  /-- MOVER_LANE_GROUP_FAULT (R17). -/
  | moverLaneGroupFault (group : Nat)
  /-- ROUNDABOUT_DECISION (R242). -/
  | roundaboutDecision (isOutput : Bool) (index : Nat) (raise : List (Nat × Traffic × Nat)) (bursts : List (Nat × Nat × Nat))
  /-- WATCH_THRESHOLD (R247). -/
  | watchThreshold (isOutput : Bool) (index : Nat) (cls : Nat) (src : Nat)
  /-- DEEP_FIFO_MIDDLE_MOVE (R248). -/
  | deepFifoMiddleMove (fifo : Nat) (altCopy : Bool)
  /-- FF_CFG_WRITE (R250). -/
  | ffCfgWrite (o : Origin) (val : Word)
  /-- FF_HWM_WRITE (R255). -/
  | ffHwmWrite (o : Origin) (val : Word)
  /-- SIGNPOST_SAMPLE (R258). -/
  | signpostSample (kind index : Nat) (lat : Option Nat) (q : SampleSum) (load : SampleLoad)
  /-- REBALANCE_PERIOD (R266). -/
  | rebalancePeriod
  /-- PIN_MOVE (R276). -/
  | pinMove (sub : Nat)
  /-- MOVER_CHANNEL_ASSIGN (R274). -/
  | moverChannelAssign (sub : Nat)
  /-- SG_PIN_APPLY (R276). -/
  | sgPinApply (o : Origin) (val : Word)
  /-- SG_EXCL_WRITE (R277). -/
  | sgExclWrite (o : Origin) (all : Bool) (val : DWord)
  /-- SG_REC_SEL_WRITE (R280). -/
  | sgRecSelWrite (o : Origin) (val : Word)
  /-- SG_LOG_RD_WRITE (R282). -/
  | sgLogRdWrite (o : Origin) (val : DWord)
  /-- JUNCTION_SOURCE_FIRE (R369). -/
  | junctionSourceFire (src : Nat)
  /-- LEVEL_SOURCE_CHANGE (R369). -/
  | levelSourceChange (src : Nat) (level : Bool)
  /-- PRIV_LATCH_SET (R387). -/
  | privLatchSet (src : Nat)
  /-- DOWNSTREAM_MSI (R367). -/
  | downstreamMsi (port : Nat) (data : Word)
  /-- JUNCTION_PRESENTATION (R374). -/
  | junctionPresentation
  /-- CLAIM_N (R381). -/
  | claimN (cp : Nat)
  /-- CLAIM_F (R381). -/
  | claimF (cp : Nat)
  /-- EOI (R382). -/
  | eoi (cp : Nat) (val : Word)
  /-- SET (R383). -/
  | setSrc (cp : Nat) (val : Word)
  /-- SET_PEND (R370). -/
  | setPend (o : Origin) (val : Word)
  /-- CLR_PEND (R370). -/
  | clrPend (o : Origin) (val : Word)
  /-- SET_EN (R370). -/
  | setEn (o : Origin) (val : Word)
  /-- CLR_EN (R370). -/
  | clrEn (o : Origin) (val : Word)
  /-- SRC_TGT_WRITE (R377). -/
  | srcTgtWrite (o : Origin) (val : DWord)
  /-- SRC_CTL_WRITE (R377). -/
  | srcCtlWrite (o : Origin) (val : Word)
  /-- HOLDOFF_EXPIRY (R388). -/
  | holdoffExpiry (grp : Nat)
  /-- EVT_PENDING_WRITE (R389). -/
  | evtPendingWrite (o : Origin) (page : Nat) (val : Word)
  /-- SPARE_ROTATION (R460). -/
  | spareRotation (d : Nat)
  /-- DS_ROT_NOW (R465). -/
  | dsRotNow (o : Origin) (d : Nat) (val : Word)
  /-- ADD (R343). -/
  | add (cp : Nat) (f : RR)
  /-- ADDC (R343). -/
  | addc (cp : Nat) (f : RR)
  /-- SUB (R343). -/
  | sub (cp : Nat) (f : RR)
  /-- SUBC (R343). -/
  | subc (cp : Nat) (f : RR)
  /-- AND (R343). -/
  | andR (cp : Nat) (f : RR)
  /-- OR (R343). -/
  | orR (cp : Nat) (f : RR)
  /-- XOR (R343). -/
  | xorR (cp : Nat) (f : RR)
  /-- ANDN (R343). -/
  | andn (cp : Nat) (f : RR)
  /-- SHL (R344). -/
  | shl (cp : Nat) (f : RR)
  /-- SHR (R344). -/
  | shr (cp : Nat) (f : RR)
  /-- SAR (R344). -/
  | sar (cp : Nat) (f : RR)
  /-- CMP (R343). -/
  | cmp (cp : Nat) (f : RR)
  /-- TST (R343). -/
  | tst (cp : Nat) (f : RR)
  /-- NEG (R345). -/
  | neg (cp : Nat) (f : RR)
  /-- NEGS (R345). -/
  | negs (cp : Nat) (f : RR)
  /-- CLZ (R345). -/
  | clz (cp : Nat) (f : RR)
  /-- MOV (R299). -/
  | movR (cp : Nat) (f : RR)
  /-- MFLK (R299). -/
  | mflk (cp : Nat) (f : RR)
  /-- MTLK (R299). -/
  | mtlk (cp : Nat) (f : RR)
  /-- ADDI (R343). -/
  | addi (cp : Nat) (f : RI)
  /-- ANDI (R343). -/
  | andi (cp : Nat) (f : RI)
  /-- ORI (R343). -/
  | ori (cp : Nat) (f : RI)
  /-- XORI (R343). -/
  | xori (cp : Nat) (f : RI)
  /-- CMPI (R343). -/
  | cmpi (cp : Nat) (f : RI)
  /-- TSTI (R343). -/
  | tsti (cp : Nat) (f : RI)
  /-- SHI (R300). -/
  | shi (cp : Nat) (f : RI)
  /-- MOVI (R298). -/
  | movi (cp : Nat) (f : RI)
  /-- LUI (R298). -/
  | lui (cp : Nat) (f : RI)
  /-- MOVL (R298). -/
  | movl (cp : Nat) (f : RI)
  /-- MUL (R346). -/
  | mul (cp : Nat) (f : RR)
  /-- MULW (R346). -/
  | mulw (cp : Nat) (f : RR)
  /-- MULWU (R346). -/
  | mulwu (cp : Nat) (f : RR)
  /-- DIV (R347). -/
  | divS (cp : Nat) (f : RR)
  /-- DIVU (R347). -/
  | divu (cp : Nat) (f : RR)
  /-- REM (R347). -/
  | remS (cp : Nat) (f : RR)
  /-- REMU (R347). -/
  | remu (cp : Nat) (f : RR)
  /-- DIVS (R347). -/
  | divs (cp : Nat) (f : RR)
  /-- QADD (R350). -/
  | qadd (cp : Nat) (f : RR)
  /-- QSUB (R350). -/
  | qsub (cp : Nat) (f : RR)
  /-- QMUL (R350). -/
  | qmul (cp : Nat) (f : RR)
  /-- MAC (R352). -/
  | mac (cp : Nat) (f : RR)
  /-- MSU (R352). -/
  | msu (cp : Nat) (f : RR)
  /-- MULA (R352). -/
  | mula (cp : Nat) (f : RR)
  /-- ACLR (R353). -/
  | aclr (cp : Nat) (f : RR)
  /-- EXT (R353). -/
  | extA (cp : Nat) (f : RR)
  /-- FADD (R354). -/
  | fadd (cp : Nat) (f : RR)
  /-- FSUB (R354). -/
  | fsub (cp : Nat) (f : RR)
  /-- FMUL (R354). -/
  | fmul (cp : Nat) (f : RR)
  /-- FDIV (R354). -/
  | fdiv (cp : Nat) (f : RR)
  /-- FSQRT (R354). -/
  | fsqrt (cp : Nat) (f : RR)
  /-- FMIN (R359). -/
  | fmin (cp : Nat) (f : RR)
  /-- FMAX (R359). -/
  | fmax (cp : Nat) (f : RR)
  /-- FCMP (R360). -/
  | fcmp (cp : Nat) (f : RR)
  /-- FMADD (R354). -/
  | fmadd (cp : Nat) (f : RR)
  /-- FCVTSW (R361). -/
  | fcvtsw (cp : Nat) (f : RR)
  /-- FCVTSWU (R361). -/
  | fcvtswu (cp : Nat) (f : RR)
  /-- FCVTWS (R361). -/
  | fcvtws (cp : Nat) (f : RR)
  /-- FCVTWUS (R361). -/
  | fcvtwus (cp : Nat) (f : RR)
  /-- FABS (R355). -/
  | fabs (cp : Nat) (f : RR)
  /-- FNEG (R355). -/
  | fneg (cp : Nat) (f : RR)
  /-- FCLASS (R362). -/
  | fclass (cp : Nat) (f : RR)
  /-- MFS (R288). -/
  | mfs (cp : Nat) (f : RI)
  /-- MTS (R287). -/
  | mts (cp : Nat) (f : RI)
  /-- LDW (R304). -/
  | ldw (cp : Nat) (f : RI)
  /-- LDH (R304). -/
  | ldh (cp : Nat) (f : RI)
  /-- LDHU (R304). -/
  | ldhu (cp : Nat) (f : RI)
  /-- LDB (R304). -/
  | ldb (cp : Nat) (f : RI)
  /-- LDBU (R304). -/
  | ldbu (cp : Nat) (f : RI)
  /-- LDD (R304). -/
  | ldd (cp : Nat) (f : RI)
  /-- LDQ (R304). -/
  | ldq (cp : Nat) (f : RI)
  /-- STW (R304). -/
  | stw (cp : Nat) (f : RI)
  /-- STH (R304). -/
  | sth (cp : Nat) (f : RI)
  /-- STB (R304). -/
  | stb (cp : Nat) (f : RI)
  /-- STD (R304). -/
  | std (cp : Nat) (f : RI)
  /-- STQ (R304). -/
  | stq (cp : Nat) (f : RI)
  /-- LONG_LOAD_COMPLETE (R309). -/
  | longLoadComplete (cp : Nat) (res : HostRead)
  /-- POSTED_STORE_FAIL (R296). -/
  | postedStoreFail (cp : Nat) (addr : Word)
  /-- B_COND (R305). -/
  | bCond (cp : Nat) (cond : BitVec 4) (off : BitVec 22)
  /-- BL (R298). -/
  | bl (cp : Nat) (off : BitVec 26)
  /-- JR (R306). -/
  | jr (cp : Nat) (f : RR)
  /-- BLR (R306). -/
  | blr (cp : Nat) (f : RR)
  /-- RET (R306). -/
  | ret (cp : Nat) (f : RR)
  /-- CP_NOP (R306). -/
  | cpNop (cp : Nat) (f : RR)
  /-- CP_WAIT (R319). -/
  | cpWait (cp : Nat) (f : RR)
  /-- ERET (R316). -/
  | eret (cp : Nat) (f : RR)
  /-- CP_FENCE (R310). -/
  | cpFence (cp : Nat) (f : RR)
  /-- ISYNC (R311). -/
  | isync (cp : Nat) (f : RR)
  /-- BRK (R508). -/
  | brk (cp : Nat) (f : RR)
  /-- CKPT (R312). -/
  | ckpt (cp : Nat) (f : RR)
  /-- CKPT_MIRROR_ACK (R19). -/
  | ckptMirrorAck (d : Nat) (slot : Nat)
  /-- SVC (R314). -/
  | svc (cp : Nat) (f : RI)
  /-- NORMAL_INTERRUPT_ENTRY (R315). -/
  | normalInterruptEntry (cp : Nat)
  /-- FAST_INTERRUPT_ENTRY (R315). -/
  | fastInterruptEntry (cp : Nat)
  /-- BUDGET_EXPIRY (R320). -/
  | budgetExpiry (cp : Nat)
  /-- PZ_RESERVE (R336). -/
  | pzReserve (cp : Nat) (sub : Nat)
  /-- PZ_RELEASE (R336). -/
  | pzRelease (cp : Nat) (sub : Nat)
  /-- XFER_HOST (R336). -/
  | xferHost (cp : Nat) (sub : Nat) (io : CmdIo)
  /-- XFER_HOST_COMPLETE (R333). -/
  | xferHostComplete (token : Nat) (res : WriteRes)
  /-- OP_ISSUE (R337). -/
  | opIssue (cp : Nat) (sub : Nat)
  /-- OP_STATE (R337). -/
  | opState (cp : Nat)
  /-- SRC_ARM (R336). -/
  | srcArm (cp : Nat) (sub : Nat)
  /-- TMR_ARM (R336). -/
  | tmrArm (cp : Nat) (sub : Nat)
  /-- PACK_TIMER_EXPIRY (R333). -/
  | packTimerExpiry (token : Nat)
  /-- SENSE_SET (R336). -/
  | senseSet (cp : Nat) (sub : Nat)
  /-- AP_OPEN (R336). -/
  | apOpen (cp : Nat)
  /-- ALERT_POST (R336). -/
  | alertPost (cp : Nat)
  /-- SEM_ACQ (R322). -/
  | semAcq (cp : Nat) (sem : Nat)
  /-- SEM_REL (R323). -/
  | semRel (cp : Nat) (sem : Nat) (val : Word)
  /-- APERTURE_DESCRIPTOR_WRITE (R295). -/
  | apertureDescriptorWrite (cp : Nat) (off : Nat) (val : Word)
  /-- HEARTBEAT_TIMEOUT (R441). -/
  | heartbeatTimeout (cp : Nat)
  /-- CP_ECC_ERROR (R441). -/
  | cpEccError (cp : Nat)
  /-- CONTEXT_BANK_FAULT (R431). -/
  | contextBankFault (d : Nat) (logic : Bool)
  /-- DISTRICT_CLOCK_FAULT (R431). -/
  | districtClockFault (d : Nat)
  /-- BULK_MEMORY_FAILURE (R432). -/
  | bulkMemoryFailure
  /-- SPARE_BIST_COMPLETE (R588). -/
  | spareBistComplete (cp : Nat) (pass : Bool)
  /-- FAULT_INJECT (R464). -/
  | faultInject (o : Origin) (val : Word)
  /-- HBM_SCRUB_PASS (R466). -/
  | hbmScrubPass (corrected : Nat) (recurring : Nat) (lost : List HbmLoss)
  /-- PG_XKEY_READ (R402). -/
  | pgXkeyRead (o : Origin) (page : Nat)
  /-- XKEY_OPEN (R412). -/
  | xkeyOpen (o : Origin) (page : Nat) (val : Word)
  /-- XKEY_CLOSE (R413). -/
  | xkeyClose (o : Origin) (page : Nat) (val : Word)
  /-- XCLOSE (R413). -/
  | xclose (o : Origin) (page : Nat) (val : Word)
  /-- EXPERT_IDLE_CLOSE (R413). -/
  | expertIdleClose (o : Origin) (page : Nat)
  /-- READ_CLEAR_STATUS (R12). -/
  | readClearStatus (o : Origin) (off : Nat) (size : Nat)
  /-- DEVTIME_LOW_READ (R27). -/
  | devtimeLowRead (o : Origin)
  /-- REGISTER_WRITE (R405). -/
  | registerWrite (o : Origin) (off : Nat) (size : Nat) (val : DWord)
  /-- AUDIT_WRITE_RESUME (R424). -/
  | auditWriteResume
  /-- GL_XPOL_WRITE (R413). -/
  | glXpolWrite (o : Origin) (val : Word)
  /-- GL_PLOCK_WRITE (R415). -/
  | glPlockWrite (o : Origin) (val : Word)
  /-- GL_DBGPOL_WRITE (R415). -/
  | glDbgpolWrite (o : Origin) (val : Word)
  /-- GL_FN_PERM_WRITE (R417). -/
  | glFnPermWrite (o : Origin) (val : Word)
  /-- COMMIT (R419). -/
  | commit (o : Origin) (val : DWord)
  /-- RELEASE (R419). -/
  | release (o : Origin) (val : DWord)
  /-- QUERY (R419). -/
  | query (o : Origin) (val : DWord)
  /-- AU_RD_WRITE (R427). -/
  | auRdWrite (o : Origin) (val : DWord)
  /-- AU_EXP_CTL_EN (R428). -/
  | auExpCtlEn (o : Origin) (val : Word)
  /-- AUDIT_EXPORT_WRITE (R428). -/
  | auditExportWrite
  /-- AU_EXP_CONS_WRITE (R428). -/
  | auExpConsWrite (o : Origin) (val : Word)
  /-- JN_RD_WRITE (R458). -/
  | jnRdWrite (o : Origin) (val : DWord)
  /-- JN_MARK (R458). -/
  | jnMark (o : Origin) (val : Word)
  /-- JOURNAL_FEED_RESUME (R453). -/
  | journalFeedResume
  /-- JCTL_WRITE (R455). -/
  | jctlWrite (fn : FnId) (off : Nat) (size : Nat) (val : DWord)
  /-- JX_CTL_EN (R456). -/
  | jxCtlEn (fn : FnId) (val : Word)
  /-- JOURNAL_EXPORT_WRITE (R456). -/
  | journalExportWrite (fn : FnId) (res : WriteRes)
  /-- COLD_RESET (R473). -/
  | coldReset
  /-- WARM_RESET (R549). -/
  | warmReset
  /-- BOOT_READY (R553). -/
  | bootReady (boot : BootIn)
  /-- OWN_XFER (R482). -/
  | ownXfer (curHash newHash : Nat) (sigOk : Bool)
  /-- RB_COMMIT (R479). -/
  | rbCommit
  /-- SE_NONCE_READ (R490). -/
  | seNonceRead (o : Origin)
  /-- GET_CHAIN (R485). -/
  | getChain (path port : Nat) (off len : Nat)
  /-- GET_REPORT (R486). -/
  | getReport (path port : Nat) (nonce : Nat)
  /-- REQUEST_UPDATE (R487). -/
  | requestUpdate (path port : Nat)
  /-- PLDM_TRANSFER (R487). -/
  | pldmTransfer (comp off : Nat) (bytes : List Byte)
  /-- VERIFY_COMPLETE (R487). -/
  | verifyComplete (comp : Nat) (img : Img)
  /-- APPLY_COMPLETE (R487). -/
  | applyComplete (ok : Bool)
  /-- ACTIVATE_FIRMWARE (R488). -/
  | activateFirmware
  /-- PACK_ACTIVATION_TIMEOUT (R489). -/
  | packActivationTimeout
  /-- PLDM_TYPE0_COMMAND (R536). -/
  | pldmType0Command (path : Nat) (q : Pldm0)
  /-- GET_SENSOR_READING (R536). -/
  | getSensorReading (path : Nat) (sensor : Nat)
  /-- SET_ENDPOINT_ID (R535). -/
  | setEndpointId (binding eid : Nat)
  /-- REG_READ (R537). -/
  | regRead (path port : Nat) (off size : Nat)
  /-- REG_WRITE (R537). -/
  | regWrite (path port : Nat) (off size : Nat) (val : DWord)
  /-- FREEZE_N_FALL (R491). -/
  | freezeNFall
  /-- FZ_CTL_GO (R491). -/
  | fzCtlGo (o : Origin) (val : Word)
  /-- JTAG_FREEZE (R499). -/
  | jtagFreeze
  /-- DUMP_SEL (R500). -/
  | dumpSel (v : DWord)
  /-- DUMP_DATA (R499). -/
  | dumpData (ue : Bool)
  /-- DUMP_CRC (R504). -/
  | dumpCrc
  /-- MAINT (R503). -/
  | maint (on : Bool)
  /-- REGACC (R502). -/
  | regacc (wr w64 : Bool) (off : Nat) (val : DWord)
  /-- IDCODE (R499). -/
  | idcode
  /-- EXTEST (R499). -/
  | extest (bits : List Bool)
  /-- SAMPLE_PRELOAD (R499). -/
  | samplePreload (pins bits : List Bool)
  /-- BYPASS (R499). -/
  | bypass (b : Bool)
  /-- TAP_RESET (R565). -/
  | tapReset
  /-- DB_CPCTL_RESUME (R508). -/
  | dbCpctlResume (o : Origin) (val : Word)
  /-- DB_CPREG_WRITE (R508). -/
  | dbCpregWrite (o : Origin) (n : Nat) (val : Word)
  /-- DB_SNAP_GO (R507). -/
  | dbSnapGo (o : Origin) (val : Word)
  /-- DB_SWTRACE (R506). -/
  | dbSwtrace (o : Origin) (val : DWord)
  /-- TR_RD_WRITE (R506). -/
  | trRdWrite (o : Origin) (val : DWord)
  /-- PERST_ASSERT (R130). -/
  | perstAssert (port : Nat) (by_ : PortResetBy) (begun : List Nat)
  /-- PERST_RELEASE (R552). -/
  | perstRelease (port : Nat)
  /-- FUNCTION_LEVEL_RESET (R130). -/
  | functionLevelReset (fn : FnId) (begun : List Nat)
  /-- VF_ENABLE_CLEAR (R130). -/
  | vfEnableClear (port : Nat) (begun : List Nat)
  /-- LINK_UP (R524). -/
  | linkUp (port : Nat) (st : LinkState)
  /-- PRESENCE_CHANGE (R525). -/
  | presenceChange (port : Nat) (present : Bool) (begun : List Nat)
  /-- LINK_DOWN_WAIT_EXPIRY (R525). -/
  | linkDownWaitExpiry (port : Nat) (begun : List Nat)
  /-- CONTAINMENT_ENTRY (R527). -/
  | containmentEntry (port : Nat) (by_ : ContainBy) (status : Word) (begun : List Nat)
  /-- DP_RELEASE (R527). -/
  | dpRelease (o : Origin) (port : Nat) (val : Word)
  /-- DP_RETRAIN (R530). -/
  | dpRetrain (o : Origin) (port : Nat) (val : Word)
  /-- DOWNSTREAM_LANE_FAULT (R528). -/
  | downstreamLaneFault (avenue lane : Nat)
  /-- DP_LRETRY_GO (R530). -/
  | dpLretryGo (o : Origin) (port : Nat) (val : Word)
  /-- AV_CFG_BIF_WRITE (R520). -/
  | avCfgBifWrite (o : Origin) (avenue : Nat) (val : Word)
  /-- DOWNSTREAM_REQUEST (R523). -/
  | downstreamRequest (port : Nat) (write : Bool) (addr : DWord) (len : Nat) (bytes : List Byte) (opened : Bool)
  /-- ATS_INVALIDATION (R515). -/
  | atsInvalidation (fn : FnId) (addr : DWord) (pages : Nat)
  /-- UP_ATC_FLUSH (R519). -/
  | upAtcFlush (o : Origin) (port : Nat) (val : Word)
  /-- PTM_DIALOG (R531). -/
  | ptmDialog (offset : DWord)
  /-- TIMER_FIRING (R532). -/
  | timerFiring (timer : Nat)
  /-- GPIO_INPUT_CHANGE (R566). -/
  | gpioInputChange (pin : Nat) (level : Bool)
  /-- PPS_IN_EDGE (R533). -/
  | ppsInEdge (pin : Nat)
  /-- TM_GPIO_SET (R534). -/
  | tmGpioSet (o : Origin) (val : Word)
  /-- TM_GPIO_CLR (R534). -/
  | tmGpioClr (o : Origin) (val : Word)
  /-- THERMAL_SAMPLE (R555). -/
  | thermalSample (tj : List (BitVec 16))
  /-- THROTTLE_STEP (R555). -/
  | throttleStep
  /-- POWER_LIMIT_SAMPLE (R556). -/
  | powerLimitSample (w8 : BitVec 16)
  /-- AVSBUS_COMMAND (R543). -/
  | avsbusCommand
  /-- AVSBUS_TIMEOUT (R543). -/
  | avsbusTimeout
  /-- RAIL_FAILURE (R545). -/
  | railFailure (rail : Nat)
  /-- REFCLK_LOSS (R547). -/
  | refclkLoss (clk : Nat)
  /-- DISTRICT_GATE (R554). -/
  | districtGate (d : Nat)
  /-- START_RING_READ_COMPLETE (R142). -/
  | startRingReadComplete (ring : Nat) (res : HostRead)
  /-- ZERO_LENGTH_READ_COMPLETE (R21). -/
  | zeroLengthReadComplete (port : Nat)
  /-- ATS_TRANSLATION_COMPLETE (R515). -/
  | atsTranslationComplete (fn : FnId) (addr : DWord) (answer : Option DWord)
  /-- UPSTREAM_LINK_STATE_CHANGE (R519). -/
  | upstreamLinkStateChange (port : Nat) (st : LinkState)
  /-- DOWNSTREAM_LINK_DOWN (R525). -/
  | downstreamLinkDown (port : Nat)
  /-- REFCLK_VALID (R547). -/
  | refclkValid (clk : Nat)
  /-- PLL_FAILURE (R432). -/
  | pllFailure (which : Nat)
  /-- AVSBUS_REPORT (R543). -/
  | avsbusReport (faulty : Bool)
  /-- DISTRICT_CANARY_SAMPLE (R461). -/
  | districtCanarySample (d mhz need : Nat) (slack rosc : BitVec 16)
  /-- CONFIGURATION_WRITE (R513). -/
  | configurationWrite (fn : FnId) (w : CfgWrite)
  /-- STATUS_WINDOW_WRITE (R164). -/
  | statusWindowWrite (fn : FnId)
  /-- SMBUS_CLOCK_LOW_TIMEOUT (R567). -/
  | smbusClockLowTimeout
  /-- DOWNSTREAM_ERROR_MESSAGE (R527). -/
  | downstreamErrorMessage (port : Nat) (msg : ErrMsg) (status : Word)
  /-- POWERED_HOURS_TICK (R463). -/
  | poweredHoursTick (tj : BitVec 16)
  deriving DecidableEq, Repr

end Sys2Proof
end

