-- ==== Sys2Proof/Decode.lean ====
section
/-!
DEFINITION. Commands by the bits of spec/opcode_table.json. Its rows give no bits: a command of the TC9640 is an event or
an access, not a word.
-/
namespace Sys2Proof

/-- The command that a word spells: none, since no row of the table gives bits. -/
def decodeTableWord (_nbits _w : Nat) : Option Instr := none

end Sys2Proof
end

