-- ==== Sys2Proof/Config.lean ====
section
/-!
DEFINITION. What one part fixes, and the values the manual leaves open. A constant without a body is a FREE VALUE:
no proof can see what it is.
-/
namespace Sys2Proof.Config

/-- FREE VALUE. Where the manual leaves a value open (R8, R60, R80, R215, R285, R289, R402, R490), the model applies
this constant to the state's counter `freeCtr` and advances the counter (log entry 3). -/
opaque freeValue : Nat → BitVec 128

/-- The hash of the vendor root key in fuses (R470), which no rule states. -/
opaque rootKeyHash : Nat

/-- FREE VALUES. The secrets of one part (R483): the PUF-derived unique device secret, the DeviceID private and public key as the seal holds
them, and the DER certificates of the CA and of DeviceID in flash. -/
opaque uds : BitVec 384
opaque deviceIdPrivate : BitVec 384
opaque deviceIdPublic : BitVec 768
opaque deviceChain : List Byte

/-- FREE VALUES. The algorithms R483 and R486 name and do not define: HMAC-SHA-384 of a measurement under a key, SHA-384 of measurements
put together, the key pair derived from a CDI, the DER alias certificate that a key signs for a public key and the four measurements, and
a brainpoolP384r1 signature r then s over bytes, with the number drawn for it. -/
opaque hmac384 : BitVec 384 → BitVec 384 → BitVec 384
opaque sha384 : List (BitVec 384) → BitVec 384
opaque derivedPrivate : BitVec 384 → BitVec 384
opaque derivedPublic : BitVec 384 → BitVec 768
opaque certificate : BitVec 384 → BitVec 768 → List (BitVec 384) → List Byte
opaque signature : BitVec 384 → List Byte → BitVec 128 → List Byte

/-- FREE VALUE. Whether 8 bytes of a dump region at an offset would show key storage, the seal or a CDI (R484): the layouts of the Elfort
core's RAM and of the scan chains are not given. -/
opaque showsKeys : Nat → Nat → Bool

/-- FREE VALUE. IDCODE bits [11:1], which the BSDL file gives and the manual does not (R499). -/
opaque idManufacturer : BitVec 11

/-- DESIGN CHOICE (log entry 4). The modelled part is a -32 grade part: GL_ID.GRADE reads 0x20 (R3, R584). -/
def gradeCode : Nat := 0x20

/-- The CPK ceiling in MHz of the grade (R3). -/
def ceilingMHz : Nat := 3200

/-- DESIGN CHOICE (log entry 5). DS_VNEED.MFG and NOW of a new part, in mV, within 650 to 900 (R589). -/
def vneed : Nat := 800

/-- Sizes the manual states (R6). -/
def subchannels : Nat := 0x40000
def rings : Nat := 4096
def moverChannels : Nat := 4096
def plazaBytes : Nat := 64 * 1024 * 1024
def plazaSlices : Nat := 16384

end Sys2Proof.Config
end

