-- ==== Sys2Proof/Machine/State.lean ====
section
/-!
DEFINITION. The state of the TC9640 as plain data: everything the spec gives the machine, the outside's answers apart.
A field's rule stands in its structure's docstring; INVENTORY.md lists every field with its reset value.
-/
namespace Sys2Proof.Machine

/-- What a command can be unable to do. No meaning of this model answers with it: every event and access of the spec
has an effect or, where the spec says that it cannot occur, none (log entry 7). It stands for a command outside the
machine's bounds; a run that stopped so would be safe. -/
inductive Fault where
  | badCommand (why : String)
  deriving DecidableEq, Repr

/-- Why a command is not run. `notModelled` is raised by Dispatch for a command that has no meaning yet, and by
nothing else; safe. -/
inductive Refusal where
  | notModelled (mnemonic : String)
  deriving DecidableEq, Repr

/-- A sparse table by number: key and value pairs, the keys rising, no value equal to what an absent key reads as. -/
abbrev Tbl (α : Type) := List (Nat × α)

/-! ### Subchannels (chapter 03) -/

/-- The states of a subchannel (R92), in the order of their codes. -/
inductive SubState where
  | idle | startPending | active | suspended | haltPending | clearPending | statusPending | notOperational
  deriving DecidableEq, Repr

/-- Sense data (R121). -/
structure Sense where
  time : Word
  dev : BitVec 16
  dport : Byte
  members : DWord
  info : DWord
  qual : Word
  valid : Bool
  ou : Bool
  memb : Bool
  handler : Byte
  code : Byte
  deriving DecidableEq, Repr

/-- Handler-private state (R90 HPRIV): what the vendor handlers keep for a subchannel (R48, R52, R54, R55, R56, R108).
For NVMe: current namespace ID, its activity, log2 bs, its blocks, FUA. For the memory window: base, size, WIDTH, RLX.
For the peer handler: the members with their base positions, and log2 of the strip unit. For an owner pack: its 32
bytes as they are. -/
structure HPriv where
  nsid : Nat
  bsLog : Nat
  blocks : Nat
  fua : Bool
  base : Nat
  size : Nat
  width : Nat
  rlx : Bool
  members : List (Nat × Nat)
  uLog : Nat
  raw : BitVec 256
  deriving DecidableEq, Repr

/-- A subchannel (R90): the record's fields, the handler-private state that BIND set (R104), the lease's exact end,
held attention (R115), the hidden part of its status-window entry (R163), and its placement: port pin, context-bank
slot, broken pin, pin move that waits, migrations (R257, R276, R280), the other root port of a path pair (R273), and the upstream port
and the root port Signpost chose for it last by score (R261). STATE decides FC_HALT, FC_CLEAR and
AC_SUSP; the program decides AC_CCW, the operations decide AC_DEV. -/
structure Sub where
  st : SubState
  rp : Bool
  fcStart : Bool
  scPri : Bool
  scSec : Bool
  scAlert : Bool
  cstat : Byte
  dstat : Byte
  lastFn : Nat
  ccwAddr : DWord
  residual : Word
  tag : Word
  dport : Nat
  queue : Nat
  devId : BitVec 16
  bindArg : Word
  position : DWord
  idemDef : Bool
  unordDef : Bool
  isup : Bool
  imm : Bool
  ownPort : Nat
  ownFn : Nat
  cring : Nat
  key : Nat
  hpack : Nat
  ckptSeq : DWord
  home : Nat
  pinned : Bool
  lease : Option FnId
  leaseEnd : DWord
  hpriv : HPriv
  bindPriv : HPriv
  sense : Sense
  heldAttn : Bool
  swSeq : BitVec 24
  swLastFn : Nat
  swOu : Bool
  swHeld : Bool
  swStl : Bool
  swHold : Option (Nat × DWord)
  portPin : Option Nat
  slot : Nat
  pbrk : Bool
  mpend : Option Nat
  migCnt : Nat
  altPort : Option Nat
  sgUp : Option Nat
  sgDown : Option Nat
  deriving DecidableEq, Repr

/-! ### Channel programs (chapter 02) -/

/-- How a CCW was reached (R68, R71). -/
inductive Reach where
  | first | byCmd | byData
  deriving DecidableEq, Repr

/-- A part of a command's transfer: its space (0 host, 1 scratch, 2 skipped), its address and its bytes. -/
structure Seg where
  space : Nat
  addr : DWord
  len : Nat
  deriving DecidableEq, Repr

/-- What the sense data of a failure will hold (R121, R122): code, qualifier, position, members, and the root port of the
failing operation where it went by another than DPORT (R273). -/
structure SenseSet where
  code : Nat
  qual : Nat
  info : Nat
  members : Nat
  memb : Bool
  port : Option Nat
  deriving DecidableEq, Repr

/-- How a command ends (R69, R70): channel and device status, last CCW address, residual, OU, sense. -/
structure Ended where
  c : Byte
  dv : Byte
  last : DWord
  resid : Word
  ou : Bool
  sense : Option SenseSet
  deriving DecidableEq, Repr

/-- An operation of a command that failed (R122, R127): the member it served, 0 device error, 1 timeout, 2 link error or
3 check block, its value, whether it is non-idempotent, the command byte it starts at, its position (INFO), and its root
port. -/
structure OpFail where
  member : Nat
  kind : Nat
  value : Nat
  nonIdem : Bool
  from_ : Nat
  info : Nat
  port : Nat
  deriving DecidableEq, Repr

/-- A command that has been issued: its number, its code, whether it is a STRIPE or a set READ, its CCWs with their addresses, the segments of its transfer, its total
count and device length (R73), its operations in flight, the data its members returned, the position it started at and
the one it leaves when it ends without error (R586), the failure of a later CCW or IDA entry of its chain that is
reported when the rest has ended, its failed operations (R60, R127), SM, the residual it states itself (R67), how
it ended, the upstream port and the root port of each device that it keeps to its end, and the bank set of its stream (R256, R272,
R273). -/
structure Run where
  id : Nat
  code : Nat
  isSet : Bool
  ccws : List (DWord × QWord)
  segs : List Seg
  total : Nat
  devLen : Nat
  ops : List Nat
  got : List (Nat × List Byte)
  row : Nat
  todo : List (List (Nat × List Byte))
  startPos : DWord
  endPos : DWord
  stop : Option Ended
  fails : List OpFail
  sm : Bool
  ownResid : Option Nat
  ended : Option Ended
  port : Option Nat
  paths : List (Nat × Nat)
  banks : List Nat
  deriving DecidableEq, Repr

/-- What the engine does next in a program: wait for the fetch of a CCW (reached how, and through a TIC), for the
re-fetch of the suspending CCW, for an open unordered group to end before a fetched CCW becomes current (R77), for the row of the command in hand, for the operations of the command, for an event
counter until a time, for a mover channel, for a pack's entry to return, at a suspend decision, for its operations
to end, or for the next burst of a COPY: where it writes, its data, the bytes written, and its upstream port (R63, R103). -/
inductive Stage where
  | fetch (addr : DWord) (how : Reach) (tic : Bool)
  | refetch (addr : DWord)
  | waitGroup (addr : DWord) (how : Reach) (tic : Bool) (w : QWord)
  | ready
  | running
  | waitEvent (ctr : Nat) (due : Option DWord)
  | waitMover (ch : Nat)
  | inPack
  | atSuspend (addr : DWord)
  | stopped
  | copying (dst : Seg) (data : List Byte) (done port : Nat)
  deriving DecidableEq, Repr

/-- The command of an owner pack (R333 to R337): the CP that serves it, the address of its operation context; its host
transfers under way (token, to the host, offset in aperture 10), the segments of its
data, and the first byte a transfer failed at; its timers (token, operation, due) and armed sources (number, token);
its Plaza reservations by page of aperture 10 and slice, and in the order they were made (offset, slices); the sense
data it set; the ledger entries of its operations in issue order (R438); while the command is recovered (R443), how
many of its OP_ISSUE and PZ_RESERVE calls have been matched, and the operations that were settled; and its operations that have failed
(R127), for which its end waits until the others have ended (R106). -/
structure OwnCmd where
  cp : Nat
  ctx : Nat
  xfers : List (Nat × Bool × Nat)
  segs : List Seg
  cdc : Option Nat
  timers : List (Nat × Nat × DWord)
  srcs : List (Nat × Nat)
  res : List (Nat × Nat)
  held : List (Nat × Nat)
  sense : Option SenseSet
  toks : List Nat
  replay : Option (Nat × Nat)
  settled : List Nat
  fails : List OpFail
  deriving DecidableEq, Repr

/-- A channel program: its START (journal sequence, tag, key, ring named, idempotence option, first CCW address), the CP
that serves it, the stage, how the CCW in hand was reached, the data chain collected with the failure that ended its
collection, the position in program order (R79), the command in execution, the unordered group issued so far (R77) and
whether its last CCW ends the program, the end of the last command (for HALT), whether failover touched it (REC), the
upstream ports that carried its data (R21), the command of an owner pack, the
address and COUNT of the TIC followed last (R70), the CCWs fetched ahead, oldest first, with the one whose read is under
way (R40), the port of its latest stream to host memory and the port whose zero-length read its next stream waits for (R272), and the
marks of group members that wait for earlier members: how many stand before, address and COUNT (R76). -/
structure Prog where
  jseq : Nat
  tag : Word
  key : Nat
  ring : Option Nat
  idem : Option Bool
  first : DWord
  cp : Nat
  stage : Stage
  how : Reach
  chain : List (DWord × QWord)
  stopAt : Option Ended
  pos : DWord
  run : Option Run
  grp : List Run
  grpLast : Bool
  lastEnd : Ended
  recov : Bool
  ports : List Nat
  own : Option OwnCmd
  ticAt : DWord × Nat
  pref : List (DWord × HostRead)
  prefAt : Option DWord
  lastPort : Option Nat
  sync : Option Nat
  marks : List (Nat × DWord × Nat)
  deriving DecidableEq, Repr

/-- What a downstream operation asks of a device (R48, R54): NVMe commands name namespace, LBA and blocks; window
operations name the BAR offset, the bytes and the access width. `pack` is an operation of an owner pack (R336), `packWrite` the write side of a PEER whose T an owner pack serves (R67). -/
inductive OpKind where
  | nvmeRead (nsid lba blocks : Nat)
  | nvmeWrite (nsid lba blocks : Nat) (fua : Bool) (data : List Byte)
  | nvmeFlush (nsid : Nat)
  | nvmeDealloc (nsid lba blocks : Nat)
  | nvmeZero (nsid lba blocks : Nat)
  | nvmeIdentify (cns nsid : Nat)
  | nvmeCompare (nsid lba blocks : Nat) (data : List Byte)
  | winRead (off len width : Nat)
  | winWrite (off width : Nat) (rlx : Bool) (data : List Byte)
  | winFence
  | packWrite (off : Nat) (data : List Byte)
  | pack
  deriving DecidableEq, Repr

/-- A downstream operation in flight and its ledger entry (R123, R124, R132, R438): its subchannel and its program's
journal number, the subchannel whose device it goes to and the root port, the member or side it serves, its class (0 always, 1 default, 2 never), its effective
idempotence, what it asks, the command byte it starts at and its position there, its condition, whether it has had its
single re-issue (R126), whether it is detached (R132), and the CP whose operation slot it holds. -/
structure Op where
  sub : Nat
  jseq : Nat
  dev : Nat
  dport : Nat
  member : Nat
  cls : Nat
  idem : Bool
  kind : OpKind
  from_ : Nat
  info : Nat
  cond : OpCond
  reissued : Bool
  detached : Bool
  cp : Nat
  deriving DecidableEq, Repr

/-! ### Rings and host windows (chapter 04) -/

/-- What the reader of a start ring waits for: nothing, the 16-byte head of the next entry, the other 48 bytes of an
entry whose head matched, or one 64-byte line (R142, R143). -/
inductive RdStage where
  | idle | head | body (head16 : List Byte) | line
  deriving DecidableEq, Repr

/-- A start ring (R172): its registers, the phase of the lap of the next entry to take in, the sticky bits, the stale
count, the read in progress, the entries read ahead (R144), and whether SR_CONS has changed since the last shadow
write (R147), and the upstream port it keeps from enable to enable (R272). -/
structure SRing where
  base : DWord
  shadow : DWord
  ctl : Word
  own : Word
  cons : Word
  phase : Bool
  rderr : Bool
  crverr : Bool
  cfgerr : Bool
  stale : Nat
  rd : RdStage
  pref : List (List Byte)
  dirty : Bool
  port : Nat
  deriving DecidableEq, Repr

/-- An entry held in the deep FIFO of a completion ring: its word (R149, PH and DLY not yet set), whether it arms the
ring, whether it bypasses the hold-off, whether it is the entry behind the subchannel's DSTAT and CSTAT, whether it
is delayed (DLY), its subchannel, and the upstream ports of the data it stands for (R21). -/
structure FifoItem where
  word : BitVec 256
  arms : Bool
  imm : Bool
  status : Bool
  dly : Bool
  sub : Nat
  ports : List Nat
  deriving DecidableEq, Repr

/-- A deep FIFO (R248): its entries, oldest first, and how many of them stand in the head and in the tail. -/
structure Fifo where
  items : List FifoItem
  head : Nat
  tail : Nat
  deriving DecidableEq, Repr

/-- A completion ring (R173): its registers, counts and phase, the sticky bits, the moderation state (R167), the
address whose translation it waits for (R515), its deep FIFO, and its upstream port (R272). -/
structure CRing where
  base : DWord
  ctl : Word
  own : Word
  mod : Word
  prod : Word
  cons : Word
  phase : Bool
  full : Bool
  stall : Bool
  wrerr : Bool
  dberr : Bool
  vecerr : Bool
  cfgerr : Bool
  armed : Bool
  armCnt : Nat
  due : DWord
  xwait : Option DWord
  fifo : Fifo
  port : Nat
  zlr : Option Nat
  deriving DecidableEq, Repr

/-- The state change an entry reports, made when the entry is placed (R156). -/
inductive Change where
  | none
  | status (st : SubState) (c d : Byte) (ou : Bool)
  | alert (st : SubState) (d : Byte)
  | toState (st : SubState)
  | suspend
  | resume
  deriving DecidableEq, Repr

/-- An entry on its way to a ring: the ring it is bound for, its item, the change it reports, the function that issued what
it answers (R99), whether only that function's ring can take it (checks 1 and 2 of R97 failed), and the upstream port
whose zero-length read it waits for (R21). -/
structure Ent where
  ring : Nat
  item : FifoItem
  change : Change
  issuer : FnId
  early : Bool
  zlr : Option Nat
  deriving DecidableEq, Repr

/-- A function taken in and not yet applied (R148): sequence number, issuer, the 64 bytes of its entry, its start ring
or slot, whether it came through a direct-start slot, and the ring it names after R140. -/
structure TakeIn where
  jseq : Nat
  fn : FnId
  entry : BitVec 512
  srcIx : Nat
  ds : Bool
  ring : Option Nat
  deriving DecidableEq, Repr

/-- A HALT or CLEAR whose function entry waits for the final entry of the program it ends (R103, R104): subchannel,
function, and whether it is a CLEAR. -/
structure FnHeld where
  sub : Nat
  take : TakeIn
  clear : Bool
  deriving DecidableEq, Repr

/-- A PCIe function: occupied slots with the function in each (R160), the window header's counters (R166), event
counters (R64), power state and MSI-X (R168, R170), configuration controls (R513, R515) and BAR 4 (R455). -/
structure Fn where
  slots : List (Nat × Nat)
  dsDrop : Nat
  dsMalf : Nat
  winErr : Nat
  nopost : Nat
  jseqLast : DWord
  events : Tbl Nat
  d3hot : Bool
  pmeEn : Bool
  pmeStatus : Bool
  msixMask : Bool
  vecMask : List Nat
  pba : List Nat
  dueMsgs : List Nat
  vfEnable : Bool
  numVfs : Nat
  ats : Bool
  pasid : Bool
  ptm : Bool
  busMaster : Bool
  jwWin : DWord
  jxBase : DWord
  jxCtl : Word
  jxCons : Word
  jxProd : Word
  jxPhase : Bool
  jxLostBit : Bool
  jxWrerr : Bool
  jxCfgerr : Bool
  jxStart : DWord
  jxNext : DWord
  jxLost : Word
  deriving DecidableEq, Repr

/-! ### Journal and audit log (R422 to R430, R450 to R458) -/

/-- A journal record (R451). -/
structure JRec where
  ccw : DWord
  resid : Word
  tag : Word
  ref : DWord
  time : DWord
  seq : Nat
  sub : Nat
  ring : Nat
  ds : Bool
  fn : FnId
  fcode : Nat
  resp : Nat
  kind : Nat
  dstat : Byte
  cstat : Byte
  flags : Nat
  disc : Bool
  rclr : Bool
  arg : Word
  deriving DecidableEq, Repr

/-- An access to BAR 0 that waits on a full audit-record feed: a write, or a read of the origin of a write that waits
(R424). -/
structure WaitAcc where
  rd : Bool
  origin : Origin
  off : Nat
  size : Nat
  val : DWord
  deriving DecidableEq, Repr

/-! ### Junction (chapter 10) -/

/-- A source (R369): PEND, EN, ACT, class, target set, holder, the CP of its latest presentation, and the class in which its
holder claimed it. -/
structure Src where
  pend : Bool
  en : Bool
  act : Bool
  fast : Bool
  tgt : DWord
  holder : Option Nat
  lastCp : Option Nat
  orph : Bool
  level : Bool
  actFast : Bool
  deriving DecidableEq, Repr

/-- A presentation (R373, R376): source, physical CP, class, and whether it has committed. -/
structure Pres where
  src : Nat
  cp : Nat
  fast : Bool
  committed : Bool
  deriving DecidableEq, Repr

/-- A source group's hold-off (R388): its length in 20 ns units, and the DEVTIME at which a running one ends. -/
structure Grp where
  holdoff : Nat
  run : Bool
  until_ : DWord
  deriving DecidableEq, Repr

/-- A work item (R384): the function taken in and the district queue it stands in. -/
structure Work where
  take : TakeIn
  sub : Nat
  deriving DecidableEq, Repr

/-! ### Channel processors (chapters 08 and 09) -/

/-- CP_STAT.STATE (R338). -/
inductive CpRun where
  | run | wait | stopped | off | bist
  deriving DecidableEq, Repr

/-- The role of a CP in its district (R588): in service, the spare, in in-field BIST (after a failure as the spare, or
after a failover), or retired. -/
inductive CpRole where
  | inService | spare | bist (asSpare : Bool) | retired
  deriving DecidableEq, Repr

/-- Where the data of a long load comes from (R309): it has been read from a target inside the TC9640, the register
access waits behind an earlier write of the CP (R26), it has been read from Plaza at an offset (R292), it comes with LONG_LOAD_COMPLETE (`from_`: the function and the address
of a read of host memory), or the load has failed and its
exception waits for the instruction behind it. -/
inductive LoadSrc where
  | have_ (bytes : List Byte)
  | page (off size : Nat)
  | plaza (off : Nat) (bytes : List Byte)
  | outside (from_ : Option (FnId × DWord))
  | failed
  deriving DecidableEq, Repr

/-- A long load that has issued and not completed (R309): the instruction's address; the registers it will write, each
with the number of the word it takes, less those the instruction behind it has written (R308), and whether they lie in
the fast bank; how the bytes become registers (bytes and sign extension), its data address, where the data comes from,
and whether the instruction after it has issued. -/
structure PendLoad where
  pc : Word
  dst : List (Nat × Nat)
  fast : Bool
  size : Nat
  signed : Bool
  addr : Word
  src : LoadSrc
  slotUsed : Bool
  deriving DecidableEq, Repr

/-- A pack entry that runs on a CP (R333): its subchannel, the entry (0 command, 1 INIT, 2 BIND, 3 UNBIND, 4 EVENT,
5 TIMEOUT, 6 ABORT, 7 ALERT, 8 REISSUE), the address its return goes to, and whether it has issued an operation. -/
structure Serve where
  sub : Nat
  entry : Nat
  ret : Word
  issued : Bool
  deriving DecidableEq, Repr

/-- A channel processor (R284 to R289, R294, R315 to R320, R338, R380): general registers and lk of both banks, pc,
SR as one word, accumulators, special registers, the registers a short load will write after the next instruction
(R308), a long load in progress (R309), run state, role, aperture descriptors, cycle-counter captures, page CPC's
sticky bits and counters, outstanding cancelled presentations (R376), its hand-off FIFO (R384), the stores not yet
known to have arrived, its IRAM and DRAM (R290), and the pack entry it serves (R333). -/
structure Cp where
  g : List Word
  gFast : List Word
  lk : Word
  lkFast : Word
  pc : Word
  sr : Word
  a0 : BitVec 40
  a1 : BitVec 40
  epc : Word
  esr : Word
  ecause : Word
  eaddr : Word
  npc : Word
  nsr : Word
  fpc : Word
  fsr : Word
  cycHi : Word
  cycHiFast : Word
  dtHi : Word
  dtHiFast : Word
  hdlo : Word
  hdhi : Word
  holo : Word
  hohi : Word
  budget : Word
  cyc : DWord
  lastPc : Word
  slot : List (Nat × Word)
  loads : List PendLoad
  run : CpRun
  role : CpRole
  apert : List QWord
  sterr : Bool
  semerr : Bool
  staddr : Word
  excnt : Word
  sstop : Word
  spurN : Bool
  spurF : Bool
  handoff : List Work
  failedAt : Option DWord
  halted : Bool
  iram : List Host.Cell
  dram : List Host.Cell
  serve : Option Serve
  deriving DecidableEq, Repr

/-- A hardware semaphore (R321 to R324): its holder, and POISONED. -/
structure Sem where
  holder : Option Nat
  poisoned : Bool
  deriving DecidableEq, Repr

/-- A loaded handler pack (R328): HTYPE, ILVL, identifier, the version of its image and PACK_VER, trusted, its command entries by code, its eight EV
offsets, the declared sense codes, its default timeout and sources, and where CP_BASE_FW put its text and data. -/
structure Pack where
  htype : Nat
  ilvl : Nat
  packId : Nat
  ver : Nat
  packVer : Nat
  trusted : Bool
  entries : Tbl (BitVec 64)
  ev : List Nat
  senseDecl : BitVec 128
  senseUx : BitVec 128
  tmoMs : Nat
  sources : Nat
  textSize : Nat
  dataSize : Nat
  bssSize : Nat
  text : Nat
  data : Nat
  svn : Nat
  deriving DecidableEq, Repr

/-- A call of a pack entry that waits for its CP (R333): CP, subchannel, pack slot, entry, text offset and arguments. -/
structure PackCall where
  cp : Nat
  sub : Nat
  pack : Nat
  entry : Nat
  off : Nat
  g1 : Word
  g2 : Word
  g3 : Word
  deriving DecidableEq, Repr

/-- A BIND that an owner pack's BIND entry decides (R109, R333, R334): the function, its block, the handler-private state and the other
root port it gives, the CP that claimed it, and where that CP holds the block. -/
structure PackBind where
  take : TakeIn
  word : BitVec 512
  hpriv : HPriv
  alt : Option Nat
  cp : Option Nat
  ctx : Nat
  deriving DecidableEq, Repr

/-! ### The mover (chapter 05) -/

/-- CH_STAT.STATE (R211, R217). -/
inductive ChSt where
  | idle | run | wait | halted | disabled
  deriving DecidableEq, Repr

/-- What a channel in WAIT waits for (R194). -/
inductive MWait where
  | timer (t : Nat)
  | signal
  | delay (due : DWord)
  deriving DecidableEq, Repr

/-- A write burst of a channel that is not complete (R201 to R203, R207, R213): the address of its instruction, its destination
space, address and data; whether it has been dispatched, and with which PRIO and CLASS; how often it has been retried, and whether
it waits for the next retry; the port whose zero-length read has still to show it to every path; and the upstream port it was sent
by. -/
structure Burst where
  pc : DWord
  space : Nat
  addr : DWord
  data : List Byte
  sent : Bool
  prio : Nat
  cls : Nat
  retries : Nat
  hold : Bool
  zlr : Option Nat
  port : Nat
  deriving DecidableEq, Repr

/-- A mover channel (R180 to R183, R211 to R213, R217): state, SPEND, ERR, SIGCNT, CH_BYTES, the configuration registers, CH_PC,
CH_FADDR, AR0 to AR7 and which of them were last used as addresses in space 2, LC0 to LC3, the transform set by XFORM (0 = none),
whether the header of its program has still to be read, the line of instructions it holds, what it waits for, its bursts, the data
its instruction has read so far, the instruction whose read is to be retried, whether it waits for that retry and the retries of the
access that fails, the subchannel whose MOVER CCW runs on it, whether HALT or CLEAR stops it at the next burst boundary
(R103), and the upstream port that its program's data keeps (R272). -/
structure Chan where
  st : ChSt
  spend : Bool
  err : Nat
  sig : Nat
  bytes : DWord
  cfg : Word
  prog : DWord
  buf : Word
  link : Word
  pc : DWord
  faddr : DWord
  ar : List DWord
  ar2 : List Bool
  lc : List Word
  xf : QWord
  needHdr : Bool
  line : Option (DWord × List Byte)
  wait : Option MWait
  bursts : List Burst
  got : List (List Byte)
  retry : Option QWord
  again : Bool
  retries : Nat
  sub : Option Nat
  stop : Bool
  port : Option Nat
  deriving DecidableEq, Repr

/-! ### Plaza, Boulevard and Roundabout (chapter 06) -/

/-- Which stream of a subchannel holds slices (R132, R222): that of the command in hand (an owner pack's for as long as the
command runs), that of a run in execution, or one whose operations were detached from the program of a START. -/
inductive StreamHolder where
  | hand
  | run (id : Nat)
  | detached (jseq : Nat)
  deriving DecidableEq, Repr

/-- What a slice in service is used for (R222): free, held by a stream of a class for a subchannel, or part of a
scratch area; or out of service. -/
inductive Slice where
  | free
  | stream (cls sub : Nat) (who : StreamHolder)
  | scratch (area : Nat)
  | fenced
  deriving DecidableEq, Repr

/-- A reservation that waits (R225, R226): number, class, slices, the subchannel whose command in hand asked for it, and the attachments
at the ends of its stream (R260). -/
structure PzRes where
  id : Nat
  cls : Nat
  n : Nat
  sub : Nat
  ends : List Nat
  deriving DecidableEq, Repr

/-- A read held on a failing check block (R228 to R231): block number, origin, reader, refills failed so far, and the
DEVTIME at which a downstream read's hold ends. -/
structure Refill where
  blk : Nat
  origin : BlockSrc
  reader : BlockUser
  tries : Nat
  due : DWord
  deriving DecidableEq, Repr

/-- The Elfort core's keys (R483): the unique device secret and the DeviceID key pair as boot opens them, the certificates of the CA and
of DeviceID, CDI_0 and CDI_1, the alias key pair and its certificate. -/
structure Keys where
  uds : BitVec 384
  devicePrivate : BitVec 384
  devicePublic : BitVec 768
  deviceChain : List Byte
  cdi0 : BitVec 384
  cdi1 : BitVec 384
  aliasPrivate : BitVec 384
  aliasPublic : BitVec 768
  aliasCert : List Byte
  deriving DecidableEq, Repr

/-- A request at a Roundabout (R239, R247): source and class, the units left in its burst, the mover channel whose burst it is, its age
in cycles, and whether the starvation watch has counted it. -/
structure RReq where
  src : Nat
  cls : Nat
  units : Nat
  chan : Option Nat
  age : Nat
  counted : Bool
  deriving DecidableEq, Repr

/-- A Roundabout (R239 to R244): the holder of the resource with the units it has moved, the requests raised, in rank
order (highest first), the decision taken for the next cycle and whether it preempts, class changes of mover channels that enter the
request vector a cycle later (R244), and those that have not reached the Roundabout yet. -/
structure Rbt where
  holder : Option RReq
  moved : Nat
  reqs : List RReq
  decision : Option RReq
  preempt : Bool
  late : List (Nat × Nat)
  chg : List (Nat × Nat)
  deriving DecidableEq, Repr

/-! ### Shared resources and expert mode (R411 to R421) -/

/-- A holder of a shared resource (R419). -/
inductive Holder where
  | fn (f : FnId)
  | firmware
  | bmc
  | elfort
  | jtag
  | signpost
  deriving DecidableEq, Repr

/-- A commitment: the holder and its argument. -/
structure Commit where
  holder : Holder
  arg : Nat
  deriving DecidableEq, Repr

/-- An expert-mode challenge (R412): origin, page, value, and DEVTIME of the read. -/
structure Chal where
  origin : Origin
  page : Nat
  val : BitVec 16
  at_ : DWord
  deriving DecidableEq, Repr

/-- An open expert mode (R413): origin, page, and DEVTIME of the open or of the latest accepted write. -/
structure XMode where
  origin : Origin
  page : Nat
  at_ : DWord
  deriving DecidableEq, Repr

/-! ### What leaves the TC9640 -/

/-- How the upstream port of a host access is chosen (R271, R272): for a subchannel's program, for none, kept by the stream or ring it
belongs to, or for an access of a CP through an aperture (R295). -/
inductive Via where
  | sub (n : Nat)
  | any
  | kept (port : Nat)
  | cp (i : Nat)
  deriving DecidableEq, Repr

/-- A request to host memory; `zero` is a zero-length read, which orders what went before it on its port (R21). -/
inductive HostReq where
  | zero
  | read (addr : DWord) (len : Nat)
  | write (addr : DWord) (bytes : List Byte)
  deriving DecidableEq, Repr

/-- One thing the TC9640 sends outside, in the order it is sent: host reads and writes with the upstream port they go by, zero-length
reads, messages, downstream operations and accesses, answers to accesses of a host, the BMC, JTAG or a CP, answers to a manager (`path`
as attPath numbers it), link actions, and writes of the boot flash at an address. -/
inductive Out where
  | hostRead (fn : FnId) (port : Nat) (addr : DWord) (len : Nat)
  | hostWrite (fn : FnId) (port : Nat) (addr : DWord) (bytes : List Byte)
  | xlate (fn : FnId) (page : Nat)
  | pasid (fn : FnId) (value : Nat)
  | zeroRead (port : Nat)
  | msix (fn : FnId) (vec : Nat)
  | pme (fn : FnId)
  | devOp (dport sub token : Nat) (kind : OpKind)
  | devWrite (dport : Nat) (addr : DWord) (bytes : List Byte)
  | devRead (dport : Nat) (addr : DWord) (len : Nat)
  | devAnswer (dport : Nat) (status : Nat) (bytes : List Byte)
  | regValue (o : Origin) (val : DWord)
  | window (fn : FnId) (bytes : List Byte)
  | unsupported (o : Origin)
  | cpValue (i : Nat) (val : Word)
  | aer (port sev : Nat)
  | message (port : Nat) (what : String)
  | sideband (path : Nat) (bytes : List Byte)
  | tdo (bits : Nat) (val : QWord)
  | gpio (pin : Nat) (level : Bool)
  | gpioPulse (pin : Nat)
  | boundary (bits : List Bool)
  | scan (bits : List Bool)
  | sidebandRelease
  | avs (mv : Nat)
  | link (dport : Nat) (what : String)
  | pldm (path : Nat) (what : String)
  | flash (addr : Nat) (bytes : List Byte)
  deriving DecidableEq, Repr

/-! ### Signpost (chapter 07) -/

/-- The averages of a candidate (R258), U16.16. -/
structure Avg where
  lat : Word
  q : Word
  load : Word
  deriving DecidableEq, Repr

/-! ### Firmware and trust (chapter 13) -/

/-- An image as the Elfort core holds it loaded (R471, R486): STATUS (0 loaded and tested, 1 refused, 2 absent or empty, 3
loaded and untested), REASON, the copy, and the image. -/
structure ImgSt where
  status : Nat
  reason : Nat
  copy : Nat
  img : Option Img
  deriving DecidableEq, Repr

/-- An owner-key slot in fuses (R480): INST, REVK, and the hash of the key. -/
structure OwnerKey where
  inst : Bool
  revk : Bool
  hash : Nat
  deriving DecidableEq, Repr

/-- A firmware update in progress (R487): its path, where its answers go, the component received last, its verified image and the
verdict, and the components whose directory entry has been switched. -/
structure Upd where
  path : Nat
  via : Nat
  comp : Option Nat
  img : Option (Nat × Img)
  ok : Bool
  applied : List (Nat × Img)
  deriving DecidableEq, Repr

/-- An attestation request that waits to be served (R485): where its answer goes, and what it asks for. -/
inductive AttReq where
  | chain (via off len : Nat)
  | report (via nonce : Nat)
  deriving DecidableEq, Repr

/-- An ATS invalidation or a flush of a port's translations that waits for the reads issued under them (R515, R519): the port, whether
it is a flush, and the reads, each by its function, address and length. -/
structure Inval where
  port : Nat
  flush : Bool
  reads : List (FnId × DWord × Nat)
  deriving DecidableEq, Repr

/-- A pack slot that is being activated live (R489): slot, where the answer goes, image, copy, and the DEVTIME at which it fails. -/
structure Activ where
  slot : Nat
  via : Nat
  img : Img
  copy : Nat
  due : DWord
  deriving DecidableEq, Repr

/-- The registers of BAR 0, by the names of the spec (page prefix where two pages share a name). -/
inductive Reg where
  | srBase
  | srShadow
  | srCtl
  | srOwn
  | srCons
  | srStat
  | crBase
  | crCtl
  | crOwn
  | crMod
  | crProd
  | crCons
  | crStat
  | crFifo
  | crStalled
  | chStat
  | chBytes
  | chCtl
  | chCfg
  | chProg
  | chBuf
  | chLink
  | chPc
  | bkStat
  | bkUse
  | bkFenced
  | crcErr
  | resendOk
  | resendFail
  | plzWatchThr
  | plzWatchMax
  | plzWatchOvr
  | plzWatchClr
  | pzSlices
  | pzFree
  | pzStat
  | pzHeld
  | pzWait
  | bkArb
  | pzQuota
  | pzResend
  | blvSteer
  | rplSel
  | rplCnt
  | watchSel
  | blvWatchThr
  | blvWatchMax
  | blvWatchOvr
  | blvWatchClr
  | blvPre
  | rplLim
  | ffSel
  | ffCfg
  | ffCount
  | ffParts
  | ffMid
  | ffHwm
  | poolFree
  | ffStat
  | sgStat
  | sgMigcnt
  | sgRecSel
  | sgRec0
  | sgRec1
  | sgRec2
  | sgRecBanks
  | sgAffSel
  | sgAffBase
  | sgAffLimit
  | sgAffCtl
  | sgLogHead
  | sgLogRd
  | sgLogData
  | sgScoreSel
  | sgScore
  | sgAvgLat
  | sgAvgQ
  | sgAvgLoad
  | sgPinSub
  | sgPinCtl
  | sgFnSel
  | sgExcl
  | sgExclAll
  | sgW
  | sgH
  | sgMovRange
  | sgBset
  | sgRebal
  | sgCtl
  | cpStat
  | cpPc
  | cpStaddr
  | cpExcnt
  | cpSstop
  | cpCyc
  | jcStat
  | jcOrph
  | jcSpur
  | jcCoal
  | jcEoierr
  | jcBadw
  | jcBadmsg
  | srcSel
  | srcStat
  | setPend
  | clrPend
  | setEn
  | clrEn
  | grpSel
  | grpPend
  | grpEn
  | grpAct
  | grpHold
  | cpMap
  | privLatch
  | srcTgt
  | srcCtl
  | grpHoldoff
  | pgId
  | pgCap
  | pgPerm
  | pgCtl
  | pgStat
  | pgAuditSeq
  | glId
  | glStat
  | glXpol
  | glXtmo
  | glPlock
  | glDbgpol
  | glFnSel
  | glFnPerm
  | glDenyCnt
  | glRsvwCnt
  | glCfgerrCnt
  | glXfailCnt
  | glResCmd
  | glResRsp
  | glResFree
  | auHead
  | auWrap
  | auStat
  | auRd
  | auData
  | auXlost
  | auExpBase
  | auExpCtl
  | auExpStart
  | auExpNext
  | auExpCons
  | auExpProd
  | jnHead
  | jnWrap
  | jnStat
  | jnRd
  | jnData
  | jnWaits
  | jnLost
  | jnMark
  | rpStat
  | rpCnt
  | rpLastf
  | rpSel
  | rpTotal
  | rpUsed
  | rpBudget
  | rpHours
  | rpTjavg
  | rpPol
  | rpInj
  | dsStat
  | dsFreq
  | dsVneed
  | dsCanary
  | dsHbmiss
  | dsFailov
  | dsSeg
  | dsRotLast
  | dsLedger
  | dsRotCtl
  | dsFcap
  | hbStat
  | hbCe
  | hbUe
  | hbUeaddr
  | hbPpr
  | hbScrub
  | hbScrubCtl
  | seStat
  | seImgSel
  | seImgStat
  | seImgVer
  | seRb
  | seOwn
  | seNonce
  | seMbCmd
  | seMbRsp
  | seMbData
  | seUpdpol
  | fzStat
  | fzTime
  | trCtl
  | trHead
  | trRd
  | trData
  | dbSwtrace
  | dbCntSel
  | dbCnt
  | dbSnap
  | dbSnapCnt
  | fzCtl
  | fzPol
  | dbBkgrant0
  | dbBkgrant1
  | dbCpsel
  | dbCpctl
  | dbCpreg
  | upStat
  | upCfg
  | dswStat
  | upRecov
  | upReplay
  | upAtsinv
  | upVfvec
  | upFnSel
  | upFnpasid
  | upMctp
  | upLctl
  | upAtc
  | avStat
  | avLerr
  | avCfg
  | dpStat
  | dpMaxw
  | dpAerunc
  | dpAercor
  | dpCtocnt
  | dpBadreq
  | dpBadaddr
  | dpCtl
  | dpCto
  | dpLdwait
  | dpLretry
  | tbTime
  | tbStat
  | tbOffset
  | tbCap
  | tbSteps
  | tmSel
  | tmCmp
  | tmPeriod
  | tmCtl
  | tmFires
  | tmMiss
  | tmGpioIn
  | tmGpioOut
  | tmGpioSet
  | tmGpioClr
  | tmGpioFn
  | tbCtl
  | tbStep
  | tbSlew
  | thStat
  | thTj
  | thPwr
  | thClk
  | thVreq
  | thThrcnt
  | thWarn
  | thThrot
  | thPlim
  | thGate
  | rgEn
  | grpRun
  | grpHalt
  | grpUse
  | grpTovr
  | chFaddr
  | pgXkey
  | evtPending
  | evtEnable
  | evtCntSel
  | evtCnt
  deriving DecidableEq, Repr

/-- The page types of BAR 0 (R398); `hdr` is the header every page opens with (R401). -/
inductive PageTy where
  | hdr | glb | sec | blv | sgn | jct | dff | jnl | aud | tim | hbm | thm | rpr | dbg | upt | ave | dst | dpt | plz
  | mov | cpc | rng
  deriving DecidableEq, Repr

/-- The access codes of a field (R12). -/
inductive Acc where
  | ro | rw | wo | rs | sc
  deriving DecidableEq, Repr

/-- A field of a register: bits [hi:lo], access code, reset value. -/
structure RegField where
  hi : Nat
  lo : Nat
  acc : Acc
  reset : Nat
  deriving DecidableEq, Repr

/-- A register's place: page type, offset of its first copy, distance and number of copies, bytes, and fields. -/
structure RegInfo where
  page : PageTy
  off : Nat
  stride : Nat
  count : Nat
  bytes : Nat
  fields : List RegField
  deriving DecidableEq, Repr

set_option maxRecDepth 4000 in
/-- The device: every piece of state but the queue of waiting commands. -/
structure Dev where
  devtime : DWord
  freeCtr : Nat
  out : List Out
  regs : Tbl DWord
  subs : Tbl Sub
  packs : Tbl Pack
  progs : Tbl Prog
  ops : Tbl Op
  nextTok : Nat
  srings : Tbl SRing
  crings : Tbl CRing
  stalled : List Ent
  outHeld : List (FnId × Via × HostReq)
  xasked : List (Nat × Nat)
  opHeld : List (Nat × DevRes × WriteRes)
  clearing : List Nat
  evtWait : List Nat
  fnHeld : List FnHeld
  movWait : List (Nat × Nat)
  fns : Tbl Fn
  waiting : List TakeIn
  dsWait : List TakeIn
  paused : Bool
  workq : Tbl (List Work)
  startWait : List Work
  opWait : List (Nat × Nat)
  packCalls : List PackCall
  binds : List PackBind
  initDue : List (Nat × Nat)
  journal : List JRec
  jnHead : Nat
  jnFeed : Nat
  audit : List (BitVec 256)
  auHead : Nat
  auFeed : Nat
  feeds : Tbl Nat
  auWait : List WaitAcc
  auPhase : Bool
  srcs : Tbl Src
  pres : List Pres
  grps : Tbl Grp
  lastGrp : List Nat
  lastSrc : Tbl Nat
  lastCp : List Nat
  latches : BitVec 18
  cps : Tbl Cp
  sems : Tbl Sem
  mirrorWait : List (Nat × Nat)
  mirrorOld : Tbl (BitVec 1024)
  chans : Tbl Chan
  movServed : Tbl Nat
  plaza : List Host.Cell
  slices : Tbl Slice
  strChans : List (Nat × Nat × StreamHolder)
  scratch : Tbl (List Nat)
  resv : List PzRes
  resvNext : Nat
  fenceWait : List Nat
  lanes : List Nat
  laneBad : List Nat
  blvBad : List Nat
  hops : Tbl (List Flit)
  hopRx : Tbl (List Flit)
  refills : List Refill
  rbts : Tbl Rbt
  commits : Tbl Commit
  resRsp : Tbl DWord
  chals : List Chal
  xmodes : List XMode
  upDown : List Bool
  sgAvg : Tbl Avg
  sgLast : Tbl Nat
  sgTransit : Tbl (List Nat)
  sgCursor : Nat
  sgMovLast : Nat
  sgLog : List (BitVec 256)
  bankSets : Tbl (List Nat)
  bankPrev : Tbl (List Nat)
  bankElig : Tbl (List Nat)
  sgDist : Tbl Nat
  bankRaw : Tbl (BitVec 1024)
  xlate : List (Nat × Nat × Nat)
  invals : List Inval
  alertSrcs : List (Nat × Nat)
  injected : List (Nat × Nat)
  rotWait : List (Nat × Nat)
  keys : Keys
  scWait : List (Nat × Nat)
  injecting : Bool
  faultAt : Option DWord
  imgs : Tbl ImgSt
  owners : List OwnerKey
  ownersNow : List OwnerKey
  dirActive : List Nat
  dirGen : Nat
  dirCopy : Nat
  nonces : Tbl Nat
  mbQueue : List (Origin × Nat)
  upd : Option Upd
  activ : List Activ
  attQ : List AttReq
  sgWritten : List Nat
  boots : Nat
  straps : BitVec 6
  sbEid : Nat
  ldAt : List (Nat × DWord)
  lretry : List Nat
  slew : Int
  slewCnt : Nat
  ptmAt : Option DWord
  hot : List Nat
  thrCap : Nat
  thrDuty : Nat
  thrWait : Nat
  thermtrip : Bool
  tjSum : Int
  avsPend : Option (Nat × DWord)
  tapIr : Nat
  bsr : List Bool
  dumpSel : DWord
  dumpOff : Nat
  dumpCrc : Word
  dumpUe : Nat
  maint : Bool
  trace : List (BitVec 256)
  trHead : Nat
  frozen : Bool
  frozenPin : Bool
  fatal : Bool
  deriving DecidableEq, Repr

/-- The machine: the commands that wait, first in first out, and the device. -/
structure State where
  pending : List Instr
  dev : Dev
  deriving DecidableEq, Repr

/-- The device right after a cold reset, before its first records enter the logs: every table without an entry reads as
the reset values of its kind (Reg.resetValue, cpReset, subReset and so on; log entries 1 and 2). -/
def Dev.reset : Dev :=
  { devtime := 0, freeCtr := 0, out := [], regs := [], subs := [], packs := [], progs := [], ops := [], nextTok := 0
    srings := [], crings := [], stalled := [], outHeld := [], xasked := [], opHeld := []
    clearing := [], evtWait := [], fnHeld := [], movWait := []
    fns := [], waiting := [], dsWait := [], paused := false, workq := [], startWait := [], opWait := [], packCalls := [], binds := [], initDue := []
    journal := [], jnHead := 0, jnFeed := 0, audit := [], auHead := 0, auFeed := 0, feeds := [], auWait := []
    auPhase := true, srcs := [], pres := [], grps := [], lastGrp := [255, 255], lastSrc := [], lastCp := [63, 63]
    latches := 0, cps := [], sems := [], mirrorWait := [], mirrorOld := [], chans := [], movServed := [], plaza := [], slices := [], strChans := [], scratch := []
    resv := [], resvNext := 0, fenceWait := [], lanes := [0, 1, 2, 3, 4], laneBad := [], blvBad := [], hops := [], hopRx := [], refills := [], rbts := [], commits := []
    resRsp := [], chals := [], xmodes := [], upDown := [true, true], sgAvg := [], sgLast := []
    sgTransit := [], sgCursor := 0, sgMovLast := 4095, sgLog := [], bankSets := [], bankPrev := [], bankElig := [], sgDist := [], bankRaw := []
    xlate := [], invals := [], alertSrcs := [], injected := [], rotWait := [], scWait := [], keys := ⟨0, 0, 0, [], 0, 0, 0, 0, []⟩, injecting := false, faultAt := none, imgs := []
    owners := List.replicate 4 ⟨false, false, 0⟩, ownersNow := List.replicate 4 ⟨false, false, 0⟩, dirActive := [], dirGen := 0, dirCopy := 1
    nonces := [], mbQueue := [], upd := none, activ := [], attQ := [], sgWritten := [], boots := 0, straps := 0, sbEid := 0
    ldAt := [], lretry := [], slew := 0, slewCnt := 0, ptmAt := none, hot := List.replicate 12 0, thrCap := 3200
    thrDuty := 8, thrWait := 0, thermtrip := false, tjSum := 0, avsPend := none, tapIr := 1, bsr := [], dumpSel := 0
    dumpOff := 0, dumpCrc := 0, dumpUe := 0, maint := false, trace := [], trHead := 0, frozen := false, frozenPin := false, fatal := false }

/-- The machine right after a cold reset, with no command waiting. -/
def State.reset : State := ⟨[], Dev.reset⟩

end Sys2Proof.Machine
end

