-- ==== Sys2Proof/Machine/RegTable.lean ====
section
/-!
DEFINITION. The registers of BAR 0 (R171, R216, R217, R253 to R255, R283, R338, R392, R401, R402, R415, R430, R458,
R464 to R466, R490, R509, R519, R529, R530, R534, R558): for each, its page type, offset, stride, count, size and
fields with their access codes and reset values, as the spec's field tables give them. A field with no number in its
Reset column is listed with 0 here and has its value in `Reg.resetValue` (log entries 1 and 2). The type `Reg` and
its keys stand in State.lean.
-/
namespace Sys2Proof.Machine

/-- Registers of page type HDR, with place and fields. -/
def regsHdr : List (Reg × RegInfo) :=
  [(.pgId, ⟨.hdr, 0x0, 0, 1, 4, [⟨31, 24, .ro, 0⟩, ⟨23, 12, .ro, 0⟩, ⟨11, 0, .ro, 1⟩]⟩),
   (.pgCap, ⟨.hdr, 0x4, 0, 1, 4, [⟨31, 31, .ro, 0⟩, ⟨30, 30, .ro, 0⟩, ⟨29, 27, .ro, 0⟩, ⟨9, 0, .ro, 0⟩]⟩),
   (.pgPerm, ⟨.hdr, 0x8, 0, 1, 4, [⟨28, 24, .ro, 0⟩, ⟨20, 16, .ro, 0⟩, ⟨12, 8, .ro, 0⟩]⟩),
   (.pgCtl, ⟨.hdr, 0x10, 0, 1, 4, [⟨1, 1, .sc, 0⟩, ⟨0, 0, .rw, 0⟩]⟩),
   (.pgStat, ⟨.hdr, 0x14, 0, 1, 4, [⟨31, 31, .rs, 0⟩, ⟨30, 30, .rs, 0⟩, ⟨29, 29, .rs, 0⟩, ⟨28, 28, .rs, 0⟩]⟩),
   (.pgAuditSeq, ⟨.hdr, 0x30, 0, 1, 4, [⟨31, 0, .ro, 0⟩]⟩),
   (.pgXkey, ⟨.hdr, 0xc, 0, 1, 4, [⟨31, 0, .rw, 0⟩]⟩),
   (.evtPending, ⟨.hdr, 0x18, 0, 1, 4, [⟨31, 0, .rw, 0⟩]⟩),
   (.evtEnable, ⟨.hdr, 0x1c, 0, 1, 4, [⟨31, 0, .rw, 0⟩]⟩),
   (.evtCntSel, ⟨.hdr, 0x20, 0, 1, 4, [⟨5, 5, .rw, 0⟩, ⟨4, 0, .rw, 0⟩]⟩),
   (.evtCnt, ⟨.hdr, 0x24, 0, 1, 4, [⟨31, 0, .ro, 0⟩]⟩)]

/-- Registers of page type GLB, with place and fields. -/
def regsGlb : List (Reg × RegInfo) :=
  [(.glId, ⟨.glb, 0x40, 0, 1, 4, [⟨31, 16, .ro, 38464⟩, ⟨15, 8, .ro, 177⟩, ⟨7, 0, .ro, 0⟩]⟩),
   (.glStat, ⟨.glb, 0x44, 0, 1, 4, [⟨31, 31, .ro, 0⟩, ⟨30, 30, .ro, 0⟩, ⟨29, 29, .ro, 0⟩]⟩),
   (.glXpol, ⟨.glb, 0x48, 0, 1, 4, [⟨4, 0, .rw, 0⟩]⟩),
   (.glXtmo, ⟨.glb, 0x4c, 0, 1, 4, [⟨15, 0, .rw, 60000⟩]⟩),
   (.glPlock, ⟨.glb, 0x50, 0, 1, 4, [⟨0, 0, .rw, 0⟩]⟩),
   (.glDbgpol, ⟨.glb, 0x54, 0, 1, 4, [⟨1, 1, .rw, 0⟩, ⟨0, 0, .rw, 0⟩]⟩),
   (.glFnSel, ⟨.glb, 0x58, 0, 1, 4, [⟨7, 7, .rw, 0⟩, ⟨6, 0, .rw, 0⟩]⟩),
   (.glFnPerm, ⟨.glb, 0x5c, 0, 1, 4, [⟨1, 1, .rw, 0⟩, ⟨0, 0, .rw, 0⟩]⟩),
   (.glDenyCnt, ⟨.glb, 0x60, 0, 1, 4, [⟨31, 0, .ro, 0⟩]⟩),
   (.glRsvwCnt, ⟨.glb, 0x64, 0, 1, 4, [⟨31, 0, .ro, 0⟩]⟩),
   (.glCfgerrCnt, ⟨.glb, 0x68, 0, 1, 4, [⟨31, 0, .ro, 0⟩]⟩),
   (.glXfailCnt, ⟨.glb, 0x6c, 0, 1, 4, [⟨31, 0, .ro, 0⟩]⟩),
   (.glResCmd, ⟨.glb, 0x80, 0, 1, 8, [⟨49, 32, .wo, 0⟩, ⟨31, 30, .wo, 0⟩, ⟨27, 24, .wo, 0⟩, ⟨15, 0, .wo, 0⟩]⟩),
   (.glResRsp, ⟨.glb, 0x88, 0, 1, 8, [⟨45, 28, .ro, 0⟩, ⟨27, 24, .ro, 15⟩, ⟨23, 8, .ro, 0⟩, ⟨3, 0, .ro, 0⟩]⟩),
   (.glResFree, ⟨.glb, 0x90, 4, 5, 4, [⟨31, 0, .ro, 0⟩]⟩)]

/-- Registers of page type SEC, with place and fields. -/
def regsSec : List (Reg × RegInfo) :=
  [(.seStat, ⟨.sec, 0x40, 0, 1, 4, [⟨31, 31, .ro, 0⟩, ⟨30, 30, .ro, 0⟩, ⟨29, 29, .ro, 0⟩, ⟨26, 24, .ro, 0⟩]⟩),
   (.seImgSel, ⟨.sec, 0x44, 0, 1, 4, [⟨4, 0, .rw, 0⟩]⟩),
   (.seImgStat, ⟨.sec, 0x48, 0, 1, 4, [⟨31, 28, .ro, 0⟩, ⟨27, 24, .ro, 0⟩, ⟨23, 16, .ro, 0⟩, ⟨15, 8, .ro, 0⟩, ⟨0, 0, .ro, 0⟩]⟩),
   (.seImgVer, ⟨.sec, 0x4c, 0, 1, 4, [⟨31, 0, .ro, 0⟩]⟩),
   (.seRb, ⟨.sec, 0x54, 4, 5, 4, [⟨6, 0, .ro, 0⟩]⟩),
   (.seOwn, ⟨.sec, 0x68, 0, 1, 4, [⟨7, 0, .ro, 0⟩]⟩),
   (.seNonce, ⟨.sec, 0x70, 4, 8, 4, [⟨31, 0, .rs, 0⟩]⟩),
   (.seMbCmd, ⟨.sec, 0x98, 0, 1, 4, [⟨31, 31, .sc, 0⟩, ⟨7, 0, .rw, 0⟩]⟩),
   (.seMbRsp, ⟨.sec, 0x9c, 0, 1, 4, [⟨31, 31, .ro, 0⟩, ⟨7, 0, .ro, 0⟩]⟩),
   (.seMbData, ⟨.sec, 0x100, 4, 128, 4, [⟨31, 0, .rw, 0⟩]⟩),
   (.seUpdpol, ⟨.sec, 0x800, 0, 1, 4, [⟨2, 2, .rw, 0⟩, ⟨1, 1, .rw, 0⟩, ⟨0, 0, .rw, 0⟩]⟩)]

/-- Registers of page type BLV, with place and fields. -/
def regsBlv : List (Reg × RegInfo) :=
  [(.blvSteer, ⟨.blv, 0x40, 0, 1, 4, [⟨31, 31, .ro, 0⟩, ⟨29, 24, .ro, 0⟩, ⟨15, 15, .ro, 0⟩, ⟨13, 8, .ro, 0⟩]⟩),
   (.rplSel, ⟨.blv, 0x48, 0, 1, 4, [⟨5, 0, .rw, 0⟩]⟩),
   (.rplCnt, ⟨.blv, 0x4c, 0, 1, 4, [⟨31, 0, .ro, 0⟩]⟩),
   (.watchSel, ⟨.blv, 0x60, 0, 1, 4, [⟨5, 0, .rw, 0⟩]⟩),
   (.blvWatchThr, ⟨.blv, 0x64, 4, 4, 4, [⟨31, 0, .rw, 65535⟩]⟩),
   (.blvWatchMax, ⟨.blv, 0x74, 4, 4, 4, [⟨31, 0, .ro, 0⟩]⟩),
   (.blvWatchOvr, ⟨.blv, 0x84, 4, 4, 4, [⟨31, 0, .ro, 0⟩]⟩),
   (.blvWatchClr, ⟨.blv, 0x94, 0, 1, 4, [⟨3, 0, .sc, 0⟩]⟩),
   (.blvPre, ⟨.blv, 0x800, 4, 40, 4, [⟨0, 0, .rw, 0⟩]⟩),
   (.rplLim, ⟨.blv, 0x8a0, 0, 1, 4, [⟨3, 0, .rw, 8⟩]⟩)]

/-- Registers of page type SGN, with place and fields. -/
def regsSgn0 : List (Reg × RegInfo) :=
  [(.sgStat, ⟨.sgn, 0x40, 0, 1, 4, [⟨31, 31, .ro, 0⟩, ⟨30, 30, .ro, 0⟩, ⟨29, 29, .ro, 0⟩, ⟨28, 28, .ro, 0⟩]⟩),
   (.sgMigcnt, ⟨.sgn, 0x44, 0, 1, 4, [⟨31, 0, .ro, 0⟩]⟩),
   (.sgRecSel, ⟨.sgn, 0x48, 0, 1, 4, [⟨19, 0, .rw, 0⟩]⟩),
   (.sgRec0, ⟨.sgn, 0x4c, 0, 1, 4, [⟨31, 31, .ro, 0⟩, ⟨30, 30, .ro, 0⟩, ⟨29, 29, .ro, 0⟩, ⟨28, 28, .ro, 0⟩, ⟨27, 27, .ro, 0⟩, ⟨26, 24, .ro, 0⟩, ⟨15, 0, .ro, 0⟩]⟩),
   (.sgRec1, ⟨.sgn, 0x50, 0, 1, 4, [⟨31, 16, .ro, 0⟩]⟩),
   (.sgRec2, ⟨.sgn, 0x54, 0, 1, 4, [⟨31, 31, .ro, 0⟩, ⟨30, 30, .ro, 0⟩, ⟨29, 29, .ro, 0⟩, ⟨28, 24, .ro, 0⟩, ⟨23, 12, .ro, 0⟩, ⟨11, 11, .ro, 0⟩]⟩),
   (.sgRecBanks, ⟨.sgn, 0x58, 0, 1, 8, [⟨63, 0, .ro, 0⟩]⟩),
   (.sgAffSel, ⟨.sgn, 0x60, 0, 1, 4, [⟨5, 0, .rw, 0⟩]⟩),
   (.sgAffBase, ⟨.sgn, 0x68, 0, 1, 8, [⟨63, 21, .rw, 0⟩]⟩),
   (.sgAffLimit, ⟨.sgn, 0x70, 0, 1, 8, [⟨63, 21, .rw, 0⟩]⟩),
   (.sgAffCtl, ⟨.sgn, 0x78, 0, 1, 4, [⟨31, 31, .rw, 0⟩, ⟨30, 30, .rw, 0⟩, ⟨8, 8, .rw, 0⟩, ⟨7, 7, .rw, 0⟩, ⟨6, 0, .rw, 0⟩]⟩),
   (.sgLogHead, ⟨.sgn, 0x80, 0, 1, 8, [⟨63, 0, .ro, 0⟩]⟩),
   (.sgLogRd, ⟨.sgn, 0x88, 0, 1, 8, [⟨63, 0, .rw, 0⟩]⟩),
   (.sgLogData, ⟨.sgn, 0x90, 4, 8, 4, [⟨31, 0, .ro, 0⟩]⟩),
   (.sgScoreSel, ⟨.sgn, 0xb0, 0, 1, 4, [⟨17, 16, .rw, 0⟩, ⟨5, 0, .rw, 0⟩]⟩),
   (.sgScore, ⟨.sgn, 0xb4, 0, 1, 4, [⟨31, 0, .ro, 0⟩]⟩),
   (.sgAvgLat, ⟨.sgn, 0xb8, 0, 1, 4, [⟨31, 0, .ro, 0⟩]⟩),
   (.sgAvgQ, ⟨.sgn, 0xbc, 0, 1, 4, [⟨31, 0, .ro, 0⟩]⟩),
   (.sgAvgLoad, ⟨.sgn, 0xc0, 0, 1, 4, [⟨31, 0, .ro, 0⟩]⟩),
   (.sgPinSub, ⟨.sgn, 0x800, 0, 1, 4, [⟨19, 0, .rw, 0⟩]⟩),
   (.sgPinCtl, ⟨.sgn, 0x804, 0, 1, 4, [⟨31, 31, .sc, 0⟩, ⟨11, 11, .rw, 0⟩, ⟨10, 8, .rw, 0⟩, ⟨1, 1, .rw, 0⟩, ⟨0, 0, .rw, 0⟩]⟩),
   (.sgFnSel, ⟨.sgn, 0x808, 0, 1, 4, [⟨7, 7, .rw, 0⟩, ⟨6, 0, .rw, 0⟩]⟩),
   (.sgExcl, ⟨.sgn, 0x810, 0, 1, 8, [⟨63, 0, .rw, 0⟩]⟩),
   (.sgExclAll, ⟨.sgn, 0x818, 0, 1, 8, [⟨63, 0, .rw, 0⟩]⟩),
   (.sgW, ⟨.sgn, 0x820, 4, 4, 4, [⟨31, 24, .rw, 0⟩, ⟨23, 16, .rw, 0⟩, ⟨15, 8, .rw, 0⟩, ⟨3, 0, .rw, 0⟩]⟩)]

/-- Registers of page type SGN, with place and fields. -/
def regsSgn1 : List (Reg × RegInfo) :=
  [(.sgH, ⟨.sgn, 0x830, 4, 4, 4, [⟨31, 0, .rw, 0⟩]⟩),
   (.sgMovRange, ⟨.sgn, 0x840, 0, 1, 4, [⟨27, 16, .rw, 0⟩, ⟨11, 0, .rw, 0⟩]⟩),
   (.sgBset, ⟨.sgn, 0x844, 0, 1, 4, [⟨3, 0, .rw, 0⟩]⟩),
   (.sgRebal, ⟨.sgn, 0x848, 0, 1, 4, [⟨31, 16, .rw, 0⟩, ⟨15, 0, .rw, 0⟩]⟩),
   (.sgCtl, ⟨.sgn, 0x84c, 0, 1, 4, [⟨31, 31, .rw, 0⟩]⟩)]

/-- Registers of page type JCT, with place and fields. -/
def regsJct : List (Reg × RegInfo) :=
  [(.jcStat, ⟨.jct, 0x40, 0, 1, 4, [⟨31, 31, .ro, 0⟩]⟩),
   (.jcOrph, ⟨.jct, 0x44, 0, 1, 4, [⟨31, 0, .ro, 0⟩]⟩),
   (.jcSpur, ⟨.jct, 0x48, 0, 1, 4, [⟨31, 0, .ro, 0⟩]⟩),
   (.jcCoal, ⟨.jct, 0x4c, 0, 1, 4, [⟨31, 0, .ro, 0⟩]⟩),
   (.jcEoierr, ⟨.jct, 0x50, 0, 1, 4, [⟨31, 0, .ro, 0⟩]⟩),
   (.jcBadw, ⟨.jct, 0x54, 0, 1, 4, [⟨31, 0, .ro, 0⟩]⟩),
   (.jcBadmsg, ⟨.jct, 0x58, 0, 1, 4, [⟨31, 0, .ro, 0⟩]⟩),
   (.srcSel, ⟨.jct, 0x60, 0, 1, 4, [⟨13, 0, .rw, 0⟩]⟩),
   (.srcStat, ⟨.jct, 0x64, 0, 1, 4, [⟨31, 31, .ro, 0⟩, ⟨30, 30, .ro, 0⟩, ⟨29, 29, .ro, 0⟩, ⟨28, 28, .ro, 0⟩, ⟨27, 26, .ro, 0⟩, ⟨25, 25, .ro, 0⟩, ⟨24, 24, .ro, 0⟩, ⟨22, 16, .ro, 127⟩]⟩),
   (.setPend, ⟨.jct, 0x70, 0, 1, 4, [⟨13, 0, .wo, 0⟩]⟩),
   (.clrPend, ⟨.jct, 0x74, 0, 1, 4, [⟨13, 0, .wo, 0⟩]⟩),
   (.setEn, ⟨.jct, 0x78, 0, 1, 4, [⟨13, 0, .wo, 0⟩]⟩),
   (.clrEn, ⟨.jct, 0x7c, 0, 1, 4, [⟨13, 0, .wo, 0⟩]⟩),
   (.grpSel, ⟨.jct, 0x80, 0, 1, 4, [⟨7, 0, .rw, 0⟩]⟩),
   (.grpPend, ⟨.jct, 0x88, 0, 1, 8, [⟨63, 0, .ro, 0⟩]⟩),
   (.grpEn, ⟨.jct, 0x90, 0, 1, 8, [⟨63, 0, .ro, 0⟩]⟩),
   (.grpAct, ⟨.jct, 0x98, 0, 1, 8, [⟨63, 0, .ro, 0⟩]⟩),
   (.grpHold, ⟨.jct, 0xa0, 0, 1, 4, [⟨31, 31, .ro, 0⟩, ⟨15, 0, .ro, 0⟩]⟩),
   (.cpMap, ⟨.jct, 0xc0, 4, 8, 4, [⟨31, 0, .ro, 0⟩]⟩),
   (.privLatch, ⟨.jct, 0xe0, 0, 1, 4, [⟨17, 17, .ro, 0⟩, ⟨16, 16, .ro, 0⟩, ⟨15, 8, .ro, 0⟩, ⟨7, 0, .ro, 0⟩]⟩),
   (.srcTgt, ⟨.jct, 0x800, 0, 1, 8, [⟨63, 0, .rw, 0⟩]⟩),
   (.srcCtl, ⟨.jct, 0x808, 0, 1, 4, [⟨0, 0, .rw, 0⟩]⟩),
   (.grpHoldoff, ⟨.jct, 0x810, 0, 1, 4, [⟨15, 0, .rw, 0⟩]⟩)]

/-- Registers of page type DFF, with place and fields. -/
def regsDff : List (Reg × RegInfo) :=
  [(.ffSel, ⟨.dff, 0x40, 0, 1, 4, [⟨12, 0, .rw, 0⟩]⟩),
   (.ffCfg, ⟨.dff, 0x44, 0, 1, 4, [⟨4, 0, .rw, 0⟩]⟩),
   (.ffCount, ⟨.dff, 0x48, 0, 1, 4, [⟨20, 0, .ro, 0⟩]⟩),
   (.ffParts, ⟨.dff, 0x4c, 0, 1, 4, [⟨28, 24, .ro, 0⟩, ⟨20, 16, .ro, 0⟩]⟩),
   (.ffMid, ⟨.dff, 0x50, 0, 1, 4, [⟨20, 0, .ro, 0⟩]⟩),
   (.ffHwm, ⟨.dff, 0x54, 0, 1, 4, [⟨20, 0, .rw, 0⟩]⟩),
   (.poolFree, ⟨.dff, 0x58, 0, 1, 4, [⟨27, 0, .ro, 114995200⟩]⟩),
   (.ffStat, ⟨.dff, 0x5c, 0, 1, 4, [⟨31, 31, .rs, 0⟩, ⟨30, 30, .rs, 0⟩]⟩)]

/-- Registers of page type JNL, with place and fields. -/
def regsJnl : List (Reg × RegInfo) :=
  [(.jnHead, ⟨.jnl, 0x40, 0, 1, 8, [⟨63, 0, .ro, 0⟩]⟩),
   (.jnWrap, ⟨.jnl, 0x48, 0, 1, 4, [⟨31, 0, .ro, 0⟩]⟩),
   (.jnStat, ⟨.jnl, 0x4c, 0, 1, 4, [⟨31, 31, .ro, 0⟩, ⟨30, 30, .rs, 0⟩]⟩),
   (.jnRd, ⟨.jnl, 0x50, 0, 1, 8, [⟨63, 0, .rw, 0⟩]⟩),
   (.jnData, ⟨.jnl, 0x80, 4, 16, 4, [⟨31, 0, .ro, 0⟩]⟩),
   (.jnWaits, ⟨.jnl, 0xc0, 0, 1, 4, [⟨31, 0, .ro, 0⟩]⟩),
   (.jnLost, ⟨.jnl, 0xc4, 0, 1, 4, [⟨31, 0, .ro, 0⟩]⟩),
   (.jnMark, ⟨.jnl, 0x800, 0, 1, 4, [⟨31, 0, .wo, 0⟩]⟩)]

/-- Registers of page type AUD, with place and fields. -/
def regsAud : List (Reg × RegInfo) :=
  [(.auHead, ⟨.aud, 0x40, 0, 1, 8, [⟨63, 0, .ro, 0⟩]⟩),
   (.auWrap, ⟨.aud, 0x48, 0, 1, 4, [⟨31, 0, .ro, 0⟩]⟩),
   (.auStat, ⟨.aud, 0x4c, 0, 1, 4, [⟨31, 31, .ro, 0⟩, ⟨30, 30, .rs, 0⟩, ⟨29, 29, .rs, 0⟩]⟩),
   (.auRd, ⟨.aud, 0x50, 0, 1, 8, [⟨63, 0, .rw, 0⟩]⟩),
   (.auData, ⟨.aud, 0x60, 4, 8, 4, [⟨31, 0, .ro, 0⟩]⟩),
   (.auXlost, ⟨.aud, 0x80, 0, 1, 4, [⟨31, 0, .ro, 0⟩]⟩),
   (.auExpBase, ⟨.aud, 0xa0, 0, 1, 8, [⟨63, 12, .rw, 0⟩]⟩),
   (.auExpCtl, ⟨.aud, 0xa8, 0, 1, 4, [⟨31, 31, .rw, 0⟩, ⟨27, 24, .rw, 0⟩, ⟨7, 7, .rw, 0⟩, ⟨6, 0, .rw, 0⟩]⟩),
   (.auExpStart, ⟨.aud, 0xb0, 0, 1, 8, [⟨63, 0, .rw, 0⟩]⟩),
   (.auExpNext, ⟨.aud, 0xb8, 0, 1, 8, [⟨63, 0, .ro, 0⟩]⟩),
   (.auExpCons, ⟨.aud, 0xc0, 0, 1, 4, [⟨31, 0, .rw, 0⟩]⟩),
   (.auExpProd, ⟨.aud, 0xc4, 0, 1, 4, [⟨31, 0, .ro, 0⟩]⟩)]

/-- Registers of page type TIM, with place and fields. -/
def regsTim : List (Reg × RegInfo) :=
  [(.tbTime, ⟨.tim, 0x40, 0, 1, 8, [⟨63, 0, .ro, 0⟩]⟩),
   (.tbStat, ⟨.tim, 0x48, 0, 1, 4, [⟨31, 31, .ro, 0⟩, ⟨30, 30, .ro, 0⟩]⟩),
   (.tbOffset, ⟨.tim, 0x50, 0, 1, 8, [⟨63, 0, .ro, 0⟩]⟩),
   (.tbCap, ⟨.tim, 0x58, 0, 1, 8, [⟨63, 0, .ro, 0⟩]⟩),
   (.tbSteps, ⟨.tim, 0x60, 0, 1, 4, [⟨31, 0, .ro, 0⟩]⟩),
   (.tmSel, ⟨.tim, 0x80, 0, 1, 4, [⟨7, 0, .rw, 0⟩]⟩),
   (.tmCmp, ⟨.tim, 0x88, 0, 1, 8, [⟨63, 0, .rw, 0⟩]⟩),
   (.tmPeriod, ⟨.tim, 0x90, 0, 1, 8, [⟨63, 0, .rw, 0⟩]⟩),
   (.tmCtl, ⟨.tim, 0x98, 0, 1, 4, [⟨31, 31, .rw, 0⟩]⟩),
   (.tmFires, ⟨.tim, 0xa0, 0, 1, 4, [⟨31, 0, .ro, 0⟩]⟩),
   (.tmMiss, ⟨.tim, 0xa4, 0, 1, 4, [⟨31, 0, .ro, 0⟩]⟩),
   (.tmGpioIn, ⟨.tim, 0xc0, 0, 1, 4, [⟨15, 0, .ro, 0⟩]⟩),
   (.tmGpioOut, ⟨.tim, 0xc4, 0, 1, 4, [⟨15, 0, .ro, 0⟩]⟩),
   (.tmGpioSet, ⟨.tim, 0xc8, 0, 1, 4, [⟨15, 0, .wo, 0⟩]⟩),
   (.tmGpioClr, ⟨.tim, 0xcc, 0, 1, 4, [⟨15, 0, .wo, 0⟩]⟩),
   (.tmGpioFn, ⟨.tim, 0xd0, 4, 16, 4, [⟨15, 0, .ro, 0⟩]⟩),
   (.tbCtl, ⟨.tim, 0x800, 0, 1, 4, [⟨31, 30, .rw, 0⟩, ⟨15, 0, .rw, 10⟩]⟩),
   (.tbStep, ⟨.tim, 0x804, 0, 1, 4, [⟨31, 0, .rw, 1000⟩]⟩),
   (.tbSlew, ⟨.tim, 0x808, 0, 1, 4, [⟨9, 0, .rw, 500⟩]⟩)]

/-- Registers of page type HBM, with place and fields. -/
def regsHbm : List (Reg × RegInfo) :=
  [(.hbStat, ⟨.hbm, 0x40, 0, 1, 4, [⟨31, 30, .ro, 0⟩]⟩),
   (.hbCe, ⟨.hbm, 0x44, 0, 1, 4, [⟨31, 0, .ro, 0⟩]⟩),
   (.hbUe, ⟨.hbm, 0x48, 0, 1, 4, [⟨31, 0, .ro, 0⟩]⟩),
   (.hbUeaddr, ⟨.hbm, 0x50, 0, 1, 8, [⟨63, 0, .ro, 0⟩]⟩),
   (.hbPpr, ⟨.hbm, 0x58, 0, 1, 4, [⟨15, 0, .ro, 0⟩]⟩),
   (.hbScrub, ⟨.hbm, 0x5c, 0, 1, 4, [⟨31, 0, .ro, 0⟩]⟩),
   (.hbScrubCtl, ⟨.hbm, 0x800, 0, 1, 4, [⟨31, 31, .rw, 1⟩, ⟨15, 0, .rw, 24⟩]⟩)]

/-- Registers of page type THM, with place and fields. -/
def regsThm : List (Reg × RegInfo) :=
  [(.thStat, ⟨.thm, 0x40, 0, 1, 4, [⟨31, 31, .ro, 0⟩, ⟨30, 30, .ro, 0⟩, ⟨29, 29, .ro, 0⟩, ⟨28, 27, .ro, 0⟩, ⟨15, 0, .ro, 0⟩]⟩),
   (.thTj, ⟨.thm, 0x44, 4, 12, 4, [⟨15, 0, .ro, 0⟩]⟩),
   (.thPwr, ⟨.thm, 0x80, 0, 1, 4, [⟨15, 0, .ro, 0⟩]⟩),
   (.thClk, ⟨.thm, 0x84, 0, 1, 4, [⟨3, 3, .ro, 1⟩, ⟨2, 2, .ro, 0⟩, ⟨1, 1, .ro, 0⟩, ⟨0, 0, .ro, 0⟩]⟩),
   (.thVreq, ⟨.thm, 0x88, 0, 1, 4, [⟨15, 0, .ro, 800⟩]⟩),
   (.thThrcnt, ⟨.thm, 0x8c, 0, 1, 4, [⟨31, 0, .ro, 0⟩]⟩),
   (.thWarn, ⟨.thm, 0x800, 0, 1, 4, [⟨15, 0, .rw, 1520⟩]⟩),
   (.thThrot, ⟨.thm, 0x804, 0, 1, 4, [⟨15, 0, .rw, 1648⟩]⟩),
   (.thPlim, ⟨.thm, 0x808, 0, 1, 4, [⟨15, 0, .rw, 240⟩]⟩),
   (.thGate, ⟨.thm, 0x80c, 0, 1, 4, [⟨31, 31, .rw, 1⟩, ⟨7, 0, .rw, 10⟩]⟩)]

/-- Registers of page type RPR, with place and fields. -/
def regsRpr : List (Reg × RegInfo) :=
  [(.rpStat, ⟨.rpr, 0x40, 0, 1, 4, [⟨31, 31, .ro, 0⟩, ⟨30, 30, .ro, 0⟩, ⟨29, 29, .ro, 0⟩, ⟨28, 28, .ro, 0⟩, ⟨27, 27, .ro, 0⟩]⟩),
   (.rpCnt, ⟨.rpr, 0x44, 4, 5, 4, [⟨31, 0, .ro, 0⟩]⟩),
   (.rpLastf, ⟨.rpr, 0x58, 0, 1, 4, [⟨31, 28, .ro, 0⟩, ⟨27, 20, .ro, 0⟩, ⟨19, 0, .ro, 0⟩]⟩),
   (.rpSel, ⟨.rpr, 0x60, 0, 1, 4, [⟨3, 0, .rw, 0⟩]⟩),
   (.rpTotal, ⟨.rpr, 0x64, 0, 1, 4, [⟨15, 0, .ro, 0⟩]⟩),
   (.rpUsed, ⟨.rpr, 0x68, 0, 1, 4, [⟨15, 0, .ro, 0⟩]⟩),
   (.rpBudget, ⟨.rpr, 0x6c, 0, 1, 4, [⟨15, 0, .ro, 0⟩]⟩),
   (.rpHours, ⟨.rpr, 0x70, 0, 1, 4, [⟨31, 0, .ro, 0⟩]⟩),
   (.rpTjavg, ⟨.rpr, 0x74, 0, 1, 4, [⟨15, 0, .ro, 0⟩]⟩),
   (.rpPol, ⟨.rpr, 0x800, 0, 1, 4, [⟨2, 2, .rw, 0⟩, ⟨1, 1, .rw, 0⟩, ⟨0, 0, .rw, 1⟩]⟩),
   (.rpInj, ⟨.rpr, 0x804, 0, 1, 4, [⟨31, 31, .sc, 0⟩, ⟨27, 20, .rw, 0⟩, ⟨19, 0, .rw, 0⟩]⟩)]

/-- Registers of page type DBG, with place and fields. -/
def regsDbg : List (Reg × RegInfo) :=
  [(.fzStat, ⟨.dbg, 0x40, 0, 1, 4, [⟨31, 31, .ro, 0⟩, ⟨30, 30, .ro, 0⟩, ⟨7, 4, .ro, 0⟩, ⟨3, 0, .ro, 0⟩]⟩),
   (.fzTime, ⟨.dbg, 0x48, 0, 1, 8, [⟨63, 0, .ro, 0⟩]⟩),
   (.trCtl, ⟨.dbg, 0x50, 0, 1, 4, [⟨31, 31, .rw, 0⟩, ⟨6, 0, .rw, 0⟩]⟩),
   (.trHead, ⟨.dbg, 0x58, 0, 1, 8, [⟨63, 0, .ro, 0⟩]⟩),
   (.trRd, ⟨.dbg, 0x60, 0, 1, 8, [⟨63, 0, .rw, 0⟩]⟩),
   (.trData, ⟨.dbg, 0x68, 4, 8, 4, [⟨31, 0, .ro, 0⟩]⟩),
   (.dbSwtrace, ⟨.dbg, 0x88, 0, 1, 8, [⟨63, 0, .wo, 0⟩]⟩),
   (.dbCntSel, ⟨.dbg, 0xa0, 4, 8, 4, [⟨7, 0, .rw, 0⟩]⟩),
   (.dbCnt, ⟨.dbg, 0xc0, 8, 8, 8, [⟨63, 0, .ro, 0⟩]⟩),
   (.dbSnap, ⟨.dbg, 0x100, 0, 1, 4, [⟨0, 0, .sc, 0⟩]⟩),
   (.dbSnapCnt, ⟨.dbg, 0x108, 8, 8, 8, [⟨63, 0, .ro, 0⟩]⟩),
   (.fzCtl, ⟨.dbg, 0x800, 0, 1, 4, [⟨31, 31, .sc, 0⟩]⟩),
   (.fzPol, ⟨.dbg, 0x804, 0, 1, 4, [⟨0, 0, .rw, 1⟩]⟩),
   (.dbBkgrant0, ⟨.dbg, 0x808, 0, 1, 8, [⟨63, 0, .rw, 0⟩]⟩),
   (.dbBkgrant1, ⟨.dbg, 0x810, 0, 1, 4, [⟨7, 0, .rw, 0⟩]⟩),
   (.dbCpsel, ⟨.dbg, 0x818, 0, 1, 4, [⟨6, 0, .rw, 0⟩]⟩),
   (.dbCpctl, ⟨.dbg, 0x81c, 0, 1, 4, [⟨31, 31, .sc, 0⟩, ⟨30, 30, .ro, 0⟩]⟩),
   (.dbCpreg, ⟨.dbg, 0x820, 4, 35, 4, [⟨31, 0, .rw, 0⟩]⟩)]

/-- Registers of page type UPT, with place and fields. -/
def regsUpt : List (Reg × RegInfo) :=
  [(.upStat, ⟨.upt, 0x40, 0, 1, 4, [⟨31, 28, .ro, 0⟩, ⟨27, 25, .ro, 0⟩, ⟨24, 20, .ro, 0⟩, ⟨19, 19, .ro, 0⟩, ⟨18, 18, .ro, 0⟩, ⟨17, 16, .ro, 0⟩, ⟨15, 15, .ro, 0⟩]⟩),
   (.upCfg, ⟨.upt, 0x44, 0, 1, 4, [⟨31, 31, .ro, 0⟩, ⟨30, 30, .ro, 0⟩, ⟨29, 29, .ro, 0⟩]⟩),
   (.dswStat, ⟨.upt, 0x48, 0, 1, 4, [⟨31, 31, .rs, 0⟩]⟩),
   (.upRecov, ⟨.upt, 0x4c, 0, 1, 4, [⟨31, 0, .ro, 0⟩]⟩),
   (.upReplay, ⟨.upt, 0x50, 0, 1, 4, [⟨31, 0, .ro, 0⟩]⟩),
   (.upAtsinv, ⟨.upt, 0x54, 0, 1, 4, [⟨31, 0, .ro, 0⟩]⟩),
   (.upVfvec, ⟨.upt, 0x58, 0, 1, 4, [⟨11, 0, .rw, 64⟩]⟩),
   (.upFnSel, ⟨.upt, 0x5c, 0, 1, 4, [⟨6, 0, .rw, 0⟩]⟩),
   (.upFnpasid, ⟨.upt, 0x60, 0, 1, 4, [⟨31, 31, .rw, 0⟩, ⟨19, 0, .rw, 0⟩]⟩),
   (.upMctp, ⟨.upt, 0x64, 0, 1, 4, [⟨31, 31, .rw, 0⟩, ⟨7, 0, .ro, 0⟩]⟩),
   (.upLctl, ⟨.upt, 0x800, 0, 1, 4, [⟨31, 31, .rw, 1⟩, ⟨30, 28, .rw, 6⟩]⟩),
   (.upAtc, ⟨.upt, 0x804, 0, 1, 4, [⟨31, 31, .sc, 0⟩]⟩)]

/-- Registers of page type AVE, with place and fields. -/
def regsAve : List (Reg × RegInfo) :=
  [(.avStat, ⟨.ave, 0x40, 0, 1, 4, [⟨31, 30, .ro, 0⟩, ⟨15, 0, .ro, 0⟩]⟩),
   (.avLerr, ⟨.ave, 0x44, 4, 16, 4, [⟨31, 0, .ro, 0⟩]⟩),
   (.avCfg, ⟨.ave, 0x800, 0, 1, 4, [⟨31, 30, .rw, 0⟩]⟩)]

/-- Registers of page type DST, with place and fields. -/
def regsDst : List (Reg × RegInfo) :=
  [(.dsStat, ⟨.dst, 0x40, 0, 1, 4, [⟨31, 28, .ro, 0⟩, ⟨27, 27, .ro, 0⟩, ⟨26, 26, .ro, 0⟩, ⟨25, 25, .ro, 0⟩, ⟨24, 24, .ro, 0⟩, ⟨8, 0, .ro, 0⟩]⟩),
   (.dsFreq, ⟨.dst, 0x44, 0, 1, 4, [⟨15, 0, .ro, 0⟩]⟩),
   (.dsVneed, ⟨.dst, 0x48, 0, 1, 4, [⟨31, 16, .ro, 0⟩, ⟨15, 0, .ro, 0⟩]⟩),
   (.dsCanary, ⟨.dst, 0x4c, 0, 1, 4, [⟨31, 16, .ro, 0⟩, ⟨15, 0, .ro, 0⟩]⟩),
   (.dsHbmiss, ⟨.dst, 0x50, 0, 1, 4, [⟨31, 0, .ro, 0⟩]⟩),
   (.dsFailov, ⟨.dst, 0x54, 0, 1, 4, [⟨31, 0, .ro, 0⟩]⟩),
   (.dsSeg, ⟨.dst, 0x58, 0, 1, 4, [⟨1, 0, .ro, 0⟩]⟩),
   (.dsRotLast, ⟨.dst, 0x60, 0, 1, 8, [⟨63, 0, .ro, 0⟩]⟩),
   (.dsLedger, ⟨.dst, 0x68, 0, 1, 4, [⟨11, 0, .ro, 0⟩]⟩),
   (.dsRotCtl, ⟨.dst, 0x800, 0, 1, 4, [⟨31, 31, .sc, 0⟩, ⟨7, 0, .rw, 24⟩]⟩),
   (.dsFcap, ⟨.dst, 0x804, 0, 1, 4, [⟨15, 0, .rw, 0⟩]⟩)]

/-- Registers of page type DPT, with place and fields. -/
def regsDpt : List (Reg × RegInfo) :=
  [(.dpStat, ⟨.dpt, 0x40, 0, 1, 4, [⟨31, 28, .ro, 0⟩, ⟨27, 25, .ro, 0⟩, ⟨24, 20, .ro, 0⟩, ⟨19, 19, .ro, 0⟩, ⟨18, 18, .ro, 0⟩, ⟨17, 17, .ro, 0⟩, ⟨16, 16, .ro, 0⟩, ⟨15, 15, .ro, 0⟩, ⟨14, 14, .ro, 0⟩]⟩),
   (.dpMaxw, ⟨.dpt, 0x44, 0, 1, 4, [⟨4, 0, .ro, 0⟩]⟩),
   (.dpAerunc, ⟨.dpt, 0x48, 0, 1, 4, [⟨31, 0, .ro, 0⟩]⟩),
   (.dpAercor, ⟨.dpt, 0x4c, 0, 1, 4, [⟨31, 0, .ro, 0⟩]⟩),
   (.dpCtocnt, ⟨.dpt, 0x50, 0, 1, 4, [⟨31, 0, .ro, 0⟩]⟩),
   (.dpBadreq, ⟨.dpt, 0x54, 0, 1, 4, [⟨31, 0, .ro, 0⟩]⟩),
   (.dpBadaddr, ⟨.dpt, 0x58, 0, 1, 8, [⟨63, 0, .ro, 0⟩]⟩),
   (.dpCtl, ⟨.dpt, 0x60, 0, 1, 4, [⟨31, 31, .rw, 1⟩, ⟨30, 30, .sc, 0⟩, ⟨29, 27, .rw, 6⟩, ⟨26, 26, .rw, 0⟩, ⟨25, 25, .rw, 0⟩, ⟨24, 24, .rw, 0⟩, ⟨23, 23, .rw, 0⟩, ⟨22, 22, .sc, 0⟩]⟩),
   (.dpCto, ⟨.dpt, 0x64, 0, 1, 4, [⟨31, 0, .rw, 50000⟩]⟩),
   (.dpLdwait, ⟨.dpt, 0x68, 0, 1, 4, [⟨15, 0, .rw, 50⟩]⟩),
   (.dpLretry, ⟨.dpt, 0x800, 0, 1, 4, [⟨0, 0, .sc, 0⟩]⟩)]

/-- Registers of page type PLZ, with place and fields. -/
def regsPlz : List (Reg × RegInfo) :=
  [(.bkStat, ⟨.plz, 0x40, 0, 1, 4, [⟨31, 30, .ro, 0⟩, ⟨12, 8, .ro, 0⟩, ⟨2, 0, .ro, 0⟩]⟩),
   (.bkUse, ⟨.plz, 0x44, 0, 1, 4, [⟨24, 16, .ro, 0⟩, ⟨8, 0, .ro, 0⟩]⟩),
   (.bkFenced, ⟨.plz, 0x48, 0, 1, 4, [⟨8, 0, .ro, 0⟩]⟩),
   (.crcErr, ⟨.plz, 0x4c, 0, 1, 4, [⟨31, 0, .ro, 0⟩]⟩),
   (.resendOk, ⟨.plz, 0x50, 0, 1, 4, [⟨31, 0, .ro, 0⟩]⟩),
   (.resendFail, ⟨.plz, 0x54, 0, 1, 4, [⟨31, 0, .ro, 0⟩]⟩),
   (.plzWatchThr, ⟨.plz, 0x60, 4, 4, 4, [⟨31, 0, .rw, 65535⟩]⟩),
   (.plzWatchMax, ⟨.plz, 0x70, 4, 4, 4, [⟨31, 0, .ro, 0⟩]⟩),
   (.plzWatchOvr, ⟨.plz, 0x80, 4, 4, 4, [⟨31, 0, .ro, 0⟩]⟩),
   (.plzWatchClr, ⟨.plz, 0x90, 0, 1, 4, [⟨3, 0, .sc, 0⟩]⟩),
   (.pzSlices, ⟨.plz, 0x100, 0, 1, 4, [⟨14, 0, .ro, 0⟩]⟩),
   (.pzFree, ⟨.plz, 0x104, 0, 1, 4, [⟨14, 0, .ro, 0⟩]⟩),
   (.pzStat, ⟨.plz, 0x108, 0, 1, 4, [⟨31, 31, .ro, 0⟩, ⟨2, 0, .ro, 0⟩]⟩),
   (.pzHeld, ⟨.plz, 0x110, 4, 4, 4, [⟨14, 0, .ro, 0⟩]⟩),
   (.pzWait, ⟨.plz, 0x120, 4, 4, 4, [⟨15, 0, .ro, 0⟩]⟩),
   (.bkArb, ⟨.plz, 0x800, 0, 1, 4, [⟨0, 0, .rw, 0⟩]⟩),
   (.pzQuota, ⟨.plz, 0x900, 4, 4, 4, [⟨30, 16, .rw, 0⟩, ⟨14, 0, .rw, 0⟩]⟩),
   (.pzResend, ⟨.plz, 0x910, 0, 1, 4, [⟨31, 16, .rw, 50⟩, ⟨2, 0, .rw, 3⟩]⟩)]

/-- Registers of page type MOV, with place and fields. -/
def regsMov : List (Reg × RegInfo) :=
  [(.chStat, ⟨.mov, 0x400, 16, 64, 4, [⟨31, 28, .ro, 0⟩, ⟨27, 27, .ro, 0⟩, ⟨23, 16, .ro, 0⟩, ⟨15, 0, .ro, 0⟩]⟩),
   (.chBytes, ⟨.mov, 0x408, 16, 64, 8, [⟨63, 0, .ro, 0⟩]⟩),
   (.chCtl, ⟨.mov, 0x800, 32, 64, 4, [⟨31, 31, .rw, 0⟩, ⟨30, 30, .sc, 0⟩, ⟨29, 29, .sc, 0⟩]⟩),
   (.chCfg, ⟨.mov, 0x804, 32, 64, 4, [⟨31, 29, .rw, 4⟩, ⟨28, 27, .rw, 2⟩, ⟨26, 24, .rw, 4⟩, ⟨23, 20, .rw, 3⟩, ⟨19, 15, .rw, 0⟩, ⟨14, 14, .rw, 0⟩, ⟨7, 7, .rw, 0⟩, ⟨6, 0, .rw, 127⟩]⟩),
   (.chProg, ⟨.mov, 0x808, 32, 64, 8, [⟨63, 6, .rw, 0⟩, ⟨5, 4, .rw, 0⟩]⟩),
   (.chBuf, ⟨.mov, 0x810, 32, 64, 4, [⟨31, 1, .rw, 0⟩]⟩),
   (.chLink, ⟨.mov, 0x814, 32, 64, 4, [⟨31, 28, .rw, 0⟩, ⟨27, 16, .rw, 0⟩, ⟨14, 12, .rw, 0⟩, ⟨11, 0, .rw, 0⟩]⟩),
   (.chPc, ⟨.mov, 0x818, 32, 64, 8, [⟨63, 0, .ro, 0⟩]⟩),
   (.grpRun, ⟨.mov, 0x40, 0, 1, 8, [⟨63, 0, .ro, 0⟩]⟩),
   (.grpHalt, ⟨.mov, 0x48, 0, 1, 8, [⟨63, 0, .ro, 0⟩]⟩),
   (.grpUse, ⟨.mov, 0x50, 0, 1, 8, [⟨63, 0, .ro, 0⟩]⟩),
   (.grpTovr, ⟨.mov, 0x58, 0, 1, 4, [⟨31, 0, .ro, 0⟩]⟩),
   (.chFaddr, ⟨.mov, 0x100, 8, 64, 8, [⟨63, 0, .ro, 0⟩]⟩)]

/-- Registers of page type CPC, with place and fields. -/
def regsCpc : List (Reg × RegInfo) :=
  [(.cpStat, ⟨.cpc, 0x40, 0, 1, 4, [⟨31, 28, .ro, 3⟩, ⟨27, 26, .ro, 1⟩, ⟨25, 25, .ro, 1⟩, ⟨24, 24, .ro, 0⟩, ⟨23, 23, .rs, 0⟩, ⟨22, 22, .rs, 0⟩]⟩),
   (.cpPc, ⟨.cpc, 0x44, 0, 1, 4, [⟨31, 0, .ro, 0⟩]⟩),
   (.cpStaddr, ⟨.cpc, 0x48, 0, 1, 4, [⟨31, 0, .ro, 0⟩]⟩),
   (.cpExcnt, ⟨.cpc, 0x4c, 0, 1, 4, [⟨31, 0, .ro, 0⟩]⟩),
   (.cpSstop, ⟨.cpc, 0x50, 0, 1, 4, [⟨31, 0, .ro, 0⟩]⟩),
   (.cpCyc, ⟨.cpc, 0x58, 0, 1, 8, [⟨63, 0, .ro, 0⟩]⟩)]

/-- Registers of page type RNG, with place and fields. -/
def regsRng : List (Reg × RegInfo) :=
  [(.srBase, ⟨.rng, 0x100, 32, 16, 8, [⟨63, 10, .rw, 0⟩]⟩),
   (.srShadow, ⟨.rng, 0x108, 32, 16, 8, [⟨63, 3, .rw, 0⟩]⟩),
   (.srCtl, ⟨.rng, 0x110, 32, 16, 4, [⟨31, 31, .rw, 0⟩, ⟨30, 30, .rw, 0⟩, ⟨27, 24, .rw, 0⟩, ⟨15, 0, .rw, 999⟩]⟩),
   (.srOwn, ⟨.rng, 0x114, 32, 16, 4, [⟨7, 7, .rw, 0⟩, ⟨6, 0, .rw, 127⟩]⟩),
   (.srCons, ⟨.rng, 0x118, 32, 16, 4, [⟨31, 0, .ro, 0⟩]⟩),
   (.srStat, ⟨.rng, 0x11c, 32, 16, 4, [⟨31, 31, .ro, 1⟩, ⟨30, 30, .rs, 0⟩, ⟨29, 29, .rs, 0⟩, ⟨28, 28, .rs, 0⟩, ⟨27, 24, .ro, 0⟩, ⟨15, 0, .ro, 0⟩]⟩),
   (.crBase, ⟨.rng, 0x300, 64, 16, 8, [⟨63, 9, .rw, 0⟩]⟩),
   (.crCtl, ⟨.rng, 0x308, 64, 16, 4, [⟨31, 31, .rw, 0⟩, ⟨30, 30, .rw, 0⟩, ⟨29, 29, .rw, 0⟩, ⟨27, 24, .rw, 0⟩, ⟨10, 0, .rw, 0⟩]⟩),
   (.crOwn, ⟨.rng, 0x30c, 64, 16, 4, [⟨7, 7, .rw, 0⟩, ⟨6, 0, .rw, 127⟩]⟩),
   (.crMod, ⟨.rng, 0x310, 64, 16, 4, [⟨31, 16, .rw, 0⟩, ⟨15, 0, .rw, 0⟩]⟩),
   (.crProd, ⟨.rng, 0x314, 64, 16, 4, [⟨31, 0, .ro, 0⟩]⟩),
   (.crCons, ⟨.rng, 0x318, 64, 16, 4, [⟨31, 0, .ro, 0⟩]⟩),
   (.crStat, ⟨.rng, 0x31c, 64, 16, 4, [⟨31, 31, .ro, 1⟩, ⟨30, 30, .ro, 0⟩, ⟨29, 29, .ro, 0⟩, ⟨28, 28, .ro, 0⟩, ⟨27, 27, .ro, 0⟩, ⟨26, 26, .rs, 0⟩, ⟨25, 25, .rs, 0⟩, ⟨24, 24, .rs, 0⟩, ⟨23, 23, .rs, 0⟩, ⟨15, 0, .ro, 0⟩]⟩),
   (.crFifo, ⟨.rng, 0x320, 64, 16, 4, [⟨20, 0, .ro, 0⟩]⟩),
   (.crStalled, ⟨.rng, 0x324, 64, 16, 4, [⟨18, 0, .ro, 0⟩]⟩),
   (.rgEn, ⟨.rng, 0x40, 0, 1, 4, [⟨31, 0, .ro, 0⟩]⟩)]

/-- The registers of a page type. -/
def pageRegs (t : PageTy) : List (Reg × RegInfo) :=
  match t with
  | .hdr => regsHdr
  | .glb => regsGlb
  | .sec => regsSec
  | .blv => regsBlv
  | .sgn => regsSgn0 ++ regsSgn1
  | .jct => regsJct
  | .dff => regsDff
  | .jnl => regsJnl
  | .aud => regsAud
  | .tim => regsTim
  | .hbm => regsHbm
  | .thm => regsThm
  | .rpr => regsRpr
  | .dbg => regsDbg
  | .upt => regsUpt
  | .ave => regsAve
  | .dst => regsDst
  | .dpt => regsDpt
  | .plz => regsPlz
  | .mov => regsMov
  | .cpc => regsCpc
  | .rng => regsRng

/-- Every register. -/
def Reg.table : List (Reg × RegInfo) :=
  pageRegs .hdr ++ pageRegs .glb ++ pageRegs .sec ++ pageRegs .blv ++ pageRegs .sgn ++ pageRegs .jct ++ pageRegs .dff ++ pageRegs .jnl ++ pageRegs .aud ++ pageRegs .tim ++ pageRegs .hbm
  ++ pageRegs .thm ++ pageRegs .rpr ++ pageRegs .dbg ++ pageRegs .upt ++ pageRegs .ave ++ pageRegs .dst ++ pageRegs .dpt ++ pageRegs .plz ++ pageRegs .mov ++ pageRegs .cpc ++ pageRegs .rng

/-- The place and fields a table gives a register; an empty place where it has none. -/
def regLookup (r : Reg) : List (Reg × RegInfo) → RegInfo
  | [] => ⟨.hdr, 0, 0, 0, 4, []⟩
  | (q, i) :: t => if q = r then i else regLookup r t

/-- Where a register lies and what its fields are (the spec's field tables). -/
def Reg.info (r : Reg) : RegInfo := regLookup r Reg.table

end Sys2Proof.Machine
end

