-- ==== Sys2Proof/Machine/Ops.lean ====
section
/-!
DEFINITION. The named operations every meaning is written over: sparse tables, bit fields, little-endian bytes, the
cells of Plaza, the registers of BAR 0, origins, time and free values, and how a meaning runs.
-/
namespace Sys2Proof.Machine

open Sys2Proof

/-! ### Sparse tables -/

/-- What key `k` holds; `d` where it is absent. -/
def tget {α : Type} : Tbl α → Nat → α → α
  | [], _, d => d
  | (j, v) :: t, k, d => if j = k then v else tget t k d

/-- The table without key `k`. -/
def tdel {α : Type} : Tbl α → Nat → Tbl α
  | [], _ => []
  | (j, v) :: t, k => if j = k then tdel t k else (j, v) :: tdel t k

/-- The table with `(k, v)` put before the first larger key. -/
def tins {α : Type} : Tbl α → Nat → α → Tbl α
  | [], k, v => [(k, v)]
  | (j, w) :: t, k, v => if k < j then (k, v) :: (j, w) :: t else (j, w) :: tins t k v

/-- Set key `k` to `v`; a value equal to the default `d` removes the entry, so that equal tables are equal data. -/
def tset {α : Type} [DecidableEq α] (t : Tbl α) (k : Nat) (v d : α) : Tbl α :=
  if v = d then tdel t k else tins (tdel t k) k v

/-- The canonical form: keys strictly rising, and no value equal to the default. -/
def tableWf {α : Type} [DecidableEq α] (d : α) : Tbl α → Bool
  | [] => true
  | [(_, v)] => v != d
  | (j, v) :: (k, w) :: t => decide (j < k) && (v != d) && tableWf d ((k, w) :: t)

/-! ### Bit fields and bytes -/

/-- Bits [hi:lo] of a word, as a number. -/
def bits {w : Nat} (x : BitVec w) (hi lo : Nat) : Nat := (x.toNat / 2 ^ lo) % 2 ^ (hi + 1 - lo)

/-- Bit n of a word. -/
def bit {w : Nat} (x : BitVec w) (n : Nat) : Bool := x.getLsbD n

/-- A word with bits [hi:lo] replaced by `v`. -/
def setBits {w : Nat} (x : BitVec w) (hi lo v : Nat) : BitVec w :=
  let m : BitVec w := BitVec.ofNat w ((2 ^ (hi + 1 - lo) - 1) * 2 ^ lo)
  (x &&& ~~~ m) ||| BitVec.ofNat w ((v % 2 ^ (hi + 1 - lo)) * 2 ^ lo)

/-- A word with bit n set or cleared. -/
def setBit {w : Nat} (x : BitVec w) (n : Nat) (b : Bool) : BitVec w := setBits x n n b.toNat

/-- The field [hi:lo] holding `v`, every other bit 0. -/
def fieldN (hi lo v : Nat) : Nat := (v % 2 ^ (hi + 1 - lo)) * 2 ^ lo

/-- The `n` bytes of a number, lowest first (R10). -/
def leBytes : Nat → Nat → List Byte
  | 0, _ => []
  | n + 1, x => BitVec.ofNat 8 x :: leBytes n (x / 256)

/-- The number a little-endian byte string spells (R10). -/
def leNat : List Byte → Nat
  | [] => 0
  | b :: t => b.toNat + 256 * leNat t

/-- Exactly `n` bytes: the string cut, or filled up with zeros. -/
def fitBytes (n : Nat) (l : List Byte) : List Byte := (l ++ List.replicate (n - l.length) 0).take n

/-- The numbers `a`, …, `a + n - 1`. -/
def span (a n : Nat) : List Nat := (List.range n).map (a + ·)

/-- Add one, staying at the largest value of the width. -/
def satInc {w : Nat} (x : BitVec w) : BitVec w := if x = BitVec.allOnes w then x else x + 1

/-- Replace element `i` of a list. -/
def lset {α : Type} (l : List α) (i : Nat) (v : α) : List α := l.set i v

/-- Element `i` of a list, `d` where there is none. -/
def lget {α : Type} (l : List α) (i : Nat) (d : α) : α := (l[i]?).getD d

/-! ### Plaza's cells (R220): an unlisted byte reads as 0 (log entry 8) -/

/-- The byte at an address. -/
def memGet (m : List Host.Cell) (a : Nat) : Byte := tget m a 0

/-- The cells with one byte written. -/
def memSet (m : List Host.Cell) (a : Nat) (b : Byte) : List Host.Cell := tset m a b 0

/-- `n` bytes from an address on. -/
def memRead (m : List Host.Cell) (a n : Nat) : List Byte := (span a n).map (memGet m)

/-- Bytes written from an address on. -/
def memWrite (m : List Host.Cell) : Nat → List Byte → List Host.Cell
  | _, [] => m
  | a, b :: t => memWrite (memSet m a b) (a + 1) t

/-- The canonical form of a memory. -/
def Memory.wf (m : List Host.Cell) : Bool := tableWf (0 : Byte) m

/-! ### CRC-32C (R227) -/

/-- Eight steps of the reflected polynomial 0x82F63B78. -/
def crcBits : Nat → Word → Word
  | 0, c => c
  | n + 1, c => crcBits n (if bit c 0 then (c >>> 1) ^^^ 0x82F63B78#32 else c >>> 1)

/-- CRC-32C of further bytes; `c` is the CRC of those before. -/
def crcMore (c : Word) (l : List Byte) : Word :=
  ~~~ (l.foldl (fun c b => crcBits 8 (c ^^^ b.zeroExtend 32)) (~~~ c))

/-- CRC-32C of a block (initial value and final inversion 0xFFFFFFFF). -/
def crc32c (l : List Byte) : Word := crcMore 0 l

/-! ### Time, free values and the output -/

/-- The next free value and the device with the counter advanced (log entry 3). -/
def freeNext (d : Dev) : QWord × Dev := (Config.freeValue d.freeCtr, { d with freeCtr := d.freeCtr + 1 })

/-- Send something outside. -/
def emit (o : Out) (d : Dev) : Dev := { d with out := d.out ++ [o] }

/-- The ring logic, the engine and the handlers act only while no Fatal fault stands (R436). -/
def live (f : Dev → Dev) (d : Dev) : Dev := if d.fatal then d else f d

/-! ### Shared resources (R418) -/

/-- The number of a shared resource: kind 0 GPIO pins, 1 timers, 2 scratch areas, 3 mover channels, 4 deep FIFOs. -/
def resKey (kind i : Nat) : Nat := kind * 65536 + i

/-! ### Functions and origins -/

/-- The number of a PCIe function: 65 to a port. -/
def fnKey (f : FnId) : Nat := f.port * 65 + f.fn

/-- A function as OWN_PORT and OWN_FN in eight bits (R90). -/
def fnCode (f : FnId) : Nat := f.port * 128 + f.fn

/-- The function a pair of fields names. -/
def fnOfCode (c : Nat) : FnId := ⟨c / 128 % 2, c % 128⟩

/-- A number for each origin, under which it keeps its own selections (R408). -/
def originKey : Origin → Nat
  | .hostPf p => p * 65
  | .hostVf p v => p * 65 + v
  | .bmc path => 130 + path
  | .elfort => 133
  | .jtag => 134
  | .cp i => 140 + i
  | .hw a => 300 + a

/-- The function behind a host origin. -/
def originFn : Origin → Option FnId
  | .hostPf p => some ⟨p, 0⟩
  | .hostVf p v => some ⟨p, v⟩
  | _ => none

/-- A host function as an origin (R404). -/
def fnOrigin (f : FnId) : Origin := if f.fn = 0 then .hostPf f.port else .hostVf f.port f.fn

/-- The bit of an origin's class: [4] P, [3] A, [2] T, [1] F, [0] D (R402, R404); HW has none. -/
def originClass : Origin → Nat
  | .hostPf _ => 3
  | .hostVf _ _ => 2
  | .bmc _ => 4
  | .elfort => 4
  | .cp _ => 1
  | .jtag => 0
  | .hw _ => 5

/-- OTYPE and OID of an origin (R423). -/
def originType : Origin → Nat
  | .hostPf _ => 0
  | .hostVf _ _ => 1
  | .bmc _ => 2
  | .elfort => 3
  | .cp _ => 4
  | .jtag => 5
  | .hw _ => 6

/-- OID of an origin (R423). -/
def originId : Origin → Nat
  | .hostPf p => p * 256
  | .hostVf p v => p * 256 + v
  | .bmc path => path
  | .elfort => 0
  | .cp i => (i / 9) * 16 + i % 9
  | .jtag => 0
  | .hw a => a

/-! ### The registers of BAR 0 -/

/-- The key of copy `i` of a register. -/
def regKey (r : Reg) (i : Nat) : Nat := r.ctorIdx * 1048576 + i

/-- The value the field table gives at reset, without the fields that boot loads. -/
def fieldsReset : List RegField → Nat
  | [] => 0
  | f :: t => fieldN f.hi f.lo f.reset + fieldsReset t

/-- MIDSZ of deep FIFO n after reset (R251). -/
def fifoMidReset (n : Nat) : Nat :=
  if n < 4096 then 12 else if n < 4168 then 8 else if n < 4176 then 8 else if n = 4176 then 16
  else if n = 4177 then 20 else if n = 4178 then 20 else if n = 4179 then 18 else 0

/-- CP_MAP after reset: logical slot k is physical slot k (log entry 2). -/
def cpMapReset : Nat := 0x76543210

/-- A register's reset value: the spec's; where it is loaded by boot or depends on the copy, the value of R251, R253,
R254, R262, R463 and R589, and else the model's (log entries 1, 2, 4, 5). Copies are numbered as the page's own
tables number them; banked registers by what is selected. -/
def Reg.resetValue (r : Reg) (i : Nat) : DWord :=
  let n := match r with
    | .glId => 0x96400000 + 0xB100 + Config.gradeCode
    | .glXpol => 0x1B
    | .glDbgpol => 3
    | .glFnPerm => if i % 65 = 0 then 3 else 0
    | .pzSlices => 16384
    | .pzQuota =>
        (lget [0x400, 0x4000, 0x4000, 0x400] (i % 4) 0) * 65536 + lget [0x200, 0x800, 0, 0] (i % 4) 0
    | .blvPre => if 32 ≤ i ∧ i ≤ 37 then 1 else 0
    | .ffCfg => fifoMidReset i
    | .cpMap => cpMapReset
    | .rpTotal => lget [8, 16, 4, 1024, 256, 2, 1, 4096, 2048, 0, 250] i 0
    | .rpBudget => lget [4, 4, 2, 256, 64, 1, 1, 1024, 512, 4, 60] i 0
    | .dsFreq => Config.ceilingMHz
    | .dsVneed => Config.vneed * 65536 + Config.vneed
    | .avCfg => 2 * 1073741824
    | .avStat => 2 * 1073741824
    | .dpMaxw => 4
    | .seUpdpol => 2
    | .sgW => lget [0x04080204, 0x02040403, 0x08020104, 0x08020104] i 0
    | .sgH => lget [65536, 0, 4096, 4096] i 0
    | .sgMovRange => 4095
    | .sgBset => 3
    | .sgRebal => 64 * 65536 + 1000
    | _ => fieldsReset r.info.fields
  BitVec.ofNat 64 n

/-- The stored value of copy `i` of a register. -/
def regGet (d : Dev) (r : Reg) (i : Nat) : DWord := tget d.regs (regKey r i) (r.resetValue i)

/-- Store a value in copy `i` of a register. -/
def regSet (r : Reg) (i : Nat) (v : DWord) (d : Dev) : Dev :=
  { d with regs := tset d.regs (regKey r i) v (r.resetValue i) }

/-- Field [hi:lo] of a register. -/
def regFld (d : Dev) (r : Reg) (i hi lo : Nat) : Nat := bits (regGet d r i) hi lo

/-- Set field [hi:lo] of a register. -/
def regSetFld (r : Reg) (i hi lo v : Nat) (d : Dev) : Dev := regSet r i (setBits (regGet d r i) hi lo v) d

/-- Add one to the counter in bits [31:0] of a register; it stays at its largest value. -/
def regBump (r : Reg) (i : Nat) (d : Dev) : Dev :=
  let c := regFld d r i 31 0
  if c = 0xFFFFFFFF then d else regSetFld r i 31 0 (c + 1) d

/-- Add `n` to the counter in bits [31:0] of a register; it stays at its largest value. -/
def regAdd (r : Reg) (i n : Nat) (d : Dev) : Dev :=
  let c := regFld d r i 31 0 + n
  regSetFld r i 31 0 (if c > 0xFFFFFFFF then 0xFFFFFFFF else c) d

/-! ### Counted events and passing time (R507) -/

/-- Each counter that selects an event counts `n` of it; counters wrap at 2^64 (R507). -/
def dbEvents (code n : Nat) (d : Dev) : Dev :=
  (List.range 8).foldl (fun d i =>
    if regFld d .dbCntSel i 7 0 = code then regSet .dbCnt i (regGet d .dbCnt i + BitVec.ofNat 64 n) d else d) d

/-- One event is counted. -/
def dbEvent (code : Nat) (d : Dev) : Dev := dbEvents code 1 d

/-- Nanoseconds pass: FBK runs at 1.6 GHz (the table of clock domains), and a counter that selects code 0x0A counts its
cycles (R507; log entry 118). -/
def fbkPass (n : Nat) (d : Dev) : Dev :=
  dbEvents 0x0A ((d.devtime.toNat + n) * 8 / 5 - d.devtime.toNat * 8 / 5) d

/-- DEVTIME is at least `t`: an expiry command brings the time at which it falls due (log entry 9). -/
def advanceTo (t : DWord) (d : Dev) : Dev :=
  if d.devtime < t then { fbkPass (t.toNat - d.devtime.toNat) d with devtime := t } else d

/-! ### Page numbers (R398) -/

/-- The pages of the map: page number of index i of a type. -/
def pageNo (t : PageTy) (i : Nat) : Nat :=
  match t with
  | .hdr => i
  | .glb => 0 | .sec => 1 | .blv => 2 | .sgn => 3 | .jct => 4 | .dff => 5 | .jnl => 6 | .aud => 7 | .tim => 8
  | .hbm => 9 | .thm => 10 | .rpr => 11 | .dbg => 12
  | .upt => 0x10 + i | .ave => 0x18 + i | .dst => 0x20 + i | .dpt => 0x40 + i | .plz => 0x80 + i
  | .mov => 0xC0 + i | .cpc => 0x100 + i | .rng => 0x200 + i

/-- The page at a number: its type and index; none for a reserved page. -/
def pageOf (p : Nat) : Option (PageTy × Nat) :=
  if p = 0 then some (.glb, 0) else if p = 1 then some (.sec, 0) else if p = 2 then some (.blv, 0)
  else if p = 3 then some (.sgn, 0) else if p = 4 then some (.jct, 0) else if p = 5 then some (.dff, 0)
  else if p = 6 then some (.jnl, 0) else if p = 7 then some (.aud, 0) else if p = 8 then some (.tim, 0)
  else if p = 9 then some (.hbm, 0) else if p = 10 then some (.thm, 0) else if p = 11 then some (.rpr, 0)
  else if p = 12 then some (.dbg, 0)
  else if 0x10 ≤ p ∧ p ≤ 0x11 then some (.upt, p - 0x10)
  else if 0x18 ≤ p ∧ p ≤ 0x1F then some (.ave, p - 0x18)
  else if 0x20 ≤ p ∧ p ≤ 0x27 then some (.dst, p - 0x20)
  else if 0x40 ≤ p ∧ p ≤ 0x5F then some (.dpt, p - 0x40)
  else if 0x80 ≤ p ∧ p ≤ 0xBF then some (.plz, p - 0x80)
  else if 0xC0 ≤ p ∧ p ≤ 0xFF then some (.mov, p - 0xC0)
  else if 0x100 ≤ p ∧ p ≤ 0x147 then some (.cpc, p - 0x100)
  else if 0x200 ≤ p ∧ p ≤ 0x2FF then some (.rng, p - 0x200)
  else none

end Sys2Proof.Machine
end

