-- ==== Sys2Proof/Machine/LogOps.lean ====
section
/-!
DEFINITION. Sources and page events at their lowest level, the command journal, the audit log, the trace, the freeze,
and the reporting of faults (R365 to R370, R389 to R391, R422 to R427, R434 to R436, R450 to R454, R491 to R495, R506).
-/
namespace Sys2Proof.Machine

open Sys2Proof

/-! ### Sources (R365, R366, R368) -/

/-- The kinds of a source number. -/
inductive SrcKind where
  | edge | level | queue | privileged | reserved
  deriving DecidableEq, Repr

/-- The kind of a source number (R365, R366, R368). -/
def srcKind (n : Nat) : SrcKind :=
  if n < 0x2100 then .edge
  else if n ≤ 0x2141 then .edge
  else if 0x2200 ≤ n ∧ n ≤ 0x243F then (if (n - 0x2200) % 8 < 4 then .edge else .reserved)
  else if 0x2480 ≤ n ∧ n ≤ 0x2487 then .queue
  else if 0x2800 ≤ n ∧ n ≤ 0x2AFF then (if (pageOf (n - 0x2800)).isSome then .level else .reserved)
  else if 0x2B00 ≤ n ∧ n ≤ 0x2B7F then .level
  else if 0x3000 ≤ n ∧ n ≤ 0x3DFF then .edge
  else if 0x3F80 ≤ n ∧ n ≤ 0x3F91 then .privileged
  else .reserved

/-- Is it the own source of one physical CP (R365)? -/
def srcOwnCp (n : Nat) : Option Nat := if 0x2200 ≤ n ∧ n ≤ 0x243F then some ((n - 0x2200) / 8) else none

/-- The eight logical slots of district d as a target set (R372). -/
def districtTgt (d : Nat) : DWord := BitVec.ofNat 64 (255 * 2 ^ (8 * d))

/-- A source after reset (R365). -/
def srcReset (n : Nat) : Src :=
  let k := (n - 0x2200) % 8
  let own := (srcOwnCp n).isSome
  let pv := srcKind n = .privileged
  { pend := false, act := false, holder := none, lastCp := none, orph := false, level := false, actFast := false
    en := (own && k < 2) || pv
    fast := (own && (k = 0 || k = 3)) || pv
    tgt := if 0x2100 ≤ n ∧ n ≤ 0x213F then districtTgt ((n - 0x2100) / 8)
           else if 0x2140 ≤ n ∧ n ≤ 0x2141 then BitVec.allOnes 64
           else if srcKind n = .queue then districtTgt (n - 0x2480)
           else if pv then BitVec.allOnes 64 else 0 }

/-- A source as it stands. -/
def srcGet (d : Dev) (n : Nat) : Src := tget d.srcs n (srcReset n)

/-- Store a source. -/
def srcSet (n : Nat) (v : Src) (d : Dev) : Dev := { d with srcs := tset d.srcs n v (srcReset n) }

/-- Channel processor i = 9d + s after reset (R284 to R289, R338, R365): off, in service or spare by its slot. -/
def cpReset (i : Nat) : Cp :=
  { g := List.replicate 32 0, gFast := List.replicate 8 0, lk := 0, lkFast := 0, pc := 0, sr := 0x80000000#32
    a0 := 0, a1 := 0, epc := 0, esr := 0, ecause := 0, eaddr := 0, npc := 0, nsr := 0, fpc := 0, fsr := 0
    cycHi := 0, cycHiFast := 0, dtHi := 0, dtHiFast := 0, hdlo := 0, hdhi := 0, holo := 0, hohi := 0, budget := 0, cyc := 0, lastPc := 0
    slot := [], loads := [], run := .off, role := if i % 9 < 8 then .inService else .spare
    apert := List.replicate 16 0, sterr := false, semerr := false, staddr := 0, excnt := 0, sstop := 0
    spurN := false, spurF := false, handoff := [], failedAt := none, halted := false, iram := [], dram := []
    serve := none }

/-- A CP as it stands. -/
def cpGet (d : Dev) (i : Nat) : Cp := tget d.cps i (cpReset i)

/-- Store a CP. -/
def cpSet (i : Nat) (c : Cp) (d : Dev) : Dev := { d with cps := tset d.cps i c (cpReset i) }

/-- The cycle counter of a CP, read now (R289): it has run on since it was read last by a number of cycles that is a free value, unless
the CP is off (log entry 3). -/
def cycNow (i : Nat) (d : Dev) : DWord × Dev :=
  let c := cpGet d i
  if c.run = .off then (c.cyc, d)
  else
    let (v, d) := freeNext d
    let n := c.cyc + BitVec.ofNat 64 (bits v 31 0)
    (n, cpSet i { c with cyc := n } d)

/-- Drop the presentations a test names; the CP of each will claim 0x3FFF next in its class (R376). -/
def dropPres (p : Pres → Bool) (d : Dev) : Dev :=
  let gone := d.pres.filter p
  let d := { d with pres := d.pres.filter (fun x => !p x) }
  gone.foldl (fun d x =>
    let c := cpGet d x.cp
    cpSet x.cp (if x.fast then { c with spurF := true } else { c with spurN := true }) d) d

/-- Withdrawal (R369): the source is no longer pending, and a presentation of it that has not been claimed is gone. -/
def srcWithdraw (n : Nat) (d : Dev) : Dev :=
  let s := srcGet d n
  let d := srcSet n { s with pend := false, orph := false } d
  if s.act then d else dropPres (fun p => p.src = n) d

/-- A level source's input (R369): PEND follows it. -/
def srcLevel (n : Nat) (v : Bool) (d : Dev) : Dev :=
  let s := srcGet d n
  if s.level = v then d
  else if v then srcSet n { s with level := true, pend := true } d
  else srcWithdraw n (srcSet n { s with level := false } d)

/-- An edge source fires (R369): pending, or coalesced into a pending fire. -/
def srcFire (n : Nat) (d : Dev) : Dev :=
  if srcKind n = .edge then
    let s := srcGet d n
    if s.pend then regBump .jcCoal 0 d else srcSet n { s with pend := true } d
  else d

/-! ### Page events (R389 to R391) -/

/-- The page summary drives the page's level source (R368, R390). -/
def pageSummary (p : Nat) (d : Dev) : Dev :=
  srcLevel (0x2800 + p) (decide ((regGet d .evtPending p &&& regGet d .evtEnable p) ≠ 0)) d

/-- The counters behind EVT_CNT: bit b of page p is 33p + b, the count of all sets is 33p + 32 (R391). They wrap. -/
def evtCount (p b : Nat) (d : Dev) : Dev :=
  let inc := fun (k : Nat) (d : Dev) => regSet .evtCnt k (BitVec.ofNat 64 ((regFld d .evtCnt k 31 0 + 1) % 2 ^ 32)) d
  inc (33 * p + 32) (inc (33 * p + b) d)

/-- A hardware event of page p sets bit b of its EVT_PENDING (R389) and counts (R391). -/
def pageEvent (p b : Nat) (d : Dev) : Dev :=
  pageSummary p (evtCount p b (regSetFld .evtPending p b b 1 d))

/-! ### Journal (R450 to R453) -/

/-- The function a device-wide record names (R451). -/
def deviceWide : FnId := ⟨0, 0x7F⟩

/-- A record with nothing in it but its kind and function. -/
def jblank (kind : Nat) (fn : FnId) : JRec :=
  { ccw := 0, resid := 0, tag := 0, ref := 0, time := 0, seq := 0, sub := 0, ring := 0, ds := false, fn := fn, fcode := 0
    resp := 0, kind := kind, dstat := 0, cstat := 0, flags := 0, disc := false, rclr := false, arg := 0 }

/-- Capacity of the feed FIFO f (R248, R251). -/
def feedCap (d : Dev) (f : Nat) : Nat :=
  let m := regFld d .ffCfg f 4 0
  32 + (if m = 0 then 0 else 2 ^ m)

/-- FF_HWM: the highest COUNT seen (R255). -/
def noteHwm (n count : Nat) (d : Dev) : Dev :=
  if regFld d .ffHwm n 20 0 < count then regSet .ffHwm n (BitVec.ofNat 64 count) d else d

/-- The entries that stand in a feed of which `k` are its own or wait for room (R251): a full feed makes its producer wait, so
what is over its capacity waits and enters as others leave (log entry 10). -/
def feedCount (d : Dev) (f k : Nat) : Nat := min k (feedCap d f)

/-- An entry goes into one of the feeds 4,168 to 4,176 and 4,179 (R251), or waits for room in it. -/
def feedIn (f : Nat) (d : Dev) : Dev :=
  let k := tget d.feeds f 0 + 1
  noteHwm f (feedCount d f k) { d with feeds := tset d.feeds f k 0 }

/-- A record enters the journal feed (R453). A full feed makes the writer wait: FWAIT is set, the wait is counted, and the
record enters as one leaves (log entry 10). -/
def jenter (r : JRec) (d : Dev) : Dev :=
  let d := if feedCap d 4178 ≤ d.jnFeed then pageEvent 6 1 (regBump .jnWaits 0 (regSetFld .jnStat 0 30 30 1 d)) else d
  let d := noteHwm 4178 (feedCount d 4178 (d.jnFeed + 1)) { d with jnFeed := d.jnFeed + 1 }
  { d with journal := d.journal ++ [{ r with time := d.devtime }] }

/-- The next sequence number is taken; MARK is raised as the head passes a multiple of 2^20 (R450, R458). -/
def jtake (d : Dev) : Nat × Dev :=
  let d' := { d with jnHead := d.jnHead + 1 }
  (d.jnHead, if (d.jnHead + 1) % 1048576 = 0 then pageEvent 6 0 d' else d')

/-- A record of any kind but ACCEPT and REFUSE takes the next number as it enters (R450). -/
def jput (r : JRec) (d : Dev) : Dev :=
  let (n, d) := jtake d
  jenter { r with seq := n } d

/-- The 512 bits of a record (R451). -/
def JRec.word (r : JRec) : BitVec 512 := BitVec.ofNat 512
  (fieldN 511 448 r.ccw.toNat + fieldN 447 416 r.resid.toNat + fieldN 415 384 r.tag.toNat + fieldN 383 320 r.ref.toNat
   + fieldN 319 256 r.time.toNat + fieldN 255 192 r.seq + fieldN 191 172 r.sub + fieldN 171 160 r.ring
   + fieldN 159 159 r.ds.toNat + fieldN 158 158 r.fn.port + fieldN 157 151 r.fn.fn + fieldN 147 144 r.fcode
   + fieldN 143 140 r.resp + fieldN 135 128 r.kind + fieldN 127 120 r.dstat.toNat + fieldN 119 112 r.cstat.toNat
   + fieldN 110 104 r.flags + fieldN 97 97 r.disc.toNat + fieldN 96 96 r.rclr.toNat + fieldN 95 64 r.arg.toNat)

/-- The oldest sequence number in the ring (R455 JW_OLDEST). -/
def jOldest (d : Dev) : Nat := d.jnHead - 16777216

/-- The record with a sequence number, when it is in the ring. -/
def jfind (d : Dev) (n : Nat) : Option JRec :=
  if n < d.jnHead ∧ jOldest d ≤ n then d.journal.find? (fun r => r.seq = n) else none

/-- Is a record in a function's scope (R454)? -/
def jscope (f : FnId) (r : JRec) : Bool :=
  r.fn.fn = 0x7F || (if f.fn = 0 then r.fn.port = f.port else r.fn = f)

/-- What a reader sees of record n (R454, R456): the record, HIDDEN out of scope, zeros where none is in the ring. -/
def jshow (scope : Option FnId) (d : Dev) (n : Nat) : BitVec 512 :=
  match jfind d n with
  | none => 0
  | some r =>
      match scope with
      | none => r.word
      | some f => if jscope f r then r.word else { jblank 0xFF ⟨0, 0⟩ with seq := n }.word

/-! ### Audit log (R422 to R427) -/

/-- The 256 bits of an audit record (R423); `flags` are bits [7:0]. -/
def auditWord (time : DWord) (new old : Word) (seq page woff be otype oid flags : Nat) : BitVec 256 :=
  BitVec.ofNat 256
    (fieldN 255 192 time.toNat + fieldN 191 160 new.toNat + fieldN 159 128 old.toNat + fieldN 127 80 seq
     + fieldN 79 66 page + fieldN 65 56 woff + fieldN 55 52 be + fieldN 51 48 otype + fieldN 47 32 oid
     + fieldN 7 0 flags)

/-- A record enters the audit-record feed and the log (R424 to R426): its page's PG_AUDIT_SEQ shows it, and MARK is
raised as AU_HEAD passes a multiple of 2^20. -/
def auditPut (o : Origin) (page woff be : Nat) (new old : Word) (flags : Nat) (d : Dev) : Dev :=
  let w := auditWord d.devtime new old d.auHead page woff be (originType o) (originId o) flags
  let d := if (pageOf page).isSome then regSet .pgAuditSeq page (BitVec.ofNat 64 (d.auHead % 2 ^ 32)) d else d
  let d := noteHwm 4177 (d.auFeed + 1) { d with audit := d.audit ++ [w], auHead := d.auHead + 1, auFeed := d.auFeed + 1 }
  if d.auHead % 1048576 = 0 then pageEvent 7 0 d else d

/-- A change the TC9640 makes itself to an RW field is audited with origin HW (R422). -/
def auditHw (agent page off : Nat) (new old : Word) (d : Dev) : Dev :=
  auditPut (.hw agent) page (off / 4) 15 new old 0 d

/-- The record with sequence number n; zeros where it is not in the ring (R427). Records are numbered from the first
one kept. -/
def auditFind (d : Dev) (n : Nat) : Option (BitVec 256) :=
  if n < d.auHead ∧ d.auHead - 8388608 ≤ n then
    d.audit.find? (fun w => bits w 127 80 = n)
  else none

/-- The rising edge of a privileged source's input sets its latch (R387); an edge into a set latch is coalesced. -/
def latchSet (n : Nat) (s : Dev) : Dev :=
  if srcKind n = .privileged then
    let s := { s with latches := s.latches ||| (1#18 <<< (n - 0x3F80)) }
    srcSet n { srcGet s n with pend := true } s
  else s

/-! ### Trace (R506) -/

/-- A trace record of a kind, when tracing is on and the kind is selected (R506). Where the manual gives the event no
agent, AGENT is a free value (log entry 3). -/
def traceEvent (kind : Nat) (agent : Option Nat) (arg0 arg1 : Nat) (d : Dev) : Dev :=
  if regFld d .trCtl 0 31 31 = 1 ∧ regFld d .trCtl 0 kind kind = 1 then
    let (v, d) := match agent with
      | some a => (a, d)
      | none => (let (x, d) := freeNext d; (x.toNat, d))
    let w : BitVec 256 := BitVec.ofNat 256
      (fieldN 255 192 d.devtime.toNat + fieldN 191 128 arg0 + fieldN 127 96 arg1 + fieldN 95 64 d.trHead
       + fieldN 63 48 v + fieldN 47 40 kind)
    let d := feedIn 4179 { d with trace := d.trace ++ [w], trHead := d.trHead + 1 }
    if d.trHead % 1048576 = 0 then pageEvent 12 1 d else d
  else d

/-- Trace record n; none where the ring does not hold it (R506). -/
def traceFind (d : Dev) (n : Nat) : Option (BitVec 256) :=
  if n < d.trHead ∧ d.trHead - 16777216 ≤ n then d.trace[n - (d.trHead - d.trace.length)]? else none

/-! ### Freezing (R491 to R495) -/

/-- A freeze source is asserted: 0 pin, 1 JTAG, 2 register, 3 Fatal (R491). The latch is set either way. When its
condition holds, the sequence of R493 begins: everything stops as it stands (log entry 17). A source asserted before FROZEN is recorded
and changes nothing else (R492). -/
def fzAssert (src : Nat) (cond : Bool) (d : Dev) : Dev :=
  let note := fun (d : Dev) => if cond then regSetFld .fzStat 0 src src 1 d else regSetFld .fzStat 0 (src + 4) (src + 4) 1 d
  if d.frozenPin then d
  else if d.frozen then note d
  else
    let d := note (latchSet 0x3F90 d)
    if cond then { regSet .fzTime 0 d.devtime d with frozen := true } else d

/-- The end of the sequence (R493): the stack is in self-refresh unless it has failed (R495), and FROZEN is asserted. -/
def fzEnd (d : Dev) : Dev :=
  let ok := decide (regFld d .hbStat 0 31 30 ≠ 3)
  let d := regSetFld .fzStat 0 30 30 ok.toNat d
  { (if ok then regSetFld .hbStat 0 31 30 1 d else d) with frozenPin := true }

/-! ### Reporting of faults (R434 to R436) -/

/-- A fault of severity 0 to 4 is reported once (R434, R435): RP_CNT, RP_LASTF, AER status on the PFs, and from
severity 1 on a FAULT record and the FAULT event; Degraded sets both DEGR bits; Fatal stops the TC9640 (R436). The time of the latest
failure of a unit of R431 is kept, for a second fault behind it (R433). `ports` are the upstream ports whose PF gets AER status. -/
def reportFault (sev unit inst : Nat) (ports : List Nat) (d : Dev) : Dev :=
  let d := regBump .rpCnt sev d
  let d := regSet .rpLastf 0 (BitVec.ofNat 64 (fieldN 31 28 sev + fieldN 27 20 unit + fieldN 19 0 inst)) d
  let d := ports.foldl (fun d p => emit (.aer p sev) d) d
  let d := if sev = 0 then d else
    pageEvent 11 0 (jput { jblank 0x0B deviceWide with
      arg := BitVec.ofNat 32 (fieldN 31 28 sev + fieldN 27 20 unit + fieldN 19 0 inst) } d)
  let d := if (sev = 1 ∨ sev = 2) ∧ 1 ≤ unit ∧ unit ≤ 7 then { d with faultAt := some d.devtime } else d
  let d := if sev = 2 then regSetFld .rpStat 0 30 30 1 (regSetFld .glStat 0 29 29 1 d) else d
  if sev = 4 then fzAssert 3 (decide (regFld d .rpPol 0 2 2 = 1)) { regSetFld .rpStat 0 31 31 1 d with fatal := true } else d

/-- A device-wide fault (R435). -/
def deviceFault (sev unit inst : Nat) (d : Dev) : Dev := reportFault sev unit inst [0, 1] d

end Sys2Proof.Machine
end

