-- ==== Sys2Proof/Machine/Settle.lean ====
section
/-!
DEFINITION. What follows every command: CPs that a presentation wakes (R319, R386), and the calls of handler-pack entries
that CP_BASE_FW makes as its CPs become free (R325, R333 to R336); and how a meaning runs.
-/
namespace Sys2Proof.Machine

open Sys2Proof

/-! ### Subchannels at reset -/

/-- No sense data (R121). -/
def Sense.none : Sense := ⟨0, 0, 0, 0, 0, 0, false, false, false, 0, 0⟩

/-- No handler-private state. -/
def HPriv.none : HPriv := ⟨0, 0, 0, false, 0, 0, 0, false, [], 0, 0⟩

/-- A subchannel after a device reset (R88, R90, R263): unowned, unbound, IDLE, homed in district n mod 8. -/
def subReset (n : Nat) : Sub :=
  { st := .idle, rp := false, fcStart := false, scPri := false, scSec := false, scAlert := false, cstat := 0, dstat := 0
    lastFn := 0, ccwAddr := 0, residual := 0, tag := 0, dport := 0, queue := 0, devId := 0, bindArg := 0, position := 0
    idemDef := false, unordDef := false, isup := false, imm := false, ownPort := 0, ownFn := 0x7F, cring := 0, key := 0
    hpack := 0xFF, ckptSeq := 0, home := n % 8, pinned := false, lease := Option.none, leaseEnd := 0, hpriv := HPriv.none
    bindPriv := HPriv.none, sense := Sense.none, heldAttn := false, swSeq := 0, swLastFn := 0, swOu := false
    swHeld := false, swStl := false, swHold := Option.none, portPin := Option.none, slot := n / 8, pbrk := false
    mpend := Option.none, migCnt := 0, altPort := Option.none, sgUp := Option.none, sgDown := Option.none }

/-- A subchannel as it stands. -/
def subGet (d : Dev) (n : Nat) : Sub := tget d.subs n (subReset n)

/-! ### Registers of a CP -/

/-- Write general register i of a CP in the bank in use (R284, R285); g0 discards. -/
def gWrite (i : Nat) (v : Word) (c : Cp) : Cp :=
  if i = 0 ∨ 32 ≤ i then c
  else if bit c.sr 29 && decide (24 ≤ i) then { c with gFast := lset c.gFast (i - 24) v } else { c with g := lset c.g i v }

/-- Read general register i of a CP in the bank in use (R284, R285); g0 reads as zero. -/
def gRead (i : Nat) (c : Cp) : Word :=
  if i = 0 then 0
  else if bit c.sr 29 && decide (24 ≤ i) then lget c.gFast (i - 24) 0 else lget c.g i 0

/-- Write and read lk of the bank in use. -/
def lkWrite (v : Word) (c : Cp) : Cp := if bit c.sr 29 then { c with lkFast := v } else { c with lk := v }
def lkRead (c : Cp) : Word := if bit c.sr 29 then c.lkFast else c.lk

/-! ### Calls of pack entries -/

/-- May a CP take a call: it issues or waits (R319) in base mode, serves no entry and is in no exception or interrupt? -/
def cpFree (c : Cp) : Bool := (c.run = .run || c.run = .wait) && c.serve.isNone && bit c.sr 31 && bits c.sr 30 28 = 0

/-- The apertures CP_BASE_FW sets before an entry (R336): 8 the owner's host space, read-only; 9 the device's root port;
10 the operation's reservations; 11 the pack's scratch; 12 to 15 invalid. The target addresses of 8, 9 and 11 are not
stated: free values. Aperture 10 is Plaza from its first byte on (log entry 14). -/
def setApertures (n : Nat) (c : Cp) (d : Dev) : Cp × Dev :=
  let s := subGet d n
  let (a8, d) := freeNext d
  let (a9, d) := freeNext d
  let (a11, d) := freeNext d
  let desc := fun (t kind rdo dport port fn : Nat) => BitVec.ofNat 128
    (fieldN 127 76 t + fieldN 58 32 0x7FFFFFF + fieldN 31 31 1 + fieldN 30 29 kind + fieldN 28 28 rdo + fieldN 12 8 dport
     + fieldN 7 7 port + fieldN 6 0 fn)
  let ap := c.apert.take 8 ++ [desc a8.toNat 0 1 0 s.ownPort s.ownFn, desc a9.toNat 1 0 s.dport 0 0, desc 0 2 0 0 0 0,
    desc a11.toNat 2 0 0 0 0, 0, 0, 0, 0]
  ({ c with apert := ap }, d)

/-- Enter a pack (R316, R320, R326, R327, R331, R333): the pack's data window and the operation window, the stack aligned down, registers, apertures, BUDGET, mode, and pc at the entry. The return address
in CP_BASE_FW (R290) is not stated: a free value. -/
def enterPack (k : PackCall) (d : Dev) : Dev :=
  match d.packs.find? (fun e => e.1 = k.pack) with
  | none => d
  | some (_, pk) =>
      let (ret, d) := freeNext d
      let ra : Word := setBits (setBits (BitVec.ofNat 32 ret.toNat) 31 15 0) 1 0 0
      let (c, d) := setApertures k.sub (cpGet d k.cp) d
      let sr := setBit (setBit (setBit c.sr 31 pk.trusted) 26 true) 27 true
      let pc : Word := BitVec.ofNat 32 (pk.text + k.off)
      let c := { c with esr := sr, epc := pc, sr := sr, pc := pc, budget := 65536, run := .run
                        serve := some ⟨k.sub, k.entry, ra, false⟩ }
      let c := { c with hdlo := BitVec.ofNat 32 pk.data, hdhi := BitVec.ofNat 32 (pk.data + pk.dataSize + pk.bssSize)
                        holo := 0x10008000, hohi := 0x10010000 }
      let c := gWrite 29 (gRead 29 c &&& ~~~ 7#32) c
      let c := gWrite 1 k.g1 (gWrite 2 k.g2 (gWrite 3 k.g3 (gWrite 4 0 (gWrite 31 (BitVec.ofNat 32 pk.data) c))))
      cpSet k.cp (lkWrite ra c) d

/-- Calls that wait are made, in order, on each CP that is free. -/
def tryCalls : List PackCall → Dev → Dev
  | [], d => d
  | k :: t, d =>
      if cpFree (cpGet d k.cp) then tryCalls t (enterPack k d)
      else tryCalls t { d with packCalls := d.packCalls ++ [k] }

/-- Make every call that can be made. -/
def packSweep (d : Dev) : Dev := tryCalls d.packCalls { d with packCalls := [] }

/-! ### After a command -/

/-- A presented CP in WAIT resumes, whatever IE and FE hold (R319, R386). A gated district's clock restarts (R379). -/
def wakeCp (i : Nat) (s : Dev) : Dev :=
  let c := cpGet s i
  let s := regSetFld .dsStat (i / 9) 24 24 0 s
  if c.run = .wait then cpSet i { c with run := .run } s else s

/-- Every CP in WAIT with a presentation resumes (R386). -/
def wakeSweep (d : Dev) : Dev :=
  d.pres.foldl (fun d p => if decide ((cpGet d p.cp).run = .wait) then wakeCp p.cp d else d) d

/-- What follows a command, in a TC9640 that runs: CPs wake, and, while no Fatal fault stands (R436), calls are made. -/
def settle (d : Dev) : Dev :=
  if d.frozen then d
  else
    let d := wakeSweep d
    if d.fatal then d else packSweep d

/-- How a meaning runs: while the TC9640 is frozen nothing but resets, JTAG and the trip acts (R494, R497). -/
def run (s : State) (f : Dev → Dev) : Host.Outcome State Fault Refusal :=
  .next (if s.dev.frozen then s else { s with dev := settle (f s.dev) })

/-- A meaning that acts in a frozen TC9640 too. -/
def runAlways (s : State) (f : Dev → Dev) : Host.Outcome State Fault Refusal :=
  .next { s with dev := settle (f s.dev) }

end Sys2Proof.Machine
end

