-- ==== Sys2Proof/Machine/JunctionOps.lean ====
section
/-!
DEFINITION. Junction (R365 to R396): routing, presentations, claims, EOI, and the writes that reach the core.
-/
namespace Sys2Proof.Machine

open Sys2Proof

/-- SR.RL (R286): 3 in a fast interrupt, 2 in a normal one, 0 while WAIT stops issue, else 1. -/
def cpRunLevel (c : Cp) : Nat :=
  if bit c.sr 29 then 3 else if bit c.sr 28 then 2 else if c.run = .wait then 0 else 1

/-- The physical CP that fills logical slot k of district d, by CP_MAP (R372); none when absent. -/
def slotCp (s : Dev) (d k : Nat) : Option Nat :=
  let p := regFld s .cpMap d (4 * k + 3) (4 * k)
  if p < 9 then some (9 * d + p) else none

/-- The CPs a source targets, in the order 8d + k of R373. -/
def srcTargets (s : Dev) (n : Nat) : List Nat :=
  match srcOwnCp n with
  | some i => [i]
  | none => (List.range 64).filterMap (fun b => if bit (srcGet s n).tgt b then slotCp s (b / 8) (b % 8) else none)

/-- Does a target set name logical slots that are present only by their CP: is CP i among them? -/
def srcTargetsCp (s : Dev) (n i : Nat) : Bool := (srcTargets s n).contains i

/-- May Junction deliver to the CP (R373): CP_STAT.STATE is RUN or WAIT. -/
def cpTakes (s : Dev) (i : Nat) : Bool :=
  let c := cpGet s i
  c.run = .run || c.run = .wait

/-- Is the CP's logical slot removed from presentation for a spare rotation (R395)? -/
def leaving (s : Dev) (i : Nat) : Bool := s.rotWait.any (fun w => decide (w.2 / 8 = i))

/-- CPs eligible for source n in its class (R373). -/
def eligible (s : Dev) (n : Nat) : List Nat :=
  let fast := (srcGet s n).fast
  (srcTargets s n).filter (fun i => cpTakes s i && !(leaving s i) && !(s.pres.any (fun p => p.cp = i && p.fast = fast)))

/-- How much R373 prefers a CP: its run level, and at run level 0 a running clock before a gated one. -/
def cpRank (s : Dev) (i : Nat) : Nat :=
  let rl := cpRunLevel (cpGet s i)
  if rl = 0 then regFld s .dsStat (i / 9) 24 24 else rl + 1

/-- The first member of a list after `last` in rising order, going round. -/
def nextAfter (last : Nat) (l : List Nat) : Option Nat :=
  match l.filter (fun x => last < x) with
  | x :: t => some (t.foldl min x)
  | [] => match l with
    | [] => none
    | x :: t => some (t.foldl min x)

/-- The logical slot number 8d + k of a CP; the spare is placed after its district's slots. -/
def cpOrder (s : Dev) (i : Nat) : Nat :=
  match (List.range 8).find? (fun k => slotCp s (i / 9) k = some i) with
  | some k => 8 * (i / 9) + k
  | none => 8 * (i / 9) + 7

/-- The CP that Junction chooses for source n (R373): lowest rank, ties by rotation after the last CP of the class. -/
def chooseCp (s : Dev) (n : Nat) : Option Nat :=
  let es := eligible s n
  match es with
  | [] => none
  | e :: t =>
      let best := t.foldl (fun m i => min m (cpRank s i)) (cpRank s e)
      let tied := es.filter (fun i => cpRank s i = best)
      let last := lget s.lastCp (srcGet s n).fast.toNat 63
      match nextAfter last (tied.map (cpOrder s)) with
      | some k => tied.find? (fun i => cpOrder s i = k)
      | none => none

/-- The items in the work queue of district d (R384). -/
def workQueue (s : Dev) (d : Nat) : List Work := tget s.workq d []

/-- Is the source pending (R369)? A queue source is, while its queue holds an item. -/
def srcPending (s : Dev) (n : Nat) : Bool :=
  if srcKind n = .queue then !(workQueue s (n - 0x2480)).isEmpty else (srcGet s n).pend

/-- Has source n a presentation outstanding? -/
def srcPresented (s : Dev) (n : Nat) : Bool := s.pres.any (fun p => p.src = n)

/-- Is the group's hold-off running (R388)? -/
def grpGet (s : Dev) (g : Nat) : Grp := tget s.grps g ⟨0, false, 0⟩

/-- Store a group. -/
def grpSet (g : Nat) (v : Grp) (s : Dev) : Dev := { s with grps := tset s.grps g v ⟨0, false, 0⟩ }

/-- May a new presentation of source n be decided in class `fast` (R374)? -/
def candidate (s : Dev) (fast : Bool) (n : Nat) : Bool :=
  let x := srcGet s n
  let free := if srcKind n = .queue
    then (s.pres.filter (fun p => p.src = n)).length < (workQueue s (n - 0x2480)).length
    else !(srcPresented s n) && !x.act
  srcPending s n && x.en && decide (x.fast = fast) && free && !(grpGet s (n / 64)).run && (chooseCp s n).isSome

/-- The source numbers that can be pending: those the table lists, and the work queues. -/
def srcNumbers (s : Dev) : List Nat := s.srcs.map (·.1) ++ (List.range 8).map (0x2480 + ·)

/-- One presentation decision of a class (R374): next candidate group after the last chosen, and in it the next
candidate source after the last chosen. The presentation raises the request line and wakes its CP (R376, R386). -/
def decide1 (fast : Bool) (s : Dev) : Dev :=
  let cands := (srcNumbers s).eraseDups.filter (candidate s fast)
  let lastG := lget s.lastGrp fast.toNat 255
  match nextAfter lastG (cands.map (· / 64)).eraseDups with
  | none => s
  | some g =>
      let key := 256 * fast.toNat + g
      match nextAfter (tget s.lastSrc key 16383) (cands.filter (fun n => n / 64 = g)) with
      | none => s
      | some n =>
          match chooseCp s n with
          | none => s
          | some i =>
              let s := { s with
                pres := s.pres ++ [⟨n, i, fast, false⟩]
                lastGrp := lset s.lastGrp fast.toNat g
                lastSrc := tset s.lastSrc key n 16383
                lastCp := lset s.lastCp fast.toNat (cpOrder s i) }
              wakeCp i (srcSet n { srcGet s n with lastCp := some i } s)

/-- Does a presentation decided in the previous cycle commit (R376)? -/
def commits (s : Dev) (p : Pres) : Bool :=
  let x := srcGet s p.src
  srcPending s p.src && x.en && !x.act && decide (x.fast = p.fast) && srcTargetsCp s p.src p.cp
    && !(grpGet s (p.src / 64)).run

/-- Step 4 of R378 for one presentation: it commits, or it is cancelled and its request line falls. -/
def commitPres (p : Pres) (s : Dev) : Dev :=
  if p.committed then s
  else if commits s p then { s with pres := s.pres.map (fun q => if q = p then { q with committed := true } else q) }
  else dropPres (fun q => q = p) s

/-- A pending, enabled source whose target set names no present CP is orphaned, and counted once (R375). -/
def orphanSweep (s : Dev) : Dev :=
  (srcNumbers s).eraseDups.foldl (fun s n =>
    let x := srcGet s n
    if srcPending s n && x.en && (srcTargets s n).isEmpty then
      if x.orph then s else pageEvent 4 0 (regBump .jcOrph 0 (srcSet n { x with orph := true } s))
    else if x.orph then srcSet n { x with orph := false } s else s) s

/-- One FBK cycle of the core after its inputs, writes and claims (R378): commits, then one decision per class. -/
def presentationCycle (s : Dev) : Dev :=
  let s := s.pres.foldl (fun s p => commitPres p s) s
  orphanSweep (decide1 true (decide1 false s))

/-- A claim of a class restarts its group's hold-off (R388). -/
def restartHoldoff (g : Nat) (s : Dev) : Dev :=
  let x := grpGet s g
  if x.holdoff = 0 then s
  else grpSet g { x with run := true, until_ := s.devtime + BitVec.ofNat 64 (x.holdoff * 20) } s

/-- After an item has left a work queue: once it is empty its presentations are withdrawn (R369). While it is not, one that has
committed stands (R377), and later ones not yet committed, beyond its items, are cancelled (R384). -/
def trimQueue (n : Nat) (s : Dev) : Dev :=
  let items := (workQueue s (n - 0x2480)).length
  let extra := (s.pres.filter (fun p => p.src = n)).drop items
  dropPres (fun p => decide (p.src = n) && (decide (items = 0) || (!p.committed && extra.contains p))) s

/-- A claim of a class has handed a presentation over: no cancelled one before it is owed a 0x3FFF any more (R376). -/
def claimServed (fast : Bool) (i : Nat) (s : Dev) : Dev :=
  let c := cpGet s i
  cpSet i (if fast then { c with spurF := false } else { c with spurN := false }) s

/-- A claim read by CP i in a class (R381): the source handed over, and for a queue source the work item moved to the
CP's hand-off FIFO; 0x3FFF when no committed presentation is outstanding. A claim cannot reach the core before the commit (R376):
presentations of its class to this CP that have been sent commit or are cancelled first. -/
def claim (fast : Bool) (i : Nat) (s : Dev) : Nat × Option Work × Dev :=
  let s := (s.pres.filter (fun p => decide (p.cp = i) && decide (p.fast = fast))).foldl (fun s p => commitPres p s) s
  match s.pres.find? (fun p => p.cp = i && decide (p.fast = fast) && p.committed) with
  | none =>
      let c := cpGet s i
      if (if fast then c.spurF else c.spurN) then
        (0x3FFF, none, dbEvent 7 <| regBump .jcSpur 0 (cpSet i (if fast then { c with spurF := false } else { c with spurN := false }) s))
      else (0x3FFF, none, dbEvent 7 s)
  | some p =>
      let s := claimServed fast i { s with pres := s.pres.filter (fun q => q ≠ p) }
      let s := traceEvent 2 (some ((i / 9) * 16 + i % 9)) 0 p.src s
      let s := restartHoldoff (p.src / 64) s
      if srcKind p.src = .queue then
        let d := p.src - 0x2480
        match workQueue s d with
        | [] => (0x3FFF, none, s)
        | w :: t =>
            let s := { s with workq := tset s.workq d t [] }
            let c := cpGet s i
            (p.src, some w, trimQueue p.src (noteHwm (4096 + i) (c.handoff.length + 1)
              (cpSet i { c with handoff := c.handoff ++ [w] } s)))
      else
        let x := srcGet s p.src
        let s := if srcKind p.src = .privileged then { s with latches := s.latches &&& ~~~ (1#18 <<< (p.src - 0x3F80)) } else s
        (p.src, none, srcSet p.src { x with act := true, pend := decide (srcKind p.src = .level) && x.level
                                            holder := some i, lastCp := some i, orph := false, actFast := fast } s)

/-- A write that R366, R370 and R383 ignore is counted. -/
def badWrite (s : Dev) : Dev := pageEvent 4 2 (regBump .jcBadw 0 s)

/-- An EOI write by CP i (R366, R382). -/
def doEoi (i n : Nat) (s : Dev) : Dev :=
  if n = 0x3FFF ∨ srcKind n = .queue then s
  else if srcKind n = .reserved then badWrite s
  else
    let x := srcGet s n
    if x.act && decide (x.holder = some i) then srcSet n { x with act := false, holder := none } s
    else pageEvent 4 1 (regBump .jcEoierr 0 s)

/-- A SET write (R383): the software pool, and sources 2 and 3 of any physical CP. -/
def doSet (n : Nat) (s : Dev) : Dev :=
  let k := (n - 0x2200) % 8
  if (0x3000 ≤ n ∧ n ≤ 0x3DFF) ∨ ((srcOwnCp n).isSome = true ∧ (k = 2 ∨ k = 3)) then srcFire n s else badWrite s

/-- A SET_PEND write (R370). -/
def doSetPend (n : Nat) (s : Dev) : Dev := if srcKind n = .edge then srcFire n s else badWrite s

/-- A CLR_PEND write (R370): clears an edge source's PEND, or a latch. -/
def doClrPend (n : Nat) (s : Dev) : Dev :=
  match srcKind n with
  | .edge => srcWithdraw n s
  | .privileged => srcWithdraw n { s with latches := s.latches &&& ~~~ (1#18 <<< (n - 0x3F80)) }
  | _ => badWrite s

/-- A SET_EN write (R370). EN of a privileged source is fixed at 1. -/
def doSetEn (n : Nat) (s : Dev) : Dev :=
  if srcKind n = .reserved then badWrite s else srcSet n { srcGet s n with en := true } s

/-- A CLR_EN write (R370). -/
def doClrEn (n : Nat) (s : Dev) : Dev :=
  if srcKind n = .reserved ∨ srcKind n = .privileged then badWrite s
  else srcSet n { srcGet s n with en := false } s

/-- A write of SRC_TGT (R377): a presentation to a CP outside the new set is revoked. -/
def doSrcTgt (n : Nat) (tgt : DWord) (s : Dev) : Dev :=
  if srcKind n = .reserved then badWrite s
  else
    let s := srcSet n { srcGet s n with tgt := tgt } s
    dropPres (fun p => decide (p.src = n) && !(srcTargetsCp s n p.cp)) s

/-- A write of SRC_CTL (R371, R377): a class change revokes the presentation. -/
def doSrcCtl (n : Nat) (fast : Bool) (s : Dev) : Dev :=
  if srcKind n = .reserved then badWrite s
  else
    let x := srcGet s n
    let s := srcSet n { x with fast := fast } s
    if decide (x.fast = fast) then s else dropPres (fun p => decide (p.src = n)) s

/-- Failover of CP i (R394): its presentations are revoked, and each source active at it becomes pending (an edge or
privileged source that was pending, a level whose input is high) or idle. -/
def junctionFailover (i : Nat) (s : Dev) : Dev :=
  let s := dropPres (fun p => decide (p.cp = i)) s
  s.srcs.foldl (fun s e =>
    let x := srcGet s e.1
    if x.act && decide (x.holder = some i) then srcSet e.1 { x with act := false, holder := none } s else s) s

/-! ### Meanings -/

/-- JUNCTION_SOURCE_FIRE (R369). -/
def execJunctionSourceFire (src : Nat) (s : State) : Host.Outcome State Fault Refusal := run s (srcFire src)

/-- LEVEL_SOURCE_CHANGE (R369, R521): the page summaries and INTx lines are level sources. -/
def execLevelSourceChange (src : Nat) (level : Bool) (s : State) : Host.Outcome State Fault Refusal :=
  run s (fun d => if srcKind src = .level then srcLevel src level d else d)

/-- PRIV_LATCH_SET (R387): the latch sets with no clock running, so in a frozen TC9640 too. -/
def execPrivLatchSet (src : Nat) (s : State) : Host.Outcome State Fault Refusal := runAlways s (latchSet src)

/-- DOWNSTREAM_MSI (R367): data [31:12] not zero drops the message; a source that fires is 0x0000 to 0x0FFF. -/
def execDownstreamMsi (port : Nat) (data : Word) (s : State) : Host.Outcome State Fault Refusal :=
  run s (fun d =>
    if bits data 31 12 ≠ 0 then pageEvent 4 3 (regBump .jcBadmsg 0 d)
    else if port < 32 then srcFire (bits data 13 0) d else d)

/-- JUNCTION_PRESENTATION (R374, R376, R378): the core's steps 4 and 5 of one FBK cycle. -/
def execJunctionPresentation (s : State) : Host.Outcome State Fault Refusal := run s presentationCycle

/-- EOI (R382), a write of the per-CP interface. -/
def execEoi (cp : Nat) (val : Word) (s : State) : Host.Outcome State Fault Refusal :=
  run s (doEoi cp (bits val 13 0))

/-- SET (R383), a write of the per-CP interface. -/
def execSetSrc (_cp : Nat) (val : Word) (s : State) : Host.Outcome State Fault Refusal :=
  run s (doSet (bits val 13 0))

/-- HOLDOFF_EXPIRY (R388): the group's hold-off ends. -/
def execHoldoffExpiry (grp : Nat) (s : State) : Host.Outcome State Fault Refusal :=
  run s (fun d =>
    let g := grpGet d grp
    if g.run then grpSet grp { g with run := false } (advanceTo g.until_ d) else d)

end Sys2Proof.Machine
end

