-- ==== Sys2Proof/Machine/SubchOps.lean ====
section
/-!
DEFINITION. Subchannels and completion posting: the record and its status-window entry (R90, R163), ring ownership,
choosing the ring of an entry (R99), placing an entry in its ring or deep FIFO, stalls (R154 to R158), moderation
(R167, R168), and the deep FIFO itself (R248).
-/
namespace Sys2Proof.Machine

open Sys2Proof

/-! ### Access -/

/-- The code of a state (R92). -/
def SubState.code : SubState → Nat
  | .idle => 0 | .startPending => 1 | .active => 2 | .suspended => 3 | .haltPending => 4 | .clearPending => 5
  | .statusPending => 6 | .notOperational => 7

/-- The owning function; none when unowned (R88). -/
def subOwner (s : Sub) : Option FnId := if s.ownFn = 0x7F then none else some ⟨s.ownPort, s.ownFn⟩

/-- The owner of a subchannel, as an issuer of host accesses. -/
def ownerOf (s : Sub) : FnId := ⟨s.ownPort, s.ownFn⟩

/-- Bits [39:0] of the status-window entry as they stand, without OWN (R163). -/
def swFields (s : Sub) : Nat :=
  fieldN 39 32 s.dstat.toNat + fieldN 31 24 s.cstat.toNat + fieldN 23 20 s.swLastFn + fieldN 19 19 s.swOu.toNat
  + fieldN 18 18 s.swHeld.toNat + fieldN 17 17 s.swStl.toNat + fieldN 14 8 s.ownFn + fieldN 4 4 s.rp.toNat
  + fieldN 3 0 s.st.code

/-- Store a subchannel; SEQ of its window entry counts every change of another field (R163). A number above 0x3_FFFF
names none. -/
def subSet (n : Nat) (v : Sub) (d : Dev) : Dev :=
  let old := subGet d n
  let v := if swFields old = swFields v ∧ old.ownPort = v.ownPort then v else { v with swSeq := old.swSeq + 1 }
  if n < Config.subchannels then { d with subs := tset d.subs n v (subReset n) } else d

/-- A PCIe function after reset (R166, R455, R513). -/
def fnReset : Fn :=
  { slots := [], dsDrop := 0, dsMalf := 0, winErr := 0, nopost := 0, jseqLast := 0, events := [], d3hot := false
    pmeEn := false, pmeStatus := false, msixMask := false, vecMask := [], pba := [], dueMsgs := [], vfEnable := false
    numVfs := 0, ats := false, pasid := false, ptm := false, busMaster := false, jwWin := 0, jxBase := 0, jxCtl := 0
    jxCons := 0, jxProd := 0, jxPhase := true, jxLostBit := false, jxWrerr := false, jxCfgerr := false, jxStart := 0
    jxNext := 0, jxLost := 0 }

/-- A function as it stands. -/
def fnGet (d : Dev) (f : FnId) : Fn := tget d.fns (fnKey f) fnReset

/-- Store a function. -/
def fnSet (f : FnId) (v : Fn) (d : Dev) : Dev := { d with fns := tset d.fns (fnKey f) v fnReset }

/-- A start ring after reset (R172). -/
def sringReset : SRing :=
  ⟨0, 0, 0x03E7, 0x7F, 0, true, false, false, false, 0, .idle, [], false, 0⟩

/-- A completion ring after reset (R173). -/
def cringReset : CRing :=
  ⟨0, 0, 0x7F, 0, 0, 0, true, false, false, false, false, false, false, false, 0, 0, none, ⟨[], 0, 0⟩, 0, none⟩

/-- A start ring as it stands. -/
def srGet (d : Dev) (n : Nat) : SRing := tget d.srings n sringReset

/-- Store a start ring. -/
def srSet (n : Nat) (v : SRing) (d : Dev) : Dev := { d with srings := tset d.srings n v sringReset }

/-- A completion ring as it stands. -/
def crGet (d : Dev) (n : Nat) : CRing := tget d.crings n cringReset

/-- Store a completion ring. -/
def crSet (n : Nat) (v : CRing) (d : Dev) : Dev := { d with crings := tset d.crings n v cringReset }

/-- The owner an OWN register names; none when unassigned (R172). -/
def ownOf (w : Word) : Option FnId := if bits w 6 0 = 0x7F then none else some ⟨bits w 7 7, bits w 6 0⟩

/-- The entries of a ring with this CTL (R136). -/
def ringSize (ctl : Word) : Nat := 2 ^ (bits ctl 27 24 + 4)

/-- An error bit of a start or completion ring n is set: bit 16 + n mod 16 of RNG's events (R171). -/
def ringError (n : Nat) (d : Dev) : Dev := pageEvent (0x200 + n / 16) (16 + n % 16) d

/-! ### Start entries (R138) -/

/-- Fields of a start entry (R138). -/
def seFcode (e : BitVec 512) : Nat := bits e 3 0
def sePhase (e : BitVec 512) : Bool := bit e 7
def seCrv (e : BitVec 512) : Bool := bit e 8
def seIdv (e : BitVec 512) : Bool := bit e 9
def seIdo (e : BitVec 512) : Bool := bit e 10
def seInl (e : BitVec 512) : Bool := bit e 11
def seKey (e : BitVec 512) : Nat := bits e 15 12
def seCring (e : BitVec 512) : Nat := bits e 27 16
def seTag (e : BitVec 512) : Word := BitVec.ofNat 32 (bits e 63 32)
def seSub (e : BitVec 512) : Nat := bits e 83 64
def seAddr (e : BitVec 512) : DWord := BitVec.ofNat 64 (bits e 191 128)
def seIccw (e : BitVec 512) : QWord := BitVec.ofNat 128 (bits e 383 256)

/-! ### Deep FIFOs (R248) -/

/-- The places of a middle: 2^MIDSZ, or none. -/
def middleCap (midsz : Nat) : Nat := if midsz = 0 then 0 else 2 ^ midsz

/-- Entries in the middle. -/
def Fifo.mid (f : Fifo) : Nat := f.items.length - f.head - f.tail

/-- Entries move from the tail: straight to the head while the middle is empty and the head has room; from a full
tail to the middle, in a group of up to 16 (R248). -/
def Fifo.settle (midsz : Nat) (f : Fifo) : Fifo :=
  let n := min f.tail (16 - f.head)
  let f := if f.mid = 0 then { f with head := f.head + n, tail := f.tail - n } else f
  if f.tail = 16 then { f with tail := 16 - min 16 (middleCap midsz - f.mid) } else f

/-- No place is free: the tail stays full. -/
def Fifo.isFull (f : Fifo) : Bool := decide (f.tail = 16)

/-- The producer writes at the tail. -/
def Fifo.push (midsz : Nat) (f : Fifo) (x : FifoItem) : Fifo :=
  Fifo.settle midsz { f with items := f.items ++ [x], tail := f.tail + 1 }

/-- The consumer takes from the head. -/
def Fifo.pop (midsz : Nat) (f : Fifo) : Option (FifoItem × Fifo) :=
  if f.head = 0 then none else
    match f.items with
    | [] => none
    | x :: t => some (x, Fifo.settle midsz { f with items := t, head := f.head - 1 })

/-- Entries move from the middle to the head while it holds 8 or fewer (R248). -/
def Fifo.refillHead (midsz : Nat) (f : Fifo) : Fifo :=
  if f.head ≤ 8 then Fifo.settle midsz { f with head := f.head + min (16 - f.head) f.mid } else f

/-- MIDSZ of deep FIFO n. -/
def midSize (d : Dev) (n : Nat) : Nat := regFld d .ffCfg n 4 0

/-! ### Messages (R167, R168, R170) -/

/-- The MSI-X table size of a function (R514). -/
def msixSize (d : Dev) (f : FnId) : Nat := if f.fn = 0 then 2048 else regFld d .upVfvec f.port 11 0

/-- A due message of ring n is sent: it waits in D3hot, sets its Pending Bit Array bit while masked, and a vector
outside the table sends nothing (R168, R170). The ring becomes unarmed. -/
def sendMessage (n : Nat) (d : Dev) : Dev :=
  let r := crGet d n
  let d := crSet n { r with armed := false, armCnt := 0 } d
  match ownOf r.own with
  | none => d
  | some f =>
      let v := bits r.ctl 10 0
      let x := fnGet d f
      if msixSize d f ≤ v then ringError n (crSet n { crGet d n with vecerr := true } d)
      else if x.d3hot then
        if x.pmeEn then emit (.pme f) (fnSet f { x with pmeStatus := true, dueMsgs := x.dueMsgs ++ [n] } d)
        else fnSet f { x with dueMsgs := x.dueMsgs ++ [n] } d
      else if x.msixMask || x.vecMask.contains v then
        fnSet f { x with pba := if x.pba.contains v then x.pba else x.pba ++ [v] } d
      else emit (.msix f v) d

/-- A pending message whose vector is masked no more is sent (R168). In D3hot it stays pending, and falls due there (R170). -/
def vecOut (f : FnId) (v : Nat) (d : Dev) : Dev :=
  let x := fnGet d f
  if x.d3hot then (if x.pmeEn then emit (.pme f) (fnSet f { x with pmeStatus := true } d) else d)
  else emit (.msix f v) (fnSet f { x with pba := x.pba.filter (· ≠ v) } d)

/-- The pending vectors of a function that nothing masks. -/
def unmasked (d : Dev) (f : FnId) : List Nat :=
  let x := fnGet d f
  if x.msixMask then [] else x.pba.filter (fun v => !(x.vecMask.contains v))

/-- An arming entry (R167): it starts the hold-off of an unarmed ring and counts; the message is due at once when the
hold-off is 0, the count is reached, or the entry bypasses the hold-off. -/
def armRing (n : Nat) (x : FifoItem) (d : Dev) : Dev :=
  if !x.arms then d
  else
    let r := crGet d n
    let r := if r.armed then r else
      { r with armed := true, due := d.devtime + BitVec.ofNat 64 (bits r.mod 15 0 * 100) }
    let r := { r with armCnt := min 65535 (r.armCnt + 1) }
    let d := crSet n r d
    let thr := bits r.mod 31 16
    if bits r.mod 15 0 = 0 ∨ (thr ≠ 0 ∧ thr ≤ r.armCnt) ∨ x.imm = true then sendMessage n d else d

/-! ### Scores (R258 to R261) -/

/-- The number of a candidate: kind 0 districts, 1 banks, 2 upstream ports, 3 root ports. -/
def sgKey (k i : Nat) : Nat := 64 * k + i

/-- The averages of a candidate. -/
def avgGet (d : Dev) (k i : Nat) : Avg := tget d.sgAvg (sgKey k i) ⟨0, 0, 0⟩

/-- The score of a candidate (R260), without DIST terms. -/
def score (d : Dev) (k i : Nat) : Nat :=
  let a := avgGet d k i
  let w := regGet d .sgW k
  (bits w 31 24 * a.lat.toNat + bits w 23 16 * a.q.toNat + bits w 15 8 * a.load.toNat) / 65536

/-- The eligible candidate with the lowest score; a tie goes to the first tied one after the one chosen last (R261). -/
def bestOf (d : Dev) (k : Nat) (cands : List Nat) : Option Nat :=
  match cands with
  | [] => none
  | c :: t =>
      let m := t.foldl (fun m i => min m (score d k i)) (score d k c)
      nextAfter (tget d.sgLast k 63) (cands.filter (fun i => score d k i = m))

/-- A choice by score for a subchannel (R261): the previous choice stays while it is eligible, unless another candidate's score is lower
by more than the hysteresis of the kind; with none, the lowest score. -/
def choiceOf (d : Dev) (k : Nat) (prev : Option Nat) (cands : List Nat) : Option Nat :=
  match prev, bestOf d k cands with
  | some p, some b => if cands.contains p && !(decide (score d k b + (regGet d .sgH k).toNat < score d k p)) then some p else some b
  | _, b => b

/-- Is an upstream port up: neither in reset nor down (R271)? -/
def upUp (d : Dev) (p : Nat) : Bool := !(lget d.upDown p false)

/-! ### Upstream ports (R133, R271) -/

/-- The 64-entry affinity table (R271, R283): the port of the lowest valid entry that covers the address and accepts
the function. -/
def affinityPort (d : Dev) (f : FnId) (a : Nat) : Option Nat :=
  let hit := fun (i : Nat) =>
    let c := regGet d .sgAffCtl i
    bit c 31 && decide ((regGet d .sgAffBase i).toNat ≤ a) && decide (a ≤ (regGet d .sgAffLimit i).toNat + 0x1FFFFF)
      && (bit c 30 || (decide (bits c 7 7 = f.port) && decide (bits c 6 0 = f.fn)))
  ((List.range 64).find? hit).map (fun i => regFld d .sgAffCtl i 8 8)

/-- The address of a host access as it appears on the link (R271, R515): translated where the function has a translation for its page. -/
def linkAddr (d : Dev) (f : FnId) (a : Nat) : Nat :=
  match d.xlate.find? (fun x => decide (x.1 = fnKey f) && decide (x.2.1 = a / 4096)) with
  | some x => if (fnGet d f).ats then 4096 * x.2.2 + a % 4096 else a
  | none => a

/-- The upstream ports a choice is made among: those neither in reset nor down, or both while none is up (R271). -/
def portsUp (d : Dev) : List Nat := match [0, 1].filter (upUp d) with | [] => [0, 1] | l => l

/-- The port that the pin or the affinity table names (R271). -/
def namedPort (d : Dev) (f : FnId) (pin : Option Nat) (a : Nat) : Option Nat :=
  match pin with
  | some p => some p
  | none => affinityPort d f (linkAddr d f a)

/-- The upstream port for a host address (R271): the pin, the affinity table, the lower score; a port in reset or
down is skipped (R133). `prev` is the subchannel's previous choice by score (R261). -/
def choosePort (d : Dev) (f : FnId) (pin prev : Option Nat) (a : Nat) : Nat :=
  match namedPort d f pin a with
  | some p => if lget d.upDown p false && !(lget d.upDown (1 - p) false) then 1 - p else p
  | none => (choiceOf d 2 prev (portsUp d)).getD 0

/-- The pin and the previous choice that count for an access (R261, R271). -/
def viaPrev (d : Dev) : Via → Option Nat × Option Nat
  | .sub n => ((subGet d n).portPin, (subGet d n).sgUp)
  | _ => (none, none)

/-- A choice by score is noted as the latest of its kind, and of its subchannel (R261). -/
def notePort (v : Via) (p : Nat) (d : Dev) : Dev :=
  let d := { d with sgLast := tset d.sgLast 2 p 63 }
  match v with
  | .sub n => if (subGet d n).sgUp = some p then d else subSet n { subGet d n with sgUp := some p } d
  | _ => d

/-- The port a ring keeps (R272), or the other one while it is in reset or down (R133). -/
def ringPort (d : Dev) (p : Nat) : Nat := if lget d.upDown p false && !(lget d.upDown (1 - p) false) then 1 - p else p

/-- The port of a host access (R271, R272). -/
def portOf (d : Dev) (v : Via) (f : FnId) (a : Nat) : Nat :=
  match v with
  | .kept p => ringPort d p
  | _ => choosePort d f (viaPrev d v).1 (viaPrev d v).2 a

/-- The port of a host access, chosen now; a choice by score is noted. -/
def takePort (v : Via) (f : FnId) (a : Nat) (d : Dev) : Nat × Dev :=
  let p := portOf d v f a
  match v, namedPort d f (viaPrev d v).1 a with
  | .kept _, _ => (p, d)
  | _, some _ => (p, d)
  | _, none => (p, notePort v p d)

/-! ### Accesses to host memory (R170, R515) -/

/-- The 4 KiB pages an access touches. -/
def pagesOf (a : DWord) (n : Nat) : List Nat := span (a.toNat / 4096) ((a.toNat % 4096 + max n 1 + 4095) / 4096)

/-- Has a function a translation of a page? -/
def hasXlate (d : Dev) (f : FnId) (p : Nat) : Bool := d.xlate.any (fun x => decide (x.1 = fnKey f) && decide (x.2.1 = p))

/-- The pages of an access for which the function, with ATS enabled, has no translation (R515). -/
def untranslated (d : Dev) (f : FnId) (a : DWord) (n : Nat) : List Nat :=
  if (fnGet d f).ats then (pagesOf a n).filter (fun p => !(hasXlate d f p)) else []

/-- Ask for translations not yet asked for (R515). -/
def askXlate (f : FnId) (ps : List Nat) (d : Dev) : Dev :=
  ps.foldl (fun d p => if d.xasked.contains (fnKey f, p) then d
    else emit (.xlate f p) { d with xasked := d.xasked ++ [(fnKey f, p)] }) d

/-- A request as it leaves by a port. -/
def HostReq.out (f : FnId) (p : Nat) : HostReq → Out
  | .zero => .zeroRead p
  | .read a n => .hostRead f p a n
  | .write a b => .hostWrite f p a b

/-- The first address and the length of a request. -/
def HostReq.addr : HostReq → DWord
  | .zero => 0
  | .read a _ => a
  | .write a _ => a
def HostReq.len : HostReq → Nat
  | .zero => 0
  | .read _ n => n
  | .write _ b => b.length

/-- Send a request of a function by its port, behind its PASID prefix where PASID Enable and UP_FNPASID.PV are set (R43, R271, R515). -/
def sendHost (v : Via) (f : FnId) (o : HostReq) (d : Dev) : Dev :=
  let (p, d) := takePort v f o.addr.toNat d
  if (fnGet d f).pasid && decide (regFld d .upFnpasid (fnKey f) 31 31 = 1) then
    emit (o.out f p) (emit (.pasid f (regFld d .upFnpasid (fnKey f) 19 0)) d)
  else emit (o.out f p) d

/-- The pages a request needs translations for. -/
def outPages (d : Dev) (f : FnId) (o : HostReq) : List Nat :=
  match o with
  | .zero => []
  | _ => untranslated d f o.addr o.len

/-- A function's request to host memory leaves, unless the function is in D3hot (R170) or lacks a translation, for which
it asks (R515): then it waits. -/
def hostOut (v : Via) (f : FnId) (o : HostReq) (d : Dev) : Dev :=
  if (fnGet d f).d3hot then { d with outHeld := d.outHeld ++ [(f, v, o)] }
  else match outPages d f o with
    | [] => sendHost v f o d
    | ps => askXlate f ps { d with outHeld := d.outHeld ++ [(f, v, o)] }

/-- Requests that waited leave in order as they may. -/
def releaseOut (d : Dev) : Dev :=
  d.outHeld.foldl (fun d x => hostOut x.2.1 x.1 x.2.2 d) { d with outHeld := [] }

/-- A zero-length read on port p for a function (R21); in D3hot it waits too (R170). -/
def zeroOut (f : FnId) (p : Nat) (d : Dev) : Dev :=
  if (fnGet d f).d3hot then { d with outHeld := d.outHeld ++ [(f, .kept p, .zero)] } else emit (.zeroRead p) d

/-- Must accesses to host memory wait: the function is in D3hot (R170), or a translation that one of those that succeed needs
is missing (R515)? An access is an address, a length, and whether it succeeds. -/
def hostWaits (d : Dev) (f : FnId) (l : List (DWord × Nat × Bool)) : Bool :=
  !l.isEmpty && ((fnGet d f).d3hot || l.any (fun x => x.2.2 && !(untranslated d f x.1 x.2.1).isEmpty))

/-- Ask for the translations that accesses wait for; none in D3hot. -/
def hostAsk (f : FnId) (l : List (DWord × Nat × Bool)) (d : Dev) : Dev :=
  if (fnGet d f).d3hot then d
  else l.foldl (fun d x => if x.2.2 then askXlate f (untranslated d f x.1 x.2.1) d else d) d

/-- A meaning that accesses host memory: it waits while its accesses must, and asks for the translations they need. -/
def hostGo (f : FnId) (l : List (DWord × Nat × Bool)) (k : Dev → Dev) (d : Dev) : Dev :=
  if hostWaits d f l then hostAsk f l d else k d

/-- The read of the CCW at `a`: its 16 bytes, or in CXL mode its 64-byte line (R38). -/
def ccwRead (n : Nat) (a : DWord) (d : Dev) : Dev :=
  let s := subGet d n
  let f : FnId := ⟨s.ownPort, s.ownFn⟩
  let cxl := regFld d .upStat (portOf d (.sub n) f a.toNat) 18 18 = 1
  hostOut (.sub n) f (if cxl then .read (a &&& ~~~63#64) 64 else .read a 16) d

/-- The 16 bytes of the CCW at `a` in what its read returned (R38). -/
def ccwOfRead (a : DWord) (b : List Byte) : QWord :=
  BitVec.ofNat 128 (leNat (fitBytes 16 (if b.length = 64 then b.drop (a.toNat % 64) else b)))

/-! ### Choosing a ring (R99) -/

/-- The owner of completion ring n. -/
def crOwner (d : Dev) (n : Nat) : Option FnId := ownOf (crGet d n).own

/-- The ring of an entry (R99): the ring named, while the issuer or the subchannel's owner owns it; else CRING, when
the subchannel's owner owns that; else none (log entry 11). -/
def chooseRing (d : Dev) (named : Option Nat) (issuer : FnId) (s : Sub) : Option Nat :=
  let fallback := if (subOwner s).isSome ∧ crOwner d s.cring = subOwner s then some s.cring else none
  match named with
  | some r =>
      if crOwner d r = some issuer ∨ ((subOwner s).isSome ∧ crOwner d r = subOwner s) then some r else fallback
  | none => fallback

/-- The ring an entry goes to as it is posted: ownership is judged again (R99). -/
def entRing (d : Dev) (e : Ent) : Option Nat :=
  if e.early then (if crOwner d e.ring = some e.issuer then some e.ring else none)
  else chooseRing d (some e.ring) e.issuer (subGet d e.item.sub)

/-- Count an entry that no ring can take in NOPOST of a function (R99, R166). -/
def countNopost (f : FnId) (d : Dev) : Dev :=
  let x := fnGet d f
  fnSet f { x with nopost := min 0xFFFFFFFF (x.nopost + 1) } d

/-! ### Placing entries (R151, R154 to R158) -/

/-- Is the ring full: disabled, or PROD − CONS equals its size (R153, R158)? -/
def ringFull (r : CRing) : Bool := !(bit r.ctl 31) || decide ((r.prod - r.cons).toNat = ringSize r.ctl)

/-- Where the next entry of the ring lies. -/
def ringAddr (r : CRing) : DWord := r.base + BitVec.ofNat 64 (32 * (r.prod.toNat % ringSize r.ctl))

/-- Must the ring wait for a translation of its next address (R515)? -/
def ringUntranslated (d : Dev) (r : CRing) : Bool :=
  match ownOf r.own with
  | none => false
  | some f => (fnGet d f).ats && !(hasXlate d f ((ringAddr r).toNat / 4096))

/-- Is the owner in D3hot (R170)? -/
def ringD3 (d : Dev) (r : CRing) : Bool :=
  match ownOf r.own with
  | none => false
  | some f => (fnGet d f).d3hot

/-- Can an entry be written into the ring now? -/
def ringOpen (d : Dev) (r : CRing) : Bool := !(ringFull r) && !(ringD3 d r) && r.xwait.isNone

/-- The 32 bytes of an entry as written: PH is the lap's phase, DLY as the entry carries it (R149, R151). -/
def entryBytes (r : CRing) (x : FifoItem) : List Byte :=
  leBytes 32 (setBit (setBit x.word 7 r.phase) 0 x.dly).toNat

/-- Write an entry into its ring (R151) and arm the ring (R167). SPLIT writes bytes 8 to 31 first. The ring's write
leaves by the port of the ring's base (R146, R271); when that is not the port that answers the subchannel's window,
the window entry changes only after a zero-length read there (R165). `shows` tells whether the window changes with it. -/
def ringWrite (n : Nat) (x : FifoItem) (shows : Bool) (d : Dev) : Dev :=
  let r := crGet d n
  match ownOf r.own with
  | none => d
  | some f =>
      let b := entryBytes r x
      let a := ringAddr r
      let d := traceEvent 1 (some (f.port * 256 + f.fn)) (bits x.word 255 192) x.sub d
      let d := dbEvent 2 d
      let d := if x.dly then dbEvent 3 d else d
      let d := if bit r.ctl 30
        then sendHost (.kept r.port) f (.write a (b.take 8)) (sendHost (.kept r.port) f (.write (a + 8) (b.drop 8)) d)
        else sendHost (.kept r.port) f (.write a b) d
      let prod := r.prod + 1
      let r := { r with prod := prod, phase := if prod.toNat % ringSize r.ctl = 0 then !r.phase else r.phase }
      let d := crSet n r d
      let q := ringPort d r.port
      let s := subGet d x.sub
      let d := if shows && decide (q ≠ f.port)
        then emit (.zeroRead q) (if s.swHold.isSome then d else subSet x.sub { s with swHold := some (q, BitVec.ofNat 64
          (fieldN 63 40 s.swSeq.toNat + swFields s)) } d)
        else d
      armRing n x d

/-- The ring asks for the translation it lacks and waits for it (R515). -/
def ringAskXlate (n : Nat) (d : Dev) : Dev :=
  let r := crGet d n
  match ownOf r.own with
  | none => d
  | some f => askXlate f [(ringAddr r).toNat / 4096] (crSet n { r with xwait := some (ringAddr r) } d)

/-- An entry goes to the tail of the ring's deep FIFO (R154). The first entry to an empty FIFO of a full ring enters FULL:
its event, and with FULLMSG the message at once (R155). The entry that fills the FIFO sets STALL, and the event again
(R156); none while D3hot alone holds the entries (R170). -/
def fifoPlace (n : Nat) (x : FifoItem) (d : Dev) : Dev :=
  let r := crGet d n
  let becomesFull := ringFull r && r.fifo.items.isEmpty && !r.full
  let f := Fifo.push (midSize d n) r.fifo x
  let fills := f.isFull && !r.stall
  let d := crSet n { r with fifo := f, full := r.full || becomesFull, stall := r.stall || fills } d
  let d := noteHwm n f.items.length d
  let d := if becomesFull then
      (let d := pageEvent (0x200 + n / 16) (n % 16) d
       if bit r.ctl 29 then sendMessage n d else d)
    else d
  if fills && (ringFull r || !(ringD3 d r)) then pageEvent (0x200 + n / 16) (n % 16) d else d

/-! ### State changes that entries report (R93, R102, R114, R115, R156) -/

/-- Every state but START_PENDING and ACTIVE clears RP on entry (R93). -/
def Sub.enter (s : Sub) (st : SubState) : Sub :=
  { s with st := st, rp := if st = .startPending ∨ st = .active then s.rp else false }

/-- The program of a subchannel is over: its START no longer stands and the record keeps its last status. The operation slots it still
held are free (R156). -/
def endProg (n : Nat) (st : SubState) (c dv : Byte) (ou : Bool) (d : Dev) : Dev :=
  let s := subGet d n
  let s := { (s.enter st) with cstat := c, dstat := dv, swOu := ou, fcStart := false }
  subSet n s { d with progs := d.progs.filter (fun e => e.1 ≠ n)
                      ops := d.ops.filter (fun e => !(decide (e.2.sub = n) && !e.2.detached)) }

/-- The suspending CCW of a program that stands in SUSPENDED is fetched again (R83). -/
def refetch (n : Nat) (d : Dev) : Dev :=
  match d.progs.find? (fun e => e.1 = n) with
  | some (_, p) =>
      match p.stage with
      | .atSuspend a =>
          ccwRead n a { d with progs := d.progs.map (fun e => if e.1 = n then (n, { p with stage := .refetch a }) else e) }
      | _ => d
  | none => d

/-- Make the change an entry reports (R156). Entering SUSPENDED with RP set applies a RESUME at once (R93). An alert entry that
stalled may find a START that was accepted meanwhile: its change is not made then, a case the spec leaves open (log entry 97). -/
def applyChange (n : Nat) (c : Change) (d : Dev) : Dev :=
  match c with
  | .none => d
  | .status st cs ds ou => endProg n st cs ds ou d
  | .alert st ds =>
      let s := subGet d n
      if s.st = .idle ∨ s.st = .statusPending then subSet n { s.enter st with cstat := 0, dstat := ds } d else d
  | .toState st => subSet n ((subGet d n).enter st) d
  | .suspend =>
      let s := subGet d n
      let s := { s with cstat := 0, dstat := 3 }
      if s.st ≠ .active then subSet n s d
      else if s.rp then refetch n (subSet n { s with rp := false, st := .active } d)
      else subSet n (s.enter .suspended) d
  | .resume =>
      let s := subGet d n
      if s.st = .suspended then refetch n (subSet n { s with st := .active } d) else d

/-- Has the subchannel an entry that waits to be posted? -/
def subWaits (d : Dev) (n : Nat) : Bool := d.stalled.any (fun e => e.item.sub = n)

/-- Can the ring take an entry, in its own place or in its deep FIFO (R154)? -/
def ringRoom (d : Dev) (n : Nat) : Bool :=
  let r := crGet d n
  (ringOpen d r && r.fifo.items.isEmpty) || !r.fifo.isFull

/-- Must an entry wait for data on another port (R21), or for the mirror copy of its subchannel's latest checkpoint (R312)? -/
def entHeld (d : Dev) (e : Ent) : Bool :=
  let x := subGet d e.item.sub
  e.zlr.isSome || d.mirrorWait.contains (x.home, x.slot)

/-- Is there room for an entry; one that no ring takes needs none (R99). -/
def entRoom (d : Dev) (e : Ent) : Bool :=
  match entRing d e with
  | none => true
  | some n => ringRoom d n

/-- Does the subchannel wait under R156, at a full deep FIFO, with its next entry? -/
def waits156 (d : Dev) (n : Nat) : Bool :=
  match d.stalled.find? (fun e => e.item.sub = n) with
  | none => false
  | some e => !(entHeld d e) && !(entRoom d e)

/-- Does an entry change its subchannel's status-window entry (R165)? -/
def Ent.shows (e : Ent) : Bool := e.item.status || decide (e.change ≠ .none)

/-- Place an entry that need not wait: in its ring, else in the deep FIFO (R154). One that no ring can take is counted
(R99). The change it reports is made with it (R156); HELD shows that the entry behind the window is in the deep FIFO (R165). An
entry whose address lacks a translation waits there too: where R515 holds it is open (log entry 98). -/
def placeEnt (e : Ent) (d : Dev) : Dev :=
  let k := e.item.sub
  match entRing d e with
  | none => applyChange k e.change (countNopost e.issuer d)
  | some n =>
      let r := crGet d n
      let note := fun (held : Bool) (d : Dev) =>
        let d := applyChange k e.change d
        if e.shows then subSet k { subGet d k with swHeld := held } d else d
      if ringOpen d r && r.fifo.items.isEmpty then
        if ringUntranslated d r then note true (fifoPlace n { e.item with status := e.shows } (ringAskXlate n d))
        else note false (ringWrite n e.item e.shows d)
      else note true (fifoPlace n { e.item with status := e.shows } d)

/-- An entry waits behind those before it. STL shows a subchannel that waits under R156 (R163). -/
def stallEnt (e : Ent) (d : Dev) : Dev :=
  let d := { d with stalled := d.stalled ++ [e] }
  let n := e.item.sub
  if waits156 d n && !(subGet d n).swStl then subSet n { subGet d n with swStl := true } d else d

/-- Post an entry. The entries of one subchannel are posted in the order of their events (R100): one that waits holds
back the later ones. -/
def postEnt (e : Ent) (d : Dev) : Dev :=
  if subWaits d e.item.sub || entHeld d e || !(entRoom d e) then stallEnt e d else placeEnt e d

/-- Move entries from the head of the deep FIFO into the ring in order, while it has room (R154). An entry whose data went by another
port than the ring's waits for a zero-length read there (R21). HELD is 0 again once none of the subchannel's entries that change its
window is left (R163). -/
def drainRing (n : Nat) : Nat → Dev → Dev
  | 0, d => d
  | k + 1, d =>
      let r := crGet d n
      if ringOpen d r && r.zlr.isNone then
        if r.fifo.head = 0 then d
        else if ringUntranslated d r then ringAskXlate n d
        else
          match r.fifo.pop (midSize d n) with
          | none => d
          | some (x, f) =>
              match x.ports.find? (· ≠ ringPort d r.port) with
              | some p => emit (.zeroRead p) (crSet n { r with zlr := some p } d)
              | none =>
                  let d := crSet n { r with fifo := f, full := r.full && !f.items.isEmpty, stall := r.stall && f.isFull } d
                  let d := ringWrite n { x with dly := true } x.status d
                  let s := subGet d x.sub
                  let d := if x.status && s.swHeld && !(f.items.any (fun y => y.status && decide (y.sub = x.sub))) then
                    subSet x.sub { s with swHeld := false } d else d
                  drainRing n k d
      else d

/-- Entries that waited take free places in the order they came; an earlier waiting entry of the same subchannel goes
first (R100, R156). The list holds those not yet looked at. -/
def unstall : List Ent → Dev → Dev
  | [], d => d
  | e :: t, d =>
      if subWaits d e.item.sub || entHeld d e || !(entRoom d e) then unstall t { d with stalled := d.stalled ++ [e] }
      else unstall t (placeEnt e d)

/-- Try every waiting entry again, then recompute STL of the subchannels concerned (R156). -/
def retryStalled (d : Dev) : Dev :=
  let todo := d.stalled
  let d := unstall todo { d with stalled := [] }
  (todo.map (·.item.sub)).eraseDups.foldl (fun d n => subSet n { subGet d n with swStl := waits156 d n } d) d

/-! ### Building and posting entries (R98, R99, R149, R150) -/

/-- Flag bits of an entry (R149). -/
def flagFin : Nat := 0x40
def flagInt : Nat := 0x20
def flagSus : Nat := 0x10
def flagAlr : Nat := 0x08
def flagOu : Nat := 0x04
def flagRec : Nat := 0x02

/-- The 256 bits of a completion entry (R149), PH and DLY 0. -/
def entryWord (jseq : Nat) (last : DWord) (resid : Word) (sub : Nat) (tag : Word) (ds cs : Byte) (resp fcode flags : Nat) :
    BitVec 256 :=
  BitVec.ofNat 256
    (fieldN 255 192 jseq + fieldN 191 128 last.toNat + fieldN 127 96 resid.toNat + fieldN 83 64 sub
     + fieldN 63 32 tag.toNat + fieldN 31 24 ds.toNat + fieldN 23 16 cs.toNat + fieldN 15 12 resp + fieldN 11 8 fcode
     + fieldN 7 0 flags)

/-- Post a word to a ring, or count it and make its change at once where no ring can take it (R99). `final` marks
the entries that bypass the hold-off with IMM: final and alert entries of a subchannel (R167). -/
def postWord (ring : Option Nat) (f : FnId) (n : Nat) (w : BitVec 256) (final status : Bool) (c : Change) (d : Dev) : Dev :=
  let s := subGet d n
  match ring with
  | some r =>
      postEnt { ring := r, change := c, issuer := f, early := false, zlr := none, item :=
        { word := w, arms := !s.isup, imm := final && s.imm && !s.isup, status := status, dly := false, sub := n, ports := [] } } d
  | none => applyChange n c (countNopost f d)

/-- The ring an entry is bound for (R99): the one that takes it; where none does, the one named, or else CRING. -/
def boundRing (ring named : Option Nat) (s : Sub) : Nat := ring.getD (named.getD s.cring)

/-- The journal record of an entry (R452): FINAL, SUSPEND or ALERT. -/
def jentry (kind : Nat) (f : FnId) (n : Nat) (ref : Nat) (last : DWord) (resid : Word) (tag : Word) (ring : Nat)
    (fcode resp : Nat) (ds cs : Byte) (flags : Nat) (arg : Word) : JRec :=
  { jblank kind f with
    ccw := last, resid := resid, tag := tag, ref := BitVec.ofNat 64 ref, sub := n, ring := ring, fcode := fcode
    resp := resp, dstat := ds, cstat := cs, flags := flags, arg := arg }

/-- Post an alert entry (R114, R115): the subchannel enters the state given. -/
def postAlert (n : Nat) (ds : Byte) (st : SubState) (d : Dev) : Dev :=
  let s := subGet d n
  match subOwner s with
  | none => d
  | some f =>
      let ring := chooseRing d none f s
      let d := jput (jentry 0x05 f n 0 0 0 0 (boundRing ring none s) 0 0 ds 0 flagAlr 0) d
      let d := subSet n { subGet d n with scAlert := true } d
      postWord ring f n (entryWord 0 0 0 n 0 ds 0 0 0 flagAlr) true true
        (.alert st ds) d

/-- Fewer than 16 entries of the subchannel wait under R156 (R157). -/
def stallRoom (d : Dev) (n : Nat) : Bool := decide ((d.stalled.filter (fun e => e.item.sub = n)).length < 16)

/-- Held attention is posted when the subchannel next enters IDLE or STATUS_PENDING (R115), once fewer than 16 of its entries wait
(R157). -/
def releaseAttention (n : Nat) (d : Dev) : Dev :=
  let s := subGet d n
  if s.heldAttn ∧ (s.st = .idle ∨ s.st = .statusPending) ∧ stallRoom d n = true then
    postAlert n 0x10 .statusPending (subSet n { s with heldAttn := false } d)
  else d

/-- Every subchannel with held attention that stands in IDLE or STATUS_PENDING posts it (R115). -/
def attnSweep (d : Dev) : Dev :=
  (d.subs.filter (fun e => e.2.heldAttn)).foldl (fun d e => releaseAttention e.1 d) d

/-! ### Function entries (R98, R100, R104, R150) -/

/-- Put an entry behind a zero-length read of the other port, where that carried data for it (R21). Data on the ring's own port needs
one only if the entry leaves by another port later. -/
def postAfter (ports : List Nat) (e : Ent) (d : Dev) : Dev :=
  let q := ringPort d (crGet d e.ring).port
  let e := { e with item := { e.item with ports := ports.filter (· = q) } }
  match ports.find? (· ≠ q) with
  | none => postEnt e d
  | some p => postEnt { e with zlr := some p } (zeroOut e.issuer p d)

/-- The entry of an accepted function other than START, with its FINAL record (R98, R150, R452): response, channel and
device status, the change it reports, and the ports that carried data for it. -/
def fnEntry (t : TakeIn) (resp : Nat) (cs ds : Byte) (c : Change) (ports : List Nat) (d : Dev) : Dev :=
  let n := seSub t.entry
  let s := subGet d n
  let ring := chooseRing d t.ring t.fn s
  let d := jput (jentry 0x03 t.fn n t.jseq (seAddr t.entry) 0 (seTag t.entry) (boundRing ring t.ring s) (seFcode t.entry) resp ds cs flagFin 0) d
  match ring with
  | none => applyChange n c (countNopost t.fn d)
  | some r => postAfter ports { ring := r, change := c, issuer := t.fn, early := false, zlr := none, item :=
      { word := entryWord t.jseq (seAddr t.entry) 0 n (seTag t.entry) ds cs resp (seFcode t.entry) flagFin
        arms := !s.isup, imm := s.imm && !s.isup, status := false, dly := false, sub := n, ports := [] } } d

/-- The function leaves the take-in path: it waits no more, and its direct-start slot is free (R160). -/
def fnFree (t : TakeIn) (d : Dev) : Dev :=
  let x := fnGet d t.fn
  let d := { d with waiting := d.waiting.filter (fun u => u.jseq ≠ t.jseq) }
  if t.ds then fnSet t.fn { x with slots := x.slots.filter (fun p => p.1 ≠ t.srcIx) } d else d

/-- The record of a function as it is accepted (kind 1) or refused (kind 2), under its own number (R101, R450, R452). -/
def fnRecord (kind resp : Nat) (t : TakeIn) (d : Dev) : Dev :=
  jenter { jblank kind t.fn with
    ccw := seAddr t.entry, tag := seTag t.entry, seq := t.jseq, sub := seSub t.entry, ring := t.srcIx, ds := t.ds
    fcode := seFcode t.entry, resp := resp } d

/-- May the issuer send the function to a subchannel (R89)? -/
def permitted (f : FnId) (s : Sub) (fcode : Nat) : Bool :=
  if subOwner s = some f then fcode ≠ 8 || decide (f.fn = 0)
  else if f.fn ≠ 0 then false
  else match subOwner s with
    | none => fcode = 8
    | some o => decide (o.port = f.port) && decide (o.fn ≠ 0) && [4, 5, 6, 7, 8].contains fcode

/-- Does the issuer hold some right to the subchannel (R89, R97 check 2)? -/
def hasRight (f : FnId) (s : Sub) : Bool := (span 1 8).any (permitted f s)

/-- A refused function (R96, R97, R98, R99, R102, R150): its record and its entry. BUSY shows in the device status of
every function but START. With check 1 or 2 failed, only a ring the function names can take the entry. -/
def fnRefuse (t : TakeIn) (resp : Nat) (d : Dev) : Dev :=
  let n := seSub t.entry
  let d := fnFree t (fnRecord 2 resp t d)
  let s := subGet d n
  let ds : Byte := if resp = 1 ∧ seFcode t.entry ≠ 1 then 0x08 else 0
  let early := resp = 4 || (resp = 5 && (decide (Config.subchannels ≤ n) || !(hasRight t.fn s)))
  let ring := if early then (match t.ring with
      | some r => if crOwner d r = some t.fn then some r else none
      | none => none)
    else chooseRing d t.ring t.fn s
  match ring with
  | none => countNopost t.fn d
  | some r => postEnt { ring := r, change := .none, issuer := t.fn, early := early, zlr := none, item :=
      { word := entryWord t.jseq (seAddr t.entry) 0 n (seTag t.entry) ds 0 resp (seFcode t.entry) flagFin
        arms := !s.isup, imm := s.imm && !s.isup, status := false, dly := false, sub := n, ports := [] } } d

/-- The clear actions (R104). -/
def clearActions (n : Nat) (d : Dev) : Dev :=
  let s := subGet d n
  subSet n { s with sense := Sense.none, rp := false, heldAttn := false, position := 0, hpriv := s.bindPriv
                    scAlert := false } d

/-- The end of a CLEAR: its clear actions, its entry, and IDLE with it (R156). After the loss of the device SENSE keeps
what the loss wrote, and the state stays (R585). -/
def clearDone (lost : Bool) (t : TakeIn) (d : Dev) : Dev :=
  let n := seSub t.entry
  let x := (subGet d n).sense
  let d := clearActions n d
  let d := if lost then subSet n { subGet d n with sense := x } d else d
  fnEntry t 0 0 0 (if (subGet d n).st = .notOperational ∨ (subGet d n).st = .idle then .none else .toState .idle) [] d

/-- Function entries that waited for the end of the program they ended are posted when it is over (R100, R103). -/
def fnRelease : List FnHeld → Dev → Dev
  | [], d => d
  | h :: t, d =>
      if d.progs.any (fun e => e.1 = h.sub) || d.fnHeld.any (fun x => x.sub = h.sub) then
        fnRelease t { d with fnHeld := d.fnHeld ++ [h] }
      else fnRelease t (if h.clear then clearDone (decide ((subGet d h.sub).st = .notOperational)) h.take d
        else fnEntry h.take 0 0 0 .none [] d)

/-- Post every function entry that waits for a program that is over. -/
def fnSweep (d : Dev) : Dev := fnRelease d.fnHeld { d with fnHeld := [] }

/-- A ring's zero-length read on a port is complete: the entry at its head has nothing outstanding there (R21). -/
def ringZlrDone (port n : Nat) (d : Dev) : Dev :=
  let r := crGet d n
  if r.zlr = some port then
    let items := match r.fifo.items with
      | x :: t => { x with ports := x.ports.filter (· ≠ port) } :: t
      | [] => []
    drainRing n items.length (crSet n { r with zlr := none, fifo := { r.fifo with items := items } } d)
  else d

/-- Nothing more is outstanding on an upstream port: its zero-length reads are complete (R21, R165, R272), or the port is lost and
what it carried goes by the other one (R133). -/
def portDone (port : Nat) (d : Dev) : Dev :=
  let d := { d with progs := d.progs.map (fun (e : Nat × Prog) =>
    if e.2.sync = some port then (e.1, { e.2 with sync := none, lastPort := none }) else e) }
  let d := (d.crings.map (·.1)).foldl (fun d n => ringZlrDone port n d) d
  let d := d.subs.foldl (fun d e =>
    let x := subGet d e.1
    if (x.swHold.map (·.1)) = some port then subSet e.1 { x with swHold := none } d else d) d
  retryStalled { d with stalled := d.stalled.map (fun e => if e.zlr = some port then { e with zlr := none } else e) }

/-- A meaning of the ring logic, the engine or a handler: none after a Fatal fault (R436); entries of HALT and CLEAR,
and held attention, follow what it did. -/
def liveA (f : Dev → Dev) (d : Dev) : Dev := live (fun d => attnSweep (fnSweep (f d))) d

/-- After room appears in ring n: its FIFO drains, then stalled entries take the places (R154, R156). -/
def ringProgress (n : Nat) (d : Dev) : Dev :=
  let d := drainRing n ((crGet d n).fifo.items.length) d
  let d := retryStalled d
  attnSweep (fnSweep (drainRing n ((crGet d n).fifo.items.length) d))

end Sys2Proof.Machine
end

