-- ==== Sys2Proof/Machine/RingOps.lean ====
section
/-!
DEFINITION. Start rings, direct-start slots, doorbells, ring control, moderation and power states (R135 to R175).
-/
namespace Sys2Proof.Machine

open Sys2Proof

/-- GL_STAT.READY (R553). -/
def isReady (d : Dev) : Bool := decide (regFld d .glStat 0 31 31 = 1)

/-- May another function be taken in (R148, R157)? Fewer than 65,536 wait, and the subchannel has fewer than 16
waiting entries. -/
def takeAllowed (d : Dev) (e : BitVec 512) : Bool :=
  decide (d.waiting.length < 65536) && decide ((d.stalled.filter (fun x => x.item.sub = seSub e)).length < 16)

/-- The ring an entry names after R140, and whether the name was wrong. -/
def namedRing (d : Dev) (f : FnId) (e : BitVec 512) : Option Nat × Bool :=
  if seCrv e then (if crOwner d (seCring e) = some f then (some (seCring e), false) else (none, true)) else (none, false)

/-- Take a function in (R148): it gets the next journal sequence number, shows in JSEQ_LAST and in the window's
LAST_FN, and waits to be applied; a function code that R95 does not list is refused at once. -/
def takeIn (f : FnId) (e : BitVec 512) (srcIx : Nat) (ds : Bool) (d : Dev) : Dev :=
  let (ring, bad) := namedRing d f e
  let d := if bad then
      (if ds then regSetFld .dswStat f.port 31 31 1 d
       else ringError srcIx (srSet srcIx { srGet d srcIx with crverr := true } d))
    else d
  let (q, d) := jtake d
  let d := dbEvent 1 (traceEvent 0 (some (f.port * 256 + f.fn)) q (seSub e) d)
  let d := fnSet f { fnGet d f with jseqLast := BitVec.ofNat 64 q } d
  let d := if seSub e < 0x40000 then subSet (seSub e) { subGet d (seSub e) with swLastFn := seFcode e } d else d
  let t : TakeIn := ⟨q, f, e, srcIx, ds, ring⟩
  if seFcode e = 0 ∨ 8 < seFcode e then fnRefuse t 4 d else { d with waiting := d.waiting ++ [t] }

/-! ### Start rings (R141 to R147) -/

/-- The phase expected of the entry `j` places after the next one to take in (R141). -/
def expectPhase (r : SRing) (j : Nat) : Bool :=
  if r.cons.toNat % ringSize r.ctl + j < ringSize r.ctl then r.phase else !r.phase

/-- The address of the entry `j` places after the next one (R136). -/
def startAddr (r : SRing) (j : Nat) : DWord :=
  r.base + BitVec.ofNat 64 (64 * ((r.cons.toNat + j) % ringSize r.ctl))

/-- Is the ring polled: enabled, the TC9640 ready and alive, take-in not paused, the owner not in D3hot (R148, R170,
R553)? -/
def ringPolled (d : Dev) (r : SRing) : Bool :=
  bit r.ctl 31 && isReady d && !d.fatal && !d.paused &&
  match ownOf r.own with
  | none => false
  | some f => !(fnGet d f).d3hot

/-- Issue the read of the next entry not yet read ahead (R142, R143, R144). -/
def issueHead (n : Nat) (d : Dev) : Dev :=
  let r := srGet d n
  match ownOf r.own with
  | none => d
  | some f =>
      if ringPolled d r ∧ r.rd = .idle ∧ r.pref.length < 8 then
        let cxl := regFld d .upStat (ringPort d r.port) 18 18 = 1
        let a := startAddr r r.pref.length
        hostOut (.kept r.port) f (.read a (if cxl then 64 else 16))
          (srSet n { r with rd := if cxl then .line else .head } d)
      else d

/-- Take in the entries read ahead, in ring order, while they may be taken in (R144, R147, R157). -/
def takeAhead (n : Nat) : Nat → Dev → Dev
  | 0, d => d
  | k + 1, d =>
      let r := srGet d n
      match r.pref, ownOf r.own with
      | b :: t, some f =>
          let e : BitVec 512 := BitVec.ofNat 512 (leNat b)
          if takeAllowed d e then
            let cons := r.cons + 1
            let r := { r with pref := t, cons := cons, stale := 0, dirty := r.dirty || decide (r.shadow ≠ 0)
                              phase := if cons.toNat % ringSize r.ctl = 0 then !r.phase else r.phase }
            takeAhead n k (takeIn f e n false (srSet n r d))
          else { d with paused := d.paused || decide (65536 ≤ d.waiting.length) }
      | _, _ => d

/-- A ring read failed: RDERR, and EN is cleared by the ring logic (R172, R422). -/
def ringReadError (n : Nat) (d : Dev) : Dev :=
  let r := srGet d n
  let ctl := setBit r.ctl 31 false
  let d := srSet n { r with rderr := true, ctl := ctl, rd := .idle, pref := [] } d
  ringError n (auditHw 4 (0x200 + n / 16) (0x110 + 0x20 * (n % 16)) ctl r.ctl d)

/-- A stale read: the entry is discarded and not consumed (R144, R145). -/
def ringStale (n : Nat) (d : Dev) : Dev :=
  let r := srGet d n
  srSet n { r with rd := .idle, stale := if r.pref.isEmpty then min 0xFFFF (r.stale + 1) else r.stale } d

/-- A whole entry has been read with a matching phase. -/
def ringGot (n : Nat) (b : List Byte) (d : Dev) : Dev :=
  let r := srGet d n
  takeAhead n 8 (srSet n { r with rd := .idle, pref := r.pref ++ [fitBytes 64 b] } d)

/-- A read of a start ring completes (R142 to R144, R172). -/
def ringReadDone (n : Nat) (res : HostRead) (d : Dev) : Dev :=
  let r := srGet d n
  match r.rd, res with
  | .idle, _ => d
  | _, .err _ => ringReadError n d
  | .head, .ok b =>
      let b := fitBytes 16 b
      if bit (BitVec.ofNat 128 (leNat b)) 7 = expectPhase r r.pref.length then
        match ownOf r.own with
        | none => d
        | some f => hostOut (.kept r.port) f (.read (startAddr r r.pref.length + 16) 48) (srSet n { r with rd := .body b } d)
      else ringStale n d
  | .body h, .ok b => ringGot n (h ++ fitBytes 48 b) d
  | .line, .ok b =>
      let b := fitBytes 64 b
      if bit (BitVec.ofNat 512 (leNat b)) 7 = expectPhase r r.pref.length then ringGot n b d else ringStale n d

/-! ### Ring control (R158, R172, R174) -/

/-- A sticky CFGERR of a ring: the write was ignored (R174). -/
def srCfgErr (n : Nat) (d : Dev) : Dev := ringError n (srSet n { srGet d n with cfgerr := true } d)
def crCfgErr (n : Nat) (d : Dev) : Dev := ringError n (crSet n { crGet d n with cfgerr := true } d)

/-- SIZE values 13 to 15 read back as 12 (R172, R173). -/
def clampSize (v : Word) : Word := if 12 < bits v 27 24 then setBits v 27 24 12 else v

/-- The port Signpost gives a ring when EN is set or a port changes state (R256, R271). -/
def ringChoice (d : Dev) (own : Word) (base : DWord) : Nat :=
  match ownOf own with
  | none => 0
  | some f => choosePort d f none none base.toNat

/-- Every enabled ring gets its port anew when an upstream port changes state (R256). -/
def reportPorts (d : Dev) : Dev :=
  let d := d.srings.foldl (fun d e => srSet e.1 { srGet d e.1 with port := ringChoice d e.2.own e.2.base } d) d
  d.crings.foldl (fun d e => crSet e.1 { crGet d e.1 with port := ringChoice d e.2.own e.2.base } d) d

/-- A write of SR_CTL that R174 lets through (R172): EN 0 → 1 sets SR_CONS to 0, a change the shadow shows (R147), and the
phase to 1; clearing EN discards the entries read ahead. -/
def srCtlWrite (n : Nat) (v : Word) (d : Dev) : Dev :=
  let r := srGet d n
  let v := clampSize (v &&& 0xCF00FFFF#32)
  if !(bit r.ctl 31) && bit v 31 then
    srSet n { r with ctl := v, cons := 0, phase := true, pref := [], rd := .idle, stale := 0
                     dirty := r.dirty || (decide (r.shadow ≠ 0) && decide (r.cons ≠ 0)), port := ringChoice d r.own r.base } d
  else if bit v 31 then srSet n { r with ctl := v } d
  else srSet n { r with ctl := v, pref := [], rd := .idle } d

/-- Writes of SR_BASE, SR_SHADOW and SR_OWN that R174 lets through. -/
def srBaseWrite (n : Nat) (v : DWord) (d : Dev) : Dev := srSet n { srGet d n with base := v } d
def srShadowWrite (n : Nat) (v : DWord) (d : Dev) : Dev := srSet n { srGet d n with shadow := v } d
def srOwnWrite (n : Nat) (v : Word) (d : Dev) : Dev := srSet n { srGet d n with own := v } d

/-- A write of CR_CTL that R174 lets through (R158, R173): setting EN resets counts and phase and moves the FIFO's
contents into the ring in order; clearing it makes the ring count as full. -/
def crCtlWrite (n : Nat) (v : Word) (d : Dev) : Dev :=
  let r := crGet d n
  let v := clampSize (v &&& 0xEF0007FF#32)
  if !(bit r.ctl 31) && bit v 31 then
    ringProgress n (crSet n { r with ctl := v, prod := 0, cons := 0, phase := true, port := ringChoice d r.own r.base } d)
  else crSet n { r with ctl := v } d

/-- Writes of CR_BASE and CR_OWN that R174 lets through. -/
def crBaseWrite (n : Nat) (v : DWord) (d : Dev) : Dev := crSet n { crGet d n with base := v } d
def crOwnWrite (n : Nat) (v : Word) (d : Dev) : Dev := crSet n { crGet d n with own := v } d

/-- Subchannels that wait under R156 for ring n (CR_STALLED): those whose next entry is bound for it. -/
def stalledCount (d : Dev) (n : Nat) : Nat :=
  (((d.stalled.map (·.item.sub)).eraseDups).filter (fun k =>
    waits156 d k && decide ((d.stalled.find? (fun e => e.item.sub = k)).bind (entRing d) = some n))).length

/-- Is a write of a start ring's BASE, SHADOW, CTL or OWN ignored (R174): would it change a field that is fixed while EN
is 1? -/
def srLocked (d : Dev) (n : Nat) (base shadow : DWord) (ctl own : Word) : Bool :=
  let r := srGet d n
  bit r.ctl 31 && (decide (base ≠ r.base) || decide (shadow ≠ r.shadow)
    || decide (bits (clampSize ctl) 27 24 ≠ bits r.ctl 27 24) || decide (own ≠ r.own))

/-- The same for a completion ring's BASE, CTL and OWN. -/
def crLocked (d : Dev) (n : Nat) (base : DWord) (ctl own : Word) : Bool :=
  let r := crGet d n
  bit r.ctl 31 && (decide (base ≠ r.base) || decide (bits (clampSize ctl) 27 24 ≠ bits r.ctl 27 24) || decide (own ≠ r.own))

/-- A write of CR_OWN is ignored while the ring's deep FIFO holds an entry or a subchannel waits (R174). -/
def crOwnBusy (d : Dev) (n : Nat) : Bool := !(crGet d n).fifo.items.isEmpty || decide (stalledCount d n ≠ 0)

/-- A write of CR_MOD (R173). -/
def crModWrite (n : Nat) (v : Word) (d : Dev) : Dev := crSet n { crGet d n with mod := v } d

/-- A ring write that cannot be issued (R158): WRERR, EN cleared by the ring logic; its entry stays in the FIFO. -/
def ringWriteError (n : Nat) (d : Dev) : Dev :=
  let r := crGet d n
  let ctl := setBit r.ctl 31 false
  let d := crSet n { r with wrerr := true, ctl := ctl, xwait := none } d
  ringError n (auditHw 4 (0x200 + n / 16) (0x308 + 0x40 * (n % 16)) ctl r.ctl d)

/-! ### Meanings -/

/-! ### The windows of BAR 2 and CXL.mem (R137, R162 to R166, R518) -/

/-- Where READ_CLEAR_STATUS and DIRECT_START_WRITE find BAR 2 and the CXL.mem range among their offsets, in this model. -/
def bar2Base : Nat := 0x8000000
def hdmBase : Nat := 0x10000000

/-- Does a subchannel count as owned by a reading function (R163 OWN): by it, or, for a PF, by a VF of its port? -/
def swOwned (f : FnId) (s : Sub) : Bool :=
  match subOwner s with
  | none => false
  | some g => decide (g = f) || (decide (f.fn = 0) && decide (g.port = f.port))

/-- The status-window entry of subchannel k as function f reads it (R163 to R165). -/
def swWord (d : Dev) (f : FnId) (k : Nat) : Nat :=
  let s := subGet d k
  if swOwned f s then
    (match s.swHold with
      | some (_, w) => w.toNat
      | none => fieldN 63 40 s.swSeq.toNat + swFields s) + fieldN 16 16 1
  else 0

/-- The status-window header of a function, in 8-byte words (R166). -/
def swHeader (x : Fn) (i : Nat) : Nat :=
  if i < 4 then ((List.range 64).map (fun b => if x.slots.any (fun p => p.1 = 64 * i + b) then 2 ^ b else 0)).foldl (· + ·) 0
  else if i = 4 then x.dsDrop % 2 ^ 32 + 2 ^ 32 * (x.dsMalf % 2 ^ 32)
  else if i = 5 then x.winErr % 2 ^ 32 + 2 ^ 32 * (x.nopost % 2 ^ 32)
  else if i = 6 then x.jseqLast.toNat
  else 0

/-- The 8 bytes of BAR 2 at word i (R137); nothing is stated of the direct-start window and the doorbells: free values. -/
def bar2Word (f : FnId) (i : Nat) (d : Dev) : Nat × Dev :=
  if i < 0x1000 then (let (v, d) := freeNext d; (v.toNat % 2 ^ 64, d))
  else if i < 0x1008 then (swHeader (fnGet d f) (i - 0x1000), d)
  else if 0x40000 ≤ i then (swWord d f (i - 0x40000), d)
  else (0, d)

/-- The words from i on, as bytes. -/
def bar2Words (f : FnId) : Nat → Nat → Dev → List Byte × Dev
  | 0, _, d => ([], d)
  | k + 1, i, d =>
      let (v, d) := bar2Word f i d
      let (l, d) := bar2Words f k (i + 1) d
      (leBytes 8 v ++ l, d)

/-- Does a read lie within the reserved range of BAR 2 (R137)? -/
def bar2Reserved (off size : Nat) : Bool := decide (0x8040 ≤ off) && decide (off + size ≤ 0x200000)

/-- A read of BAR 2 (R137, R164): 1 to 64 bytes that do not cross a 64-byte boundary are answered at once; the reserved range
returns 0. -/
def bar2Read (f : FnId) (off size : Nat) (d : Dev) : Dev :=
  if bar2Reserved off size then emit (.window f (List.replicate size 0)) d
  else if size = 0 ∨ 64 < off % 64 + size then emit (.unsupported (fnOrigin f)) d
  else
    let (b, d) := bar2Words f ((off % 8 + size + 7) / 8) (off / 8) d
    emit (.window f ((b.drop (off % 8)).take size)) d

/-- The function whose BAR 2 layout an offset of the HDM range of a port shows, with the offset in it (R518). -/
def hdmMap (port off : Nat) : Option (FnId × Nat) :=
  if off / 0x400000 ≤ 64 then some (⟨port, off / 0x400000⟩, off % 0x400000) else none

/-- A read of the CXL.mem range of a port (R518): beyond the functions it reads as zeros. -/
def hdmRead (port off size : Nat) (d : Dev) : Dev :=
  match hdmMap port off with
  | some (f, o) => bar2Read f o size d
  | none => emit (.window ⟨port, 0⟩ (List.replicate size 0)) d

/-- START_RING_POLL (R145): the next expected entry is read; one read with a matching phase and held back is tried
again first. -/
def execStartRingPoll (ring : Nat) (s : State) : Host.Outcome State Fault Refusal :=
  run s (fun d => if isReady d && !d.fatal then issueHead ring (if d.paused then d else takeAhead ring 8 d) else d)

/-- CXL_LINE_INVALIDATE (R143): in CXL mode the line of the next entry is read anew at once. -/
def execCxlLineInvalidate (ring : Nat) (s : State) : Host.Outcome State Fault Refusal :=
  run s (live (fun d =>
    let r := srGet d ring
    match ownOf r.own with
    | none => d
    | some _ => if regFld d .upStat (ringPort d r.port) 18 18 = 1 then issueHead ring d else d))

/-- START_RING_READ_COMPLETE (R142). -/
def execStartRingReadComplete (ring : Nat) (res : HostRead) (s : State) : Host.Outcome State Fault Refusal :=
  run s (live (ringReadDone ring res))

/-- Add one to a counter of the window header; it stays at its largest value (R166). -/
def satCount (n : Nat) : Nat := min 0xFFFFFFFF (n + 1)

/-- A direct-start write (R159, R161, R553): malformed before READY too; dropped and journaled on an occupied slot;
else the slot is occupied and the function taken in, at once unless take-in waits (R148, R157). -/
def directStart (f : FnId) (off : Nat) (oneTlp : Bool) (b : List Byte) (d : Dev) : Dev :=
  let x := fnGet d f
  let j := off / 64
  if !(oneTlp && decide (b.length = 64) && decide (off % 64 = 0) && decide (off < 0x4000)) then
    pageEvent (0x10 + f.port) 1 (fnSet f { x with dsMalf := satCount x.dsMalf } d)
  else if !isReady d then fnSet f { x with dsMalf := satCount x.dsMalf } d
  else
    let e : BitVec 512 := BitVec.ofNat 512 (leNat b)
    if x.slots.any (fun p => p.1 = j) then
      let d := pageEvent (0x10 + f.port) 0 (fnSet f { x with dsDrop := satCount x.dsDrop } d)
      jput { jblank 0x06 f with tag := seTag e, ring := j, ds := true } d
    else if d.fatal then d
    else if takeAllowed d e && !d.paused then
      takeIn f e j true (fnSet f { x with slots := x.slots ++ [(j, d.jnHead)] } d)
    else { fnSet f { x with slots := x.slots ++ [(j, 0)] } d with
      dsWait := d.dsWait ++ [⟨0, f, e, j, true, none⟩]
      paused := d.paused || decide (65536 ≤ d.waiting.length) }


/-- Direct-start functions that wait for take-in (R148, R157). -/
def takeDirect : List TakeIn → Dev → Dev
  | [], d => d
  | t :: ts, d =>
      if takeAllowed d t.entry then
        let x := fnGet d t.fn
        let d := fnSet t.fn { x with slots := x.slots.map (fun p => if p.1 = t.srcIx then (p.1, d.jnHead) else p) } d
        takeDirect ts (takeIn t.fn t.entry t.srcIx true d)
      else takeDirect ts { d with dsWait := d.dsWait ++ [t] }

/-- TAKE_IN_RESUME (R148): below 65,536 waiting functions, start-ring reads and slots go on. -/
def execTakeInResume (s : State) : Host.Outcome State Fault Refusal :=
  run s (live (fun d =>
    if d.waiting.length < 65536 then
      let d := { d with paused := false }
      let d := takeDirect d.dsWait { d with dsWait := [] }
      d.srings.foldl (fun d e => takeAhead e.1 8 d) d
    else d))

/-- Which BAR 2 accesses count as window errors (R137, R164, R166). -/
def winError (f : FnId) (d : Dev) : Dev :=
  let x := fnGet d f
  fnSet f { x with winErr := satCount x.winErr } d

/-- STATUS_WINDOW_WRITE (R137, R164): dropped and counted in WIN_ERR. -/
def execStatusWindowWrite (fn : FnId) (s : State) : Host.Outcome State Fault Refusal := run s (winError fn)

/-- A doorbell (R153): accepted it is journaled and copied to CR_CONS, and the ring goes on (R154, R156). -/
def doorbell (f : FnId) (n size : Nat) (v : Word) (d : Dev) : Dev :=
  let r := crGet d n
  if size ≠ 4 ∨ ownOf r.own ≠ some f ∨ (r.prod - r.cons).toNat < (v - r.cons).toNat then
    ringError n (crSet n { r with dberr := true } d)
  else
    let d := jput { jblank 0x08 f with ring := n, arg := v } d
    ringProgress n (crSet n { r with cons := v } d)

/-- A write of the CXL.mem range of a port (R518): to the layout of BAR 2 of the function it falls to, of which a full line
in the direct-start window is R159's; beyond the functions it is dropped and counted for the PF. -/
def hdmWrite (port off : Nat) (oneTlp : Bool) (b : List Byte) (d : Dev) : Dev :=
  match hdmMap port off with
  | none => winError ⟨port, 0⟩ d
  | some (f, o) =>
      if o < 0x4000 then directStart f o oneTlp b d
      else if o < 0x8000 then live (doorbell f ((o - 0x4000) / 4) b.length (BitVec.ofNat 32 (leNat b))) d
      else winError f d

/-- DIRECT_START_WRITE (R159); at offsets from hdmBase on it comes through CXL.mem (R518). -/
def execDirectStartWrite (fn : FnId) (off : Nat) (oneTlp : Bool) (bytes : List Byte) (s : State) :
    Host.Outcome State Fault Refusal :=
  run s (if off < hdmBase then directStart fn off oneTlp bytes else hdmWrite fn.port (off - hdmBase) oneTlp bytes)

/-- CR_DOORBELL (R153). -/
def execCrDoorbell (fn : FnId) (ring size : Nat) (val : Word) (s : State) : Host.Outcome State Fault Refusal :=
  run s (live (doorbell fn ring size val))

/-- MSIX_HOLDOFF_EXPIRY (R167): the hold-off of an armed ring ends and its message is due. -/
def execMsixHoldoffExpiry (ring : Nat) (s : State) : Host.Outcome State Fault Refusal :=
  run s (fun d =>
    let r := crGet d ring
    if r.armed then sendMessage ring (advanceTo r.due d) else d)

/-- MSIX_UNMASK (R168): the vector is unmasked and its pending message sent. -/
def execMsixUnmask (fn : FnId) (vec : Nat) (s : State) : Host.Outcome State Fault Refusal :=
  run s (fun d =>
    let x := fnGet d fn
    let d := fnSet fn { x with vecMask := x.vecMask.filter (· ≠ vec) } d
    if (unmasked d fn).contains vec then vecOut fn vec d else d)

/-- D3HOT_ENTRY (R170). -/
def execD3hotEntry (fn : FnId) (s : State) : Host.Outcome State Fault Refusal :=
  run s (fun d => fnSet fn { fnGet d fn with d3hot := true } d)

/-- The completion rings a function owns. -/
def ringsOf (d : Dev) (f : FnId) : List Nat := (d.crings.filter (fun e => ownOf e.2.own = some f)).map (·.1)

/-- SHADOW_WRITE (R147): SR_CONS, zero-extended to 8 bytes, goes to the shadow address. -/
def execShadowWrite (ring : Nat) (s : State) : Host.Outcome State Fault Refusal :=
  run s (live (fun d =>
    let r := srGet d ring
    match ownOf r.own with
    | none => d
    | some f =>
        if r.dirty && decide (r.shadow ≠ 0) && !(fnGet d f).d3hot then
          hostOut .any f (.write r.shadow (leBytes 8 r.cons.toNat)) (srSet ring { r with dirty := false } d)
        else d))

/-- DEEP_FIFO_MIDDLE_MOVE (R248, R249): the middle's next entries reach the head; a copy that fails ECC raises
ALTCOPY. The feeds of the logs drain into their rings (log entry 10). -/
def execDeepFifoMiddleMove (fifo : Nat) (altCopy : Bool) (s : State) : Host.Outcome State Fault Refusal :=
  run s (live (fun d =>
    let d := if altCopy then pageEvent 5 1 (regSetFld .ffStat 0 30 30 1 d) else d
    if fifo < 4096 then
      let r := crGet d fifo
      let g := r.fifo.refillHead (midSize d fifo)
      ringProgress fifo (crSet fifo { r with fifo := g, stall := r.stall && g.isFull } d)
    else if fifo = 4177 then { d with auFeed := 0 }
    else if fifo = 4178 then { d with jnFeed := 0 }
    else { d with feeds := tdel d.feeds fifo }))

/-- JOURNAL_FEED_RESUME (R453): room appears in the journal feed. -/
def execJournalFeedResume (s : State) : Host.Outcome State Fault Refusal := run s (fun d => { d with jnFeed := 0 })

end Sys2Proof.Machine
end

