-- ==== Sys2Proof/Machine/SignpostOps.lean ====
section
/-!
DEFINITION. Signpost (R256 to R283): averages and scores, homes and migration swaps, pins, mover channels, the
placement log.
-/
namespace Sys2Proof.Machine

open Sys2Proof

/-! ### Samples (R258, R259) -/

/-- One update of an average by a sample (R258): a + (((x << 16) − a) >> alpha), the shift arithmetic. -/
def avgStep (alpha : Nat) (a : Word) (x : Nat) : Word :=
  let x := min x 65535
  BitVec.ofInt 32 ((a.toNat : Int) + (((x * 65536 : Nat) : Int) - (a.toNat : Int)) / ((2 ^ alpha : Nat) : Int))

/-- CPs in service in a district: the logical slots that are present (R35, R372). -/
def cpsIn (d : Dev) (dist : Nat) : Nat := ((List.range 8).filter (fun k => (slotCp d dist k).isSome)).length

/-- Operations in flight in a district: those whose slot belongs to one of its CPs (R259). -/
def opsIn (d : Dev) (dist : Nat) : Nat := (d.ops.filter (fun e => e.2.cp / 9 = dist)).length

/-- Bound subchannels homed in a district (R259). -/
def boundIn (d : Dev) (dist : Nat) : Nat := (d.subs.filter (fun e => e.2.hpack ≠ 0xFF ∧ e.2.home = dist)).length

/-- Slices of bank b in use (R235): assigned, or out of service by fencing. -/
def bankUsed (d : Dev) (b : Nat) : Nat :=
  (d.slices.filter (fun e => decide (e.1 / 256 = b) && (match e.2 with | .stream _ _ _ => true | .scratch _ => true | _ => false))).length

/-- SIGNPOST_SAMPLE (R258, R259; x_Q of a district with no CP in service, whose divisor is 0, is 65,535: log entry 99): one sample of
the metrics of a candidate. What Signpost counts in this state itself is taken from it: x_Q and x_LOAD of a district, x_LOAD of a bank.
From outside come the mean latency, the requests that wait or are outstanding, and the bytes carried in the sample with the link's
capacity. -/
def sample (k i : Nat) (lat : Option Nat) (q : SampleSum) (load : SampleLoad) (d : Dev) : Dev :=
  if (k = 0 ∧ 8 ≤ i) ∨ (k = 1 ∧ 64 ≤ i) ∨ (k = 2 ∧ 2 ≤ i) ∨ (k = 3 ∧ 32 ≤ i) ∨ 4 ≤ k then d
  else
    let n := cpsIn d i
    let xq := if k = 0 then (if n = 0 then 65535 else opsIn d i * 65535 / (256 * n))
      else q.sum * (if k = 1 then 256 else 64) / max 1 q.n
    let xl := if k = 0 then boundIn d i * 2 else if k = 1 then bankUsed d i * 256 else load.bytes * 65535 / max 1 load.cap
    let alpha := regFld d .sgW k 3 0
    let a := avgGet d k i
    let a := { lat := match lat with | some x => avgStep alpha a.lat x | none => a.lat
               q := avgStep alpha a.q xq, load := avgStep alpha a.load xl }
    { d with sgAvg := tset d.sgAvg (sgKey k i) a ⟨0, 0, 0⟩ }

/-! ### The placement log (R281, R282) -/

/-- Write a placement-log record. -/
def sgLogPut (kind reason : Nat) (val arg diff : Nat) (d : Dev) : Dev :=
  let r : BitVec 256 := BitVec.ofNat 256
    (fieldN 255 192 d.devtime.toNat + fieldN 191 128 val + fieldN 127 96 arg + fieldN 95 64 d.sgLog.length
     + fieldN 63 32 diff + fieldN 23 16 reason + fieldN 15 8 kind)
  feedIn 4176 { d with sgLog := d.sgLog ++ [r] }

/-- Record n of the placement log; none outside the ring (R282). -/
def sgLogFind (d : Dev) (n : Nat) : Option (BitVec 256) :=
  if d.sgLog.length - 1048576 ≤ n then d.sgLog[n]? else none

/-! ### Homes and migration (R263 to R268) -/

/-- Is a function queued for the subchannel (R94)? -/
def queuedFor (d : Dev) (n : Nat) : Bool :=
  d.waiting.any (fun t => seSub t.entry = n) || d.dsWait.any (fun t => seSub t.entry = n)

/-- May a subchannel move now (R94)? -/
def movable (d : Dev) (n : Nat) : Bool := decide ((subGet d n).st = .idle) && !(queuedFor d n)

/-- One of the candidates, `all` naming at least one if there is any: which one is open (a free value, log entry 13). -/
def onePartner (all : List Nat) (ok : Nat → Bool) (d : Dev) : Option Nat :=
  match all with
  | [] => none
  | m :: t =>
      let w := (Config.freeValue d.freeCtr).toNat % Config.subchannels
      some (if ok w then w else t.foldl min m)

/-- An unowned, unbound partner homed in district e (R263). -/
def freePartner (d : Dev) (e n : Nat) : Option Nat :=
  let listed := (d.subs.filter (fun x => x.2.home = e ∧ x.2.ownFn = 0x7F ∧ x.2.hpack = 0xFF)).map (·.1)
  let fresh := ((List.range (d.subs.length + d.waiting.length + d.dsWait.length + 2)).map (fun k => e + 8 * k)).filter
    (fun m => m < Config.subchannels && !(d.subs.any (fun x => x.1 = m)))
  onePartner ((listed ++ fresh).filter (fun m => m ≠ n && movable d m))
    (fun m => m ≠ n && movable d m && (subGet d m).home = e && (subGet d m).ownFn = 0x7F && (subGet d m).hpack = 0xFF) d

/-- The partner of a pin's move: an unowned, unbound one, else an IDLE, unpinned, bound one (R263). -/
def pinPartner (d : Dev) (e n : Nat) : Option Nat :=
  match freePartner d e n with
  | some m => some m
  | none =>
      let ok := fun m => m ≠ n && movable d m && (subGet d m).home = e && !(subGet d m).pinned && (subGet d m).hpack ≠ 0xFF
      onePartner ((d.subs.map (·.1)).filter ok) ok d

/-- The transit slots of a district's bank (R263). -/
def transitOf (d : Dev) (e : Nat) : List Nat := tget d.sgTransit e (span 32768 16)

/-- Add one to a 16-bit counter; it stays at its largest value. -/
def sat16 (n : Nat) : Nat := min 65535 (n + 1)

/-- The swap of two subchannels (R263, R264): each record goes to a transit slot of its new bank, which one is a free
value, and the vacated slots become transit slots (log entry 13). The free value before it chose the partner. -/
def swapHomes (n m reason diff : Nat) (d : Dev) : Dev :=
  let a := subGet d n
  let b := subGet d m
  if a.home = b.home then d
  else
    let ta := transitOf d b.home
    let tb := transitOf d a.home
    let (_, d) := freeNext d
    let (u, d) := freeNext d
    let (v, d) := freeNext d
    let i := u.toNat % ta.length
    let j := v.toNat % tb.length
    let d := { d with
      sgTransit := tset (tset d.sgTransit b.home (ta.eraseIdx i ++ [b.slot]) (span 32768 16)) a.home
        (tb.eraseIdx j ++ [a.slot]) (span 32768 16) }
    let d := subSet n { a with home := b.home, slot := lget ta i 0, migCnt := sat16 a.migCnt } d
    let d := subSet m { b with home := a.home, slot := lget tb j 0, migCnt := sat16 b.migCnt } d
    let d := regBump .sgMigcnt 0 d
    sgLogPut 1 reason (fieldN 51 32 m + fieldN 10 8 a.home + fieldN 2 0 b.home) n diff d

/-- The districts with a CP in service (R256). -/
def districts (d : Dev) : List Nat := (List.range 8).filter (fun e => cpsIn d e ≠ 0)

/-- Place a subchannel by score (R261, R265, R266): it moves when its home scores more than H above the best district
and a partner exists. -/
def placeByScore (n reason : Nat) (d : Dev) : Dev :=
  let x := subGet d n
  match bestOf d 0 (districts d) with
  | none => d
  | some e =>
      let here := score d 0 x.home
      let there := score d 0 e
      if e ≠ x.home ∧ (there + (regGet d .sgH 0).toNat < here ∨ cpsIn d x.home = 0) then
        match freePartner d e n with
        | none => d
        | some m => swapHomes n m reason (if reason = 1 then here - there else 0)
            { d with sgLast := tset d.sgLast 0 e 63 }
      else { d with sgLast := tset d.sgLast 0 x.home 63 }

/-- Is rebalance and BIND-time placement stopped (R266)? -/
def migStop (d : Dev) : Bool := decide (regFld d .sgCtl 0 31 31 = 1)

/-- The placement of an accepted BIND (R265). -/
def placeAtBind (n : Nat) (d : Dev) : Dev :=
  if migStop d || (subGet d n).pinned || queuedFor d n then d else placeByScore n 0 d

/-- A pin's move that waits (R263, R276). -/
def pinMove (n : Nat) (d : Dev) : Dev :=
  let x := subGet d n
  match x.mpend with
  | none => d
  | some e =>
      if x.home = e then subSet n { x with mpend := none } d
      else if movable d n && decide (cpsIn d e ≠ 0) then
        match pinPartner d e n with
        | none => d
        | some m => swapHomes n m 2 0 (subSet n { x with mpend := none } d)
      else d

/-- Subchannels that REBALANCE_PERIOD examines: bound, unpinned, IDLE ones, in number order from the cursor (R266). -/
def rebalanceList (d : Dev) : List Nat :=
  let l := (d.subs.filter (fun x => x.2.hpack ≠ 0xFF ∧ !x.2.pinned)).map (·.1)
  l.filter (d.sgCursor ≤ ·) ++ l.filter (· < d.sgCursor)

/-- One period of rebalance (R266): up to MIG_MAX migrations; the cursor stands after the last one examined. -/
def rebalance : List Nat → Nat → Dev → Dev
  | [], _, d => d
  | _, 0, d => d
  | n :: t, k + 1, d =>
      let before := (subGet d n).home
      let d := if movable d n then placeByScore n 1 d else d
      let d := { d with sgCursor := (n + 1) % Config.subchannels }
      rebalance t (if (subGet d n).home = before then k + 1 else k) d

/-- A subchannel that a district without a CP in service gives up: owned, bound or pinned. The others are what is moved there in
exchange (R267, R268; log entry 44). -/
def settledIn (x : Sub) : Bool := decide (x.ownFn ≠ 0x7F) || decide (x.hpack ≠ 0xFF) || x.pinned

/-- Subchannels homed where no CP serves are moved, pinned or not (R267): a broken pin keeps PINNED and raises PBRK. The partner is
unowned and unbound (R268). -/
def evacuateIdle (n : Nat) (d : Dev) : Dev :=
  let x := subGet d n
  if cpsIn d x.home ≠ 0 then d
  else
    match bestOf d 0 (districts d) with
    | none => d
    | some e =>
        match freePartner d e n with
        | none => d
        | some m =>
            let d := if x.pinned then
                sgLogPut 5 3 1 n 0 (pageEvent 3 0 (regSetFld .sgStat 0 30 30 1 (subSet n { x with pbrk := true } d)))
              else d
            swapHomes n m 3 0 { d with sgLast := tset d.sgLast 0 e 63 }

/-- Subchannels that found no partner as their district lost its last CP are moved as soon as there is one (R267). -/
def evacuateSweep (d : Dev) : Dev :=
  ((d.subs.filter (fun e => decide (cpsIn d e.2.home = 0) && settledIn e.2 && decide (e.2.st = .idle ∨ e.2.st = .statusPending
    ∨ e.2.st = .notOperational))).map (·.1)).foldl (fun d n => evacuateIdle n d) d

/-! ### Mover channels (R177, R274) -/

/-- A channel after reset (R217). -/
def chReset : Chan :=
  { st := .idle, spend := false, err := 0, sig := 0, bytes := 0, cfg := 0x9430007F, prog := 0, buf := 0, link := 0
    pc := 0, faddr := 0, ar := List.replicate 8 0, ar2 := List.replicate 8 false, lc := List.replicate 4 0, xf := 0
    needHdr := false, line := none, wait := none, bursts := [], got := [], retry := none, again := false, retries := 0
    sub := none, stop := false, port := none }

/-- A channel as it stands. -/
def chGet (d : Dev) (c : Nat) : Chan := tget d.chans c chReset

/-- The owner of a channel; none for a firmware channel (R179). -/
def chOwner (x : Chan) : Option FnId := if bits x.cfg 6 0 = 0x7F then none else some ⟨bits x.cfg 7 7, bits x.cfg 6 0⟩

/-- The function a channel's host accesses are for. -/
def chFn (x : Chan) : FnId := (chOwner x).getD ⟨0, 0x7F⟩

/-- Has a channel come to rest: it runs no program and no burst of it is left? -/
def chRest (x : Chan) : Bool := decide (x.st ≠ .run ∧ x.st ≠ .wait) && x.bursts.isEmpty

/-- Is a channel one of those that carry the stream of a handler's command (R274)? -/
def strChan (d : Dev) (c : Nat) : Bool := d.strChans.any (fun y => decide (y.1 = c))

/-- The first free channel in SG_MOV_RANGE after the one assigned last (R274): a free one, or one that Signpost kept over a reset
(R219) and that serves no stream. -/
def freeChannel (d : Dev) : Option Nat :=
  let lo := regFld d .sgMovRange 0 27 16
  let hi := regFld d .sgMovRange 0 11 0
  let isFree := fun (c : Nat) => match d.commits.find? (fun e => e.1 = resKey 3 c) with
    | none => true
    | some e => decide (e.2.holder = .signpost) && (chGet d c).sub.isNone && chRest (chGet d c) && decide ((chGet d c).st ≠ .disabled)
        && !(strChan d c)
  match (span lo (hi + 1 - lo)).filter (fun c => d.sgMovLast < c && isFree c) with
  | c :: _ => some c
  | [] => ((span lo (hi + 1 - lo)).filter isFree).head?

/-! ### Meanings -/

/-- SIGNPOST_SAMPLE (R258). -/
def execSignpostSample (kind index : Nat) (lat : Option Nat) (q : SampleSum) (load : SampleLoad) (s : State) :
    Host.Outcome State Fault Refusal :=
  run s (sample kind index lat q load)

/-- Signpost waits while the feed of its log is full (R281). -/
def sgWaits (d : Dev) : Bool := decide (feedCap d 4176 ≤ tget d.feeds 4176 0)

/-- REBALANCE_PERIOD (R266, R267). -/
def execRebalancePeriod (s : State) : Host.Outcome State Fault Refusal :=
  run s (live (fun d =>
    if sgWaits d then d
    else
      let d := evacuateSweep d
      if regFld d .sgRebal 0 15 0 = 0 || migStop d then d
      else rebalance (rebalanceList d) (regFld d .sgRebal 0 31 16) d))

/-- PIN_MOVE (R263, R276): the pinned subchannel is IDLE with no function queued, and a partner exists. -/
def execPinMove (sub : Nat) (s : State) : Host.Outcome State Fault Refusal :=
  run s (live (fun d => if sgWaits d then d else pinMove sub d))

end Sys2Proof.Machine
end

