-- ==== Sys2Proof/Machine/SliceOps.lean ====
section
/-!
DEFINITION. Plaza's slices: counts and quotas, the choice of banks and slices, fencing, and the reservations of streams (R222 to
R226, R234, R235, R269, R270).
-/
namespace Sys2Proof.Machine

open Sys2Proof

/-! ### Counts (R222, R235, R253) -/

/-- BK_STAT.STATE of a bank: 0 in service, 1 retiring, 2 retired, 3 fenced. -/
def bankState (d : Dev) (b : Nat) : Nat := regFld d .bkStat b 31 30

/-- What a slice is used for. -/
def sliceGet (d : Dev) (s : Nat) : Slice := tget d.slices s .free

/-- Set what a slice is used for. -/
def sliceSet (s : Nat) (v : Slice) (d : Dev) : Dev := { d with slices := tset d.slices s v .free }

/-- Slices in use: stream and scratch slices. -/
def slicesUsed (d : Dev) : Nat :=
  (d.slices.filter (fun e => match e.2 with | .stream _ _ _ => true | .scratch _ => true | _ => false)).length

/-- PZ_SLICES: slices in service. -/
def pzSlices (d : Dev) : Nat := regFld d .pzSlices 0 14 0

/-- PZ_FREE: free slices in service. -/
def pzFree (d : Dev) : Nat := pzSlices d - slicesUsed d

/-- PZ_HELD_c: stream slices held by class c. -/
def pzHeld (d : Dev) (c : Nat) : Nat :=
  (d.slices.filter (fun e => match e.2 with | .stream k _ _ => k = c | _ => false)).length

/-- Scratch slices. -/
def pzScratch (d : Dev) : Nat := (d.slices.filter (fun e => match e.2 with | .scratch _ => true | _ => false)).length

/-- The reserve of class c: QRES, honoured in class order within what is left when the sum is too large (R235). -/
def pzReserve (d : Dev) (c : Nat) : Nat :=
  let q := fun (k : Nat) => regFld d .pzQuota k 14 0
  let room := pzSlices d - pzScratch d
  let before := ((List.range c).map q).foldl (· + ·) 0
  min (q c) (room - before)

/-- The unmet reserve of class c. -/
def unmet (d : Dev) (c : Nat) : Nat := pzReserve d c - pzHeld d c

/-- QSHORT (R235): set, with its event, when the reserves exceed what is in service. -/
def qshortCheck (d : Dev) : Dev :=
  let sum := ((List.range 4).map (fun k => regFld d .pzQuota k 14 0)).foldl (· + ·) 0
  if pzSlices d - pzScratch d < sum then
    (if regFld d .pzStat 0 31 31 = 1 then d else pageEvent 0x80 8 (regSetFld .pzStat 0 31 31 1 d))
  else regSetFld .pzStat 0 31 31 0 d

/-- May n slices be granted to class c (R225)? -/
def pzFits (d : Dev) (c n : Nat) : Bool :=
  decide (pzHeld d c + n ≤ regFld d .pzQuota c 30 16)
    && decide (n + (((List.range 4).filter (· ≠ c)).map (unmet d)).foldl (· + ·) 0 ≤ pzFree d)

/-! ### Choosing slices (R269, R270) -/

/-- The free slices of a bank. -/
def bankFree (d : Dev) (b : Nat) : List Nat :=
  (span (256 * b) 256).filter (fun s => decide (sliceGet d s = .free) && !(d.fenceWait.contains s))

/-- Banks that may hold new slices: in service or fenced. -/
def bankUp (d : Dev) (b : Nat) : Bool := bankState d b = 0 || bankState d b = 3

/-- Banks a function's streams and scratch may use (R270); exclusions are ignored while they leave none. -/
def eligibleBanks (d : Dev) (f : FnId) : List Nat :=
  let up := (List.range 64).filter (bankUp d)
  let ok := up.filter (fun b => !(bit (regGet d .sgExclAll 0) b) && !(bit (regGet d .sgExcl (fnCode f)) b))
  if ok.isEmpty then up else ok

/-- Does a function's exclusion leave it no bank (R270)? -/
def exclBroken (d : Dev) (f : FnId) : Bool :=
  ((List.range 64).filter (bankUp d)).all (fun b => bit (regGet d .sgExclAll 0) b || bit (regGet d .sgExcl (fnCode f)) b)

/-- Every function of the TC9640. -/
def allFns : List FnId := (List.range 130).map (fun k => ⟨k / 65, k % 65⟩)

/-- After a change of bank states or exclusions (R270): for each function whose exclusions are ignored from now on, the XBRK event and a
log record; for each whose exclusions are kept to again, a record. XBRK shows whether some are ignored. -/
def exclSweep (was : Dev) (reason : Nat) (d : Dev) : Dev :=
  let broke := allFns.filter (fun f => exclBroken d f && !(exclBroken was f))
  let back := allFns.filter (fun f => exclBroken was f && !(exclBroken d f))
  let d := broke.foldl (fun d f => sgLogPut 5 reason 1 (fnCode f) 0 (pageEvent 3 1 d)) d
  let d := back.foldl (fun d f => sgLogPut 5 reason 0 (fnCode f) 0 d) d
  regSetFld .sgStat 0 29 29 (allFns.any (exclBroken d)).toNat d

/-- The score of a bank for a stream with the attachments `ends` (0, 1: upstream ports; 2 + a: avenues), with the DIST
terms (R260). -/
def bankScore (d : Dev) (ends : List Nat) (b : Nat) : Nat :=
  score d 1 b + bits (regGet d .sgW 1) 31 24 * ((ends.map (fun e => tget d.sgDist (16 * (b / 8) + e) 0)).foldl (· + ·) 0)

/-- The order of banks in a choice that has a previous one: another bank comes before one of the previous choice only when its score is
lower by more than SG_H_1.H (R261). -/
def bankOrder (d : Dev) (ends prev : List Nat) (b : Nat) : Nat :=
  if prev.contains b then 2 * bankScore d ends b else 2 * (bankScore d ends b + (regGet d .sgH 1).toNat) + (if prev.isEmpty then 0 else 1)

/-- The bank of lowest score; a tie goes to the first tied one after the one chosen last (R261). -/
def bestBank (d : Dev) (ends prev cands : List Nat) : Option Nat :=
  match cands with
  | [] => none
  | c :: t =>
      let m := t.foldl (fun m i => min m (bankOrder d ends prev i)) (bankOrder d ends prev c)
      nextAfter (tget d.sgLast 1 63) (cands.filter (fun i => bankOrder d ends prev i = m))

/-- The `n` lowest-scoring banks of a list, or all of them (R261). -/
def bestBanks (d : Dev) (ends prev : List Nat) : Nat → List Nat → List Nat
  | 0, _ => []
  | n + 1, cands =>
      match bestBank d ends prev cands with
      | none => []
      | some b => b :: bestBanks d ends prev n (cands.filter (· ≠ b))

/-! ### Paths to devices (R273) -/

/-- Is a root port up and not contained (R530 DLUP, CONT)? -/
def dpUp (d : Dev) (p : Nat) : Bool := decide (regFld d .dpStat p 18 18 = 1) && decide (regFld d .dpStat p 16 16 = 0)

/-- The path that Signpost chooses for a command of a subchannel (R273): of DPORT and its alternate those that are up, by score with
kind 3; DPORT while neither is. -/
def pathOf (d : Dev) (s : Sub) : Nat :=
  match s.altPort with
  | none => s.dport
  | some a => (choiceOf d 3 s.sgDown ([s.dport, a].filter (dpUp d))).getD s.dport

/-- The path of a command of subchannel n, chosen now. -/
def takePath (n : Nat) (d : Dev) : Nat × Dev :=
  let s := subGet d n
  let p := pathOf d s
  if s.altPort.isNone then (p, d) else (p, subSet n { s with sgDown := some p } { d with sgLast := tset d.sgLast 3 p 63 })

/-- The path of a command while its path is up, else the other one (R273). -/
def livePath (d : Dev) (s : Sub) (p : Nat) : Nat :=
  match s.altPort with
  | none => s.dport
  | some a => if dpUp d p then p else if p = a then s.dport else a

/-- The path of the subchannel's command in hand: the latest chosen. -/
def pathNow (d : Dev) (s : Sub) : Nat := livePath d s (s.sgDown.getD s.dport)

/-- The attachments at the ends of the stream of an owner pack's command: the upstream port of its first host segment, and the avenue
of its device (R260). -/
def streamEnds (d : Dev) (n : Nat) : List Nat :=
  let s := subGet d n
  let seg := ((d.progs.find? (fun e => e.1 = n)).bind (·.2.own)).bind (fun o => o.segs.find? (fun g => g.space = 0))
  (seg.map (fun g => portOf d (.sub n) (ownerOf s) g.addr.toNat)).toList ++ [2 + pathNow d s / 4]

/-- The number under which a mover channel's stream holds its slices: above those of the subchannels. -/
def chanStream (c : Nat) : Nat := Config.subchannels + c

/-- The function a stream is for. -/
def streamFn (d : Dev) (n : Nat) : FnId :=
  if n < Config.subchannels then ownerOf (subGet d n) else chFn (chGet d (n - Config.subchannels))

/-- A stream starts (R256, R261, R277): its bank set, SG_BSET.NM1 + 1 of the banks that are eligible now, and those eligible are
fixed until it ends. -/
def beginBanks (n : Nat) (ends : List Nat) (d : Dev) : Dev :=
  let elig := eligibleBanks d (streamFn d n)
  let set := bestBanks d ends (tget d.bankPrev n []) (regFld d .sgBset 0 3 0 + 1) elig
  { d with bankSets := tset d.bankSets n set [], bankPrev := tset d.bankPrev n set [], bankElig := tset d.bankElig n elig [] }

/-- Take `n` slices: from the banks of the set in rotation, or, when none of them has one, from the bank of lowest score among the
eligible ones that has one (R269); none where there are too few. Answers the slices and the rest of the rotation. -/
def takeSlices (elig : List Nat) (v : Slice) (ends : List Nat) : List Nat → Nat → Dev → Option (List Nat × List Nat × Dev)
  | set, 0, d => some ([], set, d)
  | set, n + 1, d =>
      let has := fun b => bankUp d b && !(bankFree d b).isEmpty
      let pick := match set.find? has with
        | some b => some (b, (set.dropWhile (· ≠ b)).drop 1 ++ set.takeWhile (· ≠ b) ++ [b])
        | none => (bestBank d ends [] (elig.filter has)).map (fun b => (b, set))
      match pick with
      | none => none
      | some (b, set) =>
          let s := (bankFree d b).headD 0
          let d := sliceSet s v { d with sgLast := tset d.sgLast 1 b 63 }
          (takeSlices elig v ends set n d).map (fun r => (s :: r.1, r.2))

/-! ### Fencing (R234) -/

/-- An empty slice is fenced (R234). -/
def fenceNow (s : Nat) (d : Dev) : Dev :=
  let d := sliceSet s .fenced { d with fenceWait := d.fenceWait.filter (· ≠ s) }
  let d := regSetFld .pzSlices 0 14 0 (pzSlices d - 1) d
  qshortCheck (regSetFld .bkFenced (s / 256) 8 0 (regFld d .bkFenced (s / 256) 8 0 + 1) d)

/-- Fence a slice once it is empty (R234). -/
def fence (s : Nat) (d : Dev) : Dev :=
  match sliceGet d s with
  | .free => fenceNow s d
  | .fenced => d
  | _ => if d.fenceWait.contains s then d else { d with fenceWait := d.fenceWait ++ [s] }

/-- Slices that were to be fenced and are empty now. -/
def fenceSweep (d : Dev) : Dev :=
  (d.fenceWait.filter (fun s => decide (sliceGet d s = .free))).foldl (fun d s => fenceNow s d) d

/-! ### Reservations (R222, R225, R226) -/

/-- A reservation of `count` slices for the stream of subchannel n's command in hand, or of a channel, between `ends`, when it may
be granted now; the stream has its bank set. -/
def pzGrant (n cls count : Nat) (ends : List Nat) (d : Dev) : Option (List Nat × Dev) :=
  if pzFits d cls count then
    (takeSlices (tget d.bankElig n []) (.stream cls n .hand) ends (tget d.bankSets n []) count d).map (fun r =>
      (r.1, { r.2.2 with bankSets := tset r.2.2.bankSets n r.2.1 [] }))
  else none

/-- A reservation waits behind those of its class (R225). -/
def pzQueue (n cls count : Nat) (ends : List Nat) (d : Dev) : Dev :=
  { d with resv := d.resv ++ [⟨d.resvNext, cls, count, n, ends⟩], resvNext := d.resvNext + 1 }

/-- A reservation of a stream that starts, or that has its bank set: granted now, or it waits (R225). -/
def pzAsk (n cls count : Nat) (ends : List Nat) (d : Dev) : Option (List Nat × Dev) × Dev :=
  let d := if (tget d.bankSets n []).isEmpty then beginBanks n ends d else d
  if d.resv.any (fun r => r.cls = cls) then (none, pzQueue n cls count ends d)
  else match pzGrant n cls count ends d with
    | some g => (some g, d)
    | none => (none, pzQueue n cls count ends d)

/-- Slices the stream of the command in hand holds. -/
def handSlices (d : Dev) (n : Nat) : Nat :=
  (d.slices.filter (fun e => match e.2 with | .stream _ m .hand => m = n | _ => false)).length

/-- The command in hand needs `count` slices of a class for a new stream: it holds them, they are granted now, or its reservation
waits (R225). -/
def streamHold (n cls count : Nat) (ends : List Nat) (d : Dev) : Bool × Dev :=
  if count = 0 || decide (handSlices d n ≠ 0) then (true, d)
  else if d.resv.any (fun r => r.sub = n) then (false, d)
  else match pzAsk n cls count ends { d with bankSets := tdel d.bankSets n } with
    | (some (_, d), _) => (true, d)
    | (none, d) => (false, d)

/-! ### Mover channels of a stream (R256, R274) -/

/-- Commit `k` free mover channels together to the stream of the command in hand of subchannel n; none where too few are free. -/
def takeChans (n : Nat) : Nat → Dev → Option Dev
  | 0, d => some d
  | k + 1, d =>
      match freeChannel d with
      | none => none
      | some c =>
          let key := resKey 3 c
          takeChans n k { d with
            commits := tins (tdel d.commits key) key ⟨.signpost, n⟩, sgMovLast := c, strChans := d.strChans ++ [(c, n, .hand)] }

/-- The command in hand needs `k` mover channels for its stream: it holds them, receives them now, or waits behind the streams that
wait already (R274). -/
def chanHold (n k : Nat) (d : Dev) : Bool × Dev :=
  if k = 0 || d.strChans.any (fun y => decide (y.2 = (n, .hand))) then (true, d)
  else if d.movWait.any (fun y => decide (y.1 = n)) then (false, d)
  else match (if d.movWait.isEmpty then takeChans n k d else none) with
    | some d => (true, d)
    | none => (false, { d with movWait := d.movWait ++ [(n, k)] })

/-- Signpost's commitments of the channels of the streams that `gone` picks end (R274). -/
def freeChans (gone : Nat → StreamHolder → Bool) (d : Dev) : Dev :=
  let out := d.strChans.filter (fun y => gone y.2.1 y.2.2)
  { d with
    strChans := d.strChans.filter (fun y => !(gone y.2.1 y.2.2))
    commits := d.commits.filter (fun e => !(decide (e.2.holder = .signpost) && out.any (fun y => decide (e.1 = resKey 3 y.1)))) }

/-- Stream slices that `gone` picks are free; those that waited to be fenced are fenced (R222, R234). The streams' mover channels are
free too (R274). -/
def freeSlices (gone : Nat → StreamHolder → Bool) (d : Dev) : Dev :=
  fenceSweep (freeChans gone { d with slices := d.slices.filter (fun e => match e.2 with | .stream _ m w => !(gone m w) | _ => true) })

/-- Stream slices and channels change hands. -/
def passSlices (pick : Nat → StreamHolder → Bool) (w2 : StreamHolder) (d : Dev) : Dev :=
  { d with slices := d.slices.map (fun e => match e.2 with
      | .stream c m w => if pick m w then (e.1, .stream c m w2) else e
      | _ => e)
           strChans := d.strChans.map (fun y => if pick y.2.1 y.2.2 then (y.1, y.2.1, w2) else y) }

/-- A subchannel's stream has no bank set and waits for no slices and no channels. -/
def dropReserve (n : Nat) (d : Dev) : Dev :=
  { d with bankSets := tdel d.bankSets n, bankElig := tdel d.bankElig n, resv := d.resv.filter (fun r => r.sub ≠ n), movWait := d.movWait.filter (fun y => y.1 ≠ n) }

/-- The command in hand gives its slices back. -/
def releaseHand (n : Nat) (d : Dev) : Dev := freeSlices (fun m w => decide (m = n) && decide (w = .hand)) (dropReserve n d)

/-- A run in execution takes over the slices of the command in hand. -/
def keepRun (n id : Nat) (d : Dev) : Dev :=
  passSlices (fun m w => decide (m = n) && decide (w = .hand)) (.run id)
    { d with bankSets := tdel d.bankSets n, bankElig := tdel d.bankElig n, resv := d.resv.filter (fun r => r.sub ≠ n) }

/-- A run that ends gives its slices back. -/
def releaseRun (n id : Nat) (d : Dev) : Dev :=
  freeSlices (fun m w => decide (m = n) && decide (w = .run id)) d

/-- Is a holder a stream of the subchannel's program, not of detached operations? -/
def StreamHolder.live : StreamHolder → Bool
  | .hand => true
  | .run _ => true
  | .detached _ => false

/-- The stream slices of a subchannel's program are free; those that detached operations hold stay (R132, R222). -/
def releaseSlices (n : Nat) (d : Dev) : Dev := freeSlices (fun m w => decide (m = n) && w.live) (dropReserve n d)

/-- The program's stream slices stay with the operations detached from it (R132). -/
def detachSlices (n jseq : Nat) (d : Dev) : Dev := passSlices (fun m w => decide (m = n) && w.live) (.detached jseq) (dropReserve n d)

/-- No operation of a subchannel is left that was detached from the program of START `jseq`: its slices are free (R132). -/
def detachedDone (n jseq : Nat) (d : Dev) : Dev :=
  if d.ops.any (fun e => decide (e.2.sub = n) && e.2.detached && decide (e.2.jseq = jseq)) then d
  else freeSlices (fun m w => decide (m = n) && decide (w = .detached jseq)) d

end Sys2Proof.Machine
end

