-- ==== Sys2Proof/Machine/RbtOps.lean ====
section
/-!
DEFINITION. Roundabout arbitration at the Plaza banks and Boulevard outputs, and the starvation watch (R202, R203, R239 to R247).
-/
namespace Sys2Proof.Machine

open Sys2Proof

/-! ### Instances -/

/-- A Roundabout with no request. -/
def Rbt.idle : Rbt := ⟨none, 0, [], none, false, [], []⟩

/-- A Roundabout: instances 0 to 63 are the banks, 64 to 103 Boulevard outputs 0 to 39. -/
def rbtGet (d : Dev) (r : Nat) : Rbt := tget d.rbts r Rbt.idle

/-- Store a Roundabout. -/
def rbtSet (r : Nat) (v : Rbt) (d : Dev) : Dev := { d with rbts := tset d.rbts r v Rbt.idle }

/-- PRE_EN of an instance (R243). -/
def preEn (d : Dev) (r : Nat) : Bool :=
  if r < 64 then decide (regFld d .bkArb r 0 0 = 1) else decide (regFld d .blvPre (r - 64) 0 0 = 1)

/-- The class of traffic (R240). -/
def trafficCls : Traffic → Nat
  | .cp | .checkpoint | .mirror | .fifoMiddle | .journal => 0
  | .device | .refill | .ringLogic => 1
  | .scrub | .bist | .traceExport => 3

/-- The source of a request (R239): a Boulevard input; at a bank also its refill engine (40) and its scrubber (41). -/
def trafficSource (r src : Nat) : Traffic → Option Nat
  | .refill => if r < 64 then some 40 else if src < 40 then some src else none
  | .scrub => if r < 64 then some 41 else if src < 40 then some src else none
  | _ => if src < 40 then some src else none

/-! ### Decisions (R241 to R244) -/

/-- The requester that wins (R241): of the lowest class, the one of highest rank. -/
def rbtBest (l : List RReq) : Option RReq :=
  match l with
  | [] => none
  | x :: t => let c := t.foldl (fun m r => min m r.cls) x.cls; l.find? (fun r => r.cls = c)

/-- May a decision for class c preempt the holder (R243)? -/
def preempts (pre : Bool) (h : RReq) (c : Nat) : Bool := pre && decide (c = 0) && decide (h.cls ≠ 0)

/-- Does request q belong to requester p: the pair of source and class (R239)? -/
def RReq.same (p q : RReq) : Bool := decide (p.src = q.src) && decide (p.cls = q.cls)

/-- The request a decision stands for, unless it has withdrawn. -/
def Rbt.chosen (x : Rbt) : Option RReq := x.decision.bind (fun p => x.reqs.find? (fun q => p.same q))

/-- The decision of the previous cycle is used: a grant; a preemption, whose holder takes the highest rank of its class and restarts
(R243); or a null grant, which loses the cycle (R242). -/
def rbtUse (x : Rbt) : Rbt :=
  match x.decision with
  | none => x
  | some _ =>
      let stopped := match x.holder with
        | some h => if x.preempt then [{ h with units := h.units + x.moved }] else []
        | none => []
      match x.chosen with
      | none => { x with decision := none, preempt := false, holder := if x.preempt then none else x.holder
                         moved := if x.preempt then 0 else x.moved, reqs := stopped ++ x.reqs }
      | some q => { x with decision := none, preempt := false, holder := some q, moved := 0
                           reqs := stopped ++ x.reqs.filter (fun y => y ≠ q) }

/-- One unit of the holder's burst moves. -/
def rbtMove (x : Rbt) : Rbt :=
  match x.holder with
  | none => x
  | some h =>
      if h.units ≤ 1 then { x with holder := none, moved := 0 }
      else { x with holder := some { h with units := h.units - 1 }, moved := x.moved + 1 }

/-- The decision for the next cycle (R242): kept when the resource will be free, or when it preempts (R243). -/
def rbtDecide (pre : Bool) (x : Rbt) : Rbt :=
  match rbtBest x.reqs with
  | none => { x with decision := none, preempt := false }
  | some q =>
      match x.holder with
      | none => { x with decision := some q, preempt := false }
      | some h => { x with decision := if preempts pre h q.cls then some q else none, preempt := preempts pre h q.cls }

/-- Channel c's class becomes `new`: its waiting request takes the lowest rank of the new class, a decision for it stands, and a holder
keeps its grant with the new class (R241, R244). -/
def rbtReclass (c new : Nat) (x : Rbt) : Rbt :=
  let hit := fun (q : RReq) => decide (q.chan = some c) && decide (q.cls ≠ new)
  let change := fun (q : RReq) => if hit q then { q with cls := new } else q
  { x with
    reqs := x.reqs.filter (fun q => !(hit q)) ++ (x.reqs.filter hit).map change
    holder := x.holder.map change
    decision := x.decision.map change }

/-- The units a grant covers (R239): at most 64 beats at a bank and 32 flits at an output. -/
def rbtCap (r n : Nat) : Nat := min (if r < 64 then 64 else 32) n

/-- The request of traffic other than the mover's (R240). -/
def trafficReq (r : Nat) (q : Nat × Traffic × Nat) : Option RReq :=
  (trafficSource r q.1 q.2.1).map (fun s => ⟨s, trafficCls q.2.1, rbtCap r q.2.2, none, 0, false⟩)

/-- Is spare port 38 in use: does BLV_STEER move a block to it? -/
def use38 (d : Dev) : Bool := decide (regFld d .blvSteer 0 15 15 = 1)
/-- Is spare port 39 in use? -/
def use39 (d : Dev) : Bool := decide (regFld d .blvSteer 0 31 31 = 1)

/-- The Boulevard port of lane group g: its own, 26 + g, or the spare it was moved to (R15, R16). -/
def groupPort (d : Dev) (g : Nat) : Nat :=
  if use38 d && decide (regFld d .blvSteer 0 13 8 = 26 + g) && !(d.blvBad.contains 38) then 38
  else if use39 d && decide (regFld d .blvSteer 0 29 24 = 26 + g) then 39
  else 26 + g

/-- The request of a mover channel's burst, given as source, channel and units: its class is CH_CFG.CLASS (R202, R240). It comes from
the port of a lane group in service (R15 to R17). -/
def burstReq (r : Nat) (d : Dev) (q : Nat × Nat × Nat) : Option RReq :=
  if d.lanes.any (fun g => groupPort d g = q.1) then
    some ⟨q.1, bits (chGet d q.2.1).cfg 28 27, rbtCap r q.2.2, some q.2.1, 0, false⟩
  else none

/-- Requests are raised (R239): a requester that already requests raises none. -/
def rbtRaise (l new : List RReq) : List RReq :=
  new.foldl (fun l q => if q.units = 0 ∨ (l.any (fun y => q.same y)) = true then l else l ++ [q]) l

/-! ### The starvation watch (R247) -/

/-- The registers of the watch of an instance for class c: WATCH_MAX, WATCH_THR and WATCH_OVR with their index. -/
def watchRegs (r c : Nat) : (Reg × Reg × Reg) × Nat :=
  if r < 64 then ((.plzWatchMax, .plzWatchThr, .plzWatchOvr), 4 * r + c)
  else ((.blvWatchMax, .blvWatchThr, .blvWatchOvr), 4 * (r - 64) + c)

/-- The oldest age of a class's waiting requests. -/
def oldest (l : List RReq) (c : Nat) : Nat := ((l.filter (fun q => q.cls = c)).map (·.age)).foldl max 0

/-- WATCH_MAX of a class follows the age of its oldest waiting request, and saturates. -/
def watchMax (r : Nat) (l : List RReq) (d : Dev) : Dev :=
  (List.range 4).foldl (fun d c =>
    let (g, k) := watchRegs r c
    let a := min (oldest l c) 0xFFFFFFFF
    if regFld d g.1 k 31 0 < a then regSetFld g.1 k 31 0 a d else d) d

/-- Has a request's age reached the threshold, and was it not counted yet? -/
def overdue (thr c : Nat) (q : RReq) : Bool := decide (q.cls = c) && !q.counted && decide (thr ≠ 0) && decide (thr ≤ q.age)

/-- WATCH_THRESHOLD (R247): the waiting request of class c and source src that has reached WATCH_THR is counted once, with the
event. -/
def watch (r c src : Nat) (d : Dev) : Dev :=
  if 104 ≤ r ∨ 4 ≤ c then d
  else
    let (g, k) := watchRegs r c
    let x := rbtGet d r
    let due := fun (q : RReq) => overdue (regFld d g.2.1 k 31 0) c q && decide (q.src = src)
    if x.reqs.any due then
      let d := rbtSet r { x with reqs := x.reqs.map (fun q => if due q then { q with counted := true } else q) } (regBump g.2.2 k d)
      if r < 64 then pageEvent (0x80 + r) (4 + c) d else pageEvent 2 c d
    else d

/-! ### Cycles -/

/-- One FBK cycle of a Roundabout (R239 to R244, R247): the last decision is used, a unit moves, the next decision is taken from the
requests raised before this cycle; then class changes enter, the waiting requests grow older, and requests are raised. -/
def rbtCycle (r : Nat) (raise : List (Nat × Traffic × Nat)) (bursts : List (Nat × Nat × Nat)) (d : Dev) : Dev :=
  if 104 ≤ r then d
  else
    let y := rbtGet d r
    let d := match y.decision, y.chosen, y.holder with
      | none, _, _ => d
      | some _, none, _ => dbEvent 5 d
      | some _, some _, some h => if y.preempt then dbEvent 6 (traceEvent 4 none r h.cls d) else d
      | some _, some _, none => d
    let x := rbtDecide (preEn d r) (rbtMove (rbtUse y))
    let x := x.late.foldl (fun x c => rbtReclass c.1 c.2 x) { x with late := x.chg, chg := [] }
    let old := x.reqs.map (fun q => { q with age := q.age + 1 })
    rbtSet r { x with reqs := rbtRaise old (raise.filterMap (trafficReq r) ++ bursts.filterMap (burstReq r d)) } (watchMax r old d)

/-! ### What reaches Roundabout from outside (R203, R242, R244) -/

/-- Change every Roundabout. -/
def rbtAll (f : Rbt → Rbt) (d : Dev) : Dev := (d.rbts.map (·.1)).foldl (fun d r => rbtSet r (f (rbtGet d r)) d) d

/-- A write of CH_CFG.CLASS reaches the Roundabouts in their next cycle (R203, R244). -/
def rbtClass (c new : Nat) (d : Dev) : Dev := rbtAll (fun x => { x with chg := x.chg ++ [(c, new)] }) d

/-- A channel is disabled, halted or stopped: its waiting requests withdraw (R242). -/
def rbtDrop (c : Nat) (d : Dev) : Dev := rbtAll (fun x => { x with reqs := x.reqs.filter (fun q => q.chan ≠ some c) }) d

/-- A read meets a mismatch (R228, R242): the burst that holds the bank is withdrawn if it is the reader's. -/
def rbtHeld (r : Nat) (mine : RReq → Bool) (d : Dev) : Dev :=
  let x := rbtGet d r
  match x.holder with
  | none => d
  | some h => if mine h then rbtSet r { x with holder := none, moved := 0 } d else d

/-! ### Check blocks (R20, R228 to R231) -/

/-- The Plaza bank of a check block. -/
def blkBank (b : Nat) : Nat := b / 4096

/-- Has a block no refill (R228)? -/
def noRefill : BlockSrc → Bool
  | .windowFixed => true
  | .scratch => true
  | _ => false

/-- Does a request that holds a bank belong to a reader (R15, R240)? -/
def readerOwns (d : Dev) (r : BlockUser) (q : RReq) : Bool :=
  match r with
  | .chan c _ => decide (q.chan = some c)
  | .cpLoad i _ => decide (q.src = i / 9) && decide (q.cls = 0)
  | .device p _ _ _ => decide (q.src = 18 + p / 4) && decide (q.cls = 1)
  | .xfer _ => decide (q.src = 16) || decide (q.src = 17)
  | .engine _ => decide (q.src = 16) || decide (q.src = 17)
  | .copy _ => decide (q.src = 40)
  | .cmd t => decide (q.src = 16) || decide (q.src = 17)
      || (match d.ops.find? (fun e => e.1 = t) with | some (_, o) => decide (q.src = 18 + o.dport / 4) | none => false)

/-- One egress mismatch of a block (R228, R253, R506, R507): the reader's burst leaves the bank's Roundabout (R242). -/
def mismatch (b : Nat) (r : BlockUser) (d : Dev) : Dev :=
  let k := blkBank b
  let d := rbtHeld k (readerOwns d r) d
  let d := pageEvent (0x80 + k) 0 (regBump .crcErr k d)
  dbEvent 4 (traceEvent 5 none b k d)

/-- When the hold of a read ends (R231): HOLD × 100 µs after its first mismatch, which is now unless it is held already. -/
def holdEnd (d : Dev) (r : BlockUser) : DWord :=
  match d.refills.find? (fun x => decide (x.reader = r)) with
  | some x => x.due
  | none => d.devtime + BitVec.ofNat 64 (regFld d .pzResend 0 31 16 * 100000)

/-- Another read of a block in refill: it meets the mismatch, counts its own attempts and is held with the rest (R228, R230). -/
def joinRefill (b : Nat) (r : BlockUser) (d : Dev) : Dev :=
  match d.refills.find? (fun x => x.blk = b) with
  | none => d
  | some x =>
      if d.refills.any (fun y => decide (y.blk = b) && decide (y.reader = r)) then d
      else
        let d := mismatch b r d
        { d with refills := d.refills ++ [⟨b, x.origin, r, 0, holdEnd d r⟩] }

/-- Is a read held on a failing check block? -/
def readHeld (d : Dev) (r : BlockUser) : Bool := d.refills.any (fun x => decide (x.reader = r))

/-- Those of a list of check blocks that are being refilled. -/
def inRefill (d : Dev) (l : List Nat) : List Nat := l.filter (fun b => d.refills.any (fun x => decide (x.blk = b)))

/-- A read joins the refills of the blocks it touches (R20, R228). -/
def joinAll (l : List Nat) (r : BlockUser) (d : Dev) : Dev := l.foldl (fun d b => joinRefill b r d) d

/-- The check blocks of a range of Plaza. -/
def blocksOf (off len : Nat) : List Nat := span (off / 256) ((off % 256 + len + 255) / 256)

/-- The slices of a scratch area, in order. -/
def scratchOf (d : Dev) (area : Nat) : List Nat := tget d.scratch area []

/-- The Plaza address of an offset in a scratch area. -/
def areaAddr (d : Dev) (area off : Nat) : Nat := 4096 * lget (scratchOf d area) (off / 4096) 0 + off % 4096

/-- The check blocks of a range of a scratch area. -/
def areaBlocks (d : Dev) (area off len : Nat) : List Nat := (blocksOf off len).map (fun k => areaAddr d area (256 * k) / 256)

/-- The check blocks of a range of Plaza that are being refilled. -/
def refilling (d : Dev) (off len : Nat) : List Nat := inRefill d (blocksOf off len)

end Sys2Proof.Machine
end

