-- ==== Sys2Proof/Machine/EngineOps.lean ====
section
/-!
DEFINITION. The channel-program engine and the vendor handlers (R37 to R87, R117 to R129, R586, R587): fetching and
checking CCWs, building a command's transfer, issuing and ending downstream operations, and ending commands, groups and
programs.
-/
namespace Sys2Proof.Machine

open Sys2Proof

/-! ### CCW fields (R37) -/

def ccwCode (w : QWord) : Nat := bits w 7 0
def ccwCC (w : QWord) : Bool := bit w 8
def ccwCD (w : QWord) : Bool := bit w 9
def ccwS (w : QWord) : Bool := bit w 10
def ccwMark (w : QWord) : Bool := bit w 11
def ccwIda (w : QWord) : Bool := bit w 12
def ccwSkip (w : QWord) : Bool := bit w 13
def ccwLtol (w : QWord) : Bool := bit w 14
def ccwU (w : QWord) : Bool := bit w 15
def ccwAsel (w : QWord) : Nat := bits w 17 16
def ccwKey (w : QWord) : Nat := bits w 31 28
def ccwCount (w : QWord) : Nat := bits w 63 32
def ccwAddr (w : QWord) : DWord := BitVec.ofNat 64 (bits w 127 64)

/-! ### Status bits (R117, R118) -/

def csIfcc : Byte := 0x80
def csCdc : Byte := 0x40
def csCcc : Byte := 0x20
def csProt : Byte := 0x10
def csPgm : Byte := 0x08
def csChn : Byte := 0x04
def csIl : Byte := 0x02
def csMark : Byte := 0x01
def dsUc : Byte := 0x80
def dsUx : Byte := 0x40
def dsTrm : Byte := 0x20
def dsBusy : Byte := 0x08
def dsSm : Byte := 0x04
/-- CE and DE. -/
def dsEnd : Byte := 0x03

/-- Error status (R119): PGM, PROT, CDC, CCC, IFCC, CHN or UC. -/
def isError (c dv : Byte) : Bool := decide (c &&& 0xFC#8 ≠ 0) || decide (dv &&& 0x80#8 ≠ 0)

/-- A command's end with a channel status and CE, DE, and no sense. -/
def endC (c : Byte) (last : DWord) (resid : Nat) : Ended := ⟨c, dsEnd, last, BitVec.ofNat 32 resid, false, none⟩

/-- A command's end with UC and its sense code (R122). -/
def endUc (last : DWord) (resid : Nat) (code qual info : Nat) : Ended :=
  ⟨0, dsEnd ||| dsUc, last, BitVec.ofNat 32 resid, false, some ⟨code, qual, info, 0, false, none⟩⟩

/-! ### Handlers (R45, R48, R54, R56, R329, R587) -/

/-- Which handler a pack is. Slots 0, 1 and 2 hold the vendor packs. -/
inductive Handler where
  | nvme | window | peer
  | owner (p : Pack)
  deriving DecidableEq, Repr

/-- The handler bound to a subchannel. -/
def handlerOf (d : Dev) (s : Sub) : Option Handler :=
  match d.packs.find? (fun e => e.1 = s.hpack) with
  | none => none
  | some (0, _) => some .nvme
  | some (1, _) => some .window
  | some (2, _) => some .peer
  | some (_, p) => some (.owner p)

/-- The entry of a code in an owner pack (R329). -/
def packEntry (p : Pack) (code : Nat) : BitVec 64 := tget p.entries code 0xFFFFFFFF00000000#64

/-- The idempotence class that an owner pack declares for a command; one it does not declare is "never" (R47, R329). -/
def packClass (p : Pack) (code : Nat) : Nat :=
  if bits (packEntry p code) 63 32 = 0xFFFFFFFF then 2 else bits (packEntry p code) 31 30

/-- Does the engine run this code itself (R45)? -/
def engineCode (c : Nat) : Bool := [0x03, 0x04, 0x08, 0x09, 0x0B, 0x0C, 0x0E].contains c

/-- Is the code one that no handler has (R45)? -/
def badCode (c : Nat) : Bool := c = 0 || c = 5 || c = 6 || c = 0x0D || 0x80 ≤ c

/-- Does the handler implement a code it may be given (R46, R48, R54, R56, R329)? -/
def implements (h : Handler) (c : Nat) : Bool :=
  match h with
  | .nvme => [0x01, 0x02, 0x07, 0x0A, 0x10, 0x11, 0x12, 0x13, 0x14].contains c
  | .window => [0x01, 0x02, 0x07, 0x0A, 0x10, 0x11].contains c
  | .peer => [0x0F, 0x02, 0x07].contains c
  | .owner p => decide (bits (packEntry p c) 63 32 ≠ 0xFFFFFFFF)

/-- Is a command declared independent (R77, R78, R329)? -/
def independent (h : Handler) (c : Nat) : Bool :=
  match h with
  | .nvme => [0x01, 0x02, 0x11, 0x12].contains c
  | .window => [0x01, 0x02].contains c
  | .peer => false
  | .owner p => bit (packEntry p c) 29

/-- What R45, R329 and R587 allow a code: its ASEL values, CD, IDA, SKIP, and how COUNT is read (0 byte count,
1 ignored, 2 must be 0, 3 parameter-block length). -/
structure CodeRow where
  asel : List Nat
  cd : Bool
  ida : Bool
  skip : Bool
  cnt : Nat
  deriving DecidableEq, Repr

/-- The row of a code (R45, R587); an owner command's row is its entry (R329). -/
def codeRow (h : Handler) (c : Nat) : CodeRow :=
  if c = 0x01 then ⟨[0, 1], true, true, false, 0⟩
  else if c = 0x02 ∨ c = 0x04 then ⟨[0, 1], true, true, true, 0⟩
  else if c = 0x03 then ⟨[0], false, false, false, 1⟩
  else if c = 0x07 then ⟨[0, 1], false, false, false, 3⟩
  else if c = 0x09 then ⟨[0, 1], false, false, false, 0⟩
  else if c = 0x0A then ⟨[2], false, false, false, 0⟩
  else if c = 0x0B ∨ c = 0x0C then ⟨[0], false, false, false, 1⟩
  else if c = 0x0E then ⟨[0, 1], false, false, false, 1⟩
  else if c = 0x0F then ⟨[0, 1], false, true, false, 0⟩
  else match h with
    | .nvme =>
        if c = 0x10 then ⟨[0], false, false, false, 2⟩
        else if c = 0x11 ∨ c = 0x12 then ⟨[0], false, false, false, 0⟩
        else if c = 0x13 then ⟨[0, 1], false, false, false, 0⟩
        else if c = 0x14 then ⟨[0, 1], true, true, false, 0⟩
        else ⟨[0, 1, 2], true, true, true, 1⟩
    | .window =>
        if c = 0x10 then ⟨[0], false, false, false, 2⟩
        else if c = 0x11 then ⟨[0], false, false, false, 0⟩
        else ⟨[0, 1, 2], true, true, true, 1⟩
    | .peer => ⟨[0, 1, 2], true, true, true, 1⟩
    | .owner p =>
        let e := packEntry p c
        if bits e 63 32 = 0xFFFFFFFF then ⟨[0, 1, 2], true, true, true, 1⟩
        else ⟨(List.range 3).filter (fun k => bit e (23 + k)), bit e 28, bit e 27, bit e 26, bits e 22 21⟩

/-- Does R74 end a command of this code with COUNT 0 and no data chain at once? -/
def endsEmpty (h : Handler) (c : Nat) : Bool :=
  if c = 0x07 ∨ c = 0x0B ∨ c = 0x04 ∨ c = 0x03 ∨ c = 0x0C ∨ c = 0x0E then false
  else match h with
    | .owner _ => 0x10 ≤ c && (let r := codeRow h c; r.cnt = 0 || r.cnt = 3) || c < 0x10
    | .window => decide (c ≠ 0x10 ∧ c ≠ 0x11)
    | .nvme => decide (c ≠ 0x10)
    | .peer => true

/-- Does a CCW of this code, with this COUNT, read or write memory in ASEL 0 or 1 (R44, R72)? A code that its handler does
not implement reads none (R46). -/
def usesMemory (h : Handler) (c : Nat) (w : QWord) : Bool :=
  let never := if !(engineCode c) && !(implements h c) then true else if engineCode c then [0x03, 0x08, 0x0B, 0x0C].contains c
    else match h with
      | .nvme => [0x0A, 0x10, 0x11, 0x12].contains c
      | .window => [0x0A, 0x10, 0x11].contains c
      | .peer => false
      | .owner _ => ccwAsel w = 2
  let len := match h with | .peer => 0x10 | _ => 0x20
  let short := c = 0x07 && (match h with | .owner _ => false | _ => decide (ccwCount w < len))
  let empty := ccwCount w = 0 && (c = 0x04 || endsEmpty h c)
  !never && !(ccwSkip w) && !short && !empty

/-! ### Programs and records -/

/-- The program of a subchannel. -/
def progOf (d : Dev) (n : Nat) : Option Prog := (d.progs.find? (fun e => e.1 = n)).map (·.2)

/-- The stage of a subchannel's program. -/
def stageOf (d : Dev) (n : Nat) : Option Stage := (d.progs.find? (fun e => e.1 = n)).map (fun e => e.2.stage)

/-- Store the program of a subchannel. -/
def progSet (n : Nat) (p : Prog) (d : Dev) : Dev := { d with progs := tins (tdel d.progs n) n p }

/-- A checkpoint (R437): CKPT_SEQ counts, CCW_ADDR and RESIDUAL show it. -/
def checkpoint (n : Nat) (addr : DWord) (resid : Word) (d : Dev) : Dev :=
  let s := subGet d n
  subSet n { s with ckptSeq := s.ckptSeq + 1, ccwAddr := addr, residual := resid } d

/-- Write sense data (R121). -/
def setSense (n : Nat) (x : SenseSet) (ou : Bool) (d : Dev) : Dev :=
  let s := subGet d n
  subSet n { s with sense :=
    { time := BitVec.ofNat 32 d.devtime.toNat, dev := s.devId
      dport := if s.hpack = 2 ∨ s.hpack = 0xFF then 0xFF else BitVec.ofNat 8 (x.port.getD s.dport)
      members := BitVec.ofNat 64 x.members, info := BitVec.ofNat 64 x.info, qual := BitVec.ofNat 32 x.qual
      valid := true, ou := ou, memb := x.memb, handler := BitVec.ofNat 8 s.hpack, code := BitVec.ofNat 8 x.code } } d

/-- The 256 bits of sense data (R121). -/
def senseWord (x : Sense) : Nat :=
  fieldN 255 224 x.time.toNat + fieldN 223 208 x.dev.toNat + fieldN 207 200 x.dport.toNat
  + fieldN 191 128 x.members.toNat + fieldN 127 64 x.info.toNat + fieldN 63 32 x.qual.toNat + fieldN 23 23 x.valid.toNat
  + fieldN 22 22 x.ou.toNat + fieldN 21 21 x.memb.toNat + fieldN 15 8 x.handler.toNat + fieldN 7 0 x.code.toNat

/-! ### Scratch areas (R43, R221 to R224) -/

/-- The number of the scratch area of a function (R418 KIND 2). -/
def areaOf (f : FnId) : Nat := fnCode f

/-- Bytes of a scratch area. -/
def areaSize (d : Dev) (area : Nat) : Nat := 4096 * (scratchOf d area).length

/-- Read `n` bytes of a scratch area. -/
def areaRead (d : Dev) (area off n : Nat) : List Byte := (span off n).map (fun a => memGet d.plaza (areaAddr d area a))

/-- Write bytes into a scratch area. -/
def areaWrite (area : Nat) : Nat → List Byte → Dev → Dev
  | _, [], d => d
  | off, b :: t, d => areaWrite area (off + 1) t { d with plaza := memSet d.plaza (areaAddr d area off) b }

/-! ### Completion entries of programs (R76, R84, R98, R100) -/

/-- Post an intermediate entry (R76). -/
def postMark (n : Nat) (p : Prog) (addr : DWord) (count : Nat) (d : Dev) : Dev :=
  let s := subGet d n
  let fl := flagInt + (if p.recov then flagRec else 0)
  let w := entryWord p.jseq addr (BitVec.ofNat 32 count) n p.tag 0 csMark 0 1 fl
  match chooseRing d p.ring (ownerOf s) s with
  | none => countNopost (ownerOf s) d
  | some r => postAfter p.ports { ring := r, change := .none, issuer := ownerOf s, early := false, zlr := none, item :=
      { word := w, arms := !s.isup, imm := false, status := false, dly := false, sub := n, ports := [] } } d

/-- Post a suspended entry (R84) with the state change it reports (R156). -/
def postSuspend (n : Nat) (p : Prog) (addr : DWord) (d : Dev) : Dev :=
  let s := subGet d n
  let fl := flagSus + (if p.recov then flagRec else 0)
  let ring := chooseRing d p.ring (ownerOf s) s
  let d := jput (jentry 0x04 (ownerOf s) n p.jseq addr 0 p.tag (boundRing ring p.ring s) 1 0 dsEnd 0 fl 0) d
  let d := progSet n { p with stage := .atSuspend addr } d
  let w := entryWord p.jseq addr 0 n p.tag dsEnd 0 0 1 fl
  match ring with
  | none => applyChange n .suspend (countNopost (ownerOf s) d)
  | some r => postAfter p.ports { ring := r, change := .suspend, issuer := ownerOf s, early := false, zlr := none, item :=
      { word := w, arms := !s.isup, imm := false, status := true, dly := false, sub := n, ports := [] } } d

/-- Is an operation of subchannel n's program in flight? -/
def progOps (d : Dev) (n : Nat) : List (Nat × Op) :=
  d.ops.filter (fun e => decide (e.2.sub = n) && !e.2.detached && decide (e.2.cond ≠ .complete))

/-- The mover channel of a program's MOVER CCW is released (R274, R177); one that still runs, after it has stopped. -/
def releaseChans (n : Nat) (d : Dev) : Dev :=
  { d with
    commits := d.commits.filter (fun e => !(decide (e.2.holder = .signpost) && decide (e.2.arg = n) && decide (e.1 / 65536 = 3)
      && chRest (chGet d (e.1 % 65536)) && !(strChan d (e.1 % 65536))))
    movWait := d.movWait.filter (fun y => y.1 ≠ n)
    opWait := d.opWait.filter (fun w => w.1 ≠ n)
    chans := d.chans.map (fun e => if e.2.sub = some n then (e.1, { e.2 with sub := none }) else e) }

/-- The ledger entries of an owner pack's command that ends are free; those of detached operations that are not
complete stay (R132, R438). -/
def releaseLedger (n : Nat) (d : Dev) : Dev :=
  { d with ops := d.ops.filter (fun e => !(decide (e.2.sub = n) && decide (e.2.kind = .pack)
      && (!e.2.detached || decide (e.2.cond = .complete)))) }

/-- The calls of its pack that wait for an owner command that has ended are not made (R334). -/
def dropCalls (n : Nat) (d : Dev) : Dev :=
  { d with packCalls := d.packCalls.filter (fun k => !(decide (k.sub = n) && [0, 4, 5, 6, 8].contains k.entry)) }

/-- A program that has ended waits for no event counter and holds no mover channel and no slice. Its operation slots stay in use until
its final entry is placed (R156). -/
def dropWait (n : Nat) (d : Dev) : Dev :=
  releaseSlices n <| releaseChans n { d with evtWait := d.evtWait.filter (· ≠ n) }

/-- Have the first `k` members of the open group ended? Data of earlier commands has then reached host memory (R76). -/
def membersEnded (p : Prog) (k : Nat) : Bool := (p.grp.take k).all (fun r => r.ended.isSome)

/-- Post the intermediate entries that are due, in order (R76): one for a member of a group once the members before it have ended. With
`wait` a program that waits at one of its entries posts no other (R156). -/
def markGo (n : Nat) (wait : Bool) : Nat → Dev → Dev
  | 0, d => d
  | k + 1, d =>
      match progOf d n with
      | none => d
      | some p => match p.marks with
        | [] => d
        | (m, a, c) :: t =>
            if (wait && waits156 d n) || !(membersEnded p m) then d
            else markGo n wait k (postMark n p a c (progSet n { p with marks := t } d))

/-- Intermediate entries of CCWs that begin (R76): behind the data of the commands before theirs. -/
def markPut (n : Nat) (l : List (DWord × QWord)) (d : Dev) : Dev :=
  match progOf d n with
  | none => d
  | some p =>
      let new := (l.filter (fun c => ccwMark c.2)).map (fun c => (p.grp.length, c.1, ccwCount c.2))
      markGo n true (p.marks.length + new.length) (progSet n { p with marks := p.marks ++ new } d)

/-- Post a program's final entry (R69, R70, R98, R103, R119): its journal record, sense, status and state. `st` is the
state after it, when not the one R119 gives. SC_PRI and SC_SEC show CE and DE of its last command (R90). -/
def postFinal (n : Nat) (p : Prog) (e : Ended) (st : Option SubState) (d : Dev) : Dev :=
  let d := match e.sense with
    | some x => setSense n x e.ou d
    | none => d
  let d := dropWait n (checkpoint n e.last e.resid (markGo n false p.marks.length (progSet n p d)))
  let d := subSet n { subGet d n with scPri := bit e.dv 0, scSec := bit e.dv 1 } d
  let s := subGet d n
  let trm := s.st = .haltPending ∨ s.st = .clearPending
  let dv := if trm then e.dv ||| dsTrm else e.dv
  let next := match st with
    | some x => x
    | none => if isError e.c dv ∧ s.st ≠ .clearPending then .statusPending else .idle
  let fl := flagFin + (if e.ou then flagOu else 0) + (if p.recov then flagRec else 0)
  let ring := chooseRing d p.ring (ownerOf s) s
  let arg := if dv &&& dsUc ≠ 0 ∨ e.c &&& csIfcc ≠ 0 then BitVec.ofNat 32 s.sense.code.toNat else 0
  let d := jput (jentry 0x03 (ownerOf s) n p.jseq e.last e.resid p.tag (boundRing ring p.ring s) 1 0 dv e.c fl arg) d
  let w := entryWord p.jseq e.last e.resid n p.tag dv e.c 0 1 fl
  let d := progSet n { p with stage := .stopped, run := none, grp := [], chain := [], pref := [], prefAt := none, marks := [] } d
  match ring with
  | none => applyChange n (.status next e.c dv e.ou) (countNopost (ownerOf s) d)
  | some r => postAfter p.ports { ring := r, change := .status next e.c dv e.ou, issuer := ownerOf s, early := false, zlr := none, item :=
      { word := w, arms := !s.isup, imm := s.imm && !s.isup, status := true, dly := false, sub := n, ports := [] } } d

/-! ### Fetching (R38, R40, R82) -/

/-- A CCW is to be fetched. One that was fetched ahead, or whose read is under way, is not read again; those fetched ahead that
execution does not reach are discarded (R40). -/
def fetchCcw (n : Nat) (p : Prog) (addr : DWord) (how : Reach) (tic : Bool) (d : Dev) : Dev :=
  let q := { p with stage := .fetch addr how tic, how := how, pref := p.pref.dropWhile (fun x => decide (x.1 ≠ addr)) }
  if !q.pref.isEmpty || decide (p.prefAt = some addr) then progSet n q d
  else ccwRead n addr (progSet n { q with prefAt := none } d)

/-- Where the engine would fetch on behind a CCW (R40, R71): behind a chaining one, or at the target of a TIC. -/
def ccwNext (a : DWord) (w : QWord) : Option DWord :=
  if ccwCode w = 8 then
    (if bits w 27 24 ≠ 0 ∨ bits w 23 18 ≠ 0 ∨ ccwAsel w ≠ 0 ∨ bits (ccwAddr w) 3 0 ≠ 0 then none else some (ccwAddr w))
  else if ccwS w || !(ccwCC w || ccwCD w) then none
  else some (a + 16)

/-- The CCWs fetched ahead, as words; none behind a failed read. -/
def prefWords : List (DWord × HostRead) → Option (List (DWord × QWord))
  | [] => some []
  | (a, .ok b) :: t => (prefWords t).map ((a, ccwOfRead a b) :: ·)
  | (_, .err _) :: _ => none

/-- Does a list of fetched CCWs go past the end of an unordered group (R40)? -/
def pastGroup : List (DWord × QWord) → Bool
  | (_, v) :: (b, w) :: t => (ccwU v && !(ccwU w)) || pastGroup ((b, w) :: t)
  | _ => false

/-- The address of the next CCW to fetch ahead of a command in execution: at most 4, none past a CCW with S, past the last
CCW, or past the end of an unordered group (R40). -/
def prefNext (s : Sub) (p : Prog) : Option DWord :=
  let busy := match p.stage with
    | .running => true
    | .waitEvent _ _ => true
    | .waitMover _ => true
    | .inPack => true
    | .copying _ _ _ _ => true
    | _ => false
  let cur := match p.run with | some r => r.ccws | none => p.chain
  if !busy || p.prefAt.isSome || decide (4 ≤ p.pref.length) then none
  else match prefWords p.pref with
    | none => none
    | some l =>
        if s.unordDef && pastGroup l then none
        else match (cur ++ l).getLast? with
          | none => none
          | some (a, w) => ccwNext a w

/-- Fetch one CCW ahead, where R40 lets the engine. -/
def prefetch (n : Nat) (d : Dev) : Dev :=
  match progOf d n with
  | none => d
  | some p => match prefNext (subGet d n) p with
    | none => d
    | some a => ccwRead n a (progSet n { p with prefAt := some a } d)

/-- Is the program being ended by HALT, CLEAR or a reset clear (R103, R104)? -/
def halting (d : Dev) (n : Nat) : Bool :=
  let st := (subGet d n).st
  st = .haltPending || st = .clearPending

/-- The suspend decision at the end of a command whose fetched CCW has S = 1 (R82). -/
def suspendDecision (n : Nat) (p : Prog) (addr : DWord) (d : Dev) : Dev :=
  let s := subGet d n
  if s.rp then
    ccwRead n addr (progSet n { p with stage := .refetch addr } (subSet n { s with rp := false } d))
  else postSuspend n p addr d

/-! ### Where a transfer stopped (R70, R128) -/

/-- The CCW of the data chain that holds command byte `off`, with its bytes from there on; the last CCW with 0 when the
transfer reached the end. -/
def stopAt : List (DWord × QWord) → Nat → DWord × Nat
  | [], _ => (0, 0)
  | [(a, w)], off => (a, ccwCount w - off)
  | (a, w) :: t, off => if off < ccwCount w then (a, ccwCount w - off) else stopAt t (off - ccwCount w)

/-- The first and the last CCW of a command. -/
def firstCcw (p : Run) : DWord × QWord := p.ccws.headD (0, 0)
def lastCcw (l : List (DWord × QWord)) : DWord × QWord := l.getLastD (0, 0)

/-! ### Ending commands (R69, R70, R127, R128, R586) -/

/-- The position of the subchannel is advanced by a command that ended without error (R586). -/
def setPosition (n : Nat) (v : DWord) (d : Dev) : Dev := subSet n { subGet d n with position := v } d

/-- A command's end with IL suppressed by LTOL of its last CCW (R69). -/
def ltolEnd (r : List (DWord × QWord)) (e : Ended) : Ended :=
  if ccwLtol (lastCcw r).2 then { e with c := e.c &&& 0xFD#8 } else e

/-- The end of a command of a program that is not in a group (R69): chaining, suspension, or the final entry. `pos` is
the position it leaves when it ends without error. -/
def commandEnd (n : Nat) (p : Prog) (ccws : List (DWord × QWord)) (e : Ended) (pos : Option DWord) (d : Dev) : Dev :=
  let e := ltolEnd ccws e
  let d := match pos with
    | some v => if isError e.c e.dv then d else setPosition n v d
    | none => d
  let s := subGet d n
  let d := subSet n { s with scPri := true, scSec := true, scAlert := false } d
  let d := dropCalls n (releaseSlices n (releaseChans n (checkpoint n e.last e.resid d)))
  let (la, lw) := lastCcw ccws
  let p := { p with chain := [], stopAt := none, run := none, own := none, pos := (subGet d n).position, lastEnd := e }
  let chains := e.c = 0 ∧ (e.dv = dsEnd ∨ e.dv = dsEnd ||| dsSm)
  if halting d n ∨ ¬chains then postFinal n p e none d
  else if ccwS lw then suspendDecision n p la (releaseLedger n d)
  else if ccwCC lw then
    fetchCcw n p (la + (if e.dv = dsEnd then 16 else 32)) .byCmd false (releaseLedger n d)
  else postFinal n p e none d

/-- A device length and a count give IL and where the transfer stopped (R70, R73). -/
def lengthEnd (r : Run) : Ended :=
  let moved := min r.devLen r.total
  let (a, res) := stopAt r.ccws moved
  ⟨if r.devLen = r.total then 0 else csIl, if r.sm then dsEnd ||| dsSm else dsEnd, a, BitVec.ofNat 32 res, false, none⟩

/-- Commands that never give IL (R73). -/
def noIl (c : Nat) : Bool := [0x03, 0x08, 0x09, 0x0A, 0x0B, 0x0C, 0x0E].contains c

/-- A mask of the members that failed (R60). -/
def memberMask (l : List OpFail) : Nat := ((l.map (·.member)).eraseDups).foldl (fun m i => m + 2 ^ i) 0

/-- IL of a run whose device length differs from its count (R73). -/
def ilOf (r : Run) : Byte := if r.devLen ≠ r.total ∧ noIl r.code = false then csIl else 0

/-- The first byte of a run that is not proven (R128): the lowest one that a failed operation carried, or that rows not
issued would have carried. -/
def firstLost (r : Run) : Nat :=
  let moved := min r.devLen r.total
  let issued := match r.todo with
    | [] => moved
    | l => min moved ((r.row + 1) * (r.devLen / (r.row + 1 + l.length)))
  (r.fails.map (·.from_)).foldl min issued

/-- How a command ends when all its operations have ended (R51, R60, R120, R122, R127, R128, R230). Of a command with timeouts and
link errors SENSE shows code 0x09 with the timeouts counted (log entry 81). -/
def runEnd (r : Run) : Ended :=
  let unc := r.fails.filter (fun f => f.kind = 1 ∨ f.kind = 2)
  let ou := unc.any (·.nonIdem)
  let (a, res) := stopAt r.ccws (firstLost r)
  let il := ilOf r
  match r.fails with
  | [] =>
      match r.stop with
      | some e => e
      | none => match r.ownResid with
        | some x => { lengthEnd r with c := 0, last := (firstCcw r).1, resid := BitVec.ofNat 32 x }
        | none => if noIl r.code then { lengthEnd r with c := 0 } else lengthEnd r
  | f :: _ =>
      let lost := r.fails.filter (fun f => f.kind ≠ 3)
      let cdc := if lost.length = r.fails.length then 0 else csCdc
      match lost with
      | [] => ⟨csCdc ||| il, dsEnd, a, BitVec.ofNat 32 res, false, none⟩
      | m :: _ =>
          if r.isSet then
            ⟨(if unc.isEmpty then 0 else csIfcc) ||| cdc ||| il, dsEnd ||| dsUc, a, BitVec.ofNat 32 res, ou,
              some ⟨5, ((lost.map (·.member)).eraseDups).length, m.info, memberMask lost, true, none⟩⟩
          else match unc with
            | [] => ⟨il, dsEnd ||| dsUc, a, BitVec.ofNat 32 res, false, some ⟨7, f.value, f.info, 0, false, some f.port⟩⟩
            | u :: _ =>
                let timeouts := (unc.filter (fun f => f.kind = 1)).length
                ⟨csIfcc ||| il, dsEnd, a, BitVec.ofNat 32 res, ou,
                  some (if timeouts = 0 then ⟨0x0A, u.value, u.info, 0, false, some u.port⟩
                        else ⟨9, timeouts, u.info, 0, false, some u.port⟩)⟩

/-! ### Unordered groups (R77 to R80) -/

/-- Did a member of a group end with CE and DE alone? -/
def memberGood (r : Run) : Bool :=
  match r.ended with
  | some e => let e := ltolEnd r.ccws e; e.c = 0 && e.dv = dsEnd
  | none => true

/-- After a member of a group has ended: a failed member stops the issue of others; when all issued members have ended,
the group ends with them. A group that failed, or that HALT cut short, leaves the position undefined (R80). -/
def groupCheck (n : Nat) (p : Prog) (d : Dev) : Dev :=
  let bad := p.grp.filter (fun r => !(memberGood r))
  let open_ := p.grp.any (fun r => r.ended.isNone)
  let p := if bad.isEmpty && !(halting d n) then p else { p with stage := .stopped }
  if open_ then markGo n true p.marks.length (progSet n p d)
  else
    match bad with
    | r :: _ =>
        let (v, d) := freeNext d
        let d := setPosition n (BitVec.ofNat 64 v.toNat) d
        postFinal n p (ltolEnd r.ccws (r.ended.getD p.lastEnd)) none d
    | [] =>
        let d := setPosition n p.pos d
        let e := ((p.grp.getLast?).bind (fun r => r.ended.map (ltolEnd r.ccws))).getD p.lastEnd
        let d := checkpoint n e.last e.resid d
        let p := { p with grp := [], lastEnd := e }
        if p.grpLast || halting d n then postFinal n p e none d else progSet n p d

/-- A run ends: as a member of the group, or as the command in execution. -/
def finishRun (n : Nat) (r : Run) (e : Ended) (d : Dev) : Dev :=
  match progOf d n with
  | none => d
  | some p =>
      let d := releaseRun n r.id d
      if p.grp.any (fun x => x.id = r.id) then
        groupCheck n { p with grp := p.grp.map (fun x => if x.id = r.id then { r with ended := some e } else x) } d
      else
        if r.isSet && r.fails.any (fun f => f.kind ≠ 3) then
          let (v, d) := freeNext d
          commandEnd n p r.ccws e none (setPosition n (BitVec.ofNat 64 v.toNat) d)
        else commandEnd n p r.ccws e (some r.endPos) d

/-! ### Downstream operations (R35, R123 to R126) -/

/-- Operations that may be in flight: 256 for each CP in service (R35). -/
def opLimit (d : Dev) : Nat := 256 * ((List.range 8).map (cpsIn d)).foldl (· + ·) 0

/-- Are `k` operation slots free for a CP: of its own 256, and under the device-wide limit (R6, R35)? -/
def slotsFree (d : Dev) (cp k : Nat) : Bool :=
  decide (d.ops.length + k ≤ opLimit d) && decide ((d.ops.filter (fun e => e.2.cp = cp)).length + k ≤ 256)

/-- The effective idempotence default of a program (R123). -/
def effDefault (s : Sub) (p : Prog) : Bool := p.idem.getD s.idemDef

/-- The class of an operation (R48, R54): 0 always, 1 default, 2 never. -/
def opClass (imm : Bool) : OpKind → Nat
  | .nvmeRead _ _ _ => 0
  | .nvmeWrite _ _ _ _ _ => 1
  | .nvmeFlush _ => 0
  | .nvmeDealloc _ _ _ => 0
  | .nvmeZero _ _ _ => 0
  | .nvmeIdentify _ _ => 0
  | .nvmeCompare _ _ _ _ => 0
  | .winRead _ _ w => if w = 0 then 0 else 2
  | .winWrite _ w _ _ => if imm ∨ w ≠ 0 then 2 else 1
  | .winFence => 0
  | .packWrite _ _ => 2
  | .pack => 2

/-- Issue an operation for program n to the device of subchannel `dev` on a path. -/
def issueOp (n dev : Nat) (p : Prog) (path member cls : Nat) (kind : OpKind) (from_ info : Nat) (d : Dev) : Nat × Dev :=
  let t := d.nextTok
  let s := subGet d n
  let o : Op := { sub := n, jseq := p.jseq, dev := dev, dport := path, member := member, cls := cls
                  idem := cls = 0 || (cls = 1 && effDefault s p), kind := kind, from_ := from_, info := info
                  cond := .notIssued, reissued := false, detached := false, cp := p.cp }
  (t, emit (.devOp o.dport dev t kind) { d with nextTok := t + 1, ops := tins (tdel d.ops t) t o })

/-- A ledger entry of an owner pack's operation (R337, R438): its token and the device. -/
def ledgerPut (n cls : Nat) (d : Dev) : Nat × Dev :=
  match progOf d n with
  | none => (0, d)
  | some p =>
      let t := d.nextTok
      let x := subGet d n
      let e : Op := { sub := n, jseq := p.jseq, dev := n, dport := pathNow d x, member := 0, cls := cls
                      idem := cls = 0 || (cls = 1 && effDefault x p), kind := .pack, from_ := 0
                      info := p.pos.toNat, cond := .notIssued, reissued := false, detached := false, cp := p.cp }
      let own := p.own.map (fun o => { o with toks := o.toks ++ [t], replay := o.replay.map (fun r => (r.1 + 1, r.2)) })
      (t, progSet n { p with own := own } { d with nextTok := t + 1, ops := tins (tdel d.ops t) t e })

/-- The upstream port of a program's access to a host address (R271). -/
def portFor (d : Dev) (n : Nat) (a : DWord) : Nat := portOf d (.sub n) (ownerOf (subGet d n)) a.toNat

/-- The upstream port that a stream of a program gets: by the address of its first host segment (R256, R271). -/
def streamPort (d : Dev) (n : Nat) (l : List Seg) : Option Nat := (l.find? (fun g => g.space = 0)).map (fun g => portFor d n g.addr)

/-- The stream's port, chosen now. -/
def takeStream (n : Nat) (l : List Seg) (d : Dev) : Option Nat × Dev :=
  match l.find? (fun g => g.space = 0) with
  | none => (none, d)
  | some g => (let (p, d) := takePort (.sub n) (ownerOf (subGet d n)) g.addr.toNat d; (some p, d))

/-- A run goes into execution: as the command, or as a member of a group whose next CCW is fetched at once (R77). Its stream has its
upstream port and its bank set (R256). -/
def startRun (n : Nat) (p : Prog) (r : Run) (inGroup : Bool) (d : Dev) : Dev :=
  let d := checkpoint n (firstCcw r).1 (BitVec.ofNat 32 (ccwCount (firstCcw r).2)) d
  let (port, d) := takeStream n r.segs d
  let r := { r with id := d.nextTok, port := port, banks := tget d.bankSets n [] }
  let d := keepRun n r.id { d with nextTok := d.nextTok + 1 }
  if inGroup then
    let (la, lw) := lastCcw r.ccws
    let p := { p with grp := p.grp ++ [r], chain := [], stopAt := none, pos := r.endPos, run := none }
    if ccwCC lw then fetchCcw n p (la + 16) .byCmd false d
    else progSet n { p with grpLast := true, stage := .stopped } d
  else progSet n { p with run := some r, stage := .running } d

/-- The CCW in hand joins the group that is open (R77): the unordered default is set, it was reached by command
chaining, it has U = 1, S = 0 and no data chain, and its command is independent. -/
def groupMember (s : Sub) (h : Handler) (p : Prog) : Bool :=
  match p.chain with
  | [(_, w)] => s.unordDef && p.how = .byCmd && ccwU w && !(ccwS w) && !(ccwCD w) && independent h (ccwCode w)
  | _ => false

/-- May the command in hand start now: no group is open, or it joins one of fewer than 32 members (R77)? -/
def mayStart (s : Sub) (h : Handler) (p : Prog) : Bool :=
  p.grp.isEmpty || (groupMember s h p && decide (p.grp.length < 32))

/-- Run `f` on the program of subchannel n when its state is ACTIVE and the command in hand has a code. It waits while the program waits at
an entry (R156), and while a read of the engine is held on a failing check block (R228). -/
def withCommand (n : Nat) (codes : List Nat) (f : Sub → Handler → Prog → Dev → Dev) (d : Dev) : Dev :=
  let s := subGet d n
  match progOf d n, handlerOf d s with
  | some p, some h =>
      if s.st = .active ∧ p.stage = .ready ∧ mayStart s h p = true ∧ waits156 d n = false ∧ readHeld d (.engine n) = false then
        match p.chain with
        | (_, w) :: _ => if codes.contains (ccwCode w) then f s h p d else d
        | [] => d
      else d
  | _, _ => d

/-- A command that ends at once, with the position it leaves. In an open group it ends as a member. -/
def endNow (n : Nat) (s : Sub) (h : Handler) (p : Prog) (e : Ended) (pos : Option DWord) (d : Dev) : Dev :=
  if groupMember s h p then
    let r : Run := { id := d.nextTok, code := 0, isSet := false, ccws := p.chain, segs := [], total := 0, devLen := 0, ops := [], got := []
                     row := 0, todo := [], startPos := p.pos, endPos := pos.getD p.pos, stop := none, fails := [], sm := false
                     ownResid := none, ended := some e, port := none, paths := [], banks := [] }
    let d := releaseHand n { d with nextTok := d.nextTok + 1 }
    let good := memberGood r
    let (la, lw) := lastCcw r.ccws
    let q := { p with grp := p.grp ++ [r], chain := [], stopAt := none, pos := if good then r.endPos else p.pos }
    if good then
      (if ccwCC lw then fetchCcw n q (la + 16) .byCmd false d
       else groupCheck n { q with grpLast := true, stage := .stopped } d)
    else groupCheck n { q with stage := .stopped } d
  else commandEnd n p p.chain e pos d

/-! ### Building a transfer (R68, R72, R75) -/

/-- Read the IDA list of one CCW: its segments up to COUNT, the failure that ends it, and the answers left over. `i` is
the number of entries read. -/
def idaSegs (space need i : Nat) : List HostRead → List Seg × Option Byte × List HostRead
  | [] => ([], some csCcc, [])
  | .err _ :: t => ([], some csCcc, t)
  | .ok b :: t =>
      let e : QWord := BitVec.ofNat 128 (leNat (fitBytes 16 b))
      let len := bits e 95 64
      if len = 0 ∨ bits e 127 96 ≠ 0 then ([], some csPgm, t)
      else if need ≤ len then ([⟨space, BitVec.ofNat 64 (bits e 63 0), need⟩], none, t)
      else if 4095 ≤ i then ([⟨space, BitVec.ofNat 64 (bits e 63 0), len⟩], some csPgm, t)
      else
        let (l, st, r) := idaSegs space (need - len) (i + 1) t
        (⟨space, BitVec.ofNat 64 (bits e 63 0), len⟩ :: l, st, r)

/-- The entries of an IDA list read, with their addresses and whether the read succeeded. -/
def idaTouch (a : DWord) (l : List HostRead) : List (DWord × Nat × Bool) :=
  (l.zipIdx).map (fun x => (a + BitVec.ofNat 64 (16 * x.2), 16, match x.1 with | .ok _ => true | .err _ => false))

/-- Does a segment lie in the function's scratch area, when it is in that space (R81)? -/
def segFits (d : Dev) (f : FnId) (g : Seg) : Bool := g.space ≠ 1 || decide (g.addr.toNat + g.len ≤ areaSize d (areaOf f))

/-- Segments before the first one that does not fit. -/
def segsOk (d : Dev) (f : FnId) : List Seg → List Seg × Bool
  | [] => ([], true)
  | g :: t => if segFits d f g then (let (l, ok) := segsOk d f t; (g :: l, ok)) else ([], false)

/-- The bytes a list of segments covers. -/
def segLen (l : List Seg) : Nat := (l.map (·.len)).foldl (· + ·) 0

/-- Build the segments of a data chain in order; stop at the first failure, whose end names the CCW that owns it and
its bytes not transferred (R75, R81). -/
def buildSegs (d : Dev) (f : FnId) : List (DWord × QWord) → List HostRead → List Seg × Option Ended
  | [], _ => ([], none)
  | (a, w) :: t, ida =>
      if ccwSkip w then
        (let (l, st) := buildSegs d f t ida
         (⟨2, 0, ccwCount w⟩ :: l, st))
      else if ccwIda w then
        (if bits (ccwAddr w) 3 0 ≠ 0 then ([], some (endC csPgm a (ccwCount w)))
         else
           let (l, st, rest) := idaSegs (ccwAsel w) (ccwCount w) 0 ida
           let (l', ok) := segsOk d f l
           if !ok then (l', some (endC csProt a (ccwCount w - segLen l')))
           else match st with
             | some c => (l, some (endC c a (ccwCount w - segLen l)))
             | none => (let (m, e) := buildSegs d f t rest; (l ++ m, e)))
      else
        (let (l, st) := buildSegs d f t ida
         (⟨ccwAsel w, ccwAddr w, ccwCount w⟩ :: l, st))

/-- The reads of IDA entries that building the segments of a data chain makes, in order (R75). -/
def idaReads (d : Dev) (f : FnId) : List (DWord × QWord) → List HostRead → List (DWord × Nat × Bool)
  | [], _ => []
  | (_, w) :: t, ida =>
      if ccwSkip w || !(ccwIda w) then idaReads d f t ida
      else if bits (ccwAddr w) 3 0 ≠ 0 then []
      else
        let (l, st, rest) := idaSegs (ccwAsel w) (ccwCount w) 0 ida
        let mine := idaTouch (ccwAddr w) (ida.take (ida.length - rest.length))
        if st.isSome || !(segsOk d f l).2 then mine else mine ++ idaReads d f t rest

/-- Send the reads of IDA entries. -/
def emitIda (n : Nat) (l : List (DWord × Nat × Bool)) (d : Dev) : Dev :=
  l.foldl (fun d x => hostOut (.sub n) (ownerOf (subGet d n)) (.read x.1 x.2.1) d) d

/-- The host accesses of reading segments in order, up to the first that fails: the answers tell (R515). -/
def gatherTouch : List Seg → List HostRead → List (DWord × Nat × Bool)
  | [], _ => []
  | g :: t, io =>
      if g.space = 1 then gatherTouch t io
      else match io with
        | .ok _ :: r => (g.addr, g.len, true) :: gatherTouch t r
        | _ => [(g.addr, g.len, false)]

/-- The host accesses of writing segments. -/
def writeTouch (l : List Seg) (wr : WriteRes) : List (DWord × Nat × Bool) :=
  (l.filter (fun g => g.space = 0)).map (fun g => (g.addr, g.len, decide (wr = .ok)))

/-- Cut a list of segments to its first `n` bytes. -/
def segCut : Nat → List Seg → List Seg
  | _, [] => []
  | n, g :: t => if n = 0 then [] else if n ≤ g.len then [{ g with len := n }] else g :: segCut (n - g.len) t

/-- Read the data of segments in order: scratch from Plaza, host from the answers; the index of the first segment byte
that could not be read (R81 CDC). -/
def gather (d : Dev) (f : FnId) : List Seg → List HostRead → Nat → List Byte × Option Nat
  | [], _, _ => ([], none)
  | g :: t, io, off =>
      if g.space = 1 then
        (let b := areaRead d (areaOf f) g.addr.toNat g.len
         let (l, e) := gather d f t io (off + g.len); (b ++ l, e))
      else match io with
        | .ok b :: r => (let (l, e) := gather d f t r (off + g.len); (fitBytes g.len b ++ l, e))
        | _ => ([], some off)

/-- Emit the reads of host segments of a stream, by its one port (R272). -/
def emitReads (n : Nat) (l : List Seg) (d : Dev) : Dev :=
  let (port, d) := takeStream n l d
  l.foldl (fun d g => if g.space = 0 then hostOut (.kept (port.getD 0)) (ownerOf (subGet d n)) (.read g.addr g.len) d else d) d

/-- Write data into segments in order, by the stream's port. `wr` tells which bytes of the host part arrived (R591). Answers the first
byte that did not. -/
def scatter (port : Nat) (f : FnId) (wr : WriteRes) : List Seg → List Byte → Nat → Dev → Option Nat × Dev
  | [], _, _, d => (none, d)
  | g :: t, b, off, d =>
      let part := b.take g.len
      if part.isEmpty then (none, d)
      else if g.space = 2 then scatter port f wr t (b.drop g.len) (off + g.len) d
      else if g.space = 1 then
        scatter port f wr t (b.drop g.len) (off + g.len) (areaWrite (areaOf f) g.addr.toNat part d)
      else
        match wr with
        | .ok => scatter port f wr t (b.drop g.len) (off + g.len) (hostOut (.kept port) f (.write g.addr part) d)
        | .fail w =>
            let idx := List.range part.length
            let d := idx.foldl (fun d i =>
              if w.contains (off + i) then sendHost (.kept port) f (.write (g.addr + BitVec.ofNat 64 i) ((part.drop i).take 1)) d else d) d
            let miss := (idx.find? (fun i => !(w.contains (off + i)))).map (off + ·)
            let (m, d) := scatter port f wr t (b.drop g.len) (off + g.len) d
            (match miss with | some x => some x | none => m, d)

/-- Must a stream on `port` wait with its first host write: the program's stream before it used the other port, whose writes are not yet
known to be visible (R272)? -/
def portWaits (p : Prog) (port : Option Nat) : Bool :=
  match p.lastPort, port with
  | some q, some r => decide (q ≠ r)
  | _, _ => false

/-- The zero-length read on the port of the stream before (R21, R272), issued once. -/
def portSync (n : Nat) (p : Prog) (d : Dev) : Dev :=
  match p.sync, p.lastPort with
  | none, some q => zeroOut (ownerOf (subGet d n)) q (progSet n { p with sync := some q } d)
  | _, _ => d

/-- A meaning whose stream writes host memory by `port`: it waits for the writes of the stream before it (R272). -/
def portGo (n : Nat) (p : Prog) (port : Option Nat) (k : Dev → Dev) (d : Dev) : Dev :=
  if portWaits p port then portSync n p d else k d

/-- The check blocks of the scratch segments of a list (R228). -/
def segBlocks (d : Dev) (f : FnId) (l : List Seg) : List Nat :=
  ((l.filter (fun g => g.space = 1)).map (fun g => areaBlocks d (areaOf f) g.addr.toNat g.len)).flatten

/-- A meaning that reads segments: while a check block of a scratch segment is being refilled, the read is held with it (R20, R228). -/
def scratchGo (n : Nat) (l : List Seg) (k : Dev → Dev) (d : Dev) : Dev :=
  match inRefill d (segBlocks d (ownerOf (subGet d n)) l) with
  | [] => k d
  | b => joinAll b (.engine n) d

/-- The attachments at the two ends of a command's stream (R260): the upstream port of its host segments and the avenues of the
devices. -/
def rowEnds (d : Dev) (n : Nat) (l : List Seg) (devs : List Nat) : List Nat :=
  (streamPort d n l).toList ++ devs.map (fun m => 2 + pathOf d (subGet d m) / 4)

/-- A row that issues `k` operations waits until its slots are free (R79), for the slices of the `bytes` it stages in Plaza, one for
each 4 KiB, at most 64 (R225, R226; log entry 85), in class 1 (R240), and for the `ch` mover channels of its stream (R274). -/
def whenRoom (n : Nat) (p : Prog) (k bytes ch : Nat) (ends : List Nat) (f : Dev → Dev) (d : Dev) : Dev :=
  if slotsFree d p.cp k then
    match streamHold n 1 (min 64 ((bytes + 4095) / 4096)) ends d with
    | (true, d) => (match chanHold n ch d with
        | (true, d) => f d
        | (false, d) => d)
    | (false, d) => d
  else d

/-- A run for the command in hand. -/
def newRun (p : Prog) (segs : List Seg) (total devLen : Nat) (endPos : DWord) (stop : Option Ended) : Run :=
  { id := 0, code := match p.chain with | (_, w) :: _ => ccwCode w | [] => 0
    isSet := false, ccws := p.chain, segs := segs, total := total, devLen := devLen, ops := [], got := [], row := 0, todo := [], startPos := p.pos
    endPos := endPos, stop := stop, fails := [], sm := false, ownResid := none, ended := none, port := none, paths := [], banks := [] }

/-- The total count of a data chain (R48). -/
def chainCount (l : List (DWord × QWord)) : Nat := (l.map (fun x => ccwCount x.2)).foldl (· + ·) 0

/-- Start a command with one operation, for which a slot is free. -/
def runOne (n : Nat) (s : Sub) (h : Handler) (p : Prog) (r : Run) (imm : Bool) (kind : OpKind) (d : Dev) : Dev :=
  let (path, d) := takePath n d
  let (t, d) := issueOp n n p path 0 (opClass imm kind) kind 0 r.startPos.toNat d
  startRun n p { r with ops := [t], paths := [(n, path)] } (groupMember s h p) d

/-! ### Checks (R81) -/

/-- The status a CCW fails with when it becomes current, in the order of R81's table; none when it passes. `byData`
CCWs carry the code of their command. -/
def ccwCheck (d : Dev) (n : Nat) (h : Handler) (p : Prog) (code : Nat) (byData : Bool) (w : QWord) : Option Byte :=
  let row := codeRow h code
  let s := subGet d n
  let f := ownerOf s
  let c := ccwCount w
  let scr := ccwAsel w = 1
  let len := match h with | .peer => 0x10 | _ => 0x20
  let span_ := if code = 0x09 then 32 else if code = 0x07 then (match h with | .owner _ => c | _ => len)
    else if code = 0x0E then 16 else c
  if !byData && badCode code then some csPgm
  else if bits w 27 24 ≠ 0 ∨ bits w 23 18 ≠ 0 ∨ ccwAsel w = 3 ∨ !(row.asel.contains (ccwAsel w)) then some csPgm
  else if (ccwCD w && !row.cd) || (ccwIda w && !row.ida) || (ccwSkip w && !row.skip) then some csPgm
  else if (ccwS w && ccwCD w) || (ccwU w && ccwCD w) || (ccwU w && ccwS w) || (ccwU w && byData) then some csPgm
  else if decide (c = 0) && (ccwCD w || byData) then some csPgm
  else if (code = 0x0C && decide (c ≠ 0)) || ((code = 0x0B || code = 0x0C) && decide (bits (ccwAddr w) 63 8 ≠ 0))
      || (code = 0x11 && (match h with | .window => decide (c ≠ 4 ∧ c ≠ 8) | _ => false))
      || (row.cnt = 2 && decide (c ≠ 0)) then some csPgm
  else if code = 0x0A && decide (c ≠ 0) && (decide (bits (ccwAddr w) 63 46 = n) || decide (0x40000 ≤ bits (ccwAddr w) 63 46))
      then some csPgm
  else if decide (p.key ≠ 0) && decide (ccwKey w ≠ p.key) && usesMemory h code w then some csProt
  else if scr && usesMemory h code w && !(ccwIda w) && decide (areaSize d (areaOf f) < (ccwAddr w).toNat + span_) then
    some csProt
  else if code = 0x0A && decide (c ≠ 0) &&
      (let t := subGet d (bits (ccwAddr w) 63 46); decide (subOwner t ≠ subOwner s)) then some csProt
  else if code = 0x0E && decide (regFld d .glFnPerm (fnKey f) 0 0 = 0) then some csProt
  else none

end Sys2Proof.Machine
end

