-- ==== Sys2Proof/Machine/PackOps.lean ====
section
/-!
DEFINITION. How CP_BASE_FW calls the entries of an owner handler pack (R325, R333 to R336): the operation context, the
apertures and registers of an entry, and the calls that wait for their CP.
-/
namespace Sys2Proof.Machine

open Sys2Proof

/-- Bytes of DRAM, by local address (R290). -/
def dramRead (c : Cp) (a n : Nat) : List Byte := memRead c.dram a n
def dramWrite (a : Nat) (b : List Byte) (c : Cp) : Cp := { c with dram := memWrite c.dram a b }

/-- The number of a field of an operation context (R335). -/
def ctxField (c : Cp) (ctx off n : Nat) : Nat := leNat (dramRead c (ctx + off) n)

/-- The 256 bits of HPRIV: an owner pack's bytes; for a vendor pack the layout is the pack's own, so a reader gets a
free value (R90). -/
def hprivBits (s : Sub) (d : Dev) : Nat × Dev :=
  if s.hpack < 3 then
    (let (a, d) := freeNext d
     let (b, d) := freeNext d
     (a.toNat + b.toNat * 2 ^ 128, d))
  else (s.hpriv.raw.toNat, d)

/-- The first operation context of the operation window that no command and no BIND of the CP uses (R327). -/
def freeCtx (d : Dev) (cp : Nat) : Nat :=
  let used := d.progs.filterMap (fun e => match e.2.own with | some o => if o.cp = cp then some o.ctx else none | none => none)
    ++ d.binds.filterMap (fun b => if b.cp = some cp then some b.ctx else none)
  match (List.range 256).find? (fun k => !(used.contains (0x10008000 + 128 * k))) with
  | some k => 0x10008000 + 128 * k
  | none => 0x10008000

/-- Build the operation context of a command (R335). What CSTAT, DSTAT and DEVLEN hold before the handler writes them is
free (log entry 14). -/
def buildCtx (n : Nat) (p : Prog) (ctx : Nat) (d : Dev) : Dev :=
  let s := subGet d n
  let (_, w) := p.chain.headD (0, 0)
  let total := chainCount p.chain
  let memb := match handlerOf d s with | some h => groupMember s h p | none => false
  let opfl := (effDefault s p).toNat + 2 * memb.toNat + 4 * p.recov.toNat
  let (v, d) := freeNext d
  let b := leBytes 16 w.toNat ++ leBytes 4 n ++ leBytes 4 p.tag.toNat ++ leBytes 4 total ++ leBytes 4 opfl
    ++ leBytes 8 p.pos.toNat ++ leBytes 32 s.hpriv.raw.toNat ++ leBytes 8 v.toNat
  let c := cpGet d p.cp
  cpSet p.cp (dramWrite ctx b c) d

/-- Call the EVENT, TIMEOUT, ABORT or REISSUE entry of the command of subchannel n (R333): `entry` 4, 5, 6 or 8. -/
def callEv (n entry ev : Nat) (g3 : Nat) (d : Dev) : Dev :=
  match progOf d n with
  | none => d
  | some p =>
      match p.own, d.packs.find? (fun e => e.1 = (subGet d n).hpack) with
      | some o, some (_, pk) =>
          { d with packCalls := d.packCalls ++
            [⟨o.cp, n, (subGet d n).hpack, entry, lget pk.ev ev 0, BitVec.ofNat 32 o.ctx, BitVec.ofNat 32 n,
              BitVec.ofNat 32 g3⟩] }
      | _, _ => d

/-- Change the command of an owner pack. -/
def ownMod (n : Nat) (f : OwnCmd → OwnCmd) (d : Dev) : Dev :=
  match progOf d n with
  | none => d
  | some p => progSet n { p with own := p.own.map f } d

/-- The BIND entry of a BIND's pack is called on CP i, with a copy of the block in its DRAM (R333). -/
def bindCall (b : PackBind) (i : Nat) (d : Dev) : Dev :=
  let n := seSub b.take.entry
  let hp := bits b.word 111 104
  match d.packs.find? (fun e => e.1 = hp) with
  | none => d
  | some (_, pk) =>
      let ctx := freeCtx d i
      let d := cpSet i (dramWrite ctx (leBytes 64 b.word.toNat) (cpGet d i)) d
      { d with
        binds := d.binds.map (fun x => if x.take.jseq = b.take.jseq then { x with cp := some i, ctx := ctx } else x)
        packCalls := d.packCalls.filter (fun k => !(decide (k.sub = n) && decide (k.entry = 2)))
          ++ [⟨i, n, hp, 2, lget pk.ev 1 0, BitVec.ofNat 32 ctx, BitVec.ofNat 32 n, 0⟩] }

/-- The UNBIND entry of the owner pack that a subchannel is bound to is called, as its binding is removed (R333), on CP i. -/
def unbindCall (n i : Nat) (d : Dev) : Dev :=
  let hp := (subGet d n).hpack
  match (if hp < 3 then none else d.packs.find? (fun e => e.1 = hp)) with
  | none => d
  | some (_, pk) =>
      { d with packCalls := d.packCalls ++ [⟨i, n, hp, 3, lget pk.ev 2 0, BitVec.ofNat 32 n, 0, 0⟩] }

/-! ### The end of an owner pack's command (R106, R126 to R129, R334, R335, R337) -/

/-- The operations of an owner pack's command that are uncertain by its ledger (R337). -/
def packUnc (n : Nat) (d : Dev) : List (Nat × Op) := (progOps d n).filter (fun e => decide (e.2.cond = .uncertain))

/-- Is an operation of an owner pack's command still in flight (R106): begun, not complete, and not one that has failed or is settled? -/
def packFlight (n : Nat) (o : OwnCmd) (d : Dev) : Bool := (packUnc n d).any (fun e => !(o.settled.contains e.1))

/-- The sense data of an owner pack's command with lost operations (R122, R127): its timeouts counted, or its link error; none where no
operation is lost. -/
def packLost (n : Nat) (p : Prog) (o : OwnCmd) (d : Dev) : Option SenseSet :=
  let unc := packUnc n d
  if o.fails.isEmpty && unc.isEmpty then none
  else
    let late := (o.fails.filter (fun f => f.kind = 1)).length + (unc.filter (fun e => !(o.fails.any (fun f => f.member = e.1)))).length
    let port := match o.fails, unc with
      | f :: _, _ => some f.port
      | [], e :: _ => some e.2.dport
      | [], [] => none
    match late with
    | 0 => some ⟨0x0A, (o.fails.map (·.value)).headD 0, p.pos.toNat, 0, false, port⟩
    | k => some ⟨9, k, p.pos.toNat, 0, false, port⟩

/-- An owner pack's command ends with lost operations (R127, R128): no byte of it is proven, since the manual does not say which bytes an
operation of a pack carries. `c` and `dv` are what its handler reported. -/
def packLostEnd (n : Nat) (p : Prog) (o : OwnCmd) (c dv : Byte) (x : SenseSet) (d : Dev) : Ended :=
  let (a, w) := p.chain.headD (0, 0)
  ⟨c ||| csIfcc ||| (if o.cdc.isSome then csCdc else 0), dv, a, BitVec.ofNat 32 (ccwCount w), (packUnc n d).any (fun e => !e.2.idem), some x⟩

/-- A CP runs an entry of the subchannel's command. -/
def inEntry (d : Dev) (n : Nat) : Bool :=
  d.cps.any (fun e => e.2.serve.any (fun s => decide (s.sub = n) && [0, 4, 5, 6, 8].contains s.entry))

/-- An owner pack's command one of whose operations has failed ends when none of the others is in flight any more, between two entries
(R106, R127). -/
def packOver (n : Nat) (d : Dev) : Dev :=
  match progOf d n with
  | none => d
  | some p => match p.own with
    | none => d
    | some o =>
        if o.fails.isEmpty || packFlight n o d || inEntry d n then d
        else match packLost n p o d with
          | none => d
          | some x => commandEnd n p p.chain (packLostEnd n p o 0 dsEnd x d) none d

/-- The UC of a declared sense code with SENSE_UX set shows as UX (R328). -/
def senseUx (pk : Pack) (o : OwnCmd) (dv : Byte) : Byte :=
  match o.sense with
  | some x => if dv &&& dsUc ≠ 0 ∧ 0x80 ≤ x.code ∧ bit pk.senseUx (x.code - 0x80) = true then
      (dv &&& ~~~ dsUc) ||| dsUx else dv
  | none => dv

/-- The sense data of a command that its handler ends with UC, UX or IFCC (R121): what SENSE_SET gave; where it gave none, the code and
the qualifier are not stated: free values. -/
def packSense (c dv : Byte) (p : Prog) (o : OwnCmd) (d : Dev) : Option SenseSet × Dev :=
  if c &&& csIfcc = 0 ∧ dv &&& (dsUc ||| dsUx) = 0 then (none, d)
  else match o.sense with
    | some x => (some x, d)
    | none =>
        if c &&& csIfcc = 0 ∧ dv &&& dsUc = 0 then (none, d)
        else
          let (v, d) := freeNext d
          (some ⟨bits v 7 0, bits v 63 32, p.pos.toNat, 0, false, none⟩, d)

/-- Does the handler's device status meet R118 at the end of a command: CE and DE (R335; log entry 104)? -/
def packStatOk (o : OwnCmd) (d : Dev) : Bool :=
  (BitVec.ofNat 8 (ctxField (cpGet d o.cp) o.ctx 0x49 1) : Byte) &&& dsEnd = dsEnd

/-- DONE (R334, R335, R337, R443, R449): the command ends with the status in its context. IL, residual and OU follow from
DEVLEN, the transfers and the operations. Operations begun and not complete are uncertain, settled ones are timeouts. -/
def packDone (n : Nat) (p : Prog) (o : OwnCmd) (d : Dev) : Dev :=
  let c := cpGet d o.cp
  let s := subGet d n
  let total := match p.stopAt with | some _ => segLen o.segs | none => chainCount p.chain
  let devLen := ctxField c o.ctx 0x4C 4
  let cs : Byte := BitVec.ofNat 8 (ctxField c o.ctx 0x48 1) &&& (csIfcc ||| csCdc ||| csIl)
  let dv : Byte := BitVec.ofNat 8 (ctxField c o.ctx 0x49 1) &&& (dsEnd ||| dsSm ||| dsUc ||| dsUx)
  let dv := match d.packs.find? (fun e => e.1 = s.hpack) with | some (_, pk) => senseUx pk o dv | none => dv
  let moved := match o.cdc with | some off => min off (min devLen total) | none => min devLen total
  let (a, res) := stopAt p.chain moved
  let cs := cs ||| (if o.cdc.isSome then csCdc else 0)
    ||| (if devLen = total ∨ noIl (ccwCode (p.chain.headD (0, 0)).2) = true then 0 else csIl)
  let raw : BitVec 256 := BitVec.ofNat 256 (ctxField c o.ctx 0x28 32)
  let pos : DWord := BitVec.ofNat 64 (ctxField c o.ctx 0x20 8)
  let (e, d) := match packLost n p o d with
    | some x => (packLostEnd n p o cs dv x d, d)
    | none =>
        let (x, d) := packSense cs dv p o d
        let e : Ended := ⟨cs, dv, a, BitVec.ofNat 32 res, false, x⟩
        ((match p.stopAt with
          | some x => if isError cs dv then e else x
          | none => e), d)
  commandEnd n p p.chain e (some pos) (subSet n { s with hpriv := { s.hpriv with raw := raw } } d)

/-! ### The beginning of an owner pack's command (R333) -/

/-- A command of an owner pack becomes current (R333): its context is built and its command entry called. -/
def startPack (n : Nat) (p : Prog) (pk : Pack) (d : Dev) : Dev :=
  let ctx := freeCtx d p.cp
  let (a, w) := p.chain.headD (0, 0)
  let code := ccwCode w
  let d := checkpoint n a (BitVec.ofNat 32 (ccwCount w)) (takePath n d).2
  let d := progSet n { p with stage := .inPack, own := some ⟨p.cp, ctx, [], [], none, [], [], [], [], none, [], none, [], []⟩ } d
  let d := markPut n p.chain.tail d
  let p := (progOf d n).getD p
  let d := buildCtx n p ctx d
  { d with packCalls := d.packCalls ++
    [⟨p.cp, n, (subGet d n).hpack, 0, bits (packEntry pk code) 63 32, BitVec.ofNat 32 ctx, BitVec.ofNat 32 n,
      BitVec.ofNat 32 code⟩] }

end Sys2Proof.Machine
end

