-- ==== Sys2Proof/Machine/Arith.lean ====
section
/-!
DEFINITION. Channel processor arithmetic on integers, Q31 words and accumulators (chapter 09, R339 to R353). Every
function is pure: it takes register values and gives the result with the flags.
-/
namespace Sys2Proof.Machine

open Sys2Proof

/-- What an arithmetic instruction gives (R339): the result, N, Z, C and V, and the sticky flags it sets, as bits of
SR. -/
structure Alu where
  r : Word
  n : Bool
  z : Bool
  c : Bool
  v : Bool
  sticky : Word
  deriving DecidableEq, Repr

/-- The sticky flags by their bits in SR (R286). -/
def stQ : Word := 0x100
def stDZ : Word := 0x200
def stFNX : Word := 0x400
def stFUF : Word := 0x800
def stFOF : Word := 0x1000
def stFDZ : Word := 0x2000
def stFNV : Word := 0x4000

/-- A sticky flag when a condition holds. -/
def stIf (b : Bool) (f : Word) : Word := if b then f else 0

/-- N and Z from r, with C and V given (R339). -/
def aluOut (r : Word) (c v : Bool) (st : Word) : Alu := ⟨r, r.msb, decide (r = 0), c, v, st⟩

/-- Does an exact value lie outside the signed 32-bit range? -/
def outS32 (x : Int) : Bool := decide (x < -2147483648) || decide (2147483647 < x)

/-- An exact value as a signed 32-bit word, and whether it saturated (R350). -/
def satS32 (x : Int) : Word × Bool :=
  if 2147483647 < x then (0x7FFFFFFF#32, true)
  else if x < -2147483648 then (0x80000000#32, true) else (BitVec.ofInt 32 x, false)

/-! ### Integer addition, subtraction and logic (R343) -/

/-- ra + rb + carry in. -/
def aluAdd (a b : Word) (ci : Bool) : Alu :=
  let u := a.toNat + b.toNat + ci.toNat
  let x := a.toInt + b.toInt + (ci.toNat : Int)
  aluOut (BitVec.ofNat 32 u) (decide (2 ^ 32 ≤ u)) (outS32 x) 0

/-- ra − rb − borrow in. -/
def aluSub (a b : Word) (bi : Bool) : Alu :=
  let x := a.toInt - b.toInt - (bi.toNat : Int)
  aluOut (BitVec.ofInt 32 x) (decide (b.toNat + bi.toNat ≤ a.toNat)) (outS32 x) 0

/-- A bitwise result: C and V are 0. -/
def aluLogic (r : Word) : Alu := aluOut r false false 0

/-! ### Shifts (R344) -/

/-- SHL by n. -/
def aluShl (a : Word) (n : Nat) : Alu :=
  if n = 0 then aluOut a false false 0
  else if n < 32 then aluOut (a <<< n) (bit a (32 - n)) false 0
  else aluOut 0 (n = 32 && bit a 0) false 0

/-- SHR by n. -/
def aluShr (a : Word) (n : Nat) : Alu :=
  if n = 0 then aluOut a false false 0
  else if n < 32 then aluOut (a >>> n) (bit a (n - 1)) false 0
  else aluOut 0 (n = 32 && bit a 31) false 0

/-- SAR by n. -/
def aluSar (a : Word) (n : Nat) : Alu :=
  if n = 0 then aluOut a false false 0
  else if n < 32 then aluOut (a.sshiftRight n) (bit a (n - 1)) false 0
  else aluOut (if bit a 31 then BitVec.allOnes 32 else 0) (bit a 31) false 0

/-! ### Negation and leading zeros (R345) -/

/-- NEG. -/
def aluNeg (a : Word) : Alu := aluOut (0 - a) (decide (a = 0)) (decide (a = 0x80000000#32)) 0

/-- NEGS. -/
def aluNegs (a : Word) : Alu :=
  let m := decide (a = 0x80000000#32)
  aluOut (if m then 0x7FFFFFFF#32 else 0 - a) (decide (a = 0)) m (stIf m stQ)

/-- CLZ: N is 0 (the result is at most 32). -/
def aluClz (a : Word) : Alu :=
  aluOut (BitVec.ofNat 32 (if a = 0 then 32 else 31 - a.toNat.log2)) (decide (a = 0)) false 0

/-! ### Multiplication (R346) -/

/-- MUL. -/
def aluMul (a b : Word) : Alu :=
  aluOut (a * b) (decide (2 ^ 32 ≤ a.toNat * b.toNat)) (outS32 (a.toInt * b.toInt)) 0

/-- The flags of a 64-bit product: N and Z over 64 bits. The result field holds the low word. -/
def aluWide (p : DWord) : Alu × Word :=
  (⟨p.extractLsb' 0 32, p.msb, decide (p = 0), false, false, 0⟩, p.extractLsb' 32 32)

/-- MULW and MULWU. -/
def aluMulw (a b : Word) : Alu × Word := aluWide (BitVec.ofInt 64 (a.toInt * b.toInt))
def aluMulwu (a b : Word) : Alu × Word := aluWide (BitVec.ofNat 64 (a.toNat * b.toNat))

/-! ### Division (R347, R348) -/

/-- The one signed pair whose quotient does not fit. -/
def divCorner (a b : Word) : Bool := decide (a = 0x80000000#32) && decide (b = 0xFFFFFFFF#32)

/-- The quotient of a division by zero in the signed forms. -/
def divZero (a : Word) : Word := if bit a 31 then 0x80000000#32 else 0x7FFFFFFF#32

/-- The flags of a division: C and DZ with a zero divisor. -/
def divOut (b r : Word) (v : Bool) (st : Word) : Alu := aluOut r (decide (b = 0)) v (st ||| stIf (decide (b = 0)) stDZ)

/-- DIV. -/
def aluDiv (a b : Word) : Alu :=
  divOut b (if b = 0 then divZero a else BitVec.ofInt 32 (Int.tdiv a.toInt b.toInt)) (divCorner a b) 0

/-- DIVS. -/
def aluDivs (a b : Word) : Alu :=
  let k := divCorner a b
  divOut b (if b = 0 then divZero a else if k then 0x7FFFFFFF#32 else BitVec.ofInt 32 (Int.tdiv a.toInt b.toInt)) k
    (stIf k stQ)

/-- DIVU. -/
def aluDivu (a b : Word) : Alu :=
  divOut b (if b = 0 then BitVec.allOnes 32 else BitVec.ofNat 32 (a.toNat / b.toNat)) false 0

/-- REM. -/
def aluRem (a b : Word) : Alu :=
  divOut b (if b = 0 then a else BitVec.ofInt 32 (Int.tmod a.toInt b.toInt)) false 0

/-- REMU. -/
def aluRemu (a b : Word) : Alu :=
  divOut b (if b = 0 then a else BitVec.ofNat 32 (a.toNat % b.toNat)) false 0

/-! ### Q31 fixed point (R349, R350) -/

/-- ROUND(x, k) by SR.QRM, and whether it was inexact (R349). -/
def qround (qrm : Nat) (x : Int) (k : Nat) : Int × Bool :=
  let t := x / (2 ^ k : Int)
  let f := x - t * 2 ^ k
  let h : Int := 2 ^ (k - 1)
  let up := match qrm with
    | 0 => false
    | 1 => decide (h ≤ f)
    | 2 => decide (h < f) || (decide (f = h) && decide (t % 2 ≠ 0))
    | _ => decide (x < 0) && decide (f ≠ 0)
  (if up then t + 1 else t, decide (f ≠ 0))

/-- A Q31 result (R350): saturated to a word, which sets Q and V. -/
def qOut (x : Int) (c : Bool) : Alu :=
  let (r, s) := satS32 x
  aluOut r c s (stIf s stQ)

/-- QADD, QSUB and QMUL. -/
def aluQadd (a b : Word) : Alu := qOut (a.toInt + b.toInt) false
def aluQsub (a b : Word) : Alu := qOut (a.toInt - b.toInt) false
def aluQmul (qrm : Nat) (a b : Word) : Alu :=
  let (x, c) := qround qrm (a.toInt * b.toInt) 31
  qOut x c

/-! ### Accumulators (R351 to R353) -/

/-- P of R352, and whether p[26:0] is not 0. -/
def macProduct (a b : Word) : Int × Bool :=
  let p := a.toInt * b.toInt
  (p / 2 ^ 27, decide (p % 2 ^ 27 ≠ 0))

/-- The new accumulator with its flags (R352): out of range it saturates, sets Q and makes V = 1. -/
def accOut (x : Int) (c : Bool) : BitVec 40 × Alu :=
  let s := decide (x < -549755813888) || decide (549755813887 < x)
  let a : BitVec 40 :=
    if 549755813887 < x then 0x7FFFFFFFFF#40 else if x < -549755813888 then 0x8000000000#40 else BitVec.ofInt 40 x
  (a, ⟨0, a.msb, decide (a = 0), c, s, stIf s stQ⟩)

/-- MAC, MSU and MULA on accumulator A (R352). -/
def accMac (acc : BitVec 40) (a b : Word) : BitVec 40 × Alu :=
  let (p, c) := macProduct a b
  accOut (acc.toInt + p) c
def accMsu (acc : BitVec 40) (a b : Word) : BitVec 40 × Alu :=
  let (p, c) := macProduct a b
  accOut (acc.toInt - p) c
def accMula (a b : Word) : BitVec 40 × Alu :=
  let (p, c) := macProduct a b
  accOut p c

/-- ACLR (R353). -/
def accClear : BitVec 40 × Alu := (0, ⟨0, false, true, false, false, 0⟩)

/-- EXT (R353): the accumulator is unchanged. -/
def accExt (qrm : Nat) (acc : BitVec 40) : Alu :=
  let (x, c) := qround qrm acc.toInt 4
  qOut x c

end Sys2Proof.Machine
end

