-- ==== Sys2Proof/Machine/Fp.lean ====
section
/-!
DEFINITION. binary32 arithmetic of the channel processors (R354 to R364): each operation is computed exactly and
rounded once to the mode FRM (0 to nearest even, 1 toward zero, 2 down, 3 up, 4 to nearest away).
-/
namespace Sys2Proof.Machine

open Sys2Proof

/-- A binary32 operand: NaN (signalling or quiet), infinity, or the exact value ± m × 2^e. -/
inductive Bin32 where
  | nan (signalling : Bool)
  | inf (neg : Bool)
  | fin (neg : Bool) (m : Nat) (e : Int)
  deriving DecidableEq, Repr

/-- Read a word (R355). -/
def fpUnpack (w : Word) : Bin32 :=
  let s := w.msb
  let x := bits w 30 23
  let f := bits w 22 0
  if x = 255 then (if f = 0 then .inf s else .nan (!(bit w 22)))
  else if x = 0 then .fin s f (-149) else .fin s (f + 8388608) ((x : Int) - 150)

/-- The only NaN that is written (R355). -/
def fpNan : Word := 0x7FC00000

/-- Zero and infinity with a sign. -/
def fpZero (s : Bool) : Word := if s then 0x80000000#32 else 0
def fpInf (s : Bool) : Word := if s then 0xFF800000#32 else 0x7F800000#32

/-- A result with its sticky flags: C reports FNX, V FNV, and Z means ±0 (R363). -/
def fpOut (r st : Word) : Alu :=
  ⟨r, r.msb, decide (r &&& 0x7FFFFFFF#32 = 0), decide (st &&& stFNX ≠ 0), decide (st &&& stFNV ≠ 0), st⟩

/-- An invalid operation gives the NaN (R355, R356). -/
def fpInvalid : Alu := fpOut fpNan stFNV

/-- A NaN result from NaN operands: FNV when one of them signals (R355). -/
def fpNanOut (signals : Bool) : Alu := fpOut fpNan (stIf signals stFNV)

/-- Is the magnitude m / 2^k, cut to an integer, rounded up (R354)? -/
def fpRoundsUp (frm : Nat) (s : Bool) (m k : Nat) : Bool :=
  let f := m % 2 ^ k
  let h2 := 2 ^ k
  match frm with
  | 0 => decide (h2 < 2 * f) || (decide (h2 = 2 * f) && decide (m / 2 ^ k % 2 = 1))
  | 1 => false
  | 2 => s && decide (f ≠ 0)
  | 3 => !s && decide (f ≠ 0)
  | _ => decide (h2 ≤ 2 * f) && decide (f ≠ 0)

/-- The magnitude m × 2^e as a multiple of 2^q, rounded; and whether that was inexact. -/
def fpRoundAt (frm : Nat) (s : Bool) (m : Nat) (e q : Int) : Nat × Bool :=
  if q ≤ e then (m * 2 ^ (e - q).toNat, false)
  else
    let k := (q - e).toNat
    (m / 2 ^ k + (fpRoundsUp frm s m k).toNat, decide (m % 2 ^ k ≠ 0))

/-- What overflow delivers (R357). -/
def fpOverflow (frm : Nat) (s : Bool) : Word :=
  match frm with
  | 1 => if s then 0xFF7FFFFF#32 else 0x7F7FFFFF#32
  | 2 => if s then 0xFF800000#32 else 0x7F7FFFFF#32
  | 3 => if s then 0xFF7FFFFF#32 else 0x7F800000#32
  | _ => fpInf s

/-- Deliver the value ± m × 2^e, m not 0, rounded once (R354, R356 to R358). The last place is that of 24 significant
bits, and not below 2^-149. Tiny is judged after rounding to 24 bits with an unbounded exponent. -/
def fpDeliver (frm : Nat) (s : Bool) (m : Nat) (e : Int) : Alu :=
  let top : Int := (m.log2 : Int) + e
  let q : Int := max (top - 23) (-149)
  let (r, nx) := fpRoundAt frm s m e q
  let (u, _) := fpRoundAt frm s m e (top - 23)
  let tiny := decide (top < -127) || (decide (top = -127) && decide (u < 16777216))
  let w := (q + 149).toNat * 8388608 + r
  if 0x7F800000 ≤ w then fpOut (fpOverflow frm s) (stFOF ||| stFNX)
  else fpOut (BitVec.ofNat 32 (w + (if s then 2147483648 else 0))) (stIf nx stFNX ||| stIf (tiny && nx) stFUF)

/-- Deliver a signed exact value x × 2^e; an exact zero takes the sign given. -/
def fpExact (frm : Nat) (zeroNeg : Bool) (x e : Int) : Alu :=
  if x = 0 then fpOut (fpZero zeroNeg) 0 else fpDeliver frm (decide (x < 0)) x.natAbs e

/-- ± m as an integer. -/
def fpInt (s : Bool) (m : Nat) : Int := if s then -(m : Int) else (m : Int)

/-- The exact sum of two finite values, rounded (R358). -/
def fpSum (frm : Nat) (s1 : Bool) (m1 : Nat) (e1 : Int) (s2 : Bool) (m2 : Nat) (e2 : Int) : Alu :=
  let e := min e1 e2
  let x := fpInt s1 m1 * 2 ^ (e1 - e).toNat + fpInt s2 m2 * 2 ^ (e2 - e).toNat
  fpExact frm (if s1 = s2 then s1 else frm = 2) x e

/-- Is it a NaN, and does it signal? -/
def Bin32.isNan : Bin32 → Bool
  | .nan _ => true
  | _ => false
def Bin32.signals : Bin32 → Bool
  | .nan b => b
  | _ => false

/-- FADD on operands. -/
def fpAdd2 (frm : Nat) (a b : Bin32) : Alu :=
  match a, b with
  | .inf s, .inf t => if s = t then fpOut (fpInf s) 0 else fpInvalid
  | .inf s, .fin _ _ _ => fpOut (fpInf s) 0
  | .fin _ _ _, .inf t => fpOut (fpInf t) 0
  | .fin s m e, .fin t n g => fpSum frm s m e t n g
  | x, y => fpNanOut (x.signals || y.signals)

/-- The operand with its sign inverted. -/
def Bin32.neg : Bin32 → Bin32
  | .nan b => .nan b
  | .inf s => .inf (!s)
  | .fin s m e => .fin (!s) m e

/-- FADD and FSUB. -/
def aluFadd (frm : Nat) (a b : Word) : Alu := fpAdd2 frm (fpUnpack a) (fpUnpack b)
def aluFsub (frm : Nat) (a b : Word) : Alu := fpAdd2 frm (fpUnpack a) (fpUnpack b).neg

/-- FMUL on operands. -/
def fpMul2 (frm : Nat) (a b : Bin32) : Alu :=
  match a, b with
  | .inf s, .inf t => fpOut (fpInf (s != t)) 0
  | .inf s, .fin t n _ => if n = 0 then fpInvalid else fpOut (fpInf (s != t)) 0
  | .fin s m _, .inf t => if m = 0 then fpInvalid else fpOut (fpInf (s != t)) 0
  | .fin s m e, .fin t n g => fpExact frm (s != t) (fpInt (s != t) (m * n)) (e + g)
  | x, y => fpNanOut (x.signals || y.signals)

/-- FMUL. -/
def aluFmul (frm : Nat) (a b : Word) : Alu := fpMul2 frm (fpUnpack a) (fpUnpack b)

/-- The quotient of two finite values, the divisor not 0: 60 more bits and a sticky bit (R354). -/
def fpQuot (frm : Nat) (s : Bool) (m : Nat) (e : Int) (n : Nat) (g : Int) : Alu :=
  if m = 0 then fpOut (fpZero s) 0
  else
    let x := m * 2 ^ 60
    fpDeliver frm s (2 * (x / n) + (decide (x % n ≠ 0)).toNat) (e - g - 61)

/-- FDIV on operands. -/
def fpDiv2 (frm : Nat) (a b : Bin32) : Alu :=
  match a, b with
  | .inf _, .inf _ => fpInvalid
  | .inf s, .fin t _ _ => fpOut (fpInf (s != t)) 0
  | .fin s _ _, .inf t => fpOut (fpZero (s != t)) 0
  | .fin s m e, .fin t n g =>
      if n = 0 then (if m = 0 then fpInvalid else fpOut (fpInf (s != t)) stFDZ)
      else fpQuot frm (s != t) m e n g
  | x, y => fpNanOut (x.signals || y.signals)

/-- FDIV. -/
def aluFdiv (frm : Nat) (a b : Word) : Alu := fpDiv2 frm (fpUnpack a) (fpUnpack b)

/-- The integer square root, bit by bit from bit `k - 1` down. -/
def isqrt (n : Nat) : Nat → Nat → Nat
  | 0, r => r
  | k + 1, r => isqrt n k (if (r + 2 ^ k) * (r + 2 ^ k) ≤ n then r + 2 ^ k else r)

/-- FSQRT. -/
def aluFsqrt (frm : Nat) (a : Word) : Alu :=
  match fpUnpack a with
  | .nan b => fpNanOut b
  | .inf s => if s then fpInvalid else fpOut (fpInf false) 0
  | .fin s m e =>
      if m = 0 then fpOut (fpZero s) 0
      else if s then fpInvalid
      else
        let odd := decide (e % 2 ≠ 0)
        let x := (if odd then 2 * m else m) * 2 ^ 60
        let g : Int := (if odd then e - 1 else e) - 60
        let r := isqrt x 48 0
        fpDeliver frm false (2 * r + (decide (r * r ≠ x)).toNat) (g / 2 - 1)

/-- FMADD: ra × rb + rd, rounded once (R354, R356, R358). -/
def aluFmadd (frm : Nat) (d a b : Word) : Alu :=
  let x := fpUnpack a
  let y := fpUnpack b
  let z := fpUnpack d
  let sig := x.signals || y.signals || z.signals
  match x, y with
  | .inf s, .inf t => if z.isNan then fpNanOut sig else fpAdd2 frm (.inf (s != t)) z
  | .inf s, .fin t n _ => if n = 0 then fpInvalid else if z.isNan then fpNanOut sig else fpAdd2 frm (.inf (s != t)) z
  | .fin s m _, .inf t => if m = 0 then fpInvalid else if z.isNan then fpNanOut sig else fpAdd2 frm (.inf (s != t)) z
  | .fin s m e, .fin t n g => fpAdd2 frm (.fin (s != t) (m * n) (e + g)) z
  | _, _ => fpNanOut sig

/-- A key that orders the values that are no NaN, −0 below +0 (R359). -/
def fpKey (w : Word) : Int := if w.msb then -((bits w 30 0 : Nat) : Int) - 1 else (bits w 30 0 : Nat)

/-- FMIN and FMAX (R359). -/
def aluFminmax (wantMax : Bool) (a b : Word) : Alu :=
  let x := fpUnpack a
  let y := fpUnpack b
  let st := stIf (x.signals || y.signals) stFNV
  let r := if x.isNan && y.isNan then fpNan else if x.isNan then b else if y.isNan then a
    else if wantMax then (if fpKey a < fpKey b then b else a) else (if fpKey b < fpKey a then b else a)
  fpOut r st

/-- A value that orders numbers, −0 equal to +0 (R360). -/
def fpVal (w : Word) : Int := if w.msb then -((bits w 30 0 : Nat) : Int) else (bits w 30 0 : Nat)

/-- FCMP (R360). -/
def aluFcmp (a b : Word) : Alu :=
  let x := fpUnpack a
  let y := fpUnpack b
  if x.isNan || y.isNan then ⟨0, false, false, true, true, stIf (x.signals || y.signals) stFNV⟩
  else if fpVal a < fpVal b then ⟨0, true, false, false, false, 0⟩
  else if fpVal a = fpVal b then ⟨0, false, true, true, false, 0⟩
  else ⟨0, false, false, true, false, 0⟩

/-- FCVTSW and FCVTSWU of an exact integer (R361). -/
def aluFcvtFrom (frm : Nat) (x : Int) : Alu := fpExact frm false x 0

/-- FCVTWS and FCVTWUS (R361): `lo` and `hi` bound the integers; a value that rounds outside gives the bound with FNV,
a NaN gives 0 with FNV. -/
def aluFcvtTo (frm : Nat) (lo hi : Int) (a : Word) : Alu :=
  let out := fun (x : Int) (st : Word) =>
    let r := BitVec.ofInt 32 x
    (⟨r, r.msb, decide (r = 0), decide (st &&& stFNX ≠ 0), decide (st &&& stFNV ≠ 0), st⟩ : Alu)
  match fpUnpack a with
  | .nan _ => out 0 stFNV
  | .inf s => out (if s then lo else hi) stFNV
  | .fin s m e =>
      let (r, nx) := fpRoundAt frm s m e 0
      let x := fpInt s r
      if x < lo then out lo stFNV else if hi < x then out hi stFNV else out x (stIf nx stFNX)

/-- FCVTWS and FCVTWUS. -/
def aluFcvtws (frm : Nat) (a : Word) : Alu := aluFcvtTo frm (-2147483648) 2147483647 a
def aluFcvtwus (frm : Nat) (a : Word) : Alu := aluFcvtTo frm 0 4294967295 a

/-- FABS and FNEG (R355): a NaN gives the NaN; else only bit 31 changes. -/
def fpAbs (a : Word) : Word := if (fpUnpack a).isNan then fpNan else a &&& 0x7FFFFFFF#32
def fpNeg (a : Word) : Word := if (fpUnpack a).isNan then fpNan else a ^^^ 0x80000000#32

/-- FCLASS (R362). -/
def fpClass (a : Word) : Word :=
  match fpUnpack a with
  | .nan b => if b then 1 else 2
  | .inf s => if s then 4 else 0x200
  | .fin s m _ =>
      if m = 0 then (if s then 0x20 else 0x40)
      else if m < 8388608 then (if s then 0x10 else 0x80) else (if s then 8 else 0x100)

end Sys2Proof.Machine
end

