-- ==== Sys2Proof/Machine/Programs.lean ====
section
/-!
DEFINITION. The rows of channel programs: fetched CCWs, the commands of the engine and the vendor handlers, and the
events of their downstream operations (R37 to R87, R116 to R129).
-/
namespace Sys2Proof.Machine

open Sys2Proof

/-! ### Fetched CCWs (R38, R68, R71, R81, R82) -/

/-- The program as it goes on, with the intermediate entries that wait. -/
def withMarks (n : Nat) (p : Prog) (d : Dev) : Prog := { p with marks := ((progOf d n).map (·.marks)).getD p.marks }

/-- The CCWs behind the first of a data chain that begin execution in a transfer of `len` bytes that may fail at a CCW (R75, R76): those
with bytes of it, up to the one that fails. -/
def chainBegun (len : Nat) (stop : Option Ended) : Nat → List (DWord × QWord) → List (DWord × QWord)
  | _, [] => []
  | off, (a, w) :: t =>
      if len ≤ off then []
      else if stop.map (·.last) = some a then [(a, w)]
      else (a, w) :: chainBegun len stop (off + ccwCount w) t

/-- The later CCWs of the command's data chain begin as the row moves its data: their intermediate entries are due (R76). Answers the
program with those that wait. -/
def chainMarks (n : Nat) (p : Prog) (len : Nat) (stop : Option Ended) (d : Dev) : Prog × Dev :=
  match p.chain with
  | (_, w) :: t =>
      let d := markPut n (chainBegun len stop (ccwCount w) t) d
      (withMarks n p d, d)
  | [] => (p, d)

/-- The command in hand is complete and begins: it shows neither channel end nor device end yet (R90), and the mark of its first CCW is
posted (R76). It is rejected when its handler does not implement it (R46; log entry 83), ended at once with COUNT 0 (R74), given to
its owner pack (R333), or left to its row. -/
def dispatchCmd (n : Nat) (h : Handler) (p : Prog) (d : Dev) : Dev :=
  let p := { p with stage := .ready }
  match p.chain with
  | [] => progSet n p d
  | (a0, w0) :: t =>
      let code := ccwCode w0
      if code = 0x08 then progSet n p d
      else
        let x := subGet d n
        let d := subSet n { x with scPri := false, scSec := false } d
        let d := markPut n [(a0, w0)] (progSet n p d)
        let p := withMarks n p d
        let s := subGet d n
        if !(engineCode code) && !(implements h code) then
          endNow n s h p (endUc a0 (ccwCount w0) 1 code p.pos.toNat) none d
        else if t.isEmpty && !(ccwCD w0) && decide (ccwCount w0 = 0) && endsEmpty h code then
          endNow n s h p (endC 0 a0 0) none d
        else match h with
          | .owner pk => if engineCode code then progSet n p d else startPack n p pk d
          | _ => progSet n p d

/-- The group that is open ends when all its members have (R77). -/
def closeGroup (n : Nat) (d : Dev) : Dev :=
  match progOf d n with
  | none => d
  | some p => if p.grp.isEmpty || p.grp.any (fun r => r.ended.isNone) then d else groupCheck n p d

/-- The program ends at a CCW whose check or fetch failed, once an open group has ended. A CCW of a data chain behind
the first ends it after the command has run on the CCWs before it (log entry 15). -/
def ccwFails (n : Nat) (p : Prog) (e : Ended) (d : Dev) : Dev :=
  if p.chain.isEmpty then
    (if p.grp.isEmpty then postFinal n p e none d else closeGroup n (progSet n { p with stage := .ready, stopAt := some e } d))
  else match handlerOf d (subGet d n) with
    | some h => dispatchCmd n h { p with stopAt := some e } d
    | none => postFinal n p e none d

/-- A CCW that passed its checks: the data chain goes on, or its command is in hand (R40, R68). -/
def ccwTaken (n : Nat) (h : Handler) (p : Prog) (addr : DWord) (w : QWord) (d : Dev) : Dev :=
  let p := { p with chain := p.chain ++ [(addr, w)] }
  let d := checkpoint n addr (BitVec.ofNat 32 (ccwCount w)) d
  if ccwCD w then fetchCcw n p (addr + 16) .byData false d else dispatchCmd n h p d

/-- A CCW becomes current and is checked (R81); a TIC whose target is a TIC is a chaining check that names the first of them. -/
def ccwCurrent (n : Nat) (p : Prog) (addr : DWord) (how : Reach) (tic : Bool) (w : QWord) (d : Dev) : Dev :=
  match handlerOf d (subGet d n) with
  | none => ccwFails n p (endUc addr (ccwCount w) 8 4 p.pos.toNat) d
  | some h =>
      if ccwCode w = 0x08 then
        if tic then ccwFails n p (endC csChn p.ticAt.1 p.ticAt.2) d
        else progSet n { p with chain := p.chain ++ [(addr, w)], stage := .ready, how := how } d
      else
        let byData := how = .byData
        let code := if byData then ccwCode (p.chain.headD (0, w)).2 else ccwCode w
        match ccwCheck d n h p code byData w with
        | some c => ccwFails n p (endC c addr (ccwCount w)) d
        | none => ccwTaken n h { p with how := how } addr w d

/-- The 16 bytes of a CCW have arrived (R38). It becomes current at once when no unordered group is open or it joins the one
that is; else it waits for the group to end (R77). A TIC acts while the group is open, and its target may join the same group: whether a
TIC ends a group is open (log entry 101). -/
def ccwArrived (n : Nat) (p : Prog) (addr : DWord) (how : Reach) (tic : Bool) (w : QWord) (d : Dev) : Dev :=
  let joins := match handlerOf d (subGet d n) with
    | some h => ccwCode w = 8 || (groupMember (subGet d n) h { p with how := how, chain := [(addr, w)] } && decide (p.grp.length < 32))
    | none => false
  if p.grp.isEmpty || joins then ccwCurrent n p addr how tic w d
  else closeGroup n (progSet n { p with stage := .waitGroup addr how tic w, how := how } d)

/-- The re-fetch of a suspending CCW (R82, R83): only S and CC of the copy are used. -/
def refetched (n : Nat) (p : Prog) (addr : DWord) (w : QWord) (d : Dev) : Dev :=
  if ccwS w then postSuspend n p addr d
  else if ccwCC w then fetchCcw n p (addr + 16) .byCmd false d
  else postFinal n p p.lastEnd none d

/-- The CCW that the program waits for has been read; a fetch that fails is CCC (R81), with residual 0 (log entry 82). -/
def ccwRead1 (n : Nat) (p : Prog) (a : DWord) (how : Reach) (tic : Bool) (res : HostRead) (d : Dev) : Dev :=
  match res with
  | .err _ => ccwFails n p (endC csCcc a 0) d
  | .ok b => ccwArrived n p a how tic (ccwOfRead a b) d

/-- CCW_FETCH_COMPLETE (R38, R40): the CCW the program waits for, the one it suspends at, or the one being fetched ahead. -/
def ccwFetched (n : Nat) (res : HostRead) (d : Dev) : Dev :=
  match progOf d n with
  | none => d
  | some p =>
      match p.stage, p.pref, p.prefAt with
      | .refetch a, _, _ => (match res with
          | .err _ => postFinal n p (endC csCcc a 0) none d
          | .ok b => refetched n p a (ccwOfRead a b) d)
      | .fetch a how tic, [], _ =>
          if waits156 d n then progSet n { p with pref := [(a, res)], prefAt := none } d
          else ccwRead1 n { p with prefAt := none } a how tic res d
      | _, _, some a => progSet n { p with pref := p.pref ++ [(a, res)], prefAt := none } d
      | _, _, none => d

/-- The bytes of operations that have ended go on: the engine takes CCWs fetched ahead, and the one that waited for a group
(R77); it ends a program whose failure waited for a group; and it fetches ahead (R40). -/
def ccwGo (n : Nat) : Nat → Dev → Dev
  | 0, d => d
  | k + 1, d =>
      match progOf d n with
      | none => d
      | some p =>
          let d := markGo n true p.marks.length d
          let p := withMarks n p d
          if (subGet d n).st ≠ .active ∨ waits156 d n = true then d
          else match p.stage with
            | .fetch a how tic => (match p.pref with
                | (_, res) :: t => ccwGo n k (ccwRead1 n { p with pref := t } a how tic res d)
                | [] => d)
            | .waitGroup a how tic w => if p.grp.isEmpty then ccwGo n k (ccwCurrent n p a how tic w d) else d
            | .ready => (match p.chain, p.stopAt with
                | [], some e => if p.grp.isEmpty then postFinal n p e none d else d
                | _, _ => d)
            | _ => prefetch n d

/-- Every program goes on as far as it can without a further event. -/
def ccwSweep (d : Dev) : Dev := (d.progs.map (·.1)).foldl (fun d n => ccwGo n 8 d) d

/-- A meaning of the engine or a handler: programs go on behind it, then entries of HALT and CLEAR and held attention follow. -/
def liveC (f : Dev → Dev) (d : Dev) : Dev := liveA (fun d => ccwSweep (f d)) d

/-- CCW_FETCH_COMPLETE (R38). -/
def execCcwFetchComplete (sub : Nat) (res : HostRead) (s : State) : Host.Outcome State Fault Refusal :=
  run s (liveC (ccwFetched sub res))

/-- TIC (R71): reserved fields and ASEL are checked; as the first CCW, or with a target that is not 16-byte aligned, it
is a program check; else the target is fetched, reached as the TIC was. -/
def ticRow (n : Nat) (p : Prog) (d : Dev) : Dev :=
  let (a, w) := p.chain.getLastD (0, 0)
  let q := { p with chain := p.chain.dropLast }
  if bits w 27 24 ≠ 0 ∨ bits w 23 18 ≠ 0 ∨ ccwAsel w ≠ 0 ∨ p.how = .first ∨ bits (ccwAddr w) 3 0 ≠ 0 then
    ccwFails n q (endC csPgm a (ccwCount w)) d
  else
    let q := { q with lastEnd := if q.chain.isEmpty then { p.lastEnd with last := a, resid := BitVec.ofNat 32 (ccwCount w) }
                                 else p.lastEnd }
    fetchCcw n { q with ticAt := (a, ccwCount w) } (ccwAddr w) p.how true d

/-- TIC (R71). -/
def execTic (sub : Nat) (s : State) : Host.Outcome State Fault Refusal :=
  run s (liveC (fun d =>
    match progOf d sub with
    | none => d
    | some p =>
        if (subGet d sub).st = .active ∧ p.stage = .ready ∧ ccwCode (p.chain.getLastD (0, 0)).2 = 8
          ∧ (p.chain.length = 1 ∨ p.how = .byData) then ticRow sub p d else d))

/-! ### Engine commands (R61 to R66) -/

/-- NOP (R61): no access. It transfers nothing, so its residual is its COUNT (R70). -/
def execNop (sub : Nat) (s : State) : Host.Outcome State Fault Refusal :=
  run s (liveC (withCommand sub [0x03] (fun x h p d =>
    let (a, w) := p.chain.headD (0, 0)
    endNow sub x h p (endC 0 a (ccwCount w)) none d)))

/-- The ports that carried data for the program's entries (R21), and the port of its latest stream that wrote host memory (R272). -/
def wrotePort (p : Prog) (port : Option Nat) : Prog :=
  match port with
  | none => p
  | some q => { p with ports := (p.ports ++ [q]).eraseDups, lastPort := some q }

/-- Write bytes to a command's segments and end it: CDC where a host write failed (R81), with IL where it applies (R120). -/
def deliver (n : Nat) (p : Prog) (r : Run) (bytes : List Byte) (wr : WriteRes) (d : Dev) : Prog × Ended × Dev :=
  let moved := min r.total bytes.length
  let segs := segCut moved r.segs
  let (miss, d) := scatter (r.port.getD 0) (ownerOf (subGet d n)) wr segs (bytes.take moved) 0 d
  let p := if segs.any (fun g => g.space = 0) then wrotePort p r.port else p
  match miss with
  | some off =>
      let (a, res) := stopAt r.ccws off
      (p, if r.fails.isEmpty then endC (csCdc ||| ilOf r) a res
          else { runEnd r with c := (runEnd r).c ||| csCdc, last := a, resid := BitVec.ofNat 32 res }, d)
  | none => (p, runEnd r, d)

/-- SENSE (R62): the 32 bytes of sense data are transferred, and it is cleared (log entry 82: also when the transfer failed).
With COUNT 0 nothing is transferred, and the lengths differ (R73). -/
def senseRow (n : Nat) (io : CmdIo) (wr : WriteRes) (_x : Sub) (_h : Handler) (p : Prog) (d : Dev) : Dev :=
  let x := subGet d n
  let f := ownerOf x
  let (a, w) := p.chain.headD (0, 0)
  if p.chain.length = 1 ∧ ccwCount w = 0 then
    commandEnd n p p.chain (endC csIl a 0) none (subSet n { x with sense := Sense.none } d)
  else
    let (segs, stop) := buildSegs d f p.chain io.ida
    let total := match stop with | some _ => segLen segs | none => chainCount p.chain
    let r := { newRun p segs total 32 p.pos (stop.orElse (fun _ => p.stopAt)) with port := streamPort d n segs }
    let ida := idaReads d f p.chain io.ida
    hostGo f (ida ++ writeTouch (segCut (min total 32) segs) wr) (portGo n p r.port (fun d =>
      let (p, d) := chainMarks n p 32 stop d
      let (_, d) := takeStream n segs (emitIda n ida d)
      let (p, e, d) := deliver n p r (leBytes 32 (senseWord x.sense)) wr d
      commandEnd n p r.ccws e none (subSet n { subGet d n with sense := Sense.none } d))) d

/-- SENSE (R62). -/
def execSense (sub : Nat) (io : CmdIo) (wr : WriteRes) (s : State) : Host.Outcome State Fault Refusal :=
  run s (liveC (withCommand sub [0x04] (senseRow sub io wr)))

/-- Read bytes at an address in host memory (the answer) or scratch. -/
def readBlock (d : Dev) (f : FnId) (asel n : Nat) (addr : DWord) (blk : HostRead) : Option (List Byte) :=
  if asel = 1 then some (areaRead d (areaOf f) addr.toNat n)
  else match blk with
    | .ok b => some (fitBytes n b)
    | .err _ => none

/-- The success of a read, as the access list of a row tells it. -/
def readOk : HostRead → Bool
  | .ok _ => true
  | .err _ => false

/-- The bytes of the next burst of a COPY: to the next 4 KiB boundary of its destination (log entry 84). -/
def copyBurst (dst : Seg) (len done : Nat) : Nat := min (len - done) (4096 - (dst.addr.toNat + done) % 4096)

/-- A COPY that runs is at a burst boundary: it writes its next burst, and ends with the last one or the first that fails (R63, R81). -/
def copyStep (n : Nat) (wr : WriteRes) (x : Sub) (h : Handler) (p : Prog) (dst : Seg) (data : List Byte)
    (done port : Nat) (d : Dev) : Dev :=
  let (a, w) := p.chain.headD (0, 0)
  let f := ownerOf x
  let k := copyBurst dst data.length done
  let g : Seg := { dst with addr := dst.addr + BitVec.ofNat 64 done, len := k }
  let out := if dst.space = 0 then some port else none
  hostGo f (writeTouch [g] wr) (portGo n p out (fun d =>
    let (miss, d) := scatter port f wr [g] ((data.drop done).take k) 0 d
    let p := wrotePort p out
    match miss with
    | some off => endNow n x h p (endC csCdc a (ccwCount w - (done + off))) none d
    | none =>
        if data.length ≤ done + k then endNow n x h p (endC 0 a 0) none d
        else progSet n { p with stage := .copying dst data (done + k) port } d)) d

/-- COPY (R63): the descriptor is read and checked, the source is read into a separate buffer, and bursts write it to the destination,
one for each COPY event (log entry 84). Between two of them HALT and CLEAR stop it (R103). -/
def copyRow (n : Nat) (desc data : HostRead) (wr : WriteRes) (x : Sub) (h : Handler) (p : Prog) (d : Dev) : Dev :=
  let (a, w) := p.chain.headD (0, 0)
  let f := ownerOf x
  let c := ccwCount w
  let fail := fun (st : Byte) (d : Dev) => endNow n x h p (endC st a c) none d
  let atDesc := if ccwAsel w = 0 then [(ccwAddr w, 32, readOk desc)] else []
  let ask := fun (d : Dev) => if ccwAsel w = 0 then hostOut (.sub n) f (.read (ccwAddr w) 32) d else d
  scratchGo n [⟨ccwAsel w, ccwAddr w, 32⟩] (fun d =>
  match readBlock d f (ccwAsel w) 32 (ccwAddr w) desc with
  | none => hostGo f atDesc (fun d => fail csCcc (ask d)) d
  | some b =>
      let e : BitVec 256 := BitVec.ofNat 256 (leNat b)
      if bits e 255 194 ≠ 0 ∨ bits e 191 130 ≠ 0 ∨ 2 ≤ bits e 193 192 ∨ 2 ≤ bits e 129 128 then
        hostGo f atDesc (fun d => fail csPgm (ask d)) d
      else
        let gs : Seg := ⟨bits e 129 128, BitVec.ofNat 64 (bits e 63 0), c⟩
        let gd : Seg := ⟨bits e 193 192, BitVec.ofNat 64 (bits e 127 64), c⟩
        if !(segFits d f gs) || !(segFits d f gd) then hostGo f atDesc (fun d => fail csProt (ask d)) d
        else
          scratchGo n [gs] (whenRoom n p 0 c 1 (rowEnds d n [gs, gd] []) (hostGo f (atDesc ++ gatherTouch [gs] [data]
              ++ (if readOk data then writeTouch [{ gd with len := copyBurst gd c 0 }] wr else [])) (fun d =>
            let d := emitReads n [gs] (ask d)
            match readBlock d f gs.space c gs.addr data with
            | none => fail csCdc d
            | some v =>
                let (port, d) := takeStream n [gd] d
                let q := { p with stage := .copying gd v 0 (port.getD 0) }
                copyStep n wr x h q gd v 0 (port.getD 0) (progSet n q d)))) d) d

/-- COPY (R63). -/
def execCopy (sub : Nat) (desc data : HostRead) (wr : WriteRes) (s : State) : Host.Outcome State Fault Refusal :=
  run s (liveC (fun d =>
    let x := subGet d sub
    match progOf d sub, handlerOf d x with
    | some p, some h => (match p.stage with
        | .copying dst v done port => if x.st = .active ∧ waits156 d sub = false then copyStep sub wr x h p dst v done port d else d
        | _ => withCommand sub [0x09] (copyRow sub desc data wr) d)
    | _, _ => d))

/-! ### Event counters (R64, R65) -/

/-- The value of event counter c of a function. -/
def evtValue (d : Dev) (f : FnId) (c : Nat) : Nat := tget (fnGet d f).events c 0

/-- Set event counter c of a function. -/
def evtSet (f : FnId) (c v : Nat) (d : Dev) : Dev :=
  let x := fnGet d f
  fnSet f { x with events := tset x.events c v 0 } d

/-- The first subchannel of a function that waits on counter c. -/
def evtWaiter (d : Dev) (f : FnId) (c : Nat) : Option Nat :=
  d.evtWait.find? (fun n =>
    decide (ownerOf (subGet d n) = f) && (match stageOf d n with
      | some (.waitEvent k _) => decide (k = c)
      | _ => false))

/-- A waiting WAIT-EVENT ends (R65). -/
def endWait (n : Nat) (dv : Byte) (d : Dev) : Dev :=
  match progOf d n with
  | none => d
  | some p =>
      let (a, w) := p.chain.headD (0, 0)
      commandEnd n p p.chain ⟨0, dv, a, BitVec.ofNat 32 (ccwCount w), false, none⟩ none
        { d with evtWait := d.evtWait.filter (· ≠ n) }

/-- One count is added to an event counter (R64): it releases the WAIT-EVENT that has waited longest, or stays. -/
def signalEvent (f : FnId) (c : Nat) (d : Dev) : Dev :=
  match evtWaiter d f c with
  | some n => endWait n dsEnd d
  | none => evtSet f c (min 65535 (evtValue d f c + 1)) d

/-- SIGNAL-EVENT (R64). -/
def execSignalEvent (sub : Nat) (s : State) : Host.Outcome State Fault Refusal :=
  run s (liveC (withCommand sub [0x0C] (fun x h p d =>
    let (a, w) := p.chain.headD (0, 0)
    endNow sub x h p (endC 0 a 0) none (signalEvent (ownerOf x) (bits (ccwAddr w) 7 0) d))))

/-- WAIT-EVENT (R65): consumes a count, tests without waiting, or waits COUNT microseconds of DEVTIME. -/
def waitEventRow (n : Nat) (x : Sub) (h : Handler) (p : Prog) (d : Dev) : Dev :=
  let (a, w) := p.chain.headD (0, 0)
  let c := bits (ccwAddr w) 7 0
  let v := evtValue d (ownerOf x) c
  if 0 < v then endNow n x h p (endC 0 a (ccwCount w)) none (evtSet (ownerOf x) c (v - 1) d)
  else if ccwCount w = 0 then endNow n x h p ⟨0, dsEnd ||| dsUx, a, 0, false, none⟩ none d
  else
    progSet n { p with stage := .waitEvent c (some (d.devtime + BitVec.ofNat 64 (ccwCount w * 1000))) }
      { d with evtWait := d.evtWait ++ [n] }

/-- WAIT-EVENT (R65). -/
def execWaitEvent (sub : Nat) (s : State) : Host.Outcome State Fault Refusal :=
  run s (liveC (withCommand sub [0x0B] (waitEventRow sub)))

/-- WAIT_EVENT_TIMEOUT (R65): COUNT microseconds pass without a count: CE, DE and UX. -/
def execWaitEventTimeout (sub : Nat) (s : State) : Host.Outcome State Fault Refusal :=
  run s (liveC (fun d =>
    match stageOf d sub with
    | some (.waitEvent _ (some t)) => endWait sub (dsEnd ||| dsUx) (advanceTo t d)
    | _ => d))

/-! ### CONTROL (R52, R53, R55, R59) -/

/-- The lowest byte offset of a field at fault in a parameter block: TYPE, LEN, then the handler's own list. -/
def blockFault (b : List Byte) (type len : Nat) (more : List (Bool × Nat)) : Option Nat :=
  if leNat (b.take 1) ≠ type then some 0
  else if leNat ((b.drop 1).take 1) ≠ len then some 1
  else (more.find? (·.1)).map (·.2)

/-- CONTROL (R52, R53, R55, R59): the block is read and checked; a failing check applies nothing. While no namespace is current
SET_LBA allows LBA 0 alone (log entry 82). -/
def controlRow (n : Nat) (blk : HostRead) (ns : NsInfo) (x : Sub) (h : Handler) (p : Prog) (d : Dev) : Dev :=
  let (a, w) := p.chain.headD (0, 0)
  let c := ccwCount w
  let len := match h with | .peer => 0x10 | _ => 0x20
  let uc := fun (code qual : Nat) (d : Dev) => endNow n x h p (endUc a c code qual p.pos.toNat) none d
  if c < len then uc 2 0xFFFFFFFF d
  else
    scratchGo n [⟨ccwAsel w, ccwAddr w, len⟩] (hostGo (ownerOf x) (if ccwAsel w = 0 then [(ccwAddr w, len, readOk blk)] else []) (fun d =>
    let d := if ccwAsel w = 0 then hostOut (.sub n) (ownerOf x) (.read (ccwAddr w) len) d else d
    match readBlock d (ownerOf x) (ccwAsel w) len (ccwAddr w) blk with
    | none => endNow n x h p (endC csCcc a c) none d
    | some b =>
        let v : BitVec 256 := BitVec.ofNat 256 (leNat b)
        let good := fun (x' : Sub) (pos : DWord) (d : Dev) =>
          endNow n (subGet d n) h p (endC (if c = len then 0 else csIl) a (c - len)) (some pos) (subSet n x' d)
        match h with
        | .nvme =>
            match blockFault b 1 0x20 [(decide (bits v 31 19 ≠ 0), 2), (decide (bits v 255 128 ≠ 0), 16)] with
            | some q => uc 2 q d
            | none =>
                let setNs := bit v 16
                let setLba := bit v 17
                let nsid := if setNs then bits v 63 32 else x.hpriv.nsid
                let lba := bits v 127 64
                let blocks := if setNs then (if nsid = 0 then 0 else ns.blocks) else x.hpriv.blocks
                if setNs && decide (nsid ≠ 0) && !ns.active then uc 4 nsid d
                else if setLba && decide (blocks < lba) then uc 3 nsid d
                else
                  good { x with hpriv := { x.hpriv with
                      nsid := nsid, blocks := blocks, fua := bit v 18
                      bsLog := if setNs then (if nsid = 0 then 0 else ns.bsLog) else x.hpriv.bsLog } }
                    (if setLba then BitVec.ofNat 64 lba else p.pos) d
        | .window =>
            let off := bits v 127 64
            match blockFault b 2 0x20 [(decide (bits v 18 17 = 3), 2), (decide (bits v 63 20 ≠ 0), 2),
                (bit v 16 && decide (x.hpriv.size ≤ off), 8), (decide (bits v 255 128 ≠ 0), 16)] with
            | some q => uc 2 q d
            | none =>
                good { x with hpriv := { x.hpriv with width := bits v 18 17, rlx := bit v 19 } }
                  (if bit v 16 then BitVec.ofNat 64 off else p.pos) d
        | _ =>
            match blockFault b 3 0x10 [(decide (bits v 63 16 ≠ 0), 2)] with
            | some q => uc 2 q d
            | none => good x (BitVec.ofNat 64 (bits v 127 64)) d)) d

/-- CONTROL (R52, R53, R55, R59). -/
def execControl (sub : Nat) (blk : HostRead) (ns : NsInfo) (s : State) : Host.Outcome State Fault Refusal :=
  run s (liveC (withCommand sub [0x07] (fun x h p d =>
    match h with
    | .owner _ => d
    | _ => controlRow sub blk ns x h p d)))

/-! ### WRITE and READ (R48, R49, R54, R58) -/

/-- Bytes of a block of the current namespace. -/
def bsOf (x : Sub) : Nat := 2 ^ x.hpriv.bsLog

/-- The end of a command on a namespace that does not allow it (R49); `blocks` from the position on. -/
def nvmeRefuse (x : Sub) (a : DWord) (c : Nat) (pos blocks : Nat) : Option Ended :=
  if x.hpriv.nsid = 0 then some (endUc a c 4 0 pos)
  else if x.hpriv.blocks < pos + blocks then some (endUc a c 3 x.hpriv.nsid pos) else none

/-- Position and count must be multiples of the access width (R55). -/
def widthBad (x : Sub) (pos c : Nat) : Bool :=
  let u := if x.hpriv.width = 1 then 4 else if x.hpriv.width = 2 then 8 else 1
  decide (pos % u ≠ 0) || decide (c % u ≠ 0)

/-- What can be moved of a transfer that a failing CCW or IDA entry cut short: whole accesses (R55, R75). One that the end of the window
cut is left as it is: where it leaves 4 bytes of an 8-byte access, which the spec does not speak of, they are issued with the rest (log
entry 102). -/
def widthCut (x : Sub) (cut : Bool) (len : Nat) : Nat :=
  let u := if x.hpriv.width = 1 then 4 else if x.hpriv.width = 2 then 8 else 1
  if cut then len - len % u else len

/-- WRITE on an NVMe or memory-window subchannel (R48, R49, R54): whole blocks, or the bytes that fit, are read from
the segments and written to the device by one operation. -/
def writeRow (n : Nat) (io : CmdIo) (x : Sub) (h : Handler) (p : Prog) (d : Dev) : Dev :=
  let f := ownerOf x
  let (a, w0) := p.chain.headD (0, 0)
  let (segs, st) := buildSegs d f p.chain io.ida
  let stop := st.orElse (fun _ => p.stopAt)
  let total := match stop with | some _ => segLen segs | none => chainCount p.chain
  let pos := p.pos.toNat
  let bs := bsOf x
  let fail := fun (e : Ended) (d : Dev) => endNow n x h p e none d
  let ida := idaReads d f p.chain io.ida
  let go := fun (devLen : Nat) (endPos : DWord) (mk : List Byte → OpKind) (d : Dev) =>
    let use := segCut devLen segs
    let r := newRun p segs total devLen endPos stop
    if devLen = 0 then hostGo f ida (fun d => endNow n x h p (runEnd r) (some p.pos) (emitIda n ida d)) d
    else
      scratchGo n use (whenRoom n p 1 devLen 1 (rowEnds d n use [n]) (hostGo f (ida ++ gatherTouch use io.data) (fun d =>
        let (p, d) := chainMarks n p devLen stop d
        let d := emitReads n use (emitIda n ida d)
        match gather d f use io.data 0 with
        | (_, some off) =>
            let (b, _) := stopAt r.ccws off
            let cw := ((r.ccws.find? (fun y => y.1 = b)).map (·.2)).getD w0
            endNow n x h p (endC (csCdc ||| ilOf r) b (ccwCount cw)) none d
        | (bytes, none) => runOne n x h p r false (mk bytes) d))) d
  match h with
  | .nvme =>
      let blocks := total / bs
      if x.hpriv.nsid = 0 then fail (endUc a (ccwCount w0) 4 0 pos) d
      else if p.stopAt.isNone && decide (chainCount p.chain < bs) then
        endNow n x h p (runEnd (newRun p [] (chainCount p.chain) 0 p.pos none)) (some p.pos) d
      else match (if blocks = 0 then none else nvmeRefuse x a (ccwCount w0) pos blocks) with
        | some e => fail e d
        | none => go (blocks * bs) (p.pos + BitVec.ofNat 64 blocks)
            (fun b => .nvmeWrite x.hpriv.nsid pos blocks x.hpriv.fua b) d
  | .window =>
      let len := widthCut x stop.isSome (min total (x.hpriv.size - pos))
      if widthBad x pos (if p.stopAt.isSome then 0 else chainCount p.chain) then fail (endUc a (ccwCount w0) 2 0xFFFFFFFF pos) d
      else go len (p.pos + BitVec.ofNat 64 len) (fun b => .winWrite (x.hpriv.base + pos) x.hpriv.width x.hpriv.rlx b) d
  | _ => d

/-- WRITE (R48, R54). -/
def execWrite (sub : Nat) (io : CmdIo) (s : State) : Host.Outcome State Fault Refusal :=
  run s (liveC (withCommand sub [0x01] (writeRow sub io)))

/-- Multiplication by g = 2 in GF(2^8), polynomial 0x11D (R199). -/
def gfDouble (b : Byte) : Byte := if bit b 7 then (b <<< 1) ^^^ 0x1D#8 else b <<< 1

/-- Multiplication by g^k (R199). -/
def gfPow : Nat → Byte → Byte
  | 0, b => b
  | k + 1, b => gfPow k (gfDouble b)

/-- P of streams of equal length (R199). -/
def parityP (len : Nat) (l : List (List Byte)) : List Byte :=
  l.foldl (fun acc s => List.zipWith (· ^^^ ·) acc s) (List.replicate len 0)

/-- Q of streams of equal length (R199): stream i is weighted with g^i. -/
def parityQ (len : Nat) (l : List (List Byte)) : List Byte :=
  (l.zipIdx).foldl (fun acc s => List.zipWith (fun x b => x ^^^ gfPow s.2 b) acc s.1) (List.replicate len 0)

/-- The data members of a set, and its strip unit (R57). -/
def setK (x : Sub) : Nat := x.hpriv.members.length - 2
def setU (x : Sub) : Nat := 2 ^ x.hpriv.uLog

/-- A member's operation for `rows` rows from row `row` on (R57, R60): none for a member that fails the row. A member that is
NOT_OPERATIONAL (R116), has another owner (R56), or, in a window, has a strip that its WIDTH does not divide (log entry 82) fails
it too. -/
def memberKind (d : Dev) (x : Sub) (i row rows : Nat) (data : Option (List Byte)) : Option OpKind :=
  let (m, base) := lget x.hpriv.members i (0, 0)
  let y := subGet d m
  let u := setU x
  if y.st = .notOperational ∨ subOwner y ≠ subOwner x then none
  else match handlerOf d y with
  | some .nvme =>
      let bs := bsOf y
      if y.hpriv.nsid = 0 ∨ u % bs ≠ 0 then none
      else
        let lba := base + row * (u / bs)
        let blocks := rows * (u / bs)
        match data with
        | some b => some (.nvmeWrite y.hpriv.nsid lba blocks y.hpriv.fua b)
        | none => some (.nvmeRead y.hpriv.nsid lba blocks)
  | some .window =>
      let off := base + row * u
      if y.hpriv.size < off + rows * u ∨ widthBad y off u = true then none
      else match data with
        | some b => some (.winWrite (y.hpriv.base + off) y.hpriv.width y.hpriv.rlx b)
        | none => some (.winRead (y.hpriv.base + off) (rows * u) y.hpriv.width)
  | _ => none

/-- The path of a run's operations to a device: the one it has, while it is up, or the one chosen now (R273). -/
def runPath (d : Dev) (r : Run) (m : Nat) : Run × Nat :=
  match r.paths.find? (fun x => x.1 = m) with
  | some (_, q) => (r, livePath d (subGet d m) q)
  | none => (let q := pathOf d (subGet d m); ({ r with paths := r.paths ++ [(m, q)] }, q))

/-- Issue the operations of one row of a set command in member order; a member without one counts as failed (R60).
Members k and k + 1 carry parity, so no byte of the command. -/
def issueRow (n : Nat) (p : Prog) (x : Sub) (pos : Nat) (write : Bool) : List (Nat × List Byte) → Run → Dev → Run × Dev
  | [], r, d => (r, d)
  | (i, b) :: t, r, d =>
      let first := if i < setK x then min r.total ((r.row * setK x + i) * setU x) else r.total
      match memberKind d x i (pos + r.row) 1 (if write then some b else none) with
      | none => issueRow n p x pos write t { r with fails := r.fails ++ [⟨i, 0, 0, false, first, pos + r.row, 0xFF⟩] } d
      | some k =>
          let m := (lget x.hpriv.members i (0, 0)).1
          let (r, path) := runPath d r m
          let (tok, d) := issueOp n m p path i (if write then 1 else 0) k first (pos + r.row) d
          issueRow n p x pos write t { r with ops := r.ops ++ [tok] } d

/-- Start the next row of a set command (log entry 16: rows one after another). -/
def nextRow (n : Nat) (p : Prog) (r : Run) (d : Dev) : Run × Dev :=
  match r.todo with
  | [] => (r, d)
  | row :: t => issueRow n p (subGet d n) r.startPos.toNat (decide (r.code = 0x0F)) row { r with todo := t } d

/-- A set command starts with its first row, or ends at once when every member of it failed. -/
def startSet (n : Nat) (x : Sub) (h : Handler) (p : Prog) (r : Run) (rows : List (List (Nat × List Byte))) (d : Dev) : Dev :=
  let (r, d) := nextRow n p { r with isSet := true, todo := rows } d
  if r.ops.isEmpty then
    (let (v, d) := freeNext d
     endNow n x h p (runEnd r) none (setPosition n (BitVec.ofNat 64 v.toNat) d))
  else startRun n p r false d

/-- STRIPE (R57, R60): whole rows of host data go to the data members, P and Q to the parity members. -/
def stripeRow (n : Nat) (io : CmdIo) (x : Sub) (h : Handler) (p : Prog) (d : Dev) : Dev :=
  let f := ownerOf x
  let (segs, st) := buildSegs d f p.chain io.ida
  let stop := st.orElse (fun _ => p.stopAt)
  let total := match stop with | some _ => segLen segs | none => chainCount p.chain
  let k := setK x
  let u := setU x
  let rows := total / (k * u)
  let devLen := rows * k * u
  let r := newRun p segs total devLen (p.pos + BitVec.ofNat 64 rows) stop
  let ida := idaReads d f p.chain io.ida
  if rows = 0 then hostGo f ida (fun d => endNow n x h p (runEnd r) (some p.pos) (emitIda n ida d)) d
  else
    let use := segCut devLen segs
    scratchGo n use (whenRoom n p (k + 2) (rows * (k + 2) * u) 2 (rowEnds d n use (x.hpriv.members.map (·.1)))
      (hostGo f (ida ++ gatherTouch use io.data) (fun d =>
      let (p, d) := chainMarks n p devLen stop d
      let d := emitReads n use (emitIda n ida d)
      match gather d f use io.data 0 with
      | (_, some off) =>
          let (b, _) := stopAt r.ccws off
          endNow n x h p (endC (csCdc ||| ilOf r) b total) none d
      | (bytes, none) =>
          let row := fun (rr : Nat) =>
            let ds := (List.range k).map (fun i => (bytes.drop ((rr * k + i) * u)).take u)
            (ds.zipIdx).map (fun y => (y.2, y.1)) ++ [(k, parityP u ds), (k + 1, parityQ u ds)]
          startSet n x h p r ((List.range rows).map row) d))) d

/-- STRIPE (R57). -/
def execStripe (sub : Nat) (io : CmdIo) (s : State) : Host.Outcome State Fault Refusal :=
  run s (liveC (withCommand sub [0x0F] (fun x h p d => match h with
    | .peer => stripeRow sub io x h p d
    | _ => d)))

/-- READ (R48, R49, R54, R58): one operation, or one for each data member of a set. -/
def readRow (n : Nat) (io : CmdIo) (x : Sub) (h : Handler) (p : Prog) (d : Dev) : Dev :=
  let f := ownerOf x
  let (a, w0) := p.chain.headD (0, 0)
  let (segs, st) := buildSegs d f p.chain io.ida
  let stop := st.orElse (fun _ => p.stopAt)
  let total := match stop with | some _ => segLen segs | none => chainCount p.chain
  let pos := p.pos.toNat
  let bs := bsOf x
  let ida := idaReads d f p.chain io.ida
  let fail := fun (e : Ended) (d : Dev) => endNow n x h p e none d
  let go := fun (len : Nat) (k : Prog → Dev → Dev) (d : Dev) => hostGo f ida (fun d =>
    let (p, d) := chainMarks n p len stop d
    k p (emitIda n ida d)) d
  let room := fun (k bytes : Nat) (devs : List Nat) (g : Prog → Dev → Dev) (d : Dev) =>
    whenRoom n p k bytes 1 (rowEnds d n segs devs) (go bytes g) d
  match h with
  | .nvme =>
      let blocks := (total + bs - 1) / bs
      match nvmeRefuse x a (ccwCount w0) pos blocks with
      | some e => fail e d
      | none =>
          let r := newRun p segs total (blocks * bs) (p.pos + BitVec.ofNat 64 blocks) stop
          if blocks = 0 then go 0 (fun p => endNow n x h p (runEnd r) none) d
          else room 1 (blocks * bs) [n] (fun p => runOne n x h p r false (.nvmeRead x.hpriv.nsid pos blocks)) d
  | .window =>
      let len := widthCut x stop.isSome (min total (x.hpriv.size - pos))
      if widthBad x pos (if p.stopAt.isSome then 0 else chainCount p.chain) then fail (endUc a (ccwCount w0) 2 0xFFFFFFFF pos) d
      else
        let r := newRun p segs total len (p.pos + BitVec.ofNat 64 len) stop
        if len = 0 then go 0 (fun p => endNow n x h p (runEnd r) none) d
        else room 1 len [n] (fun p => runOne n x h p r false (.winRead (x.hpriv.base + pos) len x.hpriv.width)) d
  | .peer =>
      let k := setK x
      let u := setU x
      let rows := (total + k * u - 1) / (k * u)
      let r := newRun p segs total (rows * k * u) (p.pos + BitVec.ofNat 64 rows) stop
      if rows = 0 then go 0 (fun p => endNow n x h p (runEnd r) none) d
      else room k (rows * k * u) ((x.hpriv.members.take k).map (·.1))
        (fun p => startSet n x h p r (List.replicate rows ((List.range k).map (fun i => (i, []))))) d
  | .owner _ => d

/-- READ (R48, R54, R58). -/
def execRead (sub : Nat) (io : CmdIo) (s : State) : Host.Outcome State Fault Refusal :=
  run s (liveC (withCommand sub [0x02] (readRow sub io)))

/-! ### PEER (R67) -/

/-- PEER (R67): the checks of T, then S's device is read into Plaza. Where a window cuts the bytes, S is read in whole blocks and
the bytes that fit are written; an NVMe T is written in whole blocks (log entry 29). -/
def peerRow (n : Nat) (x : Sub) (h : Handler) (p : Prog) (d : Dev) : Dev :=
  let (a, w) := p.chain.headD (0, 0)
  let c := ccwCount w
  let t := bits (ccwAddr w) 63 46
  let off := bits (ccwAddr w) 45 0
  let y := subGet d t
  let pos := p.pos.toNat
  let uc := fun (code qual : Nat) (d : Dev) => endNow n x h p (endUc a c code qual pos) none d
  let ht := handlerOf d y
  if ht = none ∨ y.st = .notOperational ∨ ht = some .peer then uc 6 t d
  else if (h = .nvme ∧ x.hpriv.nsid = 0) ∨ (ht = some .nvme ∧ y.hpriv.nsid = 0) then uc 4 0 d
  else if (h = .nvme ∧ c % bsOf x ≠ 0) ∨ (ht = some .nvme ∧ (c % bsOf y ≠ 0 ∨ off % bsOf y ≠ 0)) then
    uc 2 0xFFFFFFFF d
  else if (h = .window ∧ widthBad x pos c = true) ∨ (ht = some .window ∧ widthBad y off c = true) then
    uc 2 0xFFFFFFFF d
  else
    let fitS := if h = .window then min c (x.hpriv.size - pos) else c
    let fitT := if ht = some .window then min fitS (y.hpriv.size - off) else fitS
    let fit := if ht = some .nvme then fitT - fitT % bsOf y else fitT
    let adv := if h = .nvme then (fit + bsOf x - 1) / bsOf x else fit
    if h = .nvme ∧ x.hpriv.blocks < pos + adv then uc 3 x.hpriv.nsid d
    else if ht = some .nvme ∧ y.hpriv.blocks < (off + fit) / bsOf y then uc 3 y.hpriv.nsid d
    else
      let r := { newRun p [] c c (p.pos + BitVec.ofNat 64 adv) none with ownResid := some (c - fit) }
      if fit = 0 then endNow n x h p (runEnd r) (some p.pos) d
      else whenRoom n p 1 fit (if ht = some .window then 2 else 1) (rowEnds d n [] [n, t]) (runOne n x h p r false (if h = .nvme then .nvmeRead x.hpriv.nsid pos adv
        else .winRead (x.hpriv.base + pos) fit x.hpriv.width)) d

/-- PEER (R67). -/
def execPeer (sub : Nat) (s : State) : Host.Outcome State Fault Refusal :=
  run s (liveC (withCommand sub [0x0A] (fun x h p d => match h with
    | .owner _ => d
    | _ => peerRow sub x h p d)))

/-- The slices that a run's stream holds, in order. -/
def runSlices (d : Dev) (n id : Nat) : List Nat :=
  (d.slices.filter (fun e => match e.2 with | .stream _ m w => decide (m = n) && decide (w = .run id) | _ => false)).map (·.1)

/-- Bytes go into slices of Plaza, 4 KiB to each, as far as there are slices; which part of a longer transfer they hold is not stated (log
entry 85). -/
def stageBytes : List Nat → List Byte → Dev → Dev
  | [], _, d => d
  | s :: t, b, d => stageBytes t (b.drop 4096) { d with plaza := memWrite d.plaza (4096 * s) (b.take 4096) }

/-- The write side of a PEER (R67): the bytes that fit are written to T's device at the byte offset from Plaza, in T's WRITE
class. An owner pack's T is asked through its pack (log entry 29). -/
def peerWrite (n : Nat) (p : Prog) (r : Run) (bytes : List Byte) (d : Dev) : Run × Dev :=
  let (_, w) := firstCcw r
  let t := bits (ccwAddr w) 63 46
  let off := bits (ccwAddr w) 45 0
  let bytes := bytes.take (r.total - r.ownResid.getD 0)
  let y := subGet d t
  let (kind, cls) := match handlerOf d y with
    | some .nvme =>
        (let k := OpKind.nvmeWrite y.hpriv.nsid (off / bsOf y) (bytes.length / bsOf y) y.hpriv.fua bytes
         (k, opClass false k))
    | some (.owner pk) => (.packWrite off bytes, packClass pk 1)
    | _ =>
        (let k := OpKind.winWrite (y.hpriv.base + off) y.hpriv.width y.hpriv.rlx bytes
         (k, opClass false k))
  let (r, path) := runPath d r t
  let (tok, d) := issueOp n t p path 1 cls kind 0 off (stageBytes (runSlices d n r.id) bytes d)
  ({ r with ops := [tok] }, d)

/-! ### The other commands of the vendor handlers (R48, R49, R54) -/

/-- FLUSH (R48). -/
def execFlush (sub : Nat) (s : State) : Host.Outcome State Fault Refusal :=
  run s (liveC (withCommand sub [0x10] (fun x h p d =>
    let (a, _) := p.chain.headD (0, 0)
    match h with
    | .nvme =>
        if x.hpriv.nsid = 0 then endNow sub x h p (endUc a 0 4 0 p.pos.toNat) none d
        else whenRoom sub p 1 0 0 [] (runOne sub x h p (newRun p [] 0 0 p.pos none) false (.nvmeFlush x.hpriv.nsid)) d
    | _ => d)))

/-- DEALLOCATE and WRITE-ZEROES (R48, R49): whole blocks at the position. They transfer no data, so COUNT is the residual (R70). -/
def blocksRow (n : Nat) (mk : Nat → Nat → Nat → OpKind) (x : Sub) (h : Handler) (p : Prog) (d : Dev) : Dev :=
  let (a, w) := p.chain.headD (0, 0)
  let c := ccwCount w
  let pos := p.pos.toNat
  let blocks := c / bsOf x
  if x.hpriv.nsid = 0 then endNow n x h p (endUc a c 4 0 pos) none d
  else if c % bsOf x ≠ 0 then endNow n x h p (endUc a c 2 0xFFFFFFFF pos) none d
  else match nvmeRefuse x a c pos blocks with
    | some e => endNow n x h p e none d
    | none => whenRoom n p 1 0 0 [] (runOne n x h p
        { newRun p [] c c (p.pos + BitVec.ofNat 64 blocks) none with ownResid := some c } false (mk x.hpriv.nsid pos blocks)) d

/-- DEALLOCATE (R48). -/
def execDeallocate (sub : Nat) (s : State) : Host.Outcome State Fault Refusal :=
  run s (liveC (withCommand sub [0x11] (fun x h p d =>
    match h with | .nvme => blocksRow sub .nvmeDealloc x h p d | _ => d)))

/-- WRITE-ZEROES (R48). -/
def execWriteZeroes (sub : Nat) (s : State) : Host.Outcome State Fault Refusal :=
  run s (liveC (withCommand sub [0x12] (fun x h p d =>
    match h with | .nvme => blocksRow sub .nvmeZero x h p d | _ => d)))

/-- IDENTIFY (R50). -/
def execIdentify (sub : Nat) (s : State) : Host.Outcome State Fault Refusal :=
  run s (liveC (withCommand sub [0x13] (fun x h p d =>
    let (_, w) := p.chain.headD (0, 0)
    match h with
    | .nvme =>
        let seg : Seg := ⟨ccwAsel w, ccwAddr w, ccwCount w⟩
        let cns := if x.hpriv.nsid = 0 then 1 else 0
        whenRoom sub p 1 4096 1 (rowEnds d sub [seg] [sub])
          (runOne sub x h p (newRun p [seg] (ccwCount w) 4096 p.pos none) false (.nvmeIdentify cns x.hpriv.nsid)) d
    | _ => d)))

/-- COMPARE (R48, R49, R51): the checks judge the whole chain's count; what a failing CCW or IDA entry cut off is compared in
whole blocks. -/
def compareRow (n : Nat) (io : CmdIo) (x : Sub) (h : Handler) (p : Prog) (d : Dev) : Dev :=
  let f := ownerOf x
  let (a, w0) := p.chain.headD (0, 0)
  let (segs, st) := buildSegs d f p.chain io.ida
  let stop := st.orElse (fun _ => p.stopAt)
  let all := chainCount p.chain
  let total := match stop with | some _ => segLen segs | none => all
  let pos := p.pos.toNat
  let blocks := total / bsOf x
  let ida := idaReads d f p.chain io.ida
  let fail := fun (e : Ended) (d : Dev) => endNow n x h p e none d
  if x.hpriv.nsid = 0 then fail (endUc a (ccwCount w0) 4 0 pos) d
  else if p.stopAt.isNone && decide (all % bsOf x ≠ 0) then fail (endUc a (ccwCount w0) 2 0xFFFFFFFF pos) d
  else match nvmeRefuse x a (ccwCount w0) pos (all / bsOf x) with
    | some e => fail e d
    | none =>
        let use := segCut (blocks * bsOf x) segs
        let r := newRun p segs total (blocks * bsOf x) (p.pos + BitVec.ofNat 64 blocks) stop
        let go := hostGo f (ida ++ gatherTouch use io.data) (fun d =>
          let (p, d) := chainMarks n p (blocks * bsOf x) stop d
          let d := emitReads n use (emitIda n ida d)
          match gather d f use io.data 0 with
          | (_, some off) => (let (b, res) := stopAt r.ccws off; endNow n x h p (endC csCdc b res) none d)
          | (bytes, none) =>
              if blocks = 0 then endNow n x h p (runEnd r) none d
              else runOne n x h p r false (.nvmeCompare x.hpriv.nsid pos blocks bytes) d)
        if blocks = 0 then go d else scratchGo n use (whenRoom n p 1 (blocks * bsOf x) 1 (rowEnds d n use [n]) go) d

/-- COMPARE (R48). -/
def execCompare (sub : Nat) (io : CmdIo) (s : State) : Host.Outcome State Fault Refusal :=
  run s (liveC (withCommand sub [0x14] (fun x h p d => match h with | .nvme => compareRow sub io x h p d | _ => d)))

/-- FENCE of the memory-window handler (R54). -/
def execFence (sub : Nat) (s : State) : Host.Outcome State Fault Refusal :=
  run s (liveC (withCommand sub [0x10] (fun x h p d =>
    match h with
    | .window => whenRoom sub p 1 0 0 [] (runOne sub x h p (newRun p [] 0 0 p.pos none) false .winFence) d
    | _ => d)))

/-- WRITE-IMM (R54, R55): the position stays. -/
def execWriteImm (sub : Nat) (s : State) : Host.Outcome State Fault Refusal :=
  run s (liveC (withCommand sub [0x11] (fun x h p d =>
    let (a, w) := p.chain.headD (0, 0)
    let c := ccwCount w
    let pos := p.pos.toNat
    match h with
    | .window =>
        if x.hpriv.size < pos + c ∨ widthBad x pos c = true then
          endNow sub x h p (endUc a c 2 0xFFFFFFFF pos) none d
        else
          whenRoom sub p 1 0 0 [] (runOne sub x h p (newRun p [] c c p.pos none) true
            (.winWrite (x.hpriv.base + pos) x.hpriv.width x.hpriv.rlx (leBytes c (ccwAddr w).toNat))) d
    | _ => d)))

/-! ### Events of operations (R124 to R129, R132) -/

/-- The run an operation belongs to. -/
def runOf (p : Prog) (t : Nat) : Option Run :=
  match p.run with
  | some r => if r.ops.contains t then some r else none
  | none => p.grp.find? (fun r => r.ops.contains t)

/-- Store a run that is in execution. -/
def runSet (n : Nat) (r : Run) (d : Dev) : Dev :=
  match progOf d n with
  | none => d
  | some p =>
      progSet n (match p.run with
        | some q => if q.id = r.id then { p with run := some r } else p
        | none => { p with grp := p.grp.map (fun q => if q.id = r.id then r else q) }) d

/-- The device data of a run in command order: one operation's, or the strips of a set in rows (R58). -/
def runData (x : Sub) (r : Run) : List Byte :=
  if r.isSet then
    let k := setK x
    let u := setU x
    let rows := r.devLen / (k * u)
    let strip := fun (rr i : Nat) => fitBytes u (lget ((r.got.filter (fun g => g.1 = i)).map (·.2)) rr [])
    ((List.range rows).map (fun rr => ((List.range k).map (strip rr)).flatten)).flatten
  else (r.got.map (·.2)).flatten

/-- The bytes of a READ that reach the host: all of it, or, of a set one of whose members failed, the rows before the first lost byte
(R70). -/
def runBytes (x : Sub) (r : Run) : List Byte :=
  let b := fitBytes r.devLen (runData x r)
  if r.fails.isEmpty then b else b.take (firstLost r)

/-- All operations of a run have ended: its data is delivered and it ends (R21, R69, R81). -/
def runComplete (n : Nat) (r : Run) (wr : WriteRes) (d : Dev) : Dev :=
  match progOf d n with
  | none => d
  | some p =>
      if (r.fails.isEmpty || r.isSet) && (r.code = 0x02 || r.code = 0x13) then
        let (q, e, d) := deliver n p r (runBytes (subGet d n) r) wr d
        finishRun n r e (progSet n q d)
      else finishRun n r (runEnd r) d

/-- The operations a run had issued have ended. A set command goes on with its next row, when slots are free for it (R79), while no
member failed and no HALT or CLEAR stops it (R60, R103). -/
def rowNext (n : Nat) (r : Run) (wr : WriteRes) (d : Dev) : Dev :=
  if r.todo.isEmpty || !r.fails.isEmpty then runComplete n r wr d
  else match progOf d n with
    | none => d
    | some p =>
        if halting d n then
          let moved := (r.row + 1) * setK (subGet d n) * setU (subGet d n)
          let r := { r with endPos := r.startPos + BitVec.ofNat 64 (r.row + 1) }
          let (a, res) := stopAt r.ccws moved
          if r.code = 0x02 then
            let (q, e, d) := deliver n p { r with stop := some (endC 0 a res) } ((runBytes (subGet d n) r).take moved) wr d
            finishRun n r e (progSet n q d)
          else finishRun n r (endC 0 a res) d
        else if slotsFree d p.cp (r.todo.headD []).length then
          (let (r, d) := nextRow n p { r with row := r.row + 1 } d
           if r.ops.isEmpty then runComplete n r wr d else runSet n r d)
        else d

/-- An operation of a run has ended. -/
def opEnded (n : Nat) (r : Run) (t : Nat) (wr : WriteRes) (d : Dev) : Dev :=
  let r := { r with ops := r.ops.filter (· ≠ t) }
  let d := runSet n r d
  if r.ops.isEmpty then rowNext n r wr d else d

/-- A set command whose next row waited for slots goes on (R79). -/
def rowGo (n : Nat) (d : Dev) : Dev :=
  match (progOf d n).bind (·.run) with
  | some r => if r.isSet && r.ops.isEmpty && !r.todo.isEmpty then rowNext n r .ok d else d
  | none => d

/-- The operation gives up its slot. -/
def opFree (t : Nat) (d : Dev) : Dev := { d with ops := tdel d.ops t }

/-- A detached operation is over: its slot is free, and after the last one of its program the slices they held (R132). -/
def opFreeDetached (t : Nat) (o : Op) (d : Dev) : Dev := detachedDone o.sub o.jseq (opFree t d)

/-- The read side of a PEER is complete: T is written, unless HALT or CLEAR stops it (R67, R103). -/
def peerGo (n : Nat) (p : Prog) (r : Run) (bytes : List Byte) (t : Nat) (d : Dev) : Dev :=
  if halting d n then
    finishRun n { r with ops := [], endPos := r.startPos } (endC 0 (firstCcw r).1 (ccwCount (firstCcw r).2)) (runSet n { r with ops := r.ops.filter (· ≠ t), endPos := r.startPos } d)
  else (let (r, d) := peerWrite n p r bytes d; runSet n r d)

/-- The writes to host memory that the end of an operation may make. -/
def opTouch (r : Run) (res : DevRes) (wr : WriteRes) : List (DWord × Nat × Bool) :=
  let got := match res with | .ok _ => true | _ => false
  if (r.code = 0x02 ∨ r.code = 0x13) ∧ (r.isSet = true ∨ got = true) then writeTouch r.segs wr else []

/-- Is a read of an operation's data held on a failing check block (R228)? -/
def opRefills (d : Dev) (t : Nat) : Bool := readHeld d (.cmd t)

/-- An operation is complete: its data or failure enters its command, and the last one ends it. A detached operation's completion is
discarded (R132). One whose data the host cannot take yet keeps its slot and its data until then (R170, R272, R515); so does one whose
data is held on a failing check block (R228), and one of a program that waits at an entry (R156). -/
def opTaken (t : Nat) (res : DevRes) (wr : WriteRes) (d : Dev) : Dev :=
  match d.ops.find? (fun e => e.1 = t) with
  | none => d
  | some (_, o) =>
      if o.detached then opFreeDetached t o d
      else match progOf d o.sub with
        | none => opFree t d
        | some p =>
            match runOf p t with
            | none => opFree t d
            | some r =>
                let f := ownerOf (subGet d o.sub)
                let l := opTouch r res wr
                let hold := fun (d : Dev) =>
                  { d with opHeld := d.opHeld ++ [(t, res, wr)], ops := tins (tdel d.ops t) t { o with cond := .complete } }
                if opRefills d t || waits156 d o.sub then hold d
                else if hostWaits d f l then hostAsk f l (hold d)
                else if !l.isEmpty && portWaits p r.port then portSync o.sub p (hold d)
                else
                let d := opFree t d
                let bad := fun (k v : Nat) => { r with fails := r.fails ++ [⟨o.member, k, v, !o.idem, o.from_, o.info, o.dport⟩] }
                match res with
                | .error st => opEnded o.sub (bad 0 st.toNat) t wr d
                | .badBlock => opEnded o.sub (bad 3 0) t wr d
                | .miscompare => opEnded o.sub r t wr d
                | .ok b =>
                    match o.kind with
                    | .nvmeCompare _ _ _ _ => opEnded o.sub { r with sm := true } t wr d
                    | .nvmeRead _ _ k =>
                        if r.code = 0x0A then peerGo o.sub p r (fitBytes (k * bsOf (subGet d o.sub)) b) t d
                        else opEnded o.sub { r with got := r.got ++ [(o.member, b)] } t wr d
                    | .winRead _ len _ =>
                        if r.code = 0x0A then peerGo o.sub p r (fitBytes len b) t d
                        else opEnded o.sub { r with got := r.got ++ [(o.member, fitBytes len b)] } t wr d
                    | .nvmeIdentify _ _ => opEnded o.sub { r with got := r.got ++ [(o.member, fitBytes 4096 b)] } t wr d
                    | _ => opEnded o.sub r t wr d

/-- While a final entry that the operation's end leads to waits at a full deep FIFO, its slot stays in use (R156). -/
def keepSlot (t : Nat) (was d : Dev) : Dev :=
  match was.ops.find? (fun e => e.1 = t) with
  | none => d
  | some (_, o) =>
      if !o.detached && !(waits156 was o.sub) && waits156 d o.sub && !(d.ops.any (fun e => e.1 = t)) then
        { d with ops := tins d.ops t { o with cond := .complete } }
      else d

/-- DOWNSTREAM_OP_COMPLETE (R124). -/
def opComplete (t : Nat) (res : DevRes) (wr : WriteRes) (d : Dev) : Dev := keepSlot t d (opTaken t res wr d)

/-- Completions whose data waited for the host are taken again (R170, R515). -/
def opHeldGo (d : Dev) : Dev := d.opHeld.foldl (fun d x => opComplete x.1 x.2.1 x.2.2 d) { d with opHeld := [] }

/-- An operation of an owner pack's command has failed (R126 to R129): it stays in the ledger as settled, and the command ends when none of
the others is in flight (R106). -/
def packTrouble (n t : Nat) (o : Op) (k value : Nat) (d : Dev) : Dev :=
  let f : OpFail := ⟨t, k, value, decide (o.cond = .uncertain) && !o.idem, 0, o.info, o.dport⟩
  packOver n (ownMod n (fun w => { w with fails := w.fails ++ [f], settled := w.settled ++ [t] }) d)

/-- An operation timed out (kind 1) or met a link error (kind 2) and is in a condition (R124, R126, R127), an owner pack's in the one its
ledger gives (R337): complete, it waits for its completion; idempotent and uncertain, it is re-issued once to the same device, on the
surviving path of a pair (R273); otherwise it has failed. A link error on an operation that was not issued is no uncertainty (R129). A
detached operation that times out is over (R132). -/
def opTrouble (t k : Nat) (cond : OpCond) (value : Nat) (d : Dev) : Dev :=
  match d.ops.find? (fun e => e.1 = t) with
  | none => d
  | some (_, o) =>
      let cond := if o.kind = .pack ∨ o.cond = .complete then o.cond else cond
      match cond with
      | .complete => d
      | _ =>
          if o.detached then opFreeDetached t o d
          else
            let uncertain := cond = .uncertain
            let again := uncertain && o.idem && !o.reissued && !(halting d o.sub)
            if again && decide (o.kind ≠ .pack) then
              let o' := { o with reissued := true, dport := livePath d (subGet d o.dev) o.dport }
              emit (.devOp o'.dport o.dev t o.kind) { d with ops := tins (tdel d.ops t) t o' }
            else match progOf d o.sub with
              | none => opFree t d
              | some p =>
                  match p.own with
                  | some w =>
                      if w.settled.contains t then d
                      else if again then
                        callEv o.sub 8 7 t { d with ops := tins (tdel d.ops t) t { o with reissued := true } }
                      else packTrouble o.sub t o k value d
                  | none =>
                      match runOf p t with
                      | none => opFree t d
                      | some r =>
                          opEnded o.sub { r with fails := r.fails ++ [⟨o.member, k, value, uncertain && !o.idem, o.from_, o.info, o.dport⟩] }
                            t .ok (opFree t d)

end Sys2Proof.Machine
end

