-- ==== Sys2Proof/Machine/MoverOps.lean ====
section
/-!
DEFINITION. The mover (R176 to R219): channels, their programs' instructions, bursts, events, errors, and the MOVER CCW.
-/
namespace Sys2Proof.Machine

open Sys2Proof

/-! ### Channels (R179, R211, R217) -/

/-- The codes of CH_STAT.STATE (R217). -/
def ChSt.code : ChSt → Nat
  | .idle => 0
  | .run => 1
  | .wait => 2
  | .halted => 3
  | .disabled => 4

/-- CH_STAT (R217). -/
def chStatWord (x : Chan) : Nat :=
  fieldN 31 28 x.st.code + fieldN 27 27 x.spend.toNat + fieldN 23 16 x.err + fieldN 15 0 x.sig

/-- Store a channel; a change of its state is traced (R506). -/
def chSet (c : Nat) (v : Chan) (d : Dev) : Dev :=
  let d := if v.st = (chGet d c).st then d else traceEvent 3 none (chStatWord v) c d
  { d with chans := tset d.chans c v chReset }

/-- The program image: address and space (R217 CH_PROG). -/
def chImage (x : Chan) : DWord := x.prog &&& 0xFFFFFFFFFFFFFFC0#64
def chSpace (x : Chan) : Nat := bits x.prog 5 4

/-- RETRY_LIMIT (R217). -/
def chLimit (x : Chan) : Nat := bits x.cfg 23 20

/-- BURST: the bytes of a burst at most (R201, R217). -/
def chBurst (x : Chan) : Nat := 256 * 2 ^ bits x.cfg 26 24

/-- A start lost or ignored (R211, R216): the event is raised as GRP_TOVR advances. -/
def startLost (c : Nat) (d : Dev) : Dev :=
  if regFld d .grpTovr (c / 64) 31 0 = 0xFFFFFFFF then d else pageEvent (0xC0 + c / 64) 1 (regBump .grpTovr (c / 64) d)

/-- The status a MOVER CCW ends with for an error (R212). -/
def moverEnd (x : Chan) (a : DWord) (count : Nat) (pos : Nat) : Ended :=
  match x.err with
  | 1 => endC csPgm a count
  | 2 => endC csPgm a count
  | 3 => endC csPgm a count
  | 4 => endC csCcc a count
  | 5 => endC csCdc a count
  | 6 => endC csProt a count
  | 7 => endUc a count 6 (bits x.faddr 63 46) pos
  | 8 => endC csCdc a count
  | _ => endC 0 a count

/-- A channel at rest gives back its slices (R222); the MOVER CCW on it ends (R66, R185, R212); one that Signpost holds for no
stream any more is free (R274). -/
def moverRest (c : Nat) (d : Dev) : Dev :=
  if chRest (chGet d c) then
    let d := releaseHand (chanStream c) d
    let x := chGet d c
    match x.sub with
    | none => if strChan d c then d
        else { d with commits := d.commits.filter (fun e => !(decide (e.1 = resKey 3 c) && decide (e.2.holder = .signpost))) }
    | some n =>
        match progOf d n with
        | none => d
        | some p =>
            let (a, w) := p.chain.headD (0, 0)
            commandEnd n p p.chain (if x.st = .halted then moverEnd x a (ccwCount w) p.pos.toNat else endC 0 a (ccwCount w))
              none d
  else d

/-- A channel enters HALTED (R209, R211, R212, R216): bursts not yet issued are dropped. CH_PC holds the failing instruction's
address already. -/
def chHalt (c err : Nat) (faddr : Option DWord) (d : Dev) : Dev :=
  let x := chGet d c
  let d := chSet c { x with st := .halted, err := err, spend := false, wait := none, retry := none, again := false, retries := 0
                            got := [], bursts := x.bursts.filter (·.sent), faddr := faddr.getD x.faddr } d
  let d := pageEvent (0xC0 + c / 64) 0 d
  let d := if bit x.cfg 19 then srcFire (0x1000 + c) d else d
  moverRest c (rbtDrop c d)

/-! ### Starts (R181, R211) -/

/-- Bytes of space 1 for a channel (R179): its owner's scratch area, or all of Plaza. -/
def plazaSize (d : Dev) (x : Chan) : Nat :=
  match chOwner x with
  | none => Config.plazaBytes
  | some f => areaSize d (areaOf f)

/-- Read space 1. -/
def plazaRead (d : Dev) (x : Chan) (a n : Nat) : List Byte :=
  match chOwner x with
  | none => memRead d.plaza a n
  | some f => areaRead d (areaOf f) a n

/-- Write space 1. -/
def plazaWrite (x : Chan) (a : Nat) (b : List Byte) (d : Dev) : Dev :=
  match chOwner x with
  | none => { d with plaza := memWrite d.plaza a b }
  | some f => areaWrite (areaOf f) a b d

/-- The check blocks of a range of space 1. -/
def plazaBlocks (d : Dev) (x : Chan) (a n : Nat) : List Nat :=
  match chOwner x with
  | none => blocksOf a n
  | some f => areaBlocks d (areaOf f) a n

/-- Those of them that are being refilled: a read of the range is held with them (R20, R228). -/
def plazaHeld (d : Dev) (x : Chan) (a n : Nat) : List Nat := inRefill d (plazaBlocks d x a n)

/-- How a channel's accesses find their upstream port (R271, R276): those of a MOVER CCW as the accesses of its subchannel do. -/
def chVia (x : Chan) : Via :=
  match x.sub with
  | some n => .sub n
  | none => .any

/-- The upstream port of a channel's stream, chosen at its first access to host memory (R256). -/
def chTake (c : Nat) (a : DWord) (d : Dev) : Nat × Dev :=
  let x := chGet d c
  match x.port with
  | some p => (ringPort d p, d)
  | none => (let (p, d) := takePort (chVia x) (chFn x) a.toNat d; (p, chSet c { chGet d c with port := some p } d))

/-- The header's bytes have been read: AR0 to AR7 (R180). -/
def takeHeader (c : Nat) (b : List Byte) (d : Dev) : Dev :=
  let x := chGet d c
  chSet c { x with needHdr := false, again := false, retries := 0
                   ar := (List.range 8).map (fun i => BitVec.ofNat 64 (leNat ((fitBytes 64 b).drop (8 * i) |>.take 8))) } d

/-- The read of the header in host memory completes; a failure is retried up to RETRY_LIMIT times (R212 FETCH). -/
def hostHeader (c : Nat) (res : HostRead) (d : Dev) : Dev :=
  let x := chGet d c
  if !x.needHdr || x.again || hostWaits d (chFn x) [(chImage x, 64, readOk res)] then d
  else match res with
    | .ok b => takeHeader c b d
    | .err _ =>
        if x.retries < chLimit x then chSet c { x with retries := x.retries + 1, again := true } d
        else chHalt c 4 (some (chImage x)) d

/-- The header of an image in space 1 is read, when its check blocks are not held (R180, R228). -/
def plazaHeader (c : Nat) (d : Dev) : Dev :=
  let x := chGet d c
  let a := (chImage x).toNat
  if a + 64 ≤ plazaSize d x then
    (match plazaHeld d x a 64 with
    | [] => takeHeader c (plazaRead d x a 64) d
    | l => joinAll l (.chan c (chImage x)) d)
  else chHalt c 6 (some (chImage x)) d

/-- A start in IDLE (R181): counters, transform and CH_BYTES are cleared and the header is read. The image of space 1 is
read at once; that of space 0 by the answer that comes with the next command on the channel. -/
def chBegin (c : Nat) (d : Dev) : Dev :=
  let x := chGet d c
  let x := { x with
    st := .run, lc := List.replicate 4 0, xf := 0, bytes := if bit x.cfg 14 then x.bytes else 0
    pc := chImage x + 64, ar2 := List.replicate 8 false, needHdr := true, line := none, wait := none, got := [], retry := none
    again := false, retries := 0, stop := false, port := none }
  let d := chSet c x d
  if 2 ≤ chSpace x then chHalt c 1 none d
  else if chSpace x = 1 then plazaHeader c d
  else match chOwner x with
    | none => chHalt c 6 (some (chImage x)) d
    | some f => hostOut (chVia x) f (.read (chImage x) 64) d

/-- A start (R211). -/
def chStart (c : Nat) (d : Dev) : Dev :=
  let x := chGet d c
  match x.st with
  | .idle => chBegin c d
  | .run => if x.spend then startLost c d else chSet c { x with spend := true } d
  | .wait => if x.spend then startLost c d else chSet c { x with spend := true } d
  | .halted => startLost c d
  | .disabled => startLost c d

/-! ### Events (R207 to R209) -/

/-- A WAIT is over: the channel goes on behind it (R194, R211). -/
def chResume (c : Nat) (d : Dev) : Dev :=
  let x := chGet d c
  chSet c { x with st := .run, wait := none, pc := x.pc + 16 } d

/-- Add 1 to SIGCNT of a channel; a WAIT for it consumes the count (R194, R195). -/
def sigAdd (c : Nat) (d : Dev) : Dev :=
  let x := chGet d c
  if x.st = .wait ∧ x.wait = some .signal then chResume c d
  else chSet c { x with sig := min 65535 (x.sig + 1) } d

/-- The events of a channel that are routed (R209). -/
inductive MEvent where
  | half | full | ended | signal
  deriving DecidableEq, Repr

/-- TSRC code, EVR bit and J bit of an event (R217). -/
def MEvent.tsrc : MEvent → Nat
  | .half => 4 | .full => 5 | .ended => 2 | .signal => 3
def MEvent.evr : MEvent → Nat
  | .half => 28 | .full => 29 | .ended => 30 | .signal => 31
def MEvent.jbit : MEvent → Nat
  | .half => 16 | .full => 17 | .ended => 18 | .signal => 15

/-- Start every channel whose CH_LINK names this source (R209). -/
def trigger (tsrc num : Nat) (d : Dev) : Dev :=
  (d.chans.filter (fun e => bits e.2.link 14 12 = tsrc ∧ bits e.2.link 11 0 = num)).foldl (fun d e => chStart e.1 d) d

/-- Deliver an event of channel c (R209). -/
def chEvent (c : Nat) (k : MEvent) (d : Dev) : Dev :=
  let x := chGet d c
  let d := trigger k.tsrc c d
  let d := if bit x.link k.evr then sigAdd (bits x.link 27 16) d else d
  if bit x.cfg k.jbit then srcFire (0x1000 + c) d else d

/-- Thresholds passed as CH_BYTES goes from `a` to `b` with buffer size B (R208), in order: odd multiples of B/2 are
HALF, even ones FULL. -/
def thresholds (bsz a b : Nat) : List MEvent :=
  let h := bsz / 2
  if h = 0 then [] else (span (a / h + 1) (b / h - a / h)).map (fun k => if k % 2 = 1 then .half else .full)

/-- `n` destination bytes are visible (R207, R208). -/
def addBytes (c n : Nat) (d : Dev) : Dev :=
  let x := chGet d c
  let b := x.bytes + BitVec.ofNat 64 n
  let evs := thresholds (bits x.buf 31 1 * 2) x.bytes.toNat (x.bytes.toNat + n)
  evs.foldl (fun d k => chEvent c k d) (chSet c { x with bytes := b } d)

/-! ### Addresses (R179, R183, R212) -/

/-- An address with a displacement (R183). -/
def addrAdd (sp : Nat) (a : DWord) (disp : Int) : DWord :=
  if sp = 2 then setBits a 45 0 (BitVec.ofInt 46 ((bits a 45 0 : Int) + disp)).toNat
  else BitVec.ofInt 64 ((a.toNat : Int) + disp)

/-- The error of an access of `n` bytes, if any (R183, R212): PROT or PEER. -/
def accessErr (d : Dev) (x : Chan) (sp : Nat) (a : DWord) (n : Nat) : Option Nat :=
  if n = 0 then none
  else if sp = 0 then (if (chOwner x).isNone then some 6 else none)
  else if sp = 1 then (if a.toNat + n ≤ plazaSize d x then none else some 6)
  else
    let y := subGet d (bits a 63 46)
    if chOwner x = none ∨ subOwner y ≠ chOwner x then some 6
    else if handlerOf d y ≠ some .window ∨ y.hpriv.width ≠ 0 ∨ y.st = .notOperational
        ∨ y.hpriv.size < bits a 45 0 + n then some 7
    else none

/-- The first access of a list that fails, with its error. -/
def firstErr (d : Dev) (x : Chan) : List (Nat × DWord × Nat) → Option (Nat × DWord)
  | [] => none
  | (sp, a, n) :: t =>
      match accessErr d x sp a n with
      | some e => some (e, a)
      | none => firstErr d x t

/-- Two ranges overlap in the same space (R187). -/
def overlaps (sp : Nat) (a : DWord) (n : Nat) (sp' : Nat) (b : DWord) (m : Nat) : Bool :=
  decide (sp = sp') && (sp ≠ 2 || decide (bits a 63 46 = bits b 63 46))
    && decide (0 < n) && decide (0 < m) && decide (a.toNat < b.toNat + m) && decide (b.toNat < a.toNat + n)

/-- Does any pair of a list of ranges overlap? -/
def anyOverlap : List (Nat × DWord × Nat) → Bool
  | [] => false
  | (sp, a, n) :: t => t.any (fun y => overlaps sp a n y.1 y.2.1 y.2.2) || anyOverlap t

/-! ### Bursts (R201 to R207, R213) -/

/-- Cut `n` bytes into bursts of at most `size` bytes, none across a 4 KiB boundary of any of the ranges that start at the addresses
given (R201): the lengths in order. The first number bounds how many there are. -/
def cutLens (size : Nat) : Nat → List Nat → Nat → List Nat
  | 0, _, _ => []
  | k + 1, starts, n =>
      if n = 0 then []
      else
        let m := starts.foldl (fun m a => min m (4096 - a % 4096)) (min size n)
        m :: cutLens size k (starts.map (· + m)) (n - m)

/-- The lengths of the bursts of `n` bytes of a channel. -/
def chCut (x : Chan) (starts : List DWord) (n : Nat) : List Nat := cutLens (chBurst x) n (starts.map (·.toNat)) n

/-- The accesses of a range in bursts of the lengths given. -/
def place (sp : Nat) (a : DWord) : Nat → List Nat → List (Nat × DWord × Nat)
  | _, [] => []
  | off, n :: t => (sp, addrAdd sp a off, n) :: place sp a (off + n) t

/-- Data in pieces of the lengths given. -/
def pieces (b : List Byte) : List Nat → List (List Byte)
  | [] => []
  | n :: t => b.take n :: pieces (b.drop n) t

/-- The read of a burst outside Plaza leaves: whole 64-byte beats; a beat beyond T's window is trimmed (R204). -/
def beatRead (c sp : Nat) (a : DWord) (n : Nat) (d : Dev) : Dev :=
  let lo := a.toNat / 64 * 64
  let hi := (a.toNat + n + 63) / 64 * 64
  if sp = 0 then
    (let (p, d) := chTake c a d
     sendHost (.kept p) (chFn (chGet d c)) (.read (BitVec.ofNat 64 lo) (hi - lo)) d)
  else
    let y := subGet d (bits a 63 46)
    let off := bits a 45 0 / 64 * 64
    let top := min y.hpriv.size ((bits a 45 0 + n + 63) / 64 * 64)
    emit (.devRead y.dport (BitVec.ofNat 64 (y.hpriv.base + off)) (top - off)) d

/-- The bytes of a burst in the beats that its read returned; the extra bytes are discarded (R204). -/
def beatBytes (a : DWord) (n : Nat) (b : List Byte) : List Byte := (fitBytes (a.toNat % 64 + n) b).drop (a.toNat % 64)

/-- The reads of an instruction go on behind those done (R201, R204, R213): Plaza at once, the others from the answers. Answers the
data of all of them with the answers left over; none where one waits for its host (R206, R515) or is held on a check block (R228), or failed. A failing burst is retried
1 µs later, up to RETRY_LIMIT times, then BUS. `w` is the instruction, and the number of reads to do bounds them. -/
def readOn (c : Nat) (w : QWord) (reads : List (Nat × DWord × Nat)) : Nat → List HostRead → Dev →
    Option (List (List Byte) × List HostRead) × Dev
  | 0, io, d => (some ((chGet d c).got.take reads.length, io), d)
  | k + 1, io, d =>
      let x := chGet d c
      match reads.drop x.got.length with
      | [] => (some (x.got.take reads.length, io), d)
      | (sp, a, n) :: _ =>
          let done := fun (b : List Byte) => chSet c { chGet d c with got := x.got ++ [b], retries := 0 }
          if n = 0 then readOn c w reads k io (done [] d)
          else if sp = 1 then (match plazaHeld d x a.toNat n with
            | [] => readOn c w reads k io (done (plazaRead d x a.toNat n) d)
            | l => (none, joinAll l (.chan c a) d))
          else
            let good := match io with | .ok _ :: _ => true | _ => false
            let l := if sp = 0 then [(a, n, good)] else []
            if hostWaits d (chFn x) l then (none, hostAsk (chFn x) l d)
            else match io with
              | .ok b :: r => readOn c w reads k r (done (beatBytes a n b) (beatRead c sp a n d))
              | _ =>
                  let d := beatRead c sp a n d
                  if x.retries < chLimit x then
                    (none, chSet c { chGet d c with retry := some w, again := true, retries := x.retries + 1 } d)
                  else (none, chHalt c 5 (some a) d)

/-- All reads of an instruction, up to `m` of them (see `readOn`). -/
def readAll (c : Nat) (w : QWord) (reads : List (Nat × DWord × Nat)) (io : List HostRead) (d : Dev) :
    Option (List (List Byte) × List HostRead) × Dev := readOn c w reads reads.length io d

/-- One write burst (R201, R205, R207): in Plaza it is done at once; in space 0 or 2 it waits to be dispatched. -/
def writeBurst (c sp : Nat) (a : DWord) (b : List Byte) (d : Dev) : Dev :=
  let x := chGet d c
  if b.isEmpty then d
  else
    let d := dbEvent 9 d
    if sp = 1 then addBytes c b.length (plazaWrite x a.toNat b d)
    else
      let d := chSet c { x with bursts := x.bursts ++ [⟨x.pc, sp, a, b, false, 0, 0, 0, false, none, 0⟩] } d
      if sp = 0 then hostAsk (chFn x) [(a, b.length, true)] d else d

/-- The write bursts of a range, in the order given. -/
def writeParts (c : Nat) : List ((Nat × DWord × Nat) × List Byte) → Dev → Dev
  | [], d => d
  | (r, b) :: t, d => writeParts c t (writeBurst c r.1 r.2.1 b d)

/-- The write of a range in ascending order, cut at its own boundaries. -/
def writeRange (c sp : Nat) (a : DWord) (b : List Byte) (d : Dev) : Dev :=
  let l := chCut (chGet d c) [a] b.length
  writeParts c ((place sp a 0 l).zip (pieces b l)) d

/-- The next burst of a channel that may be dispatched (R201, R206): fewer than 8 are in flight; in each space the bursts leave in
order; one that waits for its retry or for its host does not. -/
def nextBurst (d : Dev) (x : Chan) : Option Nat :=
  if 8 ≤ (x.bursts.filter (·.sent)).length then none
  else
    let idx := x.bursts.zipIdx
    let first := fun (s : Nat) => idx.find? (fun y => decide (y.1.space = s) && !y.1.sent)
    let may := fun (y : Burst × Nat) =>
      !y.1.hold && !(decide (y.1.space = 0) && hostWaits d (chFn x) [(y.1.addr, y.1.data.length, true)])
    match ([first 0, first 2].filterMap id).filter may with
    | [] => none
    | y :: t => some (t.foldl (fun m z => min m z.2) y.2)

/-- The write of a burst leaves, in space 0 by a port. -/
def emitBurst (x : Chan) (port sp : Nat) (a : DWord) (b : List Byte) (d : Dev) : Dev :=
  if sp = 0 then sendHost (.kept port) (chFn x) (.write a b) d
  else
    let y := subGet d (bits a 63 46)
    emit (.devWrite y.dport (BitVec.ofNat 64 (y.hpriv.base + bits a 45 0)) b) d

/-- Dispatch the next burst of a channel, with the channel's PRIO and CLASS as they stand (R202, R203). -/
def sendBurst (c : Nat) (d : Dev) : Dev :=
  let x := chGet d c
  match nextBurst d x with
  | none => d
  | some i =>
      match x.bursts[i]? with
      | none => d
      | some b =>
          let (port, d) := if b.space = 0 then chTake c b.addr d else (0, d)
          let x := chGet d c
          let b' := { b with sent := true, prio := bits x.cfg 31 29, cls := bits x.cfg 28 27, port := port }
          emitBurst x port b.space b.addr b.data (chSet c { x with bursts := x.bursts.set i b' }
            { d with movServed := tset d.movServed (bits x.cfg 31 29) c 4095 })

/-- The channel the sequencer serves next (R202): of the ready ones the level of lowest PRIO, in rotation behind the channel of that
level served last. -/
def dispatchPick (d : Dev) : Option Nat :=
  let ready := d.chans.filter (fun e => (nextBurst d e.2).isSome)
  match (List.range 8).find? (fun k => ready.any (fun e => bits e.2.cfg 31 29 = k)) with
  | none => none
  | some k => nextAfter (tget d.movServed k 4095) ((ready.filter (fun e => bits e.2.cfg 31 29 = k)).map (·.1))

/-- The sequencer dispatches bursts while a channel is ready; the number bounds them. -/
def dispatchN : Nat → Dev → Dev
  | 0, d => d
  | k + 1, d => match dispatchPick d with
    | none => d
    | some c => dispatchN k (sendBurst c d)

/-- The sequencer dispatches every burst that may go (R202). -/
def dispatchAll (d : Dev) : Dev := dispatchN ((d.chans.map (fun e => e.2.bursts.length)).foldl (· + ·) 0) d

/-- The instruction is complete: the next one follows. -/
def chNext (c : Nat) (d : Dev) : Dev :=
  let x := chGet d c
  chSet c { x with pc := x.pc + 16, got := [], retry := none, retries := 0 } d

/-- Advance an address register by a number of bytes in a space. -/
def arAdd (c i sp : Nat) (n : Nat) (d : Dev) : Dev :=
  let x := chGet d c
  chSet c { x with ar := lset x.ar i (addrAdd sp (lget x.ar i 0) n) } d

/-- The registers an instruction uses as addresses in the spaces given: those in space 2 keep T under a stride (R183; log entry 88). -/
def arUse (c : Nat) (l : List (Nat × Nat)) (d : Dev) : Dev :=
  let x := chGet d c
  let v := l.foldl (fun v r => lset v r.1 (decide (r.2 = 2))) x.ar2
  if v = x.ar2 then d else chSet c { x with ar2 := v } d

/-- Is a burst of the channel still to become visible? -/
def chBusy (d : Dev) (c : Nat) : Bool := !(chGet d c).bursts.isEmpty

/-- Has the channel issued all its writes (R185)? -/
def chIssued (x : Chan) : Bool := x.bursts.all (·.sent)

/-! ### Transforms (R196, R197) -/

/-- Where input place x goes in blocks of n elements of e places: element-major to plane-major. -/
def planeMap (e n x : Nat) : Nat := x / (e * n) * (e * n) + (x % (e * n)) % e * n + (x % (e * n)) / e

/-- The input place that output place y comes from. -/
def planeInv (e n y : Nat) : Nat := y / (e * n) * (e * n) + (y % (e * n)) % n * e + (y % (e * n)) / n

/-- Interleave of `ways` streams of s bytes with elements of e bytes: the output place of input place x. -/
def leaveMap (ways s e x : Nat) : Nat := (x % s / e * ways + x / s) * e + x % e

/-- The input place that output place y comes from. -/
def leaveInv (ways s e y : Nat) : Nat := (y / e) % ways * s + y / e / ways * e + y % e

/-- A list rearranged: output place y takes input place f y. -/
def permute {α : Type} (f : Nat → Nat) (l : List α) (z : α) : List α := (List.range l.length).map (fun y => lget l (f y) z)

/-- The bits of bytes, lowest first. -/
def toBits (l : List Byte) : List Bool := (l.map (fun b => (List.range 8).map (fun i => bit b i))).flatten

/-- Bytes from bits, lowest first. -/
def ofBits (l : List Bool) : List Byte :=
  (List.range (l.length / 8)).map (fun i =>
    BitVec.ofNat 8 (((List.range 8).map (fun k => (lget l (8 * i + k) false).toNat * 2 ^ k)).foldl (· + ·) 0))

/-- Fields of an XFORM word. -/
def xfKind (w : QWord) : Nat := bits w 9 8
def xfInv (w : QWord) : Bool := bit w 10
def xfWays (w : QWord) : Nat := bits w 29 24 + 1
def xfE (w : QWord) : Nat := 2 ^ bits w 22 20
/-- The block of a MOVE of `len` bytes. -/
def xfBlock (w : QWord) (len : Nat) : Nat := if bits w 18 16 = 0 then len else 128 * 2 ^ bits w 18 16

/-- May a MOVE of this length use the transform (R196)? -/
def xfLength (w : QWord) (len : Nat) : Bool :=
  let blk := bits w 18 16 = 0 || decide (len % xfBlock w len = 0)
  match xfKind w with
  | 0 => true
  | 1 => decide (len % (xfWays w * xfE w) = 0)
  | 2 => decide (len % xfE w = 0) && blk
  | _ => decide (len % (8 * xfE w) = 0) && blk

/-- The transform applied to the bytes of a MOVE (R197). -/
def xfApply (w : QWord) (b : List Byte) : List Byte :=
  let e := xfE w
  let n := xfBlock w b.length / e
  match xfKind w with
  | 0 => b
  | 1 => permute (if xfInv w then leaveMap (xfWays w) (b.length / xfWays w) e
                  else leaveInv (xfWays w) (b.length / xfWays w) e) b 0
  | 2 => permute (if xfInv w then planeMap e n else planeInv e n) b 0
  | _ => ofBits (permute (if xfInv w then planeMap (8 * e) n else planeInv (8 * e) n) (toBits b) false)

/-- Is an XFORM word allowed (R196)? -/
def xformOk (w : QWord) : Bool :=
  let ways := bits w 29 24
  let esz := bits w 22 20
  let blk := bits w 18 16
  decide (bits w 127 30 = 0) && !(bit w 23) && !(bit w 19) && decide (bits w 15 11 = 0) &&
  match xfKind w with
  | 0 => decide (ways = 0 ∧ esz = 0 ∧ blk = 0) && !(xfInv w)
  | 1 => decide (1 ≤ ways ∧ esz ≤ 6 ∧ blk = 0)
  | 2 => decide (ways = 0 ∧ 1 ≤ esz ∧ esz ≤ 6 ∧ blk ≤ 5)
  | _ => decide (ways = 0 ∧ esz ≤ 3 ∧ blk ≤ 5)

/-! ### Instructions (R184 to R200) -/

/-- A signed 32-bit field. -/
def sfield (w : QWord) (lo : Nat) : Int := (BitVec.ofNat 32 (bits w (lo + 31) lo)).toInt

/-- MOVE (R186 to R189, R196). Without a transform a burst reads and writes the same bytes; where the destination starts above a
source that it overlaps, the bursts go in descending order (R187). -/
def doMove (c : Nat) (w : QWord) (io : MovIo) (d : Dev) : Dev :=
  let x := chGet d c
  let len := bits w 127 96
  let sp := bits w 23 22
  let dp := bits w 25 24
  let sar := bits w 28 26
  let dar := bits w 31 29
  if bits w 21 20 ≠ 0 ∨ bits w 15 8 ≠ 0 ∨ sp = 3 ∨ dp = 3 then chHalt c 1 none d
  else if bit w 16 && chBusy d c then d
  else
    let src := addrAdd sp (lget x.ar sar 0) (sfield w 32)
    let dst := addrAdd dp (lget x.ar dar 0) (sfield w 64)
    let xf := bit w 19 && decide (xfKind x.xf ≠ 0)
    let lap := overlaps sp src len dp dst len
    if xf && !(xfLength x.xf len) then chHalt c 3 none d
    else if xf && lap then chHalt c 2 none d
    else
      let rl := chCut x (if xf then [src] else [src, dst]) len
      let wl := if xf then chCut x [dst] len else rl
      let reads := place sp src 0 rl
      let writes := place dp dst 0 wl
      match firstErr d x (reads ++ writes) with
      | some (e, a) => chHalt c e (some a) d
      | none =>
          let down := lap && decide (src.toNat < dst.toNat)
          match readAll c w (if down then reads.reverse else reads) io.reads d with
          | (none, d) => d
          | (some (l, _), d) =>
              let b := (if down then l.reverse else l).flatten
              let out := writes.zip (pieces (if xf then xfApply x.xf b else b) wl)
              let d := writeParts c (if down then out.reverse else out) (arUse c [(sar, sp), (dar, dp)] d)
              let d := if bit w 17 then arAdd c sar sp len d else d
              let d := if bit w 18 && !(bit w 17 && decide (sar = dar)) then arAdd c dar dp len d else d
              chNext c d

/-- Write the elements of a MOVEX in order: none is joined with another in one burst (R201). `cut` gives the lengths of the bursts of
each element. -/
def writeElems (c sp : Nat) : List ((DWord × List Byte) × List Nat) → Dev → Dev
  | [], d => d
  | ((a, b), l) :: t, d => writeElems c sp t (writeParts c ((place sp a 0 l).zip (pieces b l)) d)

/-- Where indexed elements overlap the linear range, a byte keeps its value or takes the one written (R191): a free
value decides for each byte in Plaza. -/
def eitherOld (x : Chan) (a : Nat) : List Byte → Nat → Dev → List Byte × Dev
  | [], _, d => ([], d)
  | b :: t, i, d =>
      let (v, d) := freeNext d
      let (l, d) := eitherOld x a t (i + 1) d
      ((if bit v 0 then b else (plazaRead d x (a + i) 1).headD 0) :: l, d)

/-- Apply `eitherOld` to each element. -/
def eitherOlds (x : Chan) : List (DWord × List Byte) → Dev → List (DWord × List Byte) × Dev
  | [], d => ([], d)
  | (a, b) :: t, d =>
      let (b, d) := eitherOld x a.toNat b 0 d
      let (l, d) := eitherOlds x t d
      ((a, b) :: l, d)

/-- MOVEX (R190, R191). -/
def doMovex (c : Nat) (w : QWord) (io : MovIo) (d : Dev) : Dev :=
  let x := chGet d c
  let count := bits w 127 96
  let es := bits w 95 84 + 1
  let tsp := bits w 60 59
  let xsp := bits w 55 54
  let lsp := bits w 50 49
  let tar := bits w 63 61
  let lar := bits w 53 51
  let scat := bit w 18
  if bits w 83 64 ≠ 0 ∨ bits w 48 20 ≠ 0 ∨ bits w 15 8 ≠ 0 ∨ 2 ≤ tsp ∨ xsp = 3 ∨ lsp = 3 then chHalt c 1 none d
  else if bit w 16 && chBusy d c then d
  else
    let tab := lget x.ar tar 0
    let xb := lget x.ar (bits w 58 56) 0
    let lb := lget x.ar lar 0
    let fin := fun (d : Dev) =>
      let d := if bit w 19 then arAdd c tar tsp (4 * count) d else d
      let d := if bit w 17 then arAdd c lar lsp (count * es) d else d
      chNext c d
    if count = 0 then fin d
    else
      let tabs := place tsp tab 0 (chCut x [tab] (4 * count))
      match firstErr d x tabs with
      | some (e, a) => chHalt c e (some a) d
      | none =>
          match readAll c w tabs io.reads d with
          | (none, d) => d
          | (some (tb, rest), d) =>
              let offs := (List.range count).map (fun j => leNat ((tb.flatten.drop (4 * j)).take 4))
              let ixs := offs.map (fun (o : Nat) => addrAdd xsp xb o)
              let lns := (List.range count).map (fun (j : Nat) => addrAdd lsp lb ((j * es : Nat) : Int))
              let cuts := (ixs.zip lns).map (fun p => chCut x [p.1, p.2] es)
              let side := fun (sp : Nat) (l : List DWord) => (l.zip cuts).map (fun p => place sp p.1 0 p.2)
              let from_ := if scat then side lsp lns else side xsp ixs
              match firstErr d x ((side xsp ixs).flatten ++ (side lsp lns).flatten) with
              | some (e, a) => chHalt c e (some a) d
              | none =>
                  match readAll c w (tabs ++ from_.flatten) rest d with
                  | (none, d) => d
                  | (some (l, _), d) =>
                      let data := pieces (l.drop tabs.length).flatten (List.replicate count es)
                      let elems := (if scat then ixs else lns).zip data
                      let clash := ixs.any (fun a => overlaps xsp a es lsp lb (count * es))
                      let (elems, d) := if clash && decide (xsp = 1) then eitherOlds x elems d else (elems, d)
                      fin (writeElems c (if scat then xsp else lsp) (elems.zip cuts)
                        (arUse c [(tar, tsp), (bits w 58 56, xsp), (lar, lsp)] d))

/-- LOOP (R192, R193). A stride changes only the offset of a register that holds an address in space 2 (R183; log entry 88). -/
def doLoop (c : Nat) (w : QWord) (d : Dev) : Dev :=
  let x := chGet d c
  let count := bits w 127 96
  let back := bits w 79 64
  if count = 0 ∨ bits w 95 80 ≠ 0 ∨ back = 0 ∨ bits w 27 26 ≠ 0 ∨ bits w 23 8 ≠ 0 then chHalt c 1 none d
  else
    let i := bits w 25 24
    let l0 : Word := lget x.lc i 0
    let l := (if l0 = 0 then BitVec.ofNat 32 count else l0) - 1
    if l = 0 then chNext c (chSet c { x with lc := lset x.lc i 0 } d)
    else if x.pc.toNat < (chImage x).toNat + 64 + 16 * back then chHalt c 1 none d
    else
      let s := bits w 31 29
      let sp := if lget x.ar2 s false then 2 else 0
      let ar := if bit w 28 then lset x.ar s (addrAdd sp (lget x.ar s 0) (sfield w 32)) else x.ar
      chSet c { x with lc := lset x.lc i l, ar := ar, pc := x.pc - BitVec.ofNat 64 (16 * back) } d

/-- WAIT (R194). -/
def doWait (c : Nat) (w : QWord) (d : Dev) : Dev :=
  let x := chGet d c
  let v := bits w 127 96
  let t := bits w 17 16
  let stop := fun (m : MWait) => chSet c { x with st := .wait, wait := some m } d
  if bits w 95 18 ≠ 0 ∨ bits w 15 8 ≠ 0 ∨ t = 3 ∨ (t = 0 ∧ 256 ≤ v) ∨ (t = 1 ∧ v ≠ 0) then chHalt c 1 none d
  else if t = 0 then stop (.timer v)
  else if t = 1 then
    (if x.sig = 0 then stop .signal else chNext c (chSet c { x with sig := x.sig - 1 } d))
  else stop (.delay (d.devtime + BitVec.ofNat 64 v))

/-- SIGNAL (R195): it takes effect once every earlier write is visible (R185). -/
def doSignal (c : Nat) (w : QWord) (d : Dev) : Dev :=
  let x := chGet d c
  let num := bits w 75 64
  let t := bits w 17 16
  if bits w 127 76 ≠ 0 ∨ bits w 63 18 ≠ 0 ∨ bits w 15 8 ≠ 0 ∨ t = 3 ∨ (t = 1 ∧ (256 ≤ num ∨ chOwner x = none)) then
    chHalt c 1 none d
  else if chBusy d c then d
  else if t = 0 ∧ chOwner (chGet d num) ≠ chOwner x then chHalt c 6 none d
  else
    let d := chNext c d
    let d := if t = 0 then sigAdd num d
             else if t = 1 then signalEvent (chFn x) num d
             else srcFire (0x1000 + c) d
    chEvent c .signal d

/-- XFORM (R196). -/
def doXform (c : Nat) (w : QWord) (d : Dev) : Dev :=
  let x := chGet d c
  if xformOk w then chNext c (chSet c { x with xf := if xfKind w = 0 then 0 else w } d) else chHalt c 1 none d

/-- PARITY (R189, R198, R199). DEDUCED (log entry 108): a P or Q range that GENP and GENQ leave out is none of the instruction's, and
is not tested for OVERLAP. -/
def doParity (c : Nat) (w : QWord) (io : MovIo) (d : Dev) : Dev :=
  let x := chGet d c
  let len := bits w 127 96
  let k := bits w 63 59 + 1
  let sp := bits w 49 48
  let dp := bits w 47 46
  let genq := bit w 19
  let genp := bit w 18
  if bits w 45 20 ≠ 0 ∨ bits w 15 8 ≠ 0 ∨ sp = 3 ∨ dp = 3 ∨ (!genp && !genq) = true then chHalt c 1 none d
  else if bit w 16 && chBusy d c then d
  else
    let sar := bits w 58 56
    let par := bits w 55 53
    let qar := bits w 52 50
    let starts := (List.range k).map (fun (i : Nat) => addrAdd sp (lget x.ar sar 0) ((i * bits w 95 64 : Nat) : Int))
    let pa := lget x.ar par 0
    let qa := lget x.ar qar 0
    let outs := (if genp then [pa] else []) ++ (if genq then [qa] else [])
    let cut := chCut x (starts ++ outs) len
    let reads := starts.map (fun a => place sp a 0 cut)
    let writes := outs.map (fun a => place dp a 0 cut)
    if anyOverlap (starts.map (fun a => (sp, a, len)) ++ outs.map (fun a => (dp, a, len))) then chHalt c 2 none d
    else match firstErr d x (reads.flatten ++ writes.flatten) with
      | some (e, a) => chHalt c e (some a) d
      | none =>
          match readAll c w reads.flatten io.reads d with
          | (none, d) => d
          | (some (l, _), d) =>
              let data := pieces l.flatten (List.replicate k len)
              let par_ := (if genp then [parityP len data] else []) ++ (if genq then [parityQ len data] else [])
              let d := (writes.zip par_).foldl (fun d y => writeParts c (y.1.zip (pieces y.2 cut)) d)
                (arUse c [(sar, sp), (par, dp), (qar, dp)] d)
              let d := if bit w 17 then
                  ([(sar, sp), (par, dp), (qar, dp)].foldl (fun (s : Dev × List Nat) r =>
                    if s.2.contains r.1 then s else (arAdd c r.1 r.2 len s.1, r.1 :: s.2)) (d, [])).1
                else d
              chNext c d

/-- NOP (R200). -/
def doNop (c : Nat) (w : QWord) (d : Dev) : Dev := if bits w 127 8 ≠ 0 then chHalt c 1 none d else chNext c d

/-- END (R185, R200, R211): after every write is visible the channel raises END and is idle, or starts again. -/
def doEnd (c : Nat) (w : QWord) (d : Dev) : Dev :=
  let x := chGet d c
  if bits w 127 8 ≠ 0 then chHalt c 1 none d
  else if chBusy d c then d
  else
    let d := chSet c { x with st := .idle, spend := false, retries := 0 } d
    let d := if x.spend then chBegin c d else d
    moverRest c (chEvent c .ended d)

/-- The opcodes of R184. -/
def moverOps : List Nat := [0, 1, 2, 3, 4, 5, 6, 7, 0x0F]

/-- The instruction a word spells. -/
def doInstr (c : Nat) (w : QWord) (io : MovIo) (d : Dev) : Dev :=
  match bits w 7 0 with
  | 0 => doNop c w d
  | 1 => doMove c w io d
  | 2 => doMovex c w io d
  | 3 => doLoop c w d
  | 4 => doWait c w d
  | 5 => doSignal c w d
  | 6 => doXform c w d
  | 7 => doParity c w io d
  | 0x0F => doEnd c w d
  | _ => chHalt c 1 none d

/-- Fetch the aligned 64-byte line that holds CH_PC, with one read, unless the channel holds it (R182): from Plaza at once, from
host memory by the answer. A read that fails is retried up to RETRY_LIMIT times (R212 FETCH). -/
def lineFetch (c : Nat) (io : MovIo) (d : Dev) : Dev :=
  let x := chGet d c
  let a := x.pc &&& ~~~63#64
  if (x.line.map (·.1)) = some a then d
  else if chSpace x = 1 then
    (if a.toNat + 64 ≤ plazaSize d x then
       (match plazaHeld d x a.toNat 64 with
       | [] => chSet c { x with line := some (a, plazaRead d x a.toNat 64) } d
       | l => joinAll l (.chan c a) d)
     else chHalt c 6 (some a) d)
  else
    let l := [(a, 64, readOk io.line)]
    if hostWaits d (chFn x) l then hostAsk (chFn x) l d
    else
      let d := sendHost (chVia x) (chFn x) (.read a 64) d
      match io.line with
      | .ok b => chSet c { chGet d c with line := some (a, fitBytes 64 b), again := false, retries := 0 } d
      | .err _ =>
          if x.retries < chLimit x then chSet c { chGet d c with retries := x.retries + 1, again := true } d
          else chHalt c 4 (some a) d

/-- The instruction at CH_PC, from the line the channel holds. -/
def chWord (x : Chan) : Option QWord :=
  match x.line with
  | none => none
  | some (a, b) => if a = x.pc &&& ~~~63#64 then
      some (BitVec.ofNat 128 (leNat ((b.drop (x.pc.toNat % 64)).take 16))) else none

/-! ### The sequencer's turn (R185, R201, R202, R225, R226) -/

/-- Is the instruction a MOVE, MOVEX or PARITY (R201)? -/
def dataOp (w : QWord) : Bool := [1, 2, 7].contains (bits w 7 0)

/-- The spaces a data instruction accesses, each with the register that addresses it. -/
def dataSpaces (w : QWord) : List (Nat × Nat) :=
  match bits w 7 0 with
  | 1 => [(bits w 23 22, bits w 28 26), (bits w 25 24, bits w 31 29)]
  | 2 => [(bits w 60 59, bits w 63 61), (bits w 55 54, bits w 58 56), (bits w 50 49, bits w 53 51)]
  | _ => [(bits w 49 48, bits w 58 56), (bits w 47 46, bits w 55 53)]

/-- The check blocks that a channel's reads are held on (R228). -/
def chHeld (d : Dev) (c : Nat) : Bool :=
  d.refills.any (fun y => match y.reader with | .chan k _ => decide (k = c) | _ => false)

/-- May a channel's next instruction begin: it runs, no read of it is retried or held (R213, R228), and all earlier writes are issued
(R185)? -/
def chBegins (d : Dev) (c : Nat) (x : Chan) : Bool :=
  decide (x.st = .run) && !x.stop && !x.again && chIssued x && !d.thermtrip && !(chHeld d c)

/-- Is a channel ready for the sequencer (R202): a data instruction may begin, fewer than 8 of its bursts are in flight (R201), and it
waits for no fence (R185), no slices (R225), no translation and no return to D0 (R206, R515)? -/
def chReady (d : Dev) (c : Nat) (x : Chan) : Bool :=
  chBegins d c x && !x.needHdr && decide ((x.bursts.filter (·.sent)).length < 8) && !(d.resv.any (fun r => r.sub = chanStream c)) &&
  match chWord x with
  | none => false
  | some w =>
      let host := (dataSpaces w).any (fun y => y.1 = 0)
      dataOp w && !(bit w 16 && !x.bursts.isEmpty)
        && !(host && ((fnGet d (chFn x)).d3hot || d.xasked.any (fun y => y.1 = fnKey (chFn x))))

/-- Does the sequencer serve channel c (R202): of the ready channels the level of lowest PRIO, in rotation behind the channel of that level
served last? An instruction has all its reads in one turn (log entry 106). -/
def seqTurn (c : Nat) (d : Dev) : Bool :=
  let ready := d.chans.filter (fun e => chReady d e.1 e.2)
  match (List.range 8).find? (fun k => ready.any (fun e => bits e.2.cfg 31 29 = k)) with
  | none => false
  | some k => decide (nextAfter (tget d.movServed k 4095) ((ready.filter (fun e => bits e.2.cfg 31 29 = k)).map (·.1)) = some c)

/-- The slices a data instruction stages its bursts in: room for 8 bursts (R201, R225; log entry 85), and as many again for the
destination of a transform, of a PARITY, and of a move from Plaza to Plaza (R226). -/
def chSlices (x : Chan) (w : QWord) : Nat :=
  let k := max 1 (8 * chBurst x / 4096)
  let both := match bits w 7 0 with
    | 1 => (bit w 19 && decide (xfKind x.xf ≠ 0)) || (decide (bits w 23 22 = 1) && decide (bits w 25 24 = 1))
    | 2 => decide (bits w 55 54 = 1) && decide (bits w 50 49 = 1)
    | _ => true
  if both then 2 * k else k

/-- The attachments at the ends of a data instruction's stream (R260): the upstream port for space 0, the avenue of T for space 2. -/
def chEnds (d : Dev) (x : Chan) (w : QWord) : List Nat :=
  ((dataSpaces w).map (fun y =>
    let a := lget x.ar y.2 0
    if y.1 = 0 then [match x.port with | some p => ringPort d p | none => portOf d (chVia x) (chFn x) a.toNat]
    else if y.1 = 2 then [2 + pathOf d (subGet d (bits a 63 46)) / 4]
    else [])).flatten

/-- The channel's stream holds `n` slices, gets them, or waits. One that holds fewer, with nothing staged in them, gives them back first, so
that one reservation is granted whole (R226). -/
def chanRoom (c n : Nat) (ends : List Nat) (d : Dev) : Bool × Dev :=
  let x := chGet d c
  let h := handSlices d (chanStream c)
  if n ≤ h then (true, d)
  else if h ≠ 0 && !x.bursts.isEmpty then (false, d)
  else streamHold (chanStream c) (bits x.cfg 28 27) n ends (if h = 0 then d else releaseHand (chanStream c) d)

/-- A MOVE, MOVEX or PARITY in the sequencer's turn, once its stream has its slices (R202, R225). -/
def dataTurn (c : Nat) (w : QWord) (io : MovIo) (d : Dev) : Dev :=
  if seqTurn c d then
    (match chanRoom c (chSlices (chGet d c) w) (chEnds d (chGet d c) w) d with
    | (false, d) => d
    | (true, d) => doInstr c w io { d with movServed := tset d.movServed (bits (chGet d c).cfg 31 29) c 4095 })
  else d

/-- One instruction of a running channel, once all earlier writes are issued (R185) and no read of it is held on a failing check block
(R228): the row of opcode `op` with the word `w` acts when the instruction at CH_PC is `w` and has that opcode, or has none that R184
lists. -/
def chExec (op c : Nat) (w : QWord) (io : MovIo) (d : Dev) : Dev :=
  if chBegins d c (chGet d c) then
    let d := if (chGet d c).needHdr then (if chSpace (chGet d c) = 1 then plazaHeader c d else hostHeader c io.hdr d) else d
    let x := chGet d c
    if x.st ≠ .run ∨ x.needHdr = true then d
    else
      let d := lineFetch c io d
      let x := chGet d c
      if x.st ≠ .run ∨ x.again = true then d
      else match chWord x with
        | none => d
        | some v =>
            if v = w ∧ (bits w 7 0 = op ∨ !(moverOps.contains (bits w 7 0))) then
              (if dataOp w then dataTurn c w io d else doInstr c w io d)
            else d
  else d

/-! ### The end of bursts (R207, R213) -/

/-- After its last issued burst a stopped channel is IDLE with ERR STOPPED (R211). -/
def stopCheck (c : Nat) (d : Dev) : Dev :=
  let x := chGet d c
  if x.stop && x.bursts.isEmpty && decide (x.st = .run) then
    moverRest c (chSet c { x with st := .idle, err := 0x0A, spend := false, stop := false, retry := none, again := false } d)
  else moverRest c d

/-- A burst's writes are visible to any reader on any path: they count (R207). -/
def burstSeen (c i : Nat) (d : Dev) : Dev :=
  let x := chGet d c
  match x.bursts[i]? with
  | none => d
  | some b => stopCheck c (addBytes c b.data.length (chSet c { x with bursts := x.bursts.eraseIdx i } d))

/-- The port whose zero-length read a posted burst needs before every path sees it (R207): that of a host write, while the other
upstream port is another path. -/
def burstPort (d : Dev) (b : Burst) : Option Nat :=
  if b.space = 0 ∧ upUp d (1 - b.port) = true then some b.port else none

/-- A burst that fails ends the channel at its instruction with BUS, once it runs (R213). -/
def burstFails (c : Nat) (b : Burst) (d : Dev) : Dev :=
  let x := chGet d c
  if x.st ≠ .run ∧ x.st ≠ .wait then stopCheck c d
  else chHalt c 5 (some b.addr) (chSet c { x with pc := b.pc } d)

/-- A burst no TLP of which was transmitted: it waits for its retry, up to RETRY_LIMIT times (R213). -/
def burstUnsent (c i : Nat) (d : Dev) : Dev :=
  let x := chGet d c
  match x.bursts[i]? with
  | none => d
  | some b =>
      if b.retries < chLimit x then
        chSet c { x with bursts := x.bursts.set i { b with sent := false, hold := true, retries := b.retries + 1 } } d
      else burstFails c b (chSet c { x with bursts := x.bursts.eraseIdx i } d)

/-- MOVER_BURST_COMPLETE (R207, R213): the oldest burst in flight is posted, was not sent, or was sent in part. -/
def burstDone (c : Nat) (res : BurstRes) (d : Dev) : Dev :=
  let x := chGet d c
  match x.bursts.findIdx? (fun b => b.sent && b.zlr.isNone) with
  | none => d
  | some i =>
      match x.bursts[i]? with
      | none => d
      | some b =>
          match res with
          | .ok => (match burstPort d b with
              | none => burstSeen c i d
              | some p => zeroOut (chFn x) p (chSet c { x with bursts := x.bursts.set i { b with zlr := some p } } d))
          | .notSent => burstUnsent c i d
          | .partly _ => burstFails c b (chSet c { x with bursts := x.bursts.eraseIdx i } d)

/-- A translation of a function's page is denied (R515): the first write burst of each of its channels that waits for it fails, untransmitted
(R213). -/
def moverDenied (f : FnId) (pg : Nat) (d : Dev) : Dev :=
  (d.chans.map (·.1)).foldl (fun d c =>
    let x := chGet d c
    if chFn x = f then
      (match x.bursts.findIdx? (fun b => !b.sent && !b.hold && decide (b.space = 0) && (pagesOf b.addr b.data.length).contains pg) with
      | none => d
      | some i => burstUnsent c i d)
    else d) d

/-- Zero-length reads on a port are complete, or the port is lost (R133, R207): the bursts behind them are visible. -/
def moverPort (port : Nat) (d : Dev) : Dev :=
  (d.chans.map (·.1)).foldl (fun d c =>
    ((chGet d c).bursts.filter (fun b => decide (b.zlr = some port))).foldl (fun d _ =>
      match (chGet d c).bursts.findIdx? (fun b => decide (b.zlr = some port)) with
      | none => d
      | some i => burstSeen c i d) d) d

/-- MOVER_BURST_RETRY (R213): the failing burst, the header or the line of instructions is issued again. A burst asks again for the
translation it lacks. -/
def burstRetry (c : Nat) (io : MovIo) (d : Dev) : Dev :=
  let x := chGet d c
  if x.again then
    let d := chSet c { x with again := false, retry := none } d
    if x.st ≠ .run ∨ x.stop = true then d
    else if x.needHdr then hostHeader c io.hdr (hostOut (chVia x) (chFn x) (.read (chImage x) 64) d)
    else match x.retry with
      | some w => doInstr c w io d
      | none => lineFetch c io d
  else
    let l := (x.bursts.filter (fun b => b.hold && decide (b.space = 0))).map (fun b => (b.addr, b.data.length, true))
    hostAsk (chFn x) l (chSet c { x with bursts := x.bursts.map (fun b => { b with hold := false }) } d)

/-- A meaning of the mover: the sequencer dispatches what is ready, then the programs go on. -/
def liveM (f : Dev → Dev) (d : Dev) : Dev := liveC (fun d => dispatchAll (f d)) d

/-! ### DISABLE, CLR_ERR, stops and resets (R211, R215, R219) -/

/-- `n` free 64-bit values. -/
def freeWords : Nat → Dev → List DWord × Dev
  | 0, d => ([], d)
  | n + 1, d =>
      let (v, d) := freeNext d
      let (l, d) := freeWords n d
      (BitVec.ofNat 64 v.toNat :: l, d)

/-- No read of the channel is held on a check block any more. -/
def chUnhold (c : Nat) (d : Dev) : Dev :=
  { d with refills := d.refills.filter (fun y => match y.reader with | .chan k _ => decide (k ≠ c) | _ => true) }

/-- The work of a channel is dropped at once (R215): writes already handed to a port still arrive, bursts not yet issued are not
issued; CH_BYTES, CH_PC, AR and LC are undefined: free values. -/
def dropWork (c : Nat) (d : Dev) : Dev :=
  let x := chGet d c
  let (by_, d) := freeWords 1 d
  let (pc, d) := freeWords 1 d
  let (ar, d) := freeWords 8 d
  let (lc, d) := freeWords 4 d
  chSet c { x with spend := false, sig := 0, bytes := by_.headD 0, pc := pc.headD 0, ar := ar
                   lc := lc.map (fun v => BitVec.ofNat 32 v.toNat), wait := none, bursts := []
                   got := [], retry := none, again := false, retries := 0, needHdr := false, stop := false }
    (rbtDrop c (releaseHand (chanStream c) (chUnhold c d)))

/-- DISABLE written 1 (R215). -/
def chDisable (c : Nat) (d : Dev) : Dev :=
  let x := chGet d c
  if x.st = .disabled then d
  else
    let d := dropWork c d
    chSet c { chGet d c with st := .disabled, err := 9 } d

/-- CLR_ERR (R211). -/
def chClrErr (c : Nat) (d : Dev) : Dev :=
  let x := chGet d c
  if x.st = .halted then chSet c { x with st := .idle, err := 0 } d else d

/-- A write of CH_CTL (R211, R217): DISABLE, then GO, then CLR_ERR. -/
def chCtlWrite (c : Nat) (v : Word) (d : Dev) : Dev :=
  let x := chGet d c
  let d := if bit v 31 then chDisable c d else if x.st = .disabled then chSet c { x with st := .idle } d else d
  let d := if bit v 30 then chStart c d else d
  if bit v 29 then chClrErr c d else d

/-- A stop by HALT or CLEAR (R211): in RUN issued bursts end, in WAIT it is IDLE at once. -/
def chStop (c : Nat) (d : Dev) : Dev :=
  let x := chGet d c
  let sent := x.bursts.filter (·.sent)
  let d := rbtDrop c d
  match x.st with
  | .run => stopCheck c (chSet c { x with stop := true, retry := none, again := false, got := [], bursts := sent } d)
  | .wait => moverRest c (chSet c { x with st := .idle, err := 0x0A, spend := false, wait := none, bursts := sent } d)
  | _ => moverRest c d

/-- A reset of a function stops its channels (R219). -/
def chFnReset (f : FnId) (d : Dev) : Dev :=
  (d.chans.filter (fun e => chOwner e.2 = some f)).foldl (fun d e =>
    let x := chGet d e.1
    if x.st = .run ∨ x.st = .wait then
      (let d := dropWork e.1 d
       chSet e.1 { chGet d e.1 with st := .idle, err := 0x0A } d)
    else chSet e.1 { x with spend := false } d) d

/-- An event timer fires (R194, R209): it releases WAITs and starts channels. -/
def moverTimer (t : Nat) (d : Dev) : Dev :=
  let d := (d.chans.filter (fun e => e.2.st = .wait ∧ e.2.wait = some (.timer t))).foldl (fun d e => chResume e.1 d) d
  trigger 1 t d

/-! ### The MOVER CCW (R66, R179, R274) -/

/-- A channel is committed to Signpost for a subchannel and set up for its MOVER CCW (R179, R274), and starts. -/
def moverRun (n c : Nat) (p : Prog) (d : Dev) : Dev :=
  let x := subGet d n
  let (_, w) := p.chain.headD (0, 0)
  let k := resKey 3 c
  let d := { d with commits := tins (tdel d.commits k) k ⟨.signpost, n⟩, sgMovLast := c }
  let d := progSet n { p with stage := .waitMover c } d
  chStart c (chSet c { chReset with
    cfg := setBits (setBits chReset.cfg 7 7 x.ownPort) 6 0 x.ownFn
    prog := setBits (ccwAddr w) 5 0 (ccwAsel w * 16), sub := some n } d)

/-- The MOVER CCW (R66): it takes a free channel, or waits for one behind the streams that wait already. An ADDR that is not a multiple
of 64 ends it with PGM (log entry 82). -/
def moverRow (n : Nat) (hdr : HostRead) (x : Sub) (h : Handler) (p : Prog) (d : Dev) : Dev :=
  let (a, w) := p.chain.headD (0, 0)
  if bits (ccwAddr w) 5 0 ≠ 0 then endNow n x h p (endC csPgm a (ccwCount w)) none d
  else match (if d.movWait.isEmpty then freeChannel d else none) with
    | some c => hostHeader c hdr (moverRun n c p d)
    | none => progSet n { p with stage := .waitMover Config.moverChannels } { d with movWait := d.movWait ++ [(n, 1)] }

/-- MOVER_CHANNEL_ASSIGN (R274): the stream that has waited longest receives the channels it needs, when they are free: a MOVER CCW its
one, a handler's command all of its together. -/
def moverAssign (n : Nat) (d : Dev) : Dev :=
  match d.movWait, progOf d n with
  | (m, k) :: t, some p =>
      if m ≠ n then d
      else match p.stage with
        | .waitMover _ => (match freeChannel d with
            | some c => moverRun n c p { d with movWait := t }
            | none => d)
        | _ => (takeChans n k { d with movWait := t }).getD d
  | _, _ => d

/-! ### Meanings -/

/-- MOVER (R66). -/
def execMover (sub : Nat) (hdr : HostRead) (s : State) : Host.Outcome State Fault Refusal :=
  run s (liveM (withCommand sub [0x0E] (moverRow sub hdr)))

/-- MOVER_CHANNEL_ASSIGN (R274). -/
def execMoverChannelAssign (sub : Nat) (s : State) : Host.Outcome State Fault Refusal :=
  run s (liveM (moverAssign sub))

/-- MOVE (R186). -/
def execMove (chan : Nat) (w : QWord) (io : MovIo) (s : State) : Host.Outcome State Fault Refusal :=
  run s (liveM (chExec 1 chan w io))

/-- MOVEX (R190). -/
def execMovex (chan : Nat) (w : QWord) (io : MovIo) (s : State) : Host.Outcome State Fault Refusal :=
  run s (liveM (chExec 2 chan w io))

/-- LOOP (R193). -/
def execLoop (chan : Nat) (w : QWord) (io : MovIo) (s : State) : Host.Outcome State Fault Refusal :=
  run s (liveM (chExec 3 chan w io))

/-- WAIT (R194). -/
def execMoverWait (chan : Nat) (w : QWord) (io : MovIo) (s : State) : Host.Outcome State Fault Refusal :=
  run s (liveM (chExec 4 chan w io))

/-- MOVER_WAIT_DELAY_EXPIRY (R194): DEVTIME reaches the end of a TYPE 2 delay. -/
def execMoverWaitDelayExpiry (chan : Nat) (s : State) : Host.Outcome State Fault Refusal :=
  run s (liveM (fun d =>
    match (chGet d chan).wait with
    | some (.delay t) => chResume chan (advanceTo t d)
    | _ => d))

/-- SIGNAL (R195). -/
def execSignal (chan : Nat) (w : QWord) (io : MovIo) (s : State) : Host.Outcome State Fault Refusal :=
  run s (liveM (chExec 5 chan w io))

/-- XFORM (R196). -/
def execXform (chan : Nat) (w : QWord) (io : MovIo) (s : State) : Host.Outcome State Fault Refusal :=
  run s (liveM (chExec 6 chan w io))

/-- PARITY (R198). -/
def execParity (chan : Nat) (w : QWord) (io : MovIo) (s : State) : Host.Outcome State Fault Refusal :=
  run s (liveM (chExec 7 chan w io))

/-- NOP (R200). -/
def execMoverNop (chan : Nat) (w : QWord) (io : MovIo) (s : State) : Host.Outcome State Fault Refusal :=
  run s (liveM (chExec 0 chan w io))

/-- END (R200). -/
def execProgEnd (chan : Nat) (w : QWord) (io : MovIo) (s : State) : Host.Outcome State Fault Refusal :=
  run s (liveM (chExec 0x0F chan w io))

/-- MOVER_BURST_COMPLETE (R207). -/
def execMoverBurstComplete (chan : Nat) (res : BurstRes) (s : State) : Host.Outcome State Fault Refusal :=
  run s (liveM (burstDone chan res))

/-- MOVER_BURST_RETRY (R213). -/
def execMoverBurstRetry (chan : Nat) (io : MovIo) (s : State) : Host.Outcome State Fault Refusal :=
  run s (liveM (burstRetry chan io))

end Sys2Proof.Machine
end

