-- ==== Sys2Proof/Machine/Functions.lean ====
section
/-!
DEFINITION. The functions of a subchannel (R88 to R113), the claim of a START, the events of R114 and R116, leases, and
reset clears (R130 to R132).
-/
namespace Sys2Proof.Machine

open Sys2Proof

/-! ### The record (R90, R91) -/

/-- The engine holds a fetched CCW (AC_CCW). -/
def holdsCcw (p : Prog) : Bool :=
  match p.stage with
  | .fetch _ _ _ => !p.chain.isEmpty
  | .refetch _ => false
  | .waitGroup _ _ _ _ => true
  | .ready => true
  | .running => true
  | .waitEvent _ _ => true
  | .waitMover _ => true
  | .inPack => true
  | .copying _ _ _ _ => true
  | .atSuspend _ => false
  | .stopped => !p.grp.isEmpty

/-- The 1,024 bits of a subchannel's record (R90). -/
def recordBits (n : Nat) (d : Dev) : Nat × Dev :=
  let s := subGet d n
  let (hp, d) := hprivBits s d
  let ccw := match progOf d n with | some p => holdsCcw p | none => false
  let lease := match s.lease with | some f => fieldN 463 456 (fnCode f) + fieldN 455 455 1 | none => 0
  (fieldN 1023 768 (senseWord s.sense) + fieldN 767 512 hp + fieldN 511 464 (s.leaseEnd.toNat / 65536) + lease
   + fieldN 451 451 s.pinned.toNat + fieldN 450 448 s.home + fieldN 447 384 s.ckptSeq.toNat + fieldN 383 376 s.hpack
   + fieldN 375 372 s.key + fieldN 371 360 s.cring + fieldN 351 351 s.ownPort + fieldN 350 344 s.ownFn
   + fieldN 323 323 s.imm.toNat + fieldN 322 322 s.isup.toNat + fieldN 321 321 s.unordDef.toNat
   + fieldN 320 320 s.idemDef.toNat + fieldN 319 256 s.position.toNat + fieldN 255 224 s.bindArg.toNat
   + fieldN 223 208 s.devId.toNat + fieldN 207 200 s.queue + fieldN 196 192 s.dport + fieldN 191 160 s.tag.toNat
   + fieldN 159 128 s.residual.toNat + fieldN 127 64 s.ccwAddr.toNat + fieldN 59 56 s.lastFn + fieldN 47 40 s.dstat.toNat
   + fieldN 39 32 s.cstat.toNat + fieldN 26 26 s.scAlert.toNat + fieldN 25 25 s.scSec.toNat + fieldN 24 24 s.scPri.toNat
   + fieldN 18 18 (!(progOps d n).isEmpty).toNat + fieldN 17 17 ccw.toNat + fieldN 16 16 (decide (s.st = .suspended)).toNat
   + fieldN 10 10 (decide (s.st = .clearPending)).toNat + fieldN 9 9 (decide (s.st = .haltPending)).toNat
   + fieldN 8 8 s.fcStart.toNat + fieldN 4 4 s.rp.toNat + fieldN 3 0 s.st.code, d)

/-! ### Checks (R89, R95, R97, R102) -/

/-- The response of R102 for a function in a state; 0 is ACCEPTED. -/
def stateResp (st : SubState) (fcode : Nat) : Nat :=
  match fcode with
  | 1 => match st with
    | .idle => 0 | .statusPending => 2 | .notOperational => 3 | _ => 1
  | 2 => match st with
    | .idle => 0xA | .startPending => 0 | .active => 0 | .suspended => 0 | .haltPending => 1 | .clearPending => 1
    | .statusPending => 0xA | .notOperational => 3
  | 3 => match st with
    | .haltPending => 1 | .clearPending => 1 | .notOperational => 3 | _ => 0
  | 4 => match st with
    | .clearPending => 1 | _ => 0
  | 5 => match st with
    | .idle => 0 | .statusPending => 0 | .notOperational => 0 | _ => 1
  | 6 => 0
  | 7 => match st with
    | .notOperational => 3 | _ => 0
  | _ => match st with
    | .idle => 0 | .notOperational => 0 | _ => 1

/-- The lease allows the issuer (R111). -/
def leaseOk (s : Sub) (f : FnId) : Bool :=
  match s.lease with
  | none => true
  | some g => decide (g = f)

/-- Checks 2 to 6 of R97: the response of the first that fails; 0 when all pass. -/
def fnCheck (d : Dev) (t : TakeIn) : Nat :=
  let n := seSub t.entry
  let s := subGet d n
  let c := seFcode t.entry
  if Config.subchannels ≤ n ∨ hasRight t.fn s = false then 5
  else if c = 8 ∧ t.fn.fn ≠ 0 then 7
  else if permitted t.fn s c = false then 5
  else if stateResp s.st c ≠ 0 then stateResp s.st c
  else if (c = 5 ∨ c = 8) ∧ leaseOk s t.fn = false then 8
  else if c = 1 ∧ s.key ≠ 0 ∧ s.key ≠ seKey t.entry then 6
  else 0

/-- The function taken in under number `jseq`, when it is of the row's code and the earliest of its subchannel (R148). -/
def fnFind (d : Dev) (jseq code : Nat) : Option TakeIn :=
  match d.waiting.find? (fun t => t.jseq = jseq) with
  | none => none
  | some t =>
      if seFcode t.entry = code ∧ d.waiting.find? (fun u => seSub u.entry = seSub t.entry) = some t then some t else none

/-- A lease that has run out ends, with its journal record (R111). -/
def leaseLapse (n : Nat) (d : Dev) : Dev :=
  let x := subGet d n
  match x.lease with
  | some f =>
      if x.leaseEnd ≤ d.devtime then
        subSet n { x with lease := none, leaseEnd := 0 } (jput { jblank 0x07 f with sub := n } d)
      else d
  | none => d

/-- The function is accepted: its record, LAST_FN, and it leaves the take-in path (START keeps its slot, R160). -/
def fnAccept (t : TakeIn) (d : Dev) : Dev :=
  let n := seSub t.entry
  let d := fnRecord 1 0 t d
  let d := if seFcode t.entry = 1 then { d with waiting := d.waiting.filter (fun u => u.jseq ≠ t.jseq) } else fnFree t d
  subSet n { subGet d n with lastFn := seFcode t.entry } d

/-- Is the pack slot of a subchannel being activated live (R489)? Its functions wait, taken in and unclaimed. -/
def activating (d : Dev) (n : Nat) : Bool := d.activ.any (fun a => decide (a.slot = (subGet d n).hpack))

/-- Does a pack decide on a BIND of the subchannel (R333)? Its functions wait, taken in and unapplied. -/
def binding (d : Dev) (n : Nat) : Bool :=
  d.binds.any (fun b => decide (seSub b.take.entry = n) && d.waiting.any (fun t => decide (t.jseq = b.take.jseq)))

/-- Apply a function: find it, check it, and run `f` on it when the checks pass. It waits while 16 entries of its subchannel wait
under R156 (R157), and for the accesses to host memory that `touch` says it makes. -/
def fnApply (jseq code : Nat) (touch : TakeIn → Dev → List (DWord × Nat × Bool)) (f : TakeIn → Dev → Dev) (d : Dev) : Dev :=
  match fnFind d jseq code with
  | none => d
  | some t =>
      let n := seSub t.entry
      if activating d n || binding d n || decide (16 ≤ (d.stalled.filter (fun e => e.item.sub = n)).length) then d
      else
        let d := leaseLapse n d
        if fnCheck d t = 0 then hostGo t.fn (touch t d) (f t) d else fnRefuse t (fnCheck d t) d

/-- The accesses of a function that makes none. -/
def noTouch (_ : TakeIn) (_ : Dev) : List (DWord × Nat × Bool) := []

/-! ### START and its claim (R35, R82, R102, R160, R384) -/

/-- START (R102): the work item goes to the queue of the home district. -/
def startFn (t : TakeIn) (d : Dev) : Dev :=
  let n := seSub t.entry
  let d := fnAccept t d
  let s := subGet d n
  let s := { (s.enter .startPending) with fcStart := true, tag := seTag t.entry, scPri := false, scSec := false }
  let q := workQueue d s.home
  subSet n s { d with workq := tset d.workq s.home (q ++ [⟨t, n⟩]) [] }

/-- The program of a START (R38, R42, R139). -/
def progOfStart (t : TakeIn) (pos : DWord) (cp : Nat) : Prog :=
  { jseq := t.jseq, tag := seTag t.entry, key := seKey t.entry, ring := t.ring
    idem := if seIdo t.entry then some (seIdv t.entry) else none, first := seAddr t.entry, cp := cp
    stage := .ready, how := .first, chain := [], stopAt := none, pos := pos, run := none, grp := [], grpLast := false
    lastEnd := endC 0 (seAddr t.entry) 0, recov := false, ports := [], own := none, ticAt := (0, 0), pref := [], prefAt := none
    lastPort := none, sync := none, marks := [] }

/-- The claimed START begins (R42, R81): a first CCW address that is not 16-byte aligned is a program check, with residual 0 (log
entry 82); an inline CCW is its own fetch. -/
def beginProg (w : Work) (cp : Nat) (d : Dev) : Dev :=
  let n := w.sub
  let s := subGet d n
  let p := progOfStart w.take s.position cp
  let d := progSet n p (subSet n { s with st := .active } d)
  let a := seAddr w.take.entry
  if bits a 3 0 ≠ 0 then ccwFails n p (endC csPgm a 0) d
  else if seInl w.take.entry then ccwArrived n p a .first false (seIccw w.take.entry) d
  else fetchCcw n p a .first false d

/-- A CP has claimed a START (R114, R160): its slot is free, and the program begins, or waits while the device-wide
limit of operations is reached (R35). For a BIND that it claims it calls the pack's BIND entry (R333). -/
def claimStart (w : Work) (cp : Nat) (d : Dev) : Dev :=
  match d.binds.find? (fun b => b.take.jseq = w.take.jseq) with
  | some b => bindCall b cp d
  | none =>
  let d := fnFree w.take d
  if (subGet d w.sub).st ≠ .startPending then d
  else if slotsFree d cp 1 = true ∧ activating d w.sub = false then beginProg w cp d
  else { d with startWait := d.startWait ++ [w] }

/-- The first CP in service with a free operation slot (R6, R35). -/
def freeCp (d : Dev) : Option Nat :=
  ((List.range 64).filterMap (fun b => slotCp d (b / 8) (b % 8))).find? (fun i => slotsFree d i 1)

/-- Waiting STARTs begin as operation slots become free (R35), in order, on the first CP in service that has one. -/
def admitStarts : List Work → Dev → Dev
  | [], d => d
  | w :: t, d =>
      match freeCp d with
      | some i =>
          if activating d w.sub = false ∧ (subGet d w.sub).st = .startPending then admitStarts t (beginProg w i d)
          else admitStarts t { d with startWait := d.startWait ++ [w] }
      | none => admitStarts t { d with startWait := d.startWait ++ [w] }

/-- Set commands whose next row waited for slots go on (R79). -/
def rowSweep (d : Dev) : Dev := (d.progs.map (·.1)).foldl (fun d n => rowGo n d) d

/-- OP_ISSUEs that wait for a slot get their ledger entries, in order (R79, R336): EVENT is called with the token. -/
def admitOps : List (Nat × Nat) → Dev → Dev
  | [], d => d
  | (n, cls) :: t, d =>
      match progOf d n with
      | none => admitOps t d
      | some p =>
          if slotsFree d p.cp 1 then (let (k, d) := ledgerPut n cls d; admitOps t (callEv n 4 3 k d))
          else admitOps t { d with opWait := d.opWait ++ [(n, cls)] }

/-! ### Replay (R442 to R449) -/

/-- The CPs of a district with a role. -/
def roleIn (d : Dev) (dist : Nat) (r : CpRole) : List Nat := (span (9 * dist) 9).filter (fun i => decide ((cpGet d i).role = r))

/-- A run whose operation t has become operation u. -/
def renameOp (t u : Nat) (r : Run) : Run := { r with ops := r.ops.map (fun x => if x = t then u else x) }

/-- REDO of a vendor handler's operation (R443): its single re-issue to the same device, under a new token, so that a late
completion of the first issue is discarded (R445). -/
def redoOp (t j : Nat) (o : Op) (d : Dev) : Dev :=
  let u := d.nextTok
  let port := livePath d (subGet d o.dev) o.dport
  let d := { d with nextTok := u + 1, ops := tins (tdel d.ops t) u { o with reissued := true, cp := j, dport := port } }
  let d := match progOf d o.sub with
    | none => d
    | some p => progSet o.sub { p with run := p.run.map (renameOp t u), grp := p.grp.map (renameOp t u) } d
  emit (.devOp port o.dev u o.kind) d

/-- One operation of a failed CP (R443): redone, or settled as a timeout (R449). A detached one keeps waiting (R132), and one whose completion
has arrived is complete. -/
def replayOp (j : Nat) (e : Nat × Op) (d : Dev) : Dev :=
  let t := e.1
  match d.ops.find? (fun x => x.1 = t) with
  | none => d
  | some (_, o) =>
      if o.detached || decide (o.kind = .pack) || decide (o.cond = .complete) then { d with ops := tins (tdel d.ops t) t { o with cp := j } }
      else if o.idem && !o.reissued then redoOp t j o d
      else match progOf d o.sub with
        | none => opFree t d
        | some p => match runOf p t with
          | none => opFree t d
          | some r => opEnded o.sub { r with fails := r.fails ++ [⟨o.member, 1, 1, !o.idem, o.from_, o.info, o.dport⟩] } t .ok (opFree t d)

/-- The command of an owner pack is recovered (R443): its context is rebuilt on the new CP and REISSUE is called; a
command that has issued nothing starts anew. -/
def replayPack (n j : Nat) (p : Prog) (o : OwnCmd) (d : Dev) : Dev :=
  let d := { d with packCalls := d.packCalls.filter (fun k => k.sub ≠ n ∨ k.entry = 7) }
  let ctx := freeCtx d j
  let o := { o with cp := j, ctx := ctx, xfers := [], timers := [], srcs := []
                    replay := some (0, 0) }
  let p := { p with cp := j, own := some o }
  let d := buildCtx n p ctx (progSet n p d)
  match o.toks.head?, d.packs.find? (fun e => e.1 = (subGet d n).hpack) with
  | some t, _ => callEv n 8 7 t d
  | none, some (_, pk) =>
      let code := ccwCode (p.chain.headD (0, 0)).2
      { d with packCalls := d.packCalls ++ [⟨j, n, (subGet d n).hpack, 0, bits (packEntry pk code) 63 32,
        BitVec.ofNat 32 ctx, BitVec.ofNat 32 n, BitVec.ofNat 32 code⟩] }
  | none, none => d

/-- A program of a failed CP goes on at CP j (R443, R445): REC is set, fetches in progress are made again, a pack's
command is recovered. -/
def replayProg (i j : Nat) (n : Nat) (d : Dev) : Dev :=
  match progOf d n with
  | none => d
  | some p =>
      if p.cp ≠ i then d
      else
        let p := { p with cp := j, recov := true }
        let p := { p with pref := [], prefAt := none }
        let d := progSet n p d
        match p.stage, p.own with
        | .fetch a _ _, _ => ccwRead n a d
        | .refetch a, _ => ccwRead n a d
        | _, some o => replayPack n j p o d
        | _, none => d

/-- Calls of pack entries that wait for CP i wait for CP j. -/
def moveCalls (i j : Nat) (d : Dev) : Dev :=
  { d with packCalls := d.packCalls.map (fun (k : PackCall) => if k.cp = i then { k with cp := j } else k) }

/-- The first of a list of CPs whose own operation slots have room for `k` more (R6). -/
def cpRoom (d : Dev) (k : Nat) (l : List Nat) : Option Nat :=
  l.find? (fun j => decide ((d.ops.filter (fun e => e.2.cp = j)).length + k ≤ 256))

/-- The operations of subchannel n's program, or those detached from it, whose slots CP i gave. -/
def opsHeld (d : Dev) (i n : Nat) (det : Bool) : List (Nat × Op) :=
  d.ops.filter (fun e => decide (e.2.cp = i) && decide (e.2.sub = n) && decide (e.2.detached = det))

/-- Work of failed CP i of subchannel n, with its operations, goes on at the first of `l` with slots for them; it stays where it is while
none has (R6, R442). -/
def moveWork (i : Nat) (l : List Nat) (det : Bool) (n : Nat) (d : Dev) : Dev :=
  let ops := opsHeld d i n det
  match cpRoom d ops.length l with
  | none => d
  | some j => ops.foldl (fun d e => replayOp j e d) (if det then d else replayProg i j n d)

/-- Everything CP i was doing is taken up by the CPs of `l` in order: hand-off entries and BINDs by the first (R394), programs and operations by the
first with slots for them (R442, R443). -/
def takeOver (i : Nat) (l : List Nat) (d : Dev) : Dev :=
  match l with
  | [] => d
  | j :: _ =>
      let h := (cpGet d i).handoff
      let d := cpSet i { cpGet d i with handoff := [] } d
      let d := moveCalls i j (cpSet j { cpGet d j with handoff := h ++ (cpGet d j).handoff } d)
      let d := (d.binds.filter (fun b => b.cp = some i)).foldl (fun d b => bindCall b j d) d
      let ns := (d.progs.filter (fun e => e.2.cp = i)).map (·.1)
      let ds := ((d.ops.filter (fun e => decide (e.2.cp = i))).map (·.2.sub)).eraseDups
      let d := ns.foldl (fun d n => moveWork i l false n d) d
      ds.foldl (fun d n => moveWork i l true n d) d

/-- Programs that no CP had slots for as theirs failed are taken up as slots become free (R442). -/
def replaySweep (d : Dev) : Dev :=
  (d.progs.filter (fun e => decide ((cpGet d e.2.cp).role ≠ .inService))).foldl (fun d e =>
    moveWork e.2.cp (roleIn d (e.2.cp / 9) .inService) false e.1 d) d

/-- A meaning after which what waits is looked at again: completions whose data waits (R156, R170, R228, R272, R515), and rows, STARTs and
programs that wait for operation slots (R35, R79, R442). -/
def liveP (f : Dev → Dev) (d : Dev) : Dev :=
  liveC (fun d =>
    let d := replaySweep (rowSweep (opHeldGo (f d)))
    let d := admitOps d.opWait { d with opWait := [] }
    admitStarts d.startWait { d with startWait := [] }) d

/-- Take a START that no CP has begun out of every queue (R102 "withdrawn"). -/
def withdrawWork (n : Nat) (d : Dev) : Option TakeIn × Dev :=
  let found := (((d.workq.map (·.2)).flatten ++ d.startWait).find? (fun w => w.sub = n)).map (·.take)
  let d := { d with
    workq := (d.workq.map (fun e => (e.1, e.2.filter (fun w => w.sub ≠ n)))).filter (fun e => !e.2.isEmpty)
    startWait := d.startWait.filter (fun w => w.sub ≠ n) }
  let d := (List.range 8).foldl (fun d q => trimQueue (0x2480 + q) d) d
  match found with
  | none => (none, d)
  | some t => (some t, fnFree t d)

/-- The final entry of a START withdrawn in START_PENDING (R105, R585). -/
def withdrawStart (n : Nat) (dv : Byte) (x : Option SenseSet) (st : Option SubState) (d : Dev) : Dev :=
  match withdrawWork n d with
  | (none, d) => d
  | (some t, d) =>
      let p := progOfStart t (subGet d n).position 0
      postFinal n p ⟨0, dv, seAddr t.entry, 0, false, x⟩ st (progSet n p d)

/-! ### HALT and CLEAR (R102 to R106) -/

/-- Where a program stands that is stopped between commands or before its command in hand has started (R70, R103). -/
def standEnd (p : Prog) : Ended :=
  match p.chain with
  | (a, w) :: _ => endC 0 a (ccwCount w)
  | [] => p.lastEnd

/-- Stop a program for HALT or CLEAR (R103, R105), by what it does. `why` is g3 of an owner pack's ABORT entry. -/
def stopProg (n why : Nat) (d : Dev) : Dev :=
  match progOf d n with
  | none => d
  | some p =>
      let quit := fun (d : Dev) =>
        if p.grp.isEmpty then postFinal n p (standEnd p) none d
        else groupCheck n { p with chain := [], stage := .stopped } d
      match p.stage with
      | .fetch _ _ _ => quit d
      | .refetch _ => quit d
      | .waitGroup _ _ _ _ => quit d
      | .ready => quit d
      | .running => rowGo n d
      | .waitEvent _ _ => endWait n dsEnd d
      | .waitMover c =>
          let (a, w) := p.chain.headD (0, 0)
          if c < Config.moverChannels ∧ (chGet d c).st ≠ .disabled then chStop c d
          else commandEnd n p p.chain (endC 0 a (ccwCount w)) none d
      | .inPack => callEv n 6 5 why d
      | .atSuspend a => postFinal n p (endC 0 a 0) none d
      | .copying _ _ k _ =>
          let (a, w) := p.chain.headD (0, 0)
          commandEnd n p p.chain (endC 0 a (ccwCount w - k)) none d
      | .stopped => d

/-- HALT (R102, R103). -/
def haltFn (t : TakeIn) (d : Dev) : Dev :=
  let n := seSub t.entry
  let d := fnAccept t d
  let s := subGet d n
  let hold := fun (d : Dev) => { d with fnHeld := d.fnHeld ++ [⟨n, t, false⟩] }
  match s.st with
  | .startPending => withdrawStart n 0 none none (hold (subSet n (s.enter .haltPending) d))
  | .active => stopProg n 0 (hold (subSet n (s.enter .haltPending) d))
  | .suspended => stopProg n 0 (hold (subSet n (s.enter .haltPending) d))
  | _ => fnEntry t 0 0 0 .none [] d

/-- CLEAR (R102 to R104): in NOT_OPERATIONAL the subchannel becomes IDLE, with its entry (R156), when the handler accepts the
binding. -/
def clearFn (accepts : Bool) (t : TakeIn) (d : Dev) : Dev :=
  let n := seSub t.entry
  let d := fnAccept t d
  let s := subGet d n
  let hold := fun (d : Dev) => { d with fnHeld := d.fnHeld ++ [⟨n, t, true⟩] }
  match s.st with
  | .startPending => withdrawStart n 0 none none (hold (subSet n (s.enter .clearPending) d))
  | .active => stopProg n 1 (hold (subSet n (s.enter .clearPending) d))
  | .suspended => stopProg n 1 (hold (subSet n (s.enter .clearPending) d))
  | .haltPending => stopProg n 1 (hold (subSet n (s.enter .clearPending) d))
  | .notOperational =>
      if accepts then fnEntry t 0 0 0 (.toState .idle) [] (clearActions n d) else clearDone false t d
  | _ => clearDone false t d

/-! ### RESUME, STORE and TEST (R83, R102, R112, R113) -/

/-- RESUME (R83, R102): in SUSPENDED the program goes on as its entry is placed (R156). -/
def resumeFn (t : TakeIn) (d : Dev) : Dev :=
  let n := seSub t.entry
  let d := fnAccept t d
  let s := subGet d n
  match s.st with
  | .suspended => fnEntry t 0 0 0 .resume [] d
  | _ => fnEntry t 0 0 0 .none [] (subSet n { s with rp := true } d)

/-- The write of a STORE. -/
def storeTouch (res : WriteRes) (t : TakeIn) (_ : Dev) : List (DWord × Nat × Bool) :=
  if bits (seAddr t.entry) 3 0 ≠ 0 then [] else [(seAddr t.entry, 128, decide (res = .ok))]

/-- STORE (R112): the snapshot goes to the issuer's memory; a failure shows in the entry. -/
def storeFn (res : WriteRes) (t : TakeIn) (d : Dev) : Dev :=
  let a := seAddr t.entry
  if bits a 3 0 ≠ 0 then fnRefuse t 9 d
  else
    let d := fnAccept t d
    let (r, d) := recordBits (seSub t.entry) d
    let b := leBytes 128 r
    match res with
    | .ok => fnEntry t 0 0 0 .none [portOf d .any t.fn a.toNat] (sendHost .any t.fn (.write a b) d)
    | .fail w =>
        let (q, d) := takePort .any t.fn a.toNat d
        let d := (List.range 128).foldl (fun d i =>
          if w.contains i then sendHost (.kept q) t.fn (.write (a + BitVec.ofNat 64 i) ((b.drop i).take 1)) d else d) d
        fnEntry t 9 0 0 .none [q] d

/-- TEST (R113): in STATUS_PENDING the pending status is returned and the subchannel becomes IDLE. -/
def testFn (t : TakeIn) (d : Dev) : Dev :=
  let n := seSub t.entry
  let d := fnAccept t d
  let s := subGet d n
  if s.st = .statusPending then
    fnEntry t 0 s.cstat s.dstat (.toState .idle) [] (subSet n { s with scAlert := false } d)
  else fnEntry t 0 0 0 .none [] d

/-! ### MODIFY and BIND (R107 to R111) -/

/-- Take, renew or release the lease (R111). -/
def setLease (ms : Nat) (f : FnId) (time : DWord) (s : Sub) : Sub :=
  if ms = 0 then { s with lease := none, leaseEnd := 0 }
  else { s with lease := some f, leaseEnd := time + BitVec.ofNat 64 (ms * 1000000) }

/-- The read of a MODIFY block. -/
def modifyTouch (blk : HostRead) (t : TakeIn) (_ : Dev) : List (DWord × Nat × Bool) :=
  if bits (seAddr t.entry) 3 0 ≠ 0 then [] else [(seAddr t.entry, 32, readOk blk)]

/-- MODIFY (R110). -/
def modifyFn (blk : HostRead) (t : TakeIn) (d : Dev) : Dev :=
  let n := seSub t.entry
  let a := seAddr t.entry
  if bits a 3 0 ≠ 0 then fnRefuse t 9 d
  else
    let d := hostOut .any t.fn (.read a 32) d
    match blk with
    | .err _ => fnRefuse t 9 d
    | .ok b =>
        let v : BitVec 256 := BitVec.ofNat 256 (leNat (fitBytes 32 b))
        let s := subGet d n
        let ms := bits v 191 160
        let bad := decide (bits v 7 0 ≠ 0x11) || decide (bits v 15 8 ≠ 0x20) || decide (bits v 255 192 ≠ 0)
          || decide (bits v 159 128 ≠ 0) || decide (bits v 111 24 ≠ 0) || decide (60000 < ms)
          || (bit v 23 && !((subOwner s).isSome && decide (crOwner d (bits v 127 116) = subOwner s)))
        if bad then fnRefuse t 9 d
        else
          let d := fnAccept t d
          let s := subGet d n
          let s := if bit v 23 then { s with cring := bits v 127 116 } else s
          let s := if bit v 22 then { s with key := bits v 115 112 } else s
          let s := if bit v 21 then { s with imm := bit v 19, isup := bit v 18 } else s
          let s := if bit v 20 then { s with unordDef := bit v 17, idemDef := bit v 16 } else s
          fnEntry t 0 0 0 .none [] (subSet n (setLease ms t.fn d.devtime s) d)

/-- Is a member of a set allowed (R56, R57, R109)? -/
def memberOk (d : Dev) (owner : FnId) (self u : Nat) (m : Nat) : Bool :=
  let y := subGet d m
  m < Config.subchannels && m ≠ self && decide (subOwner y = some owner) &&
  match handlerOf d y with
  | some .nvme => decide (y.hpriv.nsid ≠ 0) && decide (u % 2 ^ y.hpriv.bsLog = 0)
  | some .window => true
  | _ => false

/-- The members of a list block; none where an entry is wrong or a member appears twice (R108, R109). -/
def memberList (d : Dev) (owner : FnId) (self u k : Nat) (b : List Byte) : Option (List (Nat × Nat)) :=
  let es := (List.range (k + 2)).map (fun i => (BitVec.ofNat 128 (leNat ((b.drop (16 * i)).take 16)) : QWord))
  let ms := es.map (fun e => bits e 19 0)
  if es.any (fun e => bits e 63 20 ≠ 0) ∨ ms.any (fun m => !(memberOk d owner self u m)) ∨ ms.eraseDups.length ≠ ms.length
  then none else some (es.map (fun e => (bits e 19 0, bits e 127 64)))

/-- The member list that a BIND block of a set names, as a read: none where the block is refused before it (R108, R109). -/
def bindList (v : BitVec 512) : Option (DWord × Nat) :=
  let k := bits v 263 256
  let ul := bits v 271 264
  let a := bits v 255 192
  if bits v 511 272 ≠ 0 ∨ bits v 143 136 ≠ 0 ∨ bits v 135 128 ≠ 0xFF ∨ bits v 95 64 ≠ 0 ∨ k = 0 ∨ 32 < k ∨ ul < 12 ∨ 20 < ul
      ∨ a % 16 ≠ 0 then none
  else some (BitVec.ofNat 64 a, 16 * (k + 2))

/-- The handler-private state a BIND block gives (R108, R109); none where the block is refused. -/
def bindHpriv (n : Nat) (v : BitVec 512) (owner : FnId) (env : BindEnv) (d : Dev) : Option HPriv × Dev :=
  let hp := bits v 111 104
  let q := bits v 143 136
  let arg := bits v 95 64
  let dp := bits v 135 128
  let dev := env.enumerated && decide (dp ≤ 31) && decide (bits v 255 192 = 0)
  if hp = 0 then
    (if bits v 511 256 ≠ 0 ∨ q = 0 ∨ !dev ∨ (arg ≠ 0 ∧ !env.ns.active) then none
     else some { HPriv.none with nsid := arg, bsLog := if arg = 0 then 0 else env.ns.bsLog
                                 blocks := if arg = 0 then 0 else env.ns.blocks }, d)
  else if hp = 1 then
    (let base := bits v 319 256
     let w := bits v 383 320
     if bits v 511 384 ≠ 0 ∨ 5 < q ∨ !dev ∨ arg ≠ 0 ∨ w = 0 ∨ w % 4 ≠ 0 ∨ env.barSize < base + w then none
     else some { HPriv.none with base := base, size := w }, d)
  else if hp = 2 then
    match bindList v with
    | none => (none, d)
    | some (a, len) =>
        let d := hostOut .any owner (.read a len) d
        match env.members with
        | .err _ => (none, d)
        | .ok b => ((memberList d owner n (2 ^ bits v 271 264) (bits v 263 256) (fitBytes len b)).map (fun l =>
            { HPriv.none with members := l, uLog := bits v 271 264 }), d)
  else if !dev then (none, d)
  else
    let (a, d) := freeNext d
    let (b, d) := freeNext d
    (some { HPriv.none with raw := a ++ b }, d)

/-- Is a BIND block refused before its handler part is looked at (R109)? -/
def bindBad (v : BitVec 512) (env : BindEnv) (t : TakeIn) (d : Dev) : Bool :=
  let own : FnId := ⟨bits v 103 103, bits v 102 96⟩
  let port := fnGet d ⟨own.port, 0⟩
  decide (bits v 63 24 ≠ 0 ∨ bits v 18 16 ≠ 0 ∨ 60000 < bits v 191 160 ∨ own.port ≠ t.fn.port)
    || (decide (own.fn ≠ 0) && (!port.vfEnable || decide (port.numVfs < own.fn)))
    || !(d.packs.any (fun e => e.1 = bits v 111 104)) || !env.accepts || decide (crOwner d (bits v 127 116) ≠ some own)

/-- UNBIND (R107, R109): as an accepted BIND it clears SENSE and sets POSITION to 0; pending status is gone with the binding (log
entry 30). The state follows with the entry (R156). An owner pack's UNBIND entry is called (R333; log entry 105). -/
def unbind (n : Nat) (d : Dev) : Dev :=
  let d := unbindCall n ((roleIn d (subGet d n).home .inService).headD 0) d
  subSet n { subGet d n with
    ownPort := 0, ownFn := 0x7F, hpack := 0xFF, hpriv := HPriv.none, bindPriv := HPriv.none, sense := Sense.none, position := 0
    heldAttn := false, scAlert := false } d

/-- The bits of a BIND block. -/
def bindWord (b : List Byte) : BitVec 512 := BitVec.ofNat 512 (leNat (fitBytes 64 b))

/-- The reads of a BIND: its block, and a set's member list (R108). -/
def bindTouch (blk : HostRead) (env : BindEnv) (t : TakeIn) (d : Dev) : List (DWord × Nat × Bool) :=
  if bits (seAddr t.entry) 3 0 ≠ 0 then []
  else (seAddr t.entry, 64, readOk blk) :: (match blk with
    | .err _ => []
    | .ok b =>
        let v := bindWord b
        if bits v 7 0 ≠ 0x10 ∨ bits v 15 8 ≠ 0x40 ∨ bit v 23 = true ∨ bits v 111 104 ≠ 2 ∨ bindBad v env t d = true then []
        else match bindList v with
          | none => []
          | some (a, n) => [(a, n, readOk env.members)])

/-- An accepted BIND sets every field it carries (R109, R111, R265). A binding to an owner pack that it replaces is removed (R333). -/
def bindAccept (t : TakeIn) (v : BitVec 512) (h : HPriv) (alt : Option Nat) (d : Dev) : Dev :=
  let n := seSub t.entry
  let d := unbindCall n ((roleIn d (subGet d n).home .inService).headD 0) (fnAccept t d)
  let s := subGet d n
  let s := { s with
    devId := BitVec.ofNat 16 (bits v 159 144), queue := bits v 143 136, dport := bits v 135 128 % 32
    cring := bits v 127 116, key := bits v 115 112, hpack := bits v 111 104, ownPort := bits v 103 103, ownFn := bits v 102 96
    bindArg := BitVec.ofNat 32 (bits v 95 64), imm := bit v 22, isup := bit v 21, unordDef := bit v 20
    idemDef := bit v 19, position := 0, sense := Sense.none, hpriv := h, bindPriv := h
    altPort := alt, heldAttn := false, scAlert := false }
  let d := subSet n (setLease (bits v 191 160) t.fn d.devtime s) d
  fnEntry t 0 0 0 (if (subGet d n).st = .idle then .none else .toState .idle) [] (placeAtBind n d)

/-- A BIND whose pack's code must decide is an item of the work queue of the home district (R333, R384). -/
def bindAsk (t : TakeIn) (v : BitVec 512) (h : HPriv) (alt : Option Nat) (d : Dev) : Dev :=
  let n := seSub t.entry
  let e := (subGet d n).home
  { d with binds := d.binds ++ [⟨t, v, h, alt, none, 0⟩], workq := tset d.workq e (workQueue d e ++ [⟨t, n⟩]) [] }

/-- The BIND entry of a subchannel's pack has returned: it accepts the binding or refuses it (R109, R334). -/
def bindEnd (n : Nat) (ok : Bool) (d : Dev) : Dev :=
  match d.binds.find? (fun b => seSub b.take.entry = n) with
  | none => d
  | some b =>
      let live := binding d n
      let d := { d with binds := d.binds.filter (fun x => x.take.jseq ≠ b.take.jseq) }
      if !live then d
      else if ok then bindAccept b.take b.word b.hpriv b.alt d
      else fnRefuse b.take 9 d

/-- BIND (R107 to R109, R111, R265). The record's DPORT has 5 bits: that of a set, 0xFF in its block, reads 31 (log entry 86). -/
def bindFn (blk : HostRead) (env : BindEnv) (t : TakeIn) (d : Dev) : Dev :=
  let n := seSub t.entry
  let a := seAddr t.entry
  if bits a 3 0 ≠ 0 then fnRefuse t 9 d
  else
    let d := hostOut .any t.fn (.read a 64) d
    match blk with
    | .err _ => fnRefuse t 9 d
    | .ok b =>
        let v := bindWord b
        if bits v 7 0 ≠ 0x10 ∨ bits v 15 8 ≠ 0x40 then fnRefuse t 9 d
        else if bit v 23 then
          fnEntry t 0 0 0 (if (subGet d n).st = .idle then .none else .toState .idle) [] (unbind n (fnAccept t d))
        else
          let own : FnId := ⟨bits v 103 103, bits v 102 96⟩
          let hp := bits v 111 104
          if bindBad v env t d then fnRefuse t 9 d
          else match bindHpriv n v own env d with
            | (none, d) => fnRefuse t 9 d
            | (some h, d) =>
                let alt := if hp = 0 then env.alt else none
                if hp < 3 then bindAccept t v h alt d else bindAsk t v h alt d

/-! ### Detachment, loss and reset clears (R114, R130 to R132, R585) -/

/-- Is a detached operation uncertain (R132)? Of an owner pack's the ledger tells (R337); of a vendor handler's, whether the device has
begun it. -/
def begunOp (begun : List Nat) (e : Nat × Op) : Bool :=
  decide (e.2.cond = .uncertain) || (begun.contains e.1 && decide (e.2.kind ≠ .pack))

/-- The end of a run whose operations in flight are judged as if their timeouts had passed (R132): with what had failed before, and
stopped at the first byte not proven (R128). -/
def judgedEnd (begun : List Nat) (ops : List (Nat × Op)) (r : Run) : Ended :=
  match r.ended with
  | some e => ltolEnd r.ccws e
  | none =>
      let mine := ops.filter (fun e => r.ops.contains e.1)
      let fails := r.fails ++ (mine.filter (begunOp begun)).map (fun e => ⟨e.2.member, 1, 1, !e.2.idem, e.2.from_, e.2.info, e.2.dport⟩)
      let (a, x) := stopAt r.ccws ((mine.map (·.2.from_)).foldl min (firstLost r))
      if fails.isEmpty then endC 0 a x else { runEnd { r with fails := fails } with last := a, resid := BitVec.ofNat 32 x }

/-- How a program ends whose operations are detached (R132, R585): `begun` are the operations in flight that the device has begun.
Its status and place are those of its first command or member that failed or is unfinished; it carries IFCC when any operation is or was
found uncertain, and OU when one of those is not idempotent (R127, R131). -/
def detachEnd (n : Nat) (p : Prog) (begun : List Nat) (d : Dev) : Ended :=
  let ops := progOps d n
  let runs := p.run.toList ++ p.grp
  let ends := runs.map (judgedEnd begun ops)
  let fails := ((p.own.map (·.fails)).getD []).filter (fun f => decide (f.kind = 1 ∨ f.kind = 2))
  let unc := ops.filter (begunOp begun)
  let first := (runs.zip ends).find? (fun x => x.1.ended.isNone || isError x.2.c x.2.dv || !(memberGood x.1))
  let base := match first with
    | some x => x.2
    | none => match p.stage with
      | .atSuspend a => endC 0 a 0
      | _ => standEnd p
  let ifcc := !unc.isEmpty || !fails.isEmpty || ends.any (fun e => decide (e.c &&& csIfcc ≠ 0))
  { base with
    c := base.c ||| (if ifcc then csIfcc else 0)
    ou := unc.any (fun e => !e.2.idem) || fails.any (·.nonIdem) || ends.any (·.ou), sense := none }

/-- Detach every operation of a subchannel in flight; they keep the program's slices (R132). One that is complete, or settled, gives its
slot up. -/
def detachOps (n : Nat) (d : Dev) : Dev :=
  let gone := (((progOf d n).bind (·.own)).map (·.settled)).getD []
  let d := match progOf d n with
    | some p => if (progOps d n).isEmpty then d else detachSlices n p.jseq d
    | none => d
  { d with ops := (d.ops.filter (fun e => !(decide (e.2.sub = n) && !e.2.detached && (decide (e.2.cond = .complete) || gone.contains e.1)))).map (fun e =>
      if e.2.sub = n then (e.1, { e.2 with detached := true }) else e) }

/-- Has the final entry of the program been made already? -/
def finalMade (p : Prog) : Bool := decide (p.stage = .stopped) && p.run.isNone && p.grp.isEmpty

/-- The channel of a program's MOVER CCW stops at its next burst boundary, and serves the program no more (R103, R585). -/
def quitChan (p : Prog) (d : Dev) : Dev :=
  match p.stage with
  | .waitMover c =>
      if c < Config.moverChannels then chStop c (chSet c { chGet d c with sub := none } d) else d
  | _ => d

/-- A subchannel loses its device or handler (R114, R585). INFO of its sense data, where no one operation failed, is the record's
position: the spec does not say (log entry 103). -/
def loseSub (qual : Nat) (begun : List Nat) (n : Nat) (d : Dev) : Dev :=
  let s := subGet d n
  let x : SenseSet := ⟨8, qual, s.position.toNat, 0, false, none⟩
  let alert := fun (d : Dev) => postAlert n dsUc .notOperational (setSense n x false d)
  match s.st with
  | .notOperational => d
  | .idle => alert d
  | .statusPending => alert d
  | .startPending => withdrawStart n dsUc (some x) (some .notOperational) d
  | _ =>
      match progOf d n with
      | none => alert d
      | some p =>
          if finalMade p then alert d
          else
            let e := detachEnd n p begun d
            let d := quitChan p (detachOps n d)
            postFinal n { p with run := none, grp := [] } { e with dv := dsEnd ||| dsUc, sense := some x }
              (some .notOperational) d

/-- Subchannels a loss concerns (R116, R273): a path pair with one path surviving is no loss. -/
def lostSubs (d : Dev) : LossScope → List Nat
  | .sub s => [s]
  | .pack h => (d.subs.filter (fun e => e.2.hpack = h)).map (·.1)
  | .dport p =>
      (d.subs.filter (fun e =>
        e.2.hpack != 0xFF && e.2.hpack != 2 &&
        (match e.2.altPort with
        | none => decide (e.2.dport = p)
        | some a => (decide (e.2.dport = p) && !(dpUp d a)) || (decide (a = p) && !(dpUp d e.2.dport))))).map (·.1)

/-- Attention (R114, R115). -/
def attention (n : Nat) (d : Dev) : Dev :=
  let s := subGet d n
  if s.hpack = 0xFF then d
  else match s.st with
    | .idle => postAlert n 0x10 .statusPending d
    | .statusPending => postAlert n 0x10 .statusPending d
    | .clearPending => d
    | .notOperational => d
    | _ => subSet n { s with heldAttn := true } d

/-- The journal's final record of a program that a reset clear ended (R131): marked reset clear, its entry discarded. -/
def clearRecord (n : Nat) (jseq : Nat) (tag : Word) (named : Option Nat) (recov : Bool) (e : Ended) (d : Dev) : Dev :=
  let s := subGet d n
  let fl := flagFin + (if e.ou then flagOu else 0) + (if recov then flagRec else 0)
  let arg := if e.c &&& csIfcc ≠ 0 then 9 else 0
  jput { jentry 0x03 (ownerOf s) n jseq e.last e.resid tag (boundRing (chooseRing d named (ownerOf s) s) named s) 1 0 e.dv e.c fl arg with rclr := true, disc := true } d

/-- A subchannel serves no mover channel any more, and its streams none; the channels keep their commitments (R219). -/
def dropChans (n : Nat) (d : Dev) : Dev :=
  { d with
    movWait := d.movWait.filter (fun y => y.1 ≠ n)
    strChans := d.strChans.filter (fun y => y.2.1 ≠ n)
    opWait := d.opWait.filter (fun w => w.1 ≠ n)
    chans := d.chans.map (fun e => if e.2.sub = some n then (e.1, { e.2 with sub := none }) else e) }

/-- A reset clear of one subchannel (R114, R131, R132). It is CLEAR_PENDING until its reset clear completes, as `idleTick` makes it;
an idle, suspended or status-pending one is IDLE at once. -/
def resetClear (begun : List Nat) (n : Nat) (d : Dev) : Dev :=
  let was := (subGet d n).st
  let d := match progOf d n with
    | some p => if p.own.isSome then callEv n 6 5 2 d else d
    | none => d
  let (t, d) := withdrawWork n d
  let d := match t with
    | some t => clearRecord n t.jseq (seTag t.entry) t.ring false ⟨0, dsTrm, seAddr t.entry, 0, false, none⟩ d
    | none => d
  let d := match progOf d n with
    | some p =>
        if finalMade p then d
        else (let e := detachEnd n p begun d; clearRecord n p.jseq p.tag p.ring p.recov { e with dv := e.dv ||| dsEnd ||| dsTrm } d)
    | none => d
  let gone := (d.waiting ++ d.dsWait).filter (fun t => seSub t.entry = n)
  let d := gone.foldl (fun d t => fnFree t d) d
  let d := releaseSlices n <| dropChans n <| releaseLedger n <| detachOps n { d with evtWait := d.evtWait.filter (· ≠ n) }
  let d := { d with
    waiting := d.waiting.filter (fun t => seSub t.entry ≠ n)
    dsWait := d.dsWait.filter (fun t => seSub t.entry ≠ n)
    progs := d.progs.filter (fun e => e.1 ≠ n)
    stalled := d.stalled.filter (fun e => e.item.sub ≠ n)
    opHeld := d.opHeld.filter (fun h => !((d.ops.find? (fun e => e.1 = h.1)).any (fun e => decide (e.2.sub = n))))
    fnHeld := d.fnHeld.filter (fun h => h.sub ≠ n) }
  let d := clearActions n d
  let s : Sub := subGet d n
  let s : Sub := { s with lease := none, leaseEnd := 0, fcStart := false, swStl := false, swHold := none, swHeld := false }
  match was with
  | .notOperational => subSet n s d
  | .idle => subSet n (s.enter .idle) d
  | .suspended => subSet n (s.enter .idle) d
  | .statusPending => subSet n (s.enter .idle) d
  | _ => subSet n (s.enter .clearPending) { d with clearing := d.clearing ++ [n] }

/-- Reset clears complete (R132): their subchannels are IDLE and take functions again. -/
def resetClearsDone (d : Dev) : Dev :=
  d.clearing.foldl (fun d n =>
    let s := subGet d n
    if s.st = .clearPending then subSet n (s.enter .idle) d else d) { d with clearing := [] }

/-- The reset clears of one reset (R130): every subchannel an affected function owns, and its channels (R219). -/
def resetClears (fs : List FnId) (begun : List Nat) (d : Dev) : Dev :=
  let d := (d.subs.filter (fun e => match subOwner e.2 with | some f => fs.contains f | none => false)).foldl
    (fun d e => resetClear begun e.1 d) d
  fs.foldl (fun d f => chFnReset f d) d

/-! ### Claims (R381, R384) -/

/-- An entry of the hand-off FIFO (R384). -/
def workWord (w : Work) : BitVec 256 :=
  let e := w.take.entry
  BitVec.ofNat 256
    (fieldN 255 192 w.take.jseq + fieldN 191 128 (seAddr e).toNat + fieldN 127 96 (seTag e).toNat
     + fieldN 95 84 (seCring e) + fieldN 83 64 w.sub + fieldN 63 60 (seFcode e) + fieldN 59 56 (seKey e)
     + fieldN 55 55 (seInl e).toNat + fieldN 54 54 (seIdo e).toNat + fieldN 53 53 (seIdv e).toNat
     + fieldN 52 52 w.take.ring.isSome.toNat + fieldN 51 40 w.take.srcIx + fieldN 39 39 w.take.ds.toNat
     + fieldN 38 38 w.take.fn.port + fieldN 37 31 w.take.fn.fn + fieldN 0 0 1)

/-- A read of WORK_7 (R384) removes the head of the CP's hand-off FIFO; it answers bits [255:224]. -/
def workPop (i : Nat) (d : Dev) : Dev :=
  let c := cpGet d i
  match c.handoff with
  | [] => emit (.cpValue i 0) d
  | w :: t => emit (.cpValue i (BitVec.ofNat 32 (bits (workWord w) 255 224))) (cpSet i { c with handoff := t } d)

/-! ### D0 and translations (R170, R515) -/

/-- After a function's accesses to host memory may go on: the requests that waited leave, operations that could not deliver their
data end, and the sequencer dispatches bursts (R170, R206). -/
def hostResume (d : Dev) : Dev := dispatchAll (opHeldGo (releaseOut d))

/-- Return to D0 (R170): held requests and entries go in order, then every due message. -/
def d0Return (f : FnId) (d : Dev) : Dev :=
  let due := (fnGet d f).dueMsgs
  let d := hostResume (fnSet f { fnGet d f with d3hot := false, dueMsgs := [] } d)
  let d := (ringsOf d f).foldl (fun d n => ringProgress n d) d
  let d := due.foldl (fun d n => sendMessage n d) d
  (unmasked d f).foldl (fun d v => vecOut f v d) d

/-- The answer of a translation request (R515): the page it gives, and what waited for it goes on; denied, the ring that waited has a
write error, a mover burst that waited fails, and a request that waited is not made. -/
def atsAnswer (f : FnId) (a : DWord) (answer : Option DWord) (d : Dev) : Dev :=
  let pg := a.toNat / 4096
  let granted := answer.isSome
  let d := { d with xasked := d.xasked.filter (· ≠ (fnKey f, pg)) }
  let d := match answer with
    | some x => { d with xlate := d.xlate.filter (fun y => !(decide (y.1 = fnKey f) && decide (y.2.1 = pg))) ++ [(fnKey f, pg, x.toNat / 4096)] }
    | none => moverDenied f pg { d with outHeld := d.outHeld.filter (fun x => !(decide (x.1 = f) && (outPages d f x.2.2).contains pg)) }
  let d := hostResume d
  ((ringsOf d f).filter (fun n => (crGet d n).xwait.map (fun x => x.toNat / 4096) = some pg)).foldl (fun d n =>
    let d := crSet n { crGet d n with xwait := none } d
    if granted then ringProgress n d else ringWriteError n d) d

/-! ### Meanings -/

/-- D0_RETURN (R170). -/
def execD0Return (f : FnId) (s : State) : Host.Outcome State Fault Refusal := run s (liveP (d0Return f))

/-- ATS_TRANSLATION_COMPLETE (R515). -/
def execAtsTranslationComplete (f : FnId) (addr : DWord) (answer : Option DWord) (s : State) : Host.Outcome State Fault Refusal :=
  run s (liveP (atsAnswer f addr answer))

/-- ZERO_LENGTH_READ_COMPLETE (R21, R165, R207). -/
def execZeroLengthReadComplete (port : Nat) (s : State) : Host.Outcome State Fault Refusal :=
  run s (liveP (fun d => opHeldGo (moverPort port (portDone port d))))

/-- START (R102). -/
def execStart (jseq : Nat) (s : State) : Host.Outcome State Fault Refusal := run s (liveP (fnApply jseq 1 noTouch startFn))

/-- RESUME (R83, R102). -/
def execResume (jseq : Nat) (s : State) : Host.Outcome State Fault Refusal := run s (liveP (fnApply jseq 2 noTouch resumeFn))

/-- HALT (R102, R103). -/
def execHalt (jseq : Nat) (s : State) : Host.Outcome State Fault Refusal := run s (liveP (fnApply jseq 3 noTouch haltFn))

/-- CLEAR (R102, R104). -/
def execClear (jseq : Nat) (accepts : Bool) (s : State) : Host.Outcome State Fault Refusal :=
  run s (liveP (fnApply jseq 4 noTouch (clearFn accepts)))

/-- MODIFY (R110). -/
def execModify (jseq : Nat) (blk : HostRead) (s : State) : Host.Outcome State Fault Refusal :=
  run s (liveP (fnApply jseq 5 (modifyTouch blk) (modifyFn blk)))

/-- STORE (R112). -/
def execStore (jseq : Nat) (res : WriteRes) (s : State) : Host.Outcome State Fault Refusal :=
  run s (liveP (fnApply jseq 6 (storeTouch res) (storeFn res)))

/-- TEST (R113). -/
def execTest (jseq : Nat) (s : State) : Host.Outcome State Fault Refusal := run s (liveP (fnApply jseq 7 noTouch testFn))

/-- BIND (R109). -/
def execBind (jseq : Nat) (blk : HostRead) (env : BindEnv) (s : State) : Host.Outcome State Fault Refusal :=
  run s (liveP (fnApply jseq 8 (bindTouch blk env) (bindFn blk env)))

/-- WORK_CLAIM (R384). -/
def execWorkClaim (cp : Nat) (s : State) : Host.Outcome State Fault Refusal := run s (workPop cp)



/-- DOWNSTREAM_OP_COMPLETE (R124). -/
def execDownstreamOpComplete (op : Nat) (res : DevRes) (wr : WriteRes) (s : State) : Host.Outcome State Fault Refusal :=
  run s (liveP (opComplete op res wr))

/-- DOWNSTREAM_LINK_ERROR (R126, R127): `aer` is DPORT's AER status when the error was logged. -/
def execDownstreamLinkError (op : Nat) (cond : OpCond) (aer : Word) (s : State) : Host.Outcome State Fault Refusal :=
  run s (liveP (opTrouble op 2 cond aer.toNat))

/-- The timeout of a memory-window operation is the completion timeout of its root port (R126), which
counts it (R530); of one that is complete no timeout occurs. -/
def ctoNote (op : Nat) (cond : OpCond) (d : Dev) : Dev :=
  match d.ops.find? (fun e => e.1 = op) with
  | none => d
  | some (_, o) => match o.kind with
    | .winRead _ _ _ | .winWrite _ _ _ _ | .winFence =>
        if o.cond = .complete ∨ cond = .complete then d
        else pageEvent (0x40 + o.dport) 4 (regBump .dpCtocnt o.dport d)
    | _ => d

/-- HANDLER_TIMEOUT (R126, R127). -/
def execHandlerTimeout (op : Nat) (cond : OpCond) (s : State) : Host.Outcome State Fault Refusal :=
  run s (liveP (fun d => opTrouble op 1 cond 1 (ctoNote op cond d)))

/-- DEVICE_OR_HANDLER_LOST (R116, R585): `begun` are the operations that are uncertain. -/
def execDeviceOrHandlerLost (scope : LossScope) (qual : Nat) (begun : List Nat) (s : State) :
    Host.Outcome State Fault Refusal :=
  run s (liveP (fun d => (lostSubs d scope).foldl (fun d n => loseSub qual begun n d) d))

/-- ATTENTION (R114, R115). -/
def execAttention (sub : Nat) (s : State) : Host.Outcome State Fault Refusal := run s (liveA (attention sub))

/-- LEASE_EXPIRY (R111): DEVTIME has reached the end of a lease. -/
def execLeaseExpiry (sub : Nat) (s : State) : Host.Outcome State Fault Refusal :=
  run s (live (fun d =>
    match (subGet d sub).lease with
    | none => d
    | some _ => leaseLapse sub (advanceTo (subGet d sub).leaseEnd d)))

end Sys2Proof.Machine
end

