-- ==== Sys2Proof/Machine/PlazaOps.lean ====
section
/-!
DEFINITION. Plaza's slices, reservations and scratch areas, refills of check blocks, Boulevard and lane-group faults,
Roundabout and the starvation watch (R16, R17, R220 to R247, R269, R270).
-/
namespace Sys2Proof.Machine

open Sys2Proof

/-! ### Grants to owner packs (R225, R336) -/

/-- The reservation becomes pages of the command's aperture 10 (R336); the offset of the first. -/
def pzPages (n : Nat) (l : List Nat) (d : Dev) : Nat × Dev :=
  match progOf d n with
  | none => (0, d)
  | some p => match p.own with
    | none => (0, d)
    | some o =>
        let base := (o.res.map (fun r => r.1 + 1)).foldl max 0
        (4096 * base, progSet n { p with own := some { o with
          res := o.res ++ (l.zipIdx).map (fun x => (base + x.2, x.1))
          held := o.held ++ [(4096 * base, l.length)] } } d)

/-- The reservation of a class that waits first, when it may be granted now (R225). -/
def pzNext (cls : Nat) (d : Dev) : Option (PzRes × List Nat × Dev) :=
  match d.resv.find? (fun r => r.cls = cls) with
  | none => none
  | some r => (pzGrant r.sub cls r.n r.ends { d with resv := d.resv.filter (fun x => x.id ≠ r.id) }).map (fun g => (r, g))

/-- PZ_RESERVATION_GRANT (R225): the reservation of a class that waits first is granted when it fits and no lower class has one
that does, since the classes are examined in order. An owner pack goes on through EVENT, whose token is the reservation's offset in
aperture 10 (R336; log entry 112); a vendor command goes on with its row. -/
def pzGrantFirst (cls : Nat) (d : Dev) : Dev :=
  if (List.range cls).any (fun k => (pzNext k d).isSome) then d
  else match pzNext cls d with
    | none => d
    | some (r, l, e) =>
        if ((progOf d r.sub).bind (·.own)).isSome then (let (off, e) := pzPages r.sub l e; callEv r.sub 4 3 off e) else e

/-! ### Scratch areas (R223, R224) -/

/-- Does R224 refuse a scratch commit of `n` slices? -/
def scratchFits (d : Dev) (n : Nat) : Bool :=
  decide (n + ((List.range 4).map (unmet d)).foldl (· + ·) 0 ≤ pzFree d)

/-- Fill a slice with zeros. -/
def zeroSlice (s : Nat) (d : Dev) : Dev :=
  { d with plaza := d.plaza.filter (fun c => c.1 / 4096 ≠ s) }

/-- The function whose exclusions a scratch area keeps to (R270): none for the handlers' area 0x0100 (R418). -/
def areaFn (area : Nat) : FnId := if area = 0x100 then ⟨0, 0x7F⟩ else fnOfCode area

/-- Commit a scratch area (R223): its slices are taken and filled with zeros. None where R224 refuses it, or where, R224 aside, too few
free slices are left outside retiring banks, a case the spec leaves open (log entry 100). -/
def scratchCommit (area n : Nat) (d : Dev) : Option Dev :=
  if n ≤ 4096 ∧ scratchFits d n = true then
    (takeSlices (eligibleBanks d (areaFn area)) (.scratch area) [] [] n d).map (fun r =>
      let d := r.1.foldl (fun d s => zeroSlice s d) r.2.2
      qshortCheck { d with scratch := tset d.scratch area r.1 [] })
  else none

/-- Release a scratch area. -/
def scratchRelease (area : Nat) (d : Dev) : Dev :=
  qshortCheck (fenceSweep { d with
    scratch := tdel d.scratch area
    slices := d.slices.filter (fun e => e.2 ≠ .scratch area) })

/-! ### Fencing and retirement (R232 to R235) -/

/-- Banks that retire or have retired. -/
def banksRetired (d : Dev) : Nat := ((List.range 64).filter (fun b => bankState d b = 1 || bankState d b = 2)).length

/-- Set a bank's state, with its event and its placement-log record (R253, R281). -/
def bankSet (b st : Nat) (d : Dev) : Dev :=
  exclSweep d 5 (sgLogPut 7 5 st b 0 (pageEvent (0x80 + b) 2 (regSetFld .bkStat b 31 30 st d)))

/-! ### The repair budget (R463) -/

/-- One more resource of a class is consumed, except by an injected fault (R464); BUDGET is raised when USED reaches the
budget. The change is audited (R459). -/
def repairUse (cls : Nat) (d : Dev) : Dev :=
  if d.injecting then d
  else
  let u := regFld d .rpUsed cls 15 0
  let d := regSetFld .rpUsed cls 15 0 (u + 1) d
  let d := auditHw 1 11 0x68 (BitVec.ofNat 32 (u + 1)) (BitVec.ofNat 32 u) d
  if regFld d .rpBudget cls 15 0 ≤ u + 1 ∧ regFld d .rpStat 0 29 29 = 0 then
    pageEvent 11 1 (regSetFld .rpStat 0 29 29 1 d)
  else d

/-- A bank fault (R234, R431): a spare row or column, else retirement, else fencing. -/
def bankFault (b : Nat) (k : BankFault) (d : Dev) : Dev :=
  let rows := regFld d .bkStat b 12 8
  let cols := regFld d .bkStat b 2 0
  let retire := fun (l : List Nat) (d : Dev) =>
    if banksRetired d < 4 then deviceFault 1 3 b (repairUse 2 (bankSet b 1 d))
    else
      let d := if bankState d b = 3 then d else bankSet b 3 d
      deviceFault 2 3 b (l.foldl (fun d s => fence s d) d)
  if 64 ≤ b ∨ bankState d b = 1 ∨ bankState d b = 2 then d
  else match k with
    | .row s =>
        if rows < 16 then deviceFault 0 3 b (repairUse 3 (regSetFld .bkStat b 12 8 (rows + 1) d))
        else retire [256 * b + s % 256] d
    | .column g =>
        if cols < 4 then deviceFault 0 3 b (repairUse 4 (regSetFld .bkStat b 2 0 (cols + 1) d))
        else retire (span (256 * b + 16 * (g % 16)) 16) d
    | .bank => retire [] d

/-- A RETIRING bank with no slice in use becomes RETIRED (R233). -/
def bankRetired (b : Nat) (d : Dev) : Dev :=
  let used := d.slices.any (fun e => decide (e.1 / 256 = b) && decide (e.2 ≠ .fenced))
  if bankState d b = 1 ∧ used = false then
    let fenced := regFld d .bkFenced b 8 0
    let d := bankSet b 2 (regSetFld .pzSlices 0 14 0 (pzSlices d - (256 - fenced)) d)
    qshortCheck (regSetFld .pzStat 0 2 0 (regFld d .pzStat 0 2 0 + 1) d)
  else d

/-- A scratch slice is copied to a free slice of another bank with a checked read; its scratch offset stays (R233, R234). The copy waits
while a check block of the slice is being refilled, and joins the refill (R20). A block that stays bad is copied as it stands: the spec
names no other effect on the copy (log entry 96). -/
def scratchCopy (s t : Nat) (d : Dev) : Dev :=
  match sliceGet d s with
  | .scratch a =>
      if (bankState d (s / 256) = 1 ∨ d.fenceWait.contains s = true) ∧ t / 256 ≠ s / 256 ∧ t < Config.plazaSlices
          ∧ bankUp d (t / 256) = true ∧ sliceGet d t = .free ∧ d.fenceWait.contains t = false then
        if readHeld d (.copy s) then d
        else match refilling d (4096 * s) 4096 with
          | b :: l => joinAll (b :: l) (.copy s) d
          | [] =>
              let data := memRead d.plaza (4096 * s) 4096
              let d := zeroSlice s { d with plaza := memWrite (zeroSlice t d).plaza (4096 * t) data }
              let d := sliceSet t (.scratch a) (sliceSet s .free d)
              fenceSweep { d with scratch := tset d.scratch a ((scratchOf d a).map (fun x => if x = s then t else x)) [] }
      else d
  | _ => d

/-! ### Boulevard and lane groups (R16, R17, R237, R238) -/

/-- The unit of an injected fault has now failed in earnest: it does not return to service at the next rotation (R464). -/
def injectReal (unit inst : Nat) (d : Dev) : Dev :=
  if d.injecting then d else { d with injected := d.injected.filter (· ≠ (unit, inst)) }

/-- A Boulevard port fails (R16): the attached block moves to port 38, else to port 39, whichever is free; with none free the fault is
Fatal. A spare port that carries a block gives it up to the other one. DESIGN CHOICE (log entry 89): the fault of a spare that carries
no block moves nothing; that spare is no longer free, and the fault is Degraded. A port that has failed already carries no block: a
further fault of it moves nothing and is not reported. -/
def boulevardFail (p : Nat) (d : Dev) : Dev :=
  let u38 := use38 d
  let u39 := use39 d
  let free := fun (s : Nat) (u : Bool) => !u && !(d.blvBad.contains s) && decide (p ≠ s)
  let idle := (decide (p = 38) && !u38) || (decide (p = 39) && !u39)
  let src := if p = 38 ∧ u38 then regFld d .blvSteer 0 13 8 else if p = 39 ∧ u39 then regFld d .blvSteer 0 29 24 else p
  if d.blvBad.contains p then injectReal 4 p d
  else
    let d := { d with blvBad := d.blvBad ++ [p] }
    if idle then deviceFault 2 4 p d
    else if free 38 u38 then
      deviceFault 1 4 p (repairUse 5 (regSetFld .blvSteer 0 15 15 1 (regSetFld .blvSteer 0 13 8 src d)))
    else if free 39 u39 then
      deviceFault 1 4 p (repairUse 5 (regSetFld .blvSteer 0 31 31 1 (regSetFld .blvSteer 0 29 24 src d)))
    else deviceFault 4 4 p d

/-- One step of the CRC-16 of a flit (R236): polynomial 0x8BB7, no reflection. -/
def crc16Bit (r : Half) (b : Bool) : Half :=
  if r.msb != b then (r <<< 1) ^^^ 0x8BB7#16 else r <<< 1

/-- The CRC-16 of bytes (R236): initial value 0, no final XOR. -/
def crc16 (l : List Byte) : Half :=
  l.foldl (fun r x => (List.range 8).foldl (fun r i => crc16Bit r (bit x (7 - i))) r) 0

/-- The bytes the CRC-16 of a flit covers (R236): header, then payload. Which byte of the header comes first is the model's choice
(log entry 90). -/
def flitBytes (f : Flit) : List Byte := (leBytes 8 f.header.toNat).reverse ++ fitBytes 128 f.payload

/-- Does a flit pass its check (R236)? -/
def flitGood (f : Flit) : Bool := decide (crc16 (flitBytes f) = f.crc)

/-- The replay buffer of a hop (R237). -/
def hopGet (d : Dev) (h : FlitHop) : List Flit := tget d.hops (2 * h.port + h.out.toNat) []

/-- The sender puts flits on a hop: the last 32 stay in its replay buffer (R237). -/
def hopSend (h : FlitHop) (l : List Flit) (d : Dev) : Dev :=
  let b := hopGet d h ++ l
  { d with hops := tset d.hops (2 * h.port + h.out.toNat) (b.drop (b.length - 32)) [] }

/-- What the receiver of a hop has taken in last, oldest first (R237). -/
def hopTaken (d : Dev) (h : FlitHop) : List Flit := tget d.hopRx (2 * h.port + h.out.toNat) []

/-- The receiver takes flits in; the last 32 are kept. -/
def hopTake (h : FlitHop) (l : List Flit) (d : Dev) : Dev :=
  let b := hopTaken d h ++ l
  { d with hopRx := tset d.hopRx (2 * h.port + h.out.toNat) (b.drop (b.length - 32)) [] }

/-- What the sender of a hop sends again (R237): its `n` latest flits, the failing one first, as its replay buffer holds them. -/
def hopReplay (d : Dev) (h : FlitHop) (n : Nat) : List Flit := (hopGet d h).drop ((hopGet d h).length - n)

/-- How often in a row a flit failed (R237, R238), from the images the receiver got of it: the first sending and each replay. -/
def flitFails (tries : List Flit) : Nat := (tries.takeWhile (fun f => !(flitGood f))).length

/-- A flit fails and is replayed (R237, R238). Each failure discards it with every later flit and is followed by a
replay from the sender's buffer in order, counted and Corrected; after RPL_LIM failures in a row the port of the hop fails. The image
that passes is taken in, with the later flits as the buffer replays them. -/
def flitError (h : FlitHop) (f : FlitRun) (d : Dev) : Dev :=
  let p := h.port
  let d := hopSend h f.sent d
  let n := flitFails f.tries
  let d := (List.range n).foldl (fun d _ => deviceFault 0 4 p (dbEvent 8 (regBump .rplCnt p d))) d
  let d := if n = 0 then d else pageEvent 2 4 d
  if max 1 (regFld d .rplLim 0 3 0) ≤ n then boulevardFail p d
  else match f.tries.drop n with
    | [] => d
    | g :: _ => hopTake h (g :: (hopReplay d h f.sent.length).drop 1) d

/-! ### The lane groups' requests (R15, R17, R431) -/

/-- The bursts a lane group has at a Roundabout move to another one's port (R17, R431): a burst that holds the resource starts again
from its first unit. A burst whose place another request of its class already has withdraws until it is raised again. -/
def rbtPort (src : Nat) (to_ : Option Nat) (x : Rbt) : Rbt :=
  let hit := fun (q : RReq) => q.chan.isSome && decide (q.src = src)
  let again := match x.holder with
    | some h => if hit h then [{ h with units := h.units + x.moved }] else []
    | none => []
  let gone := again ++ x.reqs.filter hit
  let stays := x.reqs.filter (fun q => !(hit q))
  let held := match again with | [] => (x.holder, x.moved) | _ => (none, 0)
  { x with
    holder := held.1, moved := held.2
    reqs := match to_ with | none => stays | some p => rbtRaise stays (gone.map (fun q => { q with src := p })) }

/-- The bursts of a failing lane group are replayed on a group that remains (R17, R431): ML5 as it takes over, else the first group
in service. -/
def laneReplay (g : Nat) (left : List Nat) (d : Dev) : Dev :=
  let from_ := groupPort d g
  let to_ := (if left.contains 5 then some 5 else left.head?).map (groupPort d)
  rbtAll (rbtPort from_ to_) d

/-- A mover lane group fails (R17): ML5 takes its bursts; later faults leave fewer groups; the last is Fatal. DESIGN CHOICE (log entry
91): a fault of ML5 while it stands by takes no bursts; ML5 cannot take any later, and the fault is Degraded. A further fault of a
group that has failed already takes nothing and is not reported. -/
def laneFault (g : Nat) (d : Dev) : Dev :=
  if 6 ≤ g then d
  else if d.laneBad.contains g then injectReal 5 g d
  else
    let d := { d with laneBad := d.laneBad ++ [g] }
    if d.lanes.contains g then
      let rest := d.lanes.filter (· ≠ g)
      let spare := !(d.lanes.contains 5) && !(d.laneBad.contains 5)
      let left := if spare then rest ++ [5] else rest
      let d := laneReplay g left { d with lanes := left }
      if spare then deviceFault 1 5 g (repairUse 6 d)
      else deviceFault (if left.isEmpty then 4 else 2) 5 g d
    else deviceFault 2 5 g d

/-! ### Meanings -/

/-- PZ_RESERVATION_GRANT (R225). -/
def execPzReservationGrant (cls : Nat) (s : State) : Host.Outcome State Fault Refusal :=
  run s (liveA (fun d => fenceSweep (pzGrantFirst cls d)))

/-- PLAZA_BANK_FAULT (R234, R431). -/
def execPlazaBankFault (bank : Nat) (kind : BankFault) (s : State) : Host.Outcome State Fault Refusal :=
  run s (bankFault bank kind)

/-- BANK_RETIRED (R233). -/
def execBankRetired (bank : Nat) (s : State) : Host.Outcome State Fault Refusal := run s (bankRetired bank)

/-- SCRATCH_SLICE_COPY (R233). -/
def execScratchSliceCopy (slice target : Nat) (s : State) : Host.Outcome State Fault Refusal := run s (scratchCopy slice target)

/-- BOULEVARD_FLIT_ERROR (R236 to R238). -/
def execBoulevardFlitError (hop : FlitHop) (flits : FlitRun) (s : State) : Host.Outcome State Fault Refusal :=
  run s (fun d => if hop.port < 40 then flitError hop flits d else d)

/-- BOULEVARD_PORT_FAULT (R16). -/
def execBoulevardPortFault (port : Nat) (s : State) : Host.Outcome State Fault Refusal := run s (fun d => if port < 40 then boulevardFail port d else d)

/-- MOVER_LANE_GROUP_FAULT (R17). -/
def execMoverLaneGroupFault (group : Nat) (s : State) : Host.Outcome State Fault Refusal := run s (laneFault group)

/-- ROUNDABOUT_DECISION (R239 to R244). -/
def execRoundaboutDecision (isOutput : Bool) (index : Nat) (raise : List (Nat × Traffic × Nat)) (bursts : List (Nat × Nat × Nat))
    (s : State) : Host.Outcome State Fault Refusal :=
  run s (rbtCycle (if isOutput then 64 + index else index) raise bursts)

/-- WATCH_THRESHOLD (R247). -/
def execWatchThreshold (isOutput : Bool) (index cls src : Nat) (s : State) : Host.Outcome State Fault Refusal :=
  run s (watch (if isOutput then 64 + index else index) cls src)

end Sys2Proof.Machine
end

