-- ==== Sys2Proof/Machine/FaultOps.lean ====
section
/-!
DEFINITION. Semaphores, expert modes that close, failover of a channel processor with replay of its work, in-field BIST,
spare rotation, and the faults of context banks, clocks and bulk memory (R321 to R324, R394, R395, R413, R431 to R449,
R459 to R466, R588).
-/
namespace Sys2Proof.Machine

open Sys2Proof

/-! ### Semaphores (R321 to R324) -/

/-- Semaphore 256d + j of district d, or 2048 + j of the device. -/
def semGet (d : Dev) (k : Nat) : Sem := tget d.sems k ⟨none, false⟩

/-- Store a semaphore. -/
def semSet (k : Nat) (v : Sem) (d : Dev) : Dev := { d with sems := tset d.sems k v ⟨none, false⟩ }

/-- The release source of a semaphore (R323, R365). -/
def semSource (k : Nat) : Nat :=
  if k < 2048 then 0x2100 + 8 * (k / 256) + k % 256 / 32 else 0x2140 + (k - 2048) / 32

/-- A read of SEM_ACQ by CP i (R322). -/
def semAcquire (i k : Nat) (d : Dev) : Word × Dev :=
  let s := semGet d k
  let (res, s) : Nat × Sem := match s.holder with
    | some _ => (1, s)
    | none => (if s.poisoned then 2 else 0, { s with holder := some i })
  let h := s.holder.getD 0
  (BitVec.ofNat 32 (fieldN 15 15 s.holder.isSome.toNat + fieldN 14 12 (h / 9) + fieldN 11 8 (h % 9)
    + fieldN 2 2 s.poisoned.toNat + res), semSet k s d)

/-- A write of SEM_REL by CP i (R323). -/
def semRelease (i k : Nat) (valid : Bool) (d : Dev) : Dev :=
  let s := semGet d k
  if s.holder = some i then srcFire (semSource k) (semSet k ⟨none, s.poisoned && !valid⟩ d)
  else cpSet i { cpGet d i with semerr := true } d

/-- Every semaphore a failed CP holds is released poisoned (R324). -/
def semPoison (i : Nat) (d : Dev) : Dev :=
  (d.sems.filter (fun e => e.2.holder = some i)).foldl (fun d e => srcFire (semSource e.1) (semSet e.1 ⟨none, true⟩ d)) d

/-! ### Expert modes that close (R413, R422) -/

/-- Close the expert modes a test names, each with a record of origin HW. -/
def xClose (p : XMode → Bool) (d : Dev) : Dev :=
  let gone := d.xmodes.filter p
  gone.foldl (fun d m => auditPut (.hw 5) m.page 3 15
      (BitVec.ofNat 32 (fieldN 19 16 (originType m.origin) + fieldN 15 0 (originId m.origin))) 0 0x20 d)
    { d with xmodes := d.xmodes.filter (fun m => !(p m)) }

/-! ### Roles (R372, R394) -/

/-- The spare that is ready. -/
def spareOf (d : Dev) (dist : Nat) : Option Nat := (roleIn d dist .spare).head?

/-- The logical slot a CP fills. -/
def lslotOf (d : Dev) (i : Nat) : Option Nat := (List.range 8).find? (fun k => slotCp d (i / 9) k = some i)

/-- Put physical CP `p` (0xF: none) into logical slot k of a district. -/
def cpMapSet (dist k p : Nat) (d : Dev) : Dev := regSetFld .cpMap dist (4 * k + 3) (4 * k) p d

/-! ### Failure of a CP (R431, R441, R442, R462, R588) -/

/-- A CP stops where it is: nothing of it is in progress any more. -/
def cpHaltAll (i : Nat) (d : Dev) : Dev := cpSet i { cpGet d i with slot := [], loads := [], serve := none, halted := false } d

/-- A CP is retired (R462, R588): recorded in the repair store, reported Degraded in its district (R387), NOSPARE raised. -/
def cpRetire (i : Nat) (d : Dev) : Dev :=
  let d := latchSet (0x3F80 + i / 9) (cpSet i { cpGet d i with role := .retired, run := .off } d)
  pageEvent (0x20 + i / 9) 1 (deviceFault 2 1 i (repairUse 0 d))

/-- 30 days in nanoseconds (R462). -/
def days30 : Nat := 30 * 86400 * 1000000000

/-- Is this the second failover of a CP within 30 days, with RET2 set (R462)? -/
def secondFail (d : Dev) (i : Nat) : Bool :=
  decide (regFld d .rpPol 0 0 0 = 1) && (match (cpGet d i).failedAt with
    | none => false
    | some t => decide (d.devtime.toNat < t.toNat + days30))

/-- The spare itself has failed (R588): its semaphores are released poisoned (R324), it runs BIST again, and no work is interrupted. -/
def spareFail (i : Nat) (d : Dev) : Dev :=
  let d := semPoison i (cpHaltAll i d)
  cpSet i { cpGet d i with role := .bist true, run := .bist } d

/-- The operations that a device has begun. The condition of an owner pack's operation is known; of a vendor handler's a free value
decides (R124; log entry 38). -/
def begunOf : List (Nat × Op) → Dev → List Nat × Dev
  | [], d => ([], d)
  | (t, o) :: l, d =>
      let (v, d) := if o.kind = .pack then ((if o.cond = .uncertain then 1 else 0), d) else freeNext d
      let (r, d) := begunOf l d
      (if bit v 0 then t :: r else r, d)

/-- A BIND that a CP had claimed which no CP of its district goes on with is an item of the district's queue again (R333, R384). -/
def bindAgain (n : Nat) (d : Dev) : Dev :=
  match d.binds.find? (fun b => decide (seSub b.take.entry = n) && b.cp.isSome) with
  | none => d
  | some b =>
      let e := (b.cp.getD 0) / 9
      { d with
        binds := d.binds.map (fun x => if x.take.jseq = b.take.jseq then { x with cp := none } else x)
        workq := tset d.workq e (workQueue d e ++ [⟨b.take, n⟩]) [] }

/-- The program of a subchannel that cannot go on ends at once, with `c` in its channel status (R268, R433). -/
def stopLost (n : Nat) (c : Byte) (st : Option SubState) (d : Dev) : Dev :=
  match progOf d n with
  | none => d
  | some p =>
      if finalMade p then d
      else
        let (begun, d) := begunOf (progOps d n) d
        let x := detachEnd n p begun d
        let sn : Option SenseSet := if x.c &&& csIfcc ≠ 0 then some ⟨9, begun.length, p.pos.toNat, 0, false, none⟩ else none
        postFinal n { p with run := none, grp := [], own := none, recov := true } { x with c := x.c ||| c, sense := sn } st
          (detachOps n d)

/-- What a program that is lost to a fault ends with (R268, R433): CCC, STATUS_PENDING and a Contained fault of `unit` and `inst`; one
that a CLEAR ends already goes on to end so. -/
def programLost (unit inst n : Nat) (d : Dev) : Dev :=
  match (subGet d n).st with
  | .active | .suspended | .haltPending =>
      stopLost n csCcc (some .statusPending) (reportFault 3 unit inst [(subGet d n).ownPort] d)
  | .clearPending => stopLost n 0 none d
  | _ => d

/-- A subchannel homed where no CP serves any more (R268): its program ends, its START waits for the new home, and it moves
with its state. -/
def evacuate (i n : Nat) (d : Dev) : Dev :=
  let e := (subGet d n).home
  let d := programLost 1 i n d
  let d := bindAgain n (evacuateIdle n d)
  let (mine, rest) := (workQueue d e).partition (fun w => decide (w.sub = n))
  let h := (subGet d n).home
  if h = e ∨ mine.isEmpty then d
  else
    let q := tset d.workq e rest []
    { d with workq := tset q h (tget q h [] ++ mine) [] }

/-- Failover of an in-service CP (R441 to R443). With no spare ready another CP of the district goes on with its work, which
one is a free value (R442; log entry 38). `inj` is an injected fault, which consumes no spare for good (R464). -/
def failover (i : Nat) (inj : Bool) (d : Dev) : Dev :=
  let dist := i / 9
  let d := pageEvent (0x20 + dist) 0 (regBump .dsFailov dist d)
  let second := secondFail d i && !inj
  let d := cpHaltAll i d
  let d := cpSet i { cpGet d i with role := .bist false, run := .bist, failedAt := some d.devtime } d
  let d := xClose (fun m => decide (m.origin = .cp i)) (semPoison i (junctionFailover i d))
  let spare := spareOf d dist
  let d := deviceFault (if spare.isSome then 1 else 2) 1 i d
  let k := lslotOf d i
  let d := match k with
    | some k => cpMapSet dist k ((spare.map (· % 9)).getD 15) d
    | none => d
  let (l, d) := match spare with
    | some j => ([j], d)
    | none =>
        let l := roleIn d dist .inService
        let (v, d) := freeNext d
        (l.drop (v.toNat % l.length) ++ l.take (v.toNat % l.length), d)
  let d := match spare with
    | some j =>
        let w : CpRun := if (cpGet d j).run = CpRun.wait then .wait else .run
        cpSet j { cpGet d j with role := .inService, run := w } d
    | none => d
  let d := takeOver i l { d with rotWait := d.rotWait.filter (fun w => w.2 / 8 ≠ i) }
  let d := if cpsIn d dist = 0 then
      ((d.subs.filter (fun e => decide (e.2.home = dist) && settledIn e.2)).map (·.1)).foldl
        (fun d n => liveC (evacuate i n) d) d
    else d
  if second then cpRetire i d else d

/-- A CP fails (R431, R441): latch, heartbeat count, and failover, or BIST of the spare. -/
def cpFail (i : Nat) (wdog inj : Bool) (d : Dev) : Dev :=
  let dist := i / 9
  let c := cpGet d i
  if 72 ≤ i ∨ (c.role ≠ .inService ∧ c.role ≠ .spare) ∨ c.run = .off then d
  else
    let d := feedIn (4168 + dist) (latchSet (if wdog then 0x3F88 + dist else 0x3F80 + dist) d)
    let d := if wdog then regBump .dsHbmiss dist d else d
    let d := if inj then { d with injected := d.injected ++ [(1, i)] } else d
    if c.role = .spare then spareFail i d else failover i inj d

/-- The INIT entries of the packs that were loaded while CP i ran BIST are called on it (R333). -/
def initCalls (i : Nat) (d : Dev) : Dev :=
  let due := d.initDue.filter (fun x => x.1 = i)
  due.foldl (fun d x => match d.packs.find? (fun e => e.1 = x.2) with
    | none => d
    | some (k, pk) => { d with packCalls := d.packCalls ++ [⟨i, Config.subchannels, k, 1, lget pk.ev 0 0, 0, 0, 0⟩] })
    { d with initDue := d.initDue.filter (fun x => x.1 ≠ i) }

/-- In-field BIST of a CP has ended (R588). The spare's background BIST can only fail it. -/
def bistDone (i : Nat) (pass : Bool) (d : Dev) : Dev :=
  let c := cpGet d i
  match c.role with
  | .spare => if pass then d else spareFail i d
  | .bist was =>
      if pass then
        let d := initCalls i (cpSet i { c with role := .spare, run := .run, pc := 0, sr := 0x80000000#32 } d)
        if was then deviceFault 1 1 i (latchSet (0x3F80 + i / 9) d) else d
      else cpRetire i (pageEvent (0x20 + i / 9) 4 d)
  | _ => d

/-! ### Spare rotation (R395, R460) -/

/-- The in-service CP that the rotation of a district replaces: the next physical slot after the spare's, going round. -/
def rotPick (d : Dev) (dist spare : Nat) : Option Nat := nextAfter spare (roleIn d dist .inService)

/-- May a CP leave service now (R324, R395): it holds no semaphore and no source, is presented none, its hand-off FIFO is
empty and it runs no pack entry? -/
def rotReady (d : Dev) (i : Nat) : Bool :=
  !(d.sems.any (fun e => e.2.holder = some i)) && !(d.srcs.any (fun e => e.2.act && decide (e.2.holder = some i)))
    && !(d.pres.any (fun p => p.cp = i)) && (cpGet d i).handoff.isEmpty && (cpGet d i).serve.isNone
    && (cpGet d i).loads.isEmpty

/-- Programs, operations and calls move to the CP that takes the slot; contexts keep their address. Nothing is re-issued:
a rotation changes only timing (R460). -/
def rotMove (i j : Nat) (d : Dev) : Dev :=
  let ctxs := d.progs.filterMap (fun e => match e.2.own with | some o => if o.cp = i then some o.ctx else none | none => none)
    ++ d.binds.filterMap (fun b => if b.cp = some i then some b.ctx else none)
  let d := ctxs.foldl (fun d a => cpSet j (dramWrite a (dramRead (cpGet d i) a 128) (cpGet d j)) d) d
  { d with
    progs := d.progs.map (fun e => if e.2.cp = i then (e.1, { e.2 with cp := j, own := e.2.own.map (fun o => { o with cp := j }) }) else e)
    ops := d.ops.map (fun e => if e.2.cp = i then (e.1, { e.2 with cp := j }) else e)
    binds := d.binds.map (fun b => if b.cp = some i then { b with cp := some j } else b)
    packCalls := (moveCalls i j d).packCalls }

/-- The unit of an injected fault returns to service (R464). -/
def injectEnd (u : Nat × Nat) (d : Dev) : Dev :=
  let n := u.2
  match u.1 with
  | 1 => if (cpGet d n).run = .bist then cpSet n { cpGet d n with role := .spare, run := .run, pc := 0, sr := 0x80000000#32 } d else d
  | 2 => regSetFld .dsStat n 25 25 0 d
  | 3 =>
      let d := if bankState d n = 2 then
          regSetFld .pzStat 0 2 0 (regFld d .pzStat 0 2 0 - 1)
            (regSetFld .pzSlices 0 14 0 (pzSlices d + (256 - regFld d .bkFenced n 8 0)) d)
        else d
      qshortCheck (bankSet n 0 d)
  | 4 =>
      let d := { d with blvBad := d.blvBad.filter (· ≠ n) }
      let twin := use38 d && use39 d && decide (regFld d .blvSteer 0 13 8 = regFld d .blvSteer 0 29 24)
      let d := if n = 38 ∧ twin then regSetFld .blvSteer 0 31 24 0 d else if n = 39 ∧ twin then regSetFld .blvSteer 0 15 8 0 d else d
      let d := if regFld d .blvSteer 0 15 15 = 1 ∧ regFld d .blvSteer 0 13 8 = n then regSetFld .blvSteer 0 15 8 0 d else d
      if regFld d .blvSteer 0 31 31 = 1 ∧ regFld d .blvSteer 0 29 24 = n then regSetFld .blvSteer 0 31 24 0 d else d
  | 5 =>
      let d := { d with laneBad := d.laneBad.filter (· ≠ n) }
      if n = 5 ∧ d.lanes.length = 5 then d
      else
        let l := d.lanes.filter (· ≠ n) ++ [n]
        { d with lanes := if l.length ≤ 5 then l else l.filter (· ≠ 5) }
  | 6 => regSetFld .avStat (n / 16) (n % 16) (n % 16) 0 d
  | 7 =>
      let c := regFld d .dsFcap n 15 0
      regSetFld .dsFreq n 15 0 (if c = 0 then Config.ceilingMHz else min c Config.ceilingMHz) (regSetFld .dsStat n 26 26 0 d)
  | _ => d

/-- A rotation of a district (R395, R460): the replaced CP's logical slot is removed from presentation; once the CP is
idle in the sense of R395, the spare takes the slot. Injected faults end with it (R464). -/
def rotate (dist : Nat) (d : Dev) : Dev :=
  match spareOf d dist with
  | none => d
  | some j =>
      let want := match d.rotWait.find? (fun w => w.1 = dist) with
        | some w => some (w.2 / 8, w.2 % 8)
        | none => match rotPick d dist j with
          | none => none
          | some i => (lslotOf d i).map (fun k => (i, k))
      match want with
      | none => d
      | some (i, k) =>
          if rotReady d i then
            let d := cpMapSet dist k (j % 9) { d with rotWait := d.rotWait.filter (fun w => w.1 ≠ dist), scWait := d.scWait.filter (· ≠ (0, dist)) }
            let d := cpSet j { cpGet d j with role := .inService } d
            let d := cpSet i { cpGet d i with role := .spare } d
            let d := rotMove i j (xClose (fun m => decide (m.origin = .cp i)) d)
            let d := regSet .dsRotLast dist d.devtime d
            (d.injected.foldl (fun d u => injectEnd u d) { d with injected := [] })
          else
            { d with rotWait := (d.rotWait.filter (fun w => w.1 ≠ dist)) ++ [(dist, 8 * i + k)] }

/-- A write of NOW (R12, R460): the rotation, and NOW reads 1 while it waits for the CP to become idle. -/
def rotateNow (dist : Nat) (d : Dev) : Dev :=
  let d := rotate dist d
  if d.rotWait.any (fun w => decide (w.1 = dist)) then { d with scWait := d.scWait.filter (· ≠ (0, dist)) ++ [(0, dist)] } else d

/-! ### Context banks, clocks and bulk memory (R431, R432, R440, R466) -/

/-- The subchannel whose record stands in slot k of a district's bank. -/
def subAt (d : Dev) (dist k : Nat) : Option Nat :=
  match d.subs.find? (fun e => decide (e.2.home = dist) && decide (e.2.slot = k)) with
  | some e => some e.1
  | none =>
      let n := 8 * k + dist
      if n < Config.subchannels ∧ (subGet d n).home = dist ∧ (subGet d n).slot = k then some n else none

/-- The 1,024 bits of a bank slot, read (R290). -/
def bankRead (d : Dev) (dist k : Nat) : BitVec 1024 × Dev :=
  match subAt d dist k with
  | some n => (let (v, d) := recordBits n d; (BitVec.ofNat 1024 v, d))
  | none => (tget d.bankRaw (65536 * dist + k) 0, d)

/-- The mirror's copy of a slot in bulk memory (R19, R440): the record as last checkpointed, or the one before while its copy is under
way. -/
def mirrorRead (d : Dev) (dist k : Nat) : BitVec 1024 × Dev :=
  match d.mirrorOld.find? (fun e => e.1 = 65536 * dist + k) with
  | some (_, v) => (v, d)
  | none => bankRead d dist k

/-- The mirror copy of a slot is acknowledged (R312): entries held for it are posted in order. -/
def mirrorAck (dist k : Nat) (d : Dev) : Dev :=
  retryStalled { d with mirrorWait := d.mirrorWait.filter (· ≠ (dist, k)), mirrorOld := tdel d.mirrorOld (65536 * dist + k) }

/-- The mirror logic reloads a district's bank (R19, R440), or its CPs go over to the mirror: behind the copies under way, which use the
same Boulevard port in the same class, so that the mirror holds every record as the bank did. -/
def bankReload (e : Nat) (d : Dev) : Dev :=
  (d.mirrorWait.filter (fun x => x.1 = e)).foldl (fun d x => mirrorAck x.1 x.2 d) d

/-- Is a fault detected now a second one, within 12 µs of another (R433)? -/
def secondFault (d : Dev) : Bool :=
  match d.faultAt with
  | some t => decide (d.devtime.toNat < t.toNat + 12000)
  | none => false

/-- The subchannels whose latest checkpoint a second fault of a context bank loses (R433; log entry 117): the bank copy is gone, and the
mirror's copy of it is still under way. A failed segment holds 512 records; which segment it is is a free value. -/
def lostRecords (e : Nat) (logic : Bool) (d : Dev) : List Nat × Dev :=
  if !(secondFault d) || d.mirrorWait.all (fun x => decide (x.1 ≠ e)) then ([], d)
  else
    let (v, d) := freeNext d
    let hit := d.mirrorWait.filter (fun x => decide (x.1 = e) && (logic || decide (x.2 / 512 = v.toNat % 64)))
    (hit.filterMap (fun x => subAt d e x.2), d)

/-- The district goes to mirror mode (R440). -/
def mirrorMode (e : Nat) (d : Dev) : Dev := pageEvent (0x20 + e) 3 (regSetFld .dsStat e 25 25 1 d)

/-- A context-bank fault (R431, R440): a spare segment, reloaded from the mirror, or mirror mode; in mirror mode it is only counted. As a
second fault it ends the programs whose records it loses (R433). -/
def bankCtxFault (e : Nat) (logic inj : Bool) (d : Dev) : Dev :=
  if 8 ≤ e then d
  else if regFld d .dsStat e 25 25 = 1 then deviceFault 0 2 e d
  else
    let (lost, d) := lostRecords e logic d
    let d := bankReload e (feedIn (4168 + e) (latchSet (0x3F80 + e) d))
    let used := regFld d .dsSeg e 1 0
    let d :=
      if !logic && decide (used < 2) then
        deviceFault 1 2 e (if inj then d else repairUse 1 (regSetFld .dsSeg e 1 0 (used + 1) d))
      else deviceFault 2 2 e (mirrorMode e (if inj then { d with injected := d.injected ++ [(2, e)] } else d))
    lost.foldl (fun d n => programLost 2 e n d) d

/-- A district clock generator fails (R431): the fallback clock of 1.6 GHz, Degraded. -/
def clockFault (e : Nat) (d : Dev) : Dev :=
  if 8 ≤ e ∨ regFld d .dsStat e 26 26 = 1 then d
  else
    let d := feedIn (4168 + e) (latchSet (0x3F80 + e) d)
    let d := regSetFld .dsFreq e 15 0 1600 (regSetFld .dsStat e 26 26 1 d)
    deviceFault 2 7 e (pageEvent (0x20 + e) 5 (pageEvent (0x20 + e) 2 d))

/-- A failure of the HBM stack (R432): Fatal. -/
def hbmFail (d : Dev) : Dev := deviceFault 4 8 0 (regSetFld .hbStat 0 31 30 3 d)

/-- A record that scrub lost (R466): what the reader sees instead. A mirror copy is written again from the bank; in mirror mode it is the
only copy of its record, and its loss is Fatal (R433, R440). -/
def loseRecord (l : HbmLoss) (d : Dev) : Dev :=
  let note := fun (a : DWord) (d : Dev) => pageEvent 9 0 (regSet .hbUeaddr 0 a (regBump .hbUe 0 d))
  match l with
  | .journal a n => deviceFault 2 8 0 (note a { d with journal := d.journal.map (fun r => if r.seq = n then { jblank 0xFE ⟨0, 0x7F⟩ with seq := n } else r) })
  | .audit a n => deviceFault 2 8 0 (note a { d with audit := d.audit.map (fun w => if bits w 127 80 = n then 0 else w) })
  | .trace a n => deviceFault 2 8 0 (note a { d with trace := lset d.trace (n - (d.trHead - d.trace.length)) 0 })
  | .placement a n => deviceFault 2 8 0 (note a { d with sgLog := lset d.sgLog n 0 })
  | .oneCopy a => pageEvent 5 1 (regSetFld .ffStat 0 30 30 1 (note a d))
  | .mirror a e => if e < 8 ∧ regFld d .dsStat e 25 25 = 1 then hbmFail (note a d) else deviceFault 0 8 0 (note a d)
  | .bothCopies a => hbmFail (note a d)

/-- A row of the stack is repaired from a spare row (R466); with none left the stack has failed (R463). -/
def repairRow (d : Dev) : Dev :=
  if 2048 ≤ regFld d .rpUsed 8 15 0 then hbmFail d
  else
    let d := repairUse 8 d
    deviceFault 0 8 0 (pageEvent 9 1 (regSetFld .hbPpr 0 15 0 (regFld d .hbPpr 0 15 0 + 1) d))

/-- A scrub pass of the stack ends (R466). -/
def scrubPass (corrected recurring : Nat) (lost : List HbmLoss) (d : Dev) : Dev :=
  let d := regAdd .hbCe 0 corrected (regBump .hbScrub 0 d)
  let d := (List.range (min recurring 2049)).foldl (fun d _ => repairRow d) d
  lost.foldl (fun d l => loseRecord l d) d

end Sys2Proof.Machine
end

