-- ==== Sys2Proof/Machine/CpOps.lean ====
section
/-!
DEFINITION. How a channel processor runs an instruction: registers and SR, the load slot and long loads, exceptions and
double exceptions, ERET, interrupts, special registers and CKPT (R284 to R289, R306 to R320, R437).
-/
namespace Sys2Proof

/-- Register numbers of an instruction's fields. -/
def RR.d (f : RR) : Nat := f.rd.toNat
def RR.a (f : RR) : Nat := f.ra.toNat
def RR.b (f : RR) : Nat := f.rb.toNat
def RI.d (f : RI) : Nat := f.rd.toNat
def RI.a (f : RI) : Nat := f.ra.toNat

/-- imm16, sign-extended and zero-extended (R298). -/
def RI.sx (f : RI) : Word := f.imm.signExtend 32
def RI.zx (f : RI) : Word := f.imm.zeroExtend 32

end Sys2Proof

namespace Sys2Proof.Machine

open Sys2Proof

/-- What an instruction does: it completes, it raises an exception (cause, EPC, EADDR), or it waits and does not issue
now. -/
inductive CpRes where
  | ok (d : Dev)
  | exc (cause : Nat) (epc eaddr : Word)
  | wait

/-- Change a CP in place. -/
def cpMod (i : Nat) (f : Cp → Cp) (d : Dev) : Dev := cpSet i (f (cpGet d i)) d

/-- The CP is in base mode (R286 M). -/
def cpBase (c : Cp) : Bool := bit c.sr 31

/-! ### Registers and SR (R284 to R287) -/

/-- Write general register k of a bank: the fast bank holds g24 to g31. -/
def gWriteIn (fast : Bool) (k : Nat) (v : Word) (c : Cp) : Cp :=
  if k = 0 ∨ 32 ≤ k then c
  else if fast && decide (24 ≤ k) then { c with gFast := lset c.gFast (k - 24) v } else { c with g := lset c.g k v }

/-- An instruction's result: register k is written, and a long load in progress no longer writes it (R308). -/
def rdWrite (k : Nat) (v : Word) (c : Cp) : Cp :=
  gWrite k v { c with loads := c.loads.map (fun l => { l with dst := l.dst.filter (fun x => x.1 ≠ k) }) }

/-- The registers a short load left to be written are written (R308). -/
def applySlot (c : Cp) : Cp := c.slot.foldl (fun c x => gWrite x.1 x.2 c) { c with slot := [] }

/-- SR as it reads: RL is computed (R286). -/
def srRead (c : Cp) : Word := setBits c.sr 25 24 (cpRunLevel c)

/-- FRM, with 5 to 7 leaving it unchanged (R286). -/
def frmKeep (old new : Word) : Word := if 4 < bits new 17 15 then setBits new 17 15 (bits old 17 15) else new

/-- MTS to SR changes the RW fields (R287). -/
def srMts (v : Word) (c : Cp) : Cp :=
  let v := frmKeep c.sr v
  { c with sr := (c.sr &&& ~~~ 0x0C0FFF0F#32) ||| (v &&& 0x0C0FFF0F#32) }

/-- SR restored from a saved image (R316): reserved bits stay 0 and RL is computed. -/
def srRestore (v : Word) (c : Cp) : Cp := { c with sr := frmKeep c.sr (v &&& 0xFC0FFF0F#32) }

/-- N, Z, C, V and the sticky flags of an arithmetic result (R307, R340). -/
def setFlags (a : Alu) (c : Cp) : Cp :=
  { c with sr := setBit (setBit (setBit (setBit (c.sr ||| a.sticky) 3 a.n) 2 a.z) 1 a.c) 0 a.v }

/-- The flags, QRM and FRM of SR. -/
def flagC (c : Cp) : Bool := bit c.sr 1
def qrmOf (c : Cp) : Nat := bits c.sr 19 18
def frmOf (c : Cp) : Nat := bits c.sr 17 15

/-- BUDGET has counted down by the cycles used, a free value; when it reaches 0 the command BUDGET_EXPIRY says (R320; log entry 3). -/
def budgetRuns (i : Nat) (d : Dev) : Dev :=
  let c := cpGet d i
  if c.budget = 0 then d
  else
    let (v, d) := freeNext d
    cpSet i { c with budget := BitVec.ofNat 32 (v.toNat % c.budget.toNat + 1) } d

/-- Handler mode is left: BUDGET holds what is left of it (R320). -/
def leaveHandler (i : Nat) (d : Dev) : Dev := if cpBase (cpGet d i) then d else budgetRuns i d

/-! ### Exceptions (R314 to R318) -/

/-- May the instruction at pc be fetched (R290, R306)? -/
def fetchOk (c : Cp) : Bool :=
  decide (c.pc.toNat % 4 = 0) && decide (c.pc.toNat < 0x20000) && (cpBase c || decide (0x8000 ≤ c.pc.toNat))

/-- The program of the operation being served ends as R318 states: as HALT ends one, with CCC and not TRM; operations
that were begun and are not complete are uncertain (R127, R337). -/
def endPackProg (n : Nat) (d : Dev) : Dev :=
  match progOf d n with
  | none => d
  | some p =>
      if finalMade p || p.own.isNone then d
      else
        let begun := ((progOps d n).filter (fun e => decide (e.2.cond = .uncertain))).map (·.1)
        let e := detachEnd n p begun d
        let ou := e.ou
        let x : Option SenseSet := if e.c &&& csIfcc ≠ 0 then p.own.bind (fun o => packLost n p o d) else none
        postFinal n { p with run := none, grp := [], own := none }
          { e with c := e.c ||| csCcc, ou := ou, sense := x } none (dropCalls n (detachOps n d))

/-- An exception in handler mode, an SVC that names no service, or an expired budget (R318, R320): counted, reported
Contained, and the program being served ends. A BIND entry that ends so does not accept its binding (R109). -/
def handlerFault (i : Nat) (d : Dev) : Dev :=
  let c := cpGet d i
  let d := cpSet i { c with excnt := satInc c.excnt, serve := none } d
  match c.serve with
  | none => reportFault 3 1 i [] (latchSet (0x3F80 + i / 9) d)
  | some s =>
      let d := latchSet (0x3F80 + i / 9) d
      let d := reportFault 3 1 i [(subGet d s.sub).ownPort] d
      if [0, 4, 5, 6, 8].contains s.entry then liveP (endPackProg s.sub) d
      else if s.entry = 2 then liveP (bindEnd s.sub false) d
      else d

/-- Is the number of a service of R336? -/
def isService (n : Nat) : Bool := 1 ≤ n && n ≤ 10

/-- An exception is taken (R315); with EX = 1 it is a double exception (R317) and the CP fails. -/
def cpRaise (i cause : Nat) (epc eaddr : Word) (d : Dev) : Dev :=
  let c := cpGet d i
  if bit c.sr 30 then
    cpFail i false false (pageEvent (0x100 + i) 1 (cpSet i { c with sstop := satInc c.sstop, run := .stopped } d))
  else
    let hand := !(cpBase c)
    let d := leaveHandler i d
    let d := cpMod i (fun c => { c with
      epc := epc, esr := srRead c, ecause := BitVec.ofNat 32 cause, eaddr := eaddr
      run := if c.run = CpRun.wait then .run else c.run
      sr := setBit (setBit c.sr 30 true) 31 true, pc := 0x40 }) d
    if hand && decide (cause ≠ 8) || decide (cause = 8) && !(isService eaddr.toNat) then handlerFault i d else d

/-- ERET (R316): the return at the innermost level that is set. -/
def cpEret (c : Cp) : Cp :=
  if bit c.sr 30 then srRestore c.esr { c with pc := c.epc }
  else if bit c.sr 29 then srRestore c.fsr { c with pc := c.fpc }
  else if bit c.sr 28 then srRestore c.nsr { c with pc := c.npc }
  else srRestore c.esr { c with pc := c.epc }

/-! ### Issue (R308, R309) -/

/-- A load fault is taken (R296, R309): EPC holds the load's address; later loads in progress are dropped, and made
again with their instructions. -/
def loadFault (i : Nat) (l : PendLoad) (d : Dev) : Dev :=
  cpRaise i 4 l.pc l.addr (cpMod i (fun c => { applySlot c with loads := [] }) d)

/-- After an instruction, or a load, is complete: the fault of a load whose slot has been used is taken; else an address
that cannot be fetched is an access fault (R290, R306). It is taken at once (log entry 18). -/
def cpAfter (i : Nat) (d : Dev) : Dev :=
  let c := cpGet d i
  match c.loads with
  | l :: _ => if l.slotUsed && decide (l.src = .failed) then loadFault i l d else d
  | [] => if c.run = .run ∧ fetchOk c = false then cpRaise i 6 c.pc c.pc (cpMod i applySlot d) else d

/-- Does an access of the CP to BAR 0 wait behind an earlier write of its own that waits (R26, R424)? -/
def pageWaits (d : Dev) (i : Nat) : Bool := d.auWait.any (fun w => !w.rd && decide (w.origin = .cp i))

/-- The word of an RR instruction (R297). -/
def encRR (op fn : Nat) (f : RR) : Word :=
  BitVec.ofNat 32 (fieldN 31 26 op + fieldN 25 21 f.rd.toNat + fieldN 20 16 f.ra.toNat + fieldN 15 11 f.rb.toNat + fieldN 10 6 f.rsv.toNat + fieldN 5 0 fn)

/-- The word of an RI instruction (R297). -/
def encRI (op : Nat) (f : RI) : Word :=
  BitVec.ofNat 32 (fieldN 31 26 op + fieldN 25 21 f.rd.toNat + fieldN 20 16 f.ra.toNat + fieldN 15 0 f.imm.toNat)

/-- The word of B.cond (R297). -/
def encBC (cond : BitVec 4) (off : BitVec 22) : Word := BitVec.ofNat 32 (fieldN 31 26 0x20 + fieldN 25 22 cond.toNat + fieldN 21 0 off.toNat)

/-- The word of BL (R297). -/
def encBL (off : BitVec 26) : Word := BitVec.ofNat 32 (fieldN 31 26 0x21 + fieldN 25 0 off.toNat)

/-- Do the tables define the opcode and fn of a word (R298, R299, R301 to R303, R306)? -/
def cpDefined (w : Word) : Bool :=
  let op := bits w 31 26
  let fn := bits w 5 0
  if op = 0x00 then decide (fn < 0x13)
  else if op = 0x0B ∨ op = 0x0C then decide (fn < 8)
  else if op = 0x0D then decide (fn < 16)
  else if op = 0x22 then decide (fn < 3)
  else if op = 0x30 then decide (fn < 7)
  else decide (op < 0x17) || (decide (0x18 ≤ op) && decide (op < 0x1D)) || op = 0x20 || op = 0x21 || op = 0x31

/-- The word that the CP fetches from IRAM (R290). -/
def fetchWord (c : Cp) : Word := BitVec.ofNat 32 (leNat (memRead c.iram c.pc.toNat 4))

/-- Does a CP issue instructions now: it runs, and no long load in progress has its slot used (R309)? -/
def cpIssues (d : Dev) (i : Nat) : Bool :=
  decide (i < 72) && !d.thermtrip && decide ((cpGet d i).run = .run) && (cpGet d i).loads.all (fun l => !l.slotUsed)

/-- An illegal instruction (R298, R314). -/
def cpIllegal (c : Cp) : CpRes := .exc 1 c.pc 0

/-- What the word at pc does, `w` being the word of the instruction that issues and `f` its effect: an address that cannot be fetched is an
access fault (R290, R306), a word that the tables do not define an illegal instruction (R298); another instruction's word does not
issue. -/
def cpFetch (w : Word) (f : Cp → Dev → CpRes) (c : Cp) (d : Dev) : CpRes :=
  if fetchOk c = false then .exc 6 c.pc c.pc
  else if fetchWord c = w then f c d
  else if cpDefined (fetchWord c) = false then cpIllegal c
  else .wait

/-- An instruction with the word `w` issues. `f` gets the CP with the old values of a load's destinations (R308), and the device in which
pc names the next instruction and the registers of an earlier short load are written. An instruction that would raise an
exception while a long load is in progress waits for the load (log entry 18). -/
def cpIssue (i : Nat) (w : Word) (f : Cp → Dev → CpRes) (d : Dev) : Dev :=
  let c := cpGet d i
  if cpIssues d i then
    match cpFetch w f c
        (cpSet i { applySlot c with pc := c.pc + 4, lastPc := c.pc, loads := c.loads.map (fun l => { l with slotUsed := true }) } d) with
    | .ok e => cpAfter i e
    | .exc cause epc ea =>
        (match c.loads with
        | [] => cpRaise i cause epc ea (cpMod i applySlot d)
        | l :: _ => if l.src = .failed then loadFault i l d else d)
    | .wait => d
  else d

/-- Run the RR instruction of an opcode and fn whose unused fields (rd, ra, rb) must be zero, with its reserved bits (R298, R306). -/
def cpRR (i op fn : Nat) (f : RR) (noD noA noB base : Bool) (g : Cp → Dev → CpRes) (d : Dev) : Dev :=
  cpIssue i (encRR op fn f) (fun c e =>
    if f.rsv ≠ 0 ∨ (noD = true ∧ f.rd ≠ 0) ∨ (noA = true ∧ f.ra ≠ 0) ∨ (noB = true ∧ f.rb ≠ 0)
        ∨ (base = true ∧ cpBase c = false) then cpIllegal c else g c e) d

/-- Run the RI instruction of an opcode whose unused fields (rd, ra) must be zero. -/
def cpRI (i op : Nat) (f : RI) (noD noA : Bool) (g : Cp → Dev → CpRes) (d : Dev) : Dev :=
  cpIssue i (encRI op f) (fun c e => if (noD = true ∧ f.rd ≠ 0) ∨ (noA = true ∧ f.ra ≠ 0) then cpIllegal c else g c e) d

/-- The result of an arithmetic instruction goes to rd, with its flags. DEDUCED (log entry 109): N and Z are those of the computed
result, also where rd is g0 and discards it. -/
def aluWrite (i rd : Nat) (a : Alu) (d : Dev) : CpRes := .ok (cpMod i (fun c => setFlags a (rdWrite rd a.r c)) d)

/-- Only the flags of an arithmetic instruction are kept. -/
def aluFlags (i : Nat) (a : Alu) (d : Dev) : CpRes := .ok (cpMod i (setFlags a) d)

/-- A register is written and no flag changes. -/
def regWrite (i rd : Nat) (v : Word) (d : Dev) : CpRes := .ok (cpMod i (rdWrite rd v) d)

/-- The pc is written. -/
def pcWrite (i : Nat) (v : Word) (d : Dev) : CpRes := .ok (cpMod i (fun c => { c with pc := v }) d)

/-! ### Interrupts (R315, R319, R320) -/

/-- Is a presentation of the class outstanding at the CP: is its request line high (R376)? -/
def presented (d : Dev) (i : Nat) (fast : Bool) : Bool :=
  d.pres.any (fun p => decide (p.cp = i) && decide (p.fast = fast))

/-- Entry into a normal or fast interrupt (R315), taken between instructions with no long load in progress (log entry
18). A CP in WAIT has been woken by the presentation (R319, R386). -/
def cpInterrupt (i : Nat) (fast : Bool) (d : Dev) : Dev :=
  let c := cpGet d i
  let may := if fast then bit c.sr 27 else bit c.sr 26 && !(bit c.sr 28)
  if i < 72 ∧ c.run = .run ∧ c.loads = [] ∧ presented d i fast = true ∧ bits c.sr 30 29 = 0 ∧ may = true then
    let d := leaveHandler i (cpMod i applySlot d)
    cpMod i (fun c =>
      if fast then { c with fpc := c.pc, fsr := srRead c, pc := 0xC0
                            sr := setBits (setBit (setBit c.sr 29 true) 31 true) 27 26 0 }
      else { c with npc := c.pc, nsr := srRead c, pc := 0x80
                    sr := setBit (setBit (setBit c.sr 28 true) 31 true) 26 false }) d
  else d

/-- BUDGET reaches 0 in handler mode (R320): the private budget source fires, and the entry is treated as R318 treats an
exception. -/
def budgetExpiry (i : Nat) (d : Dev) : Dev :=
  let c := cpGet d i
  if i < 72 ∧ (c.run = .run ∨ c.run = .wait) ∧ cpBase c = false ∧ c.budget ≠ 0 then
    handlerFault i (srcFire (0x2200 + 8 * i) (cpSet i { c with budget := 0 } d))
  else d

/-! ### Special registers (R288, R289) -/

/-- The captured high words of the bank context in use (R289). -/
def hiSet (cyc : Bool) (v : Word) (c : Cp) : Cp :=
  if bit c.sr 29 then (if cyc then { c with cycHiFast := v } else { c with dtHiFast := v })
  else (if cyc then { c with cycHi := v } else { c with dtHi := v })
def hiGet (cyc : Bool) (c : Cp) : Word :=
  if bit c.sr 29 then (if cyc then c.cycHiFast else c.dtHiFast) else (if cyc then c.cycHi else c.dtHi)

/-- CPID (R288). -/
def cpidWord (i : Nat) : Word := BitVec.ofNat 32 (fieldN 10 8 (i / 9) + fieldN 3 0 (i % 9))

/-- A read of special register n by CP i (R288): its value, and the device after it; none where there is no access. -/
def mfsValue (i n : Nat) (c : Cp) (d : Dev) : Option (Word × Dev) :=
  let m := cpBase c
  let base := fun (v : Word) => if m then some (v, d) else none
  match n with
  | 0x000 => some (srRead c, d)
  | 0x001 => base c.epc
  | 0x002 => base c.esr
  | 0x003 => base c.ecause
  | 0x004 => base c.eaddr
  | 0x005 => base c.npc
  | 0x006 => base c.nsr
  | 0x007 => base c.fpc
  | 0x008 => base c.fsr
  | 0x010 => some (cpidWord i, d)
  | 0x011 =>
      let (v, d) := cycNow i d
      some (v.extractLsb' 0 32, cpMod i (hiSet true (v.extractLsb' 32 32)) d)
  | 0x012 => some (hiGet true c, d)
  | 0x013 => some (d.devtime.extractLsb' 0 32, cpMod i (hiSet false (d.devtime.extractLsb' 32 32)) d)
  | 0x014 => some (hiGet false c, d)
  | 0x018 => base c.hdlo
  | 0x019 => base c.hdhi
  | 0x01A => base c.holo
  | 0x01B => base c.hohi
  | 0x01C =>
      if m then some (c.budget, d)
      else (let d := budgetRuns i d; some ((cpGet d i).budget, d))
  | 0x020 => some (c.a0.extractLsb' 0 32, d)
  | 0x021 => some ((c.a0.extractLsb' 32 8).signExtend 32, d)
  | 0x022 => some (c.a1.extractLsb' 0 32, d)
  | 0x023 => some ((c.a1.extractLsb' 32 8).signExtend 32, d)
  | _ => none

/-- A write of special register n (R288); none where there is no access or the register is RO. -/
def mtsValue (n : Nat) (v : Word) (m : Bool) (c : Cp) : Option Cp :=
  let base := fun (x : Cp) => if m then some x else none
  match n with
  | 0x000 => some (srMts v c)
  | 0x001 => base { c with epc := v }
  | 0x002 => base { c with esr := v }
  | 0x005 => base { c with npc := v }
  | 0x006 => base { c with nsr := v }
  | 0x007 => base { c with fpc := v }
  | 0x008 => base { c with fsr := v }
  | 0x018 => base { c with hdlo := v }
  | 0x019 => base { c with hdhi := v }
  | 0x01A => base { c with holo := v }
  | 0x01B => base { c with hohi := v }
  | 0x01C => base { c with budget := v }
  | 0x020 => some { c with a0 := c.a0.extractLsb' 32 8 ++ v }
  | 0x021 => some { c with a0 := v.extractLsb' 0 8 ++ c.a0.extractLsb' 0 32 }
  | 0x022 => some { c with a1 := c.a1.extractLsb' 32 8 ++ v }
  | 0x023 => some { c with a1 := v.extractLsb' 0 8 ++ c.a1.extractLsb' 0 32 }
  | _ => none

/-! ### CKPT and the mirror (R19, R312) -/

/-- The state a code names (R92). -/
def stateOfCode (n : Nat) : SubState :=
  match n with
  | 1 => .startPending | 2 => .active | 3 => .suspended | 4 => .haltPending | 5 => .clearPending | 6 => .statusPending
  | 7 => .notOperational | _ => .idle

/-- Sense data from its 256 bits (R121). -/
def senseOf (v : BitVec 1024) (lo : Nat) : Sense :=
  let f := fun (hi l : Nat) => bits v (lo + hi) (lo + l)
  { time := BitVec.ofNat 32 (f 255 224), dev := BitVec.ofNat 16 (f 223 208), dport := BitVec.ofNat 8 (f 207 200)
    members := BitVec.ofNat 64 (f 191 128), info := BitVec.ofNat 64 (f 127 64), qual := BitVec.ofNat 32 (f 63 32)
    valid := bit v (lo + 23), ou := bit v (lo + 22), memb := bit v (lo + 21), handler := BitVec.ofNat 8 (f 15 8)
    code := BitVec.ofNat 8 (f 7 0) }

/-- The record of a subchannel written from a 128-byte image (R90, R312). HOME stays: the slot is in the home district's
bank. What the program and its operations decide is computed (R90 FC and AC); HPRIV of a vendor pack has no layout the
manual gives, and stays (log entry 19). -/
def subOfBits (v : BitVec 1024) (s : Sub) : Sub :=
  { s with
    st := stateOfCode (bits v 3 0), rp := bit v 4, fcStart := bit v 8, scPri := bit v 24, scSec := bit v 25
    scAlert := bit v 26, cstat := BitVec.ofNat 8 (bits v 39 32), dstat := BitVec.ofNat 8 (bits v 47 40)
    lastFn := bits v 59 56, ccwAddr := BitVec.ofNat 64 (bits v 127 64), residual := BitVec.ofNat 32 (bits v 159 128)
    tag := BitVec.ofNat 32 (bits v 191 160), dport := bits v 196 192, queue := bits v 207 200
    devId := BitVec.ofNat 16 (bits v 223 208), bindArg := BitVec.ofNat 32 (bits v 255 224)
    position := BitVec.ofNat 64 (bits v 319 256), idemDef := bit v 320, unordDef := bit v 321, isup := bit v 322
    imm := bit v 323, ownFn := bits v 350 344, ownPort := bits v 351 351, cring := bits v 371 360
    key := bits v 375 372, hpack := bits v 383 376, pinned := bit v 451
    lease := if bit v 455 then some (fnOfCode (bits v 463 456)) else none
    leaseEnd := BitVec.ofNat 64 (bits v 511 464 * 65536)
    hpriv := if s.hpack < 3 then s.hpriv else { s.hpriv with raw := BitVec.ofNat 256 (bits v 767 512) }
    sense := senseOf v 768 }

/-- CKPT's write of a slot: CKPT_SEQ is the slot's previous one plus 1, and the mirror copy is under way; the mirror holds the copy
before it until then (R19, R312). -/
def bankWrite (dist k : Nat) (v : BitVec 1024) (d : Dev) : Dev :=
  let (old, d) := mirrorRead d dist k
  let d := { d with mirrorOld := tins d.mirrorOld (65536 * dist + k) old }
  let d := match subAt d dist k with
    | some n => (let s := subGet d n; subSet n { subOfBits v s with ckptSeq := s.ckptSeq + 1 } d)
    | none =>
        let key := 65536 * dist + k
        let old := tget d.bankRaw key 0
        { d with bankRaw := tset d.bankRaw key (setBits v 447 384 (bits old 447 384 + 1)) 0 }
  { d with mirrorWait := d.mirrorWait.filter (· ≠ (dist, k)) ++ [(dist, k)] }

end Sys2Proof.Machine
end

