-- ==== Sys2Proof/Machine/CpAlu.lean ====
section
/-!
DEFINITION. The register instructions of a channel processor (R298 to R303, R307, R343 to R362): the ALU group, the
immediate forms, MULDIV, FIX, FPU, and the special registers.
-/
namespace Sys2Proof.Machine

open Sys2Proof

/-- The shift amount rb[7:0] (R299). -/
def shiftAmt (f : RR) (c : Cp) : Nat := bits (gRead f.b c) 7 0

/-- MULW and MULWU write the low word to rd and the high word to rd + 1; an odd rd is illegal (R301). -/
def wideWrite (i : Nat) (f : RR) (c : Cp) (a : Alu × Word) (d : Dev) : CpRes :=
  if f.d % 2 = 1 then cpIllegal c
  else .ok (cpMod i (fun c => setFlags a.1 (rdWrite (f.d + 1) a.2 (rdWrite f.d a.1.r c))) d)

/-- Accumulator 0 or 1 (R302). -/
def accOf (k : Nat) (c : Cp) : BitVec 40 := if k = 0 then c.a0 else c.a1

/-- The accumulator that rd names is written with its flags; rd[4:1] is reserved (R302). -/
def accWrite (i : Nat) (f : RR) (c : Cp) (a : BitVec 40 × Alu) (d : Dev) : CpRes :=
  if 1 < f.d then cpIllegal c
  else .ok (cpMod i (fun c => setFlags a.2 (if f.d = 0 then { c with a0 := a.1 } else { c with a1 := a.1 })) d)

/-! ### The ALU group (R299, R343 to R345) -/

/-- ADD (R299, R343). -/
def execAdd (cp : Nat) (f : RR) (s : State) : Host.Outcome State Fault Refusal :=
  run s (cpRR cp 0x00 0x00 f false false false false (fun c d => aluWrite cp f.d (aluAdd (gRead f.a c) (gRead f.b c) false) d))

/-- ADDC (R299, R343). -/
def execAddc (cp : Nat) (f : RR) (s : State) : Host.Outcome State Fault Refusal :=
  run s (cpRR cp 0x00 0x01 f false false false false (fun c d => aluWrite cp f.d (aluAdd (gRead f.a c) (gRead f.b c) (flagC c)) d))

/-- SUB (R299, R343). -/
def execSub (cp : Nat) (f : RR) (s : State) : Host.Outcome State Fault Refusal :=
  run s (cpRR cp 0x00 0x02 f false false false false (fun c d => aluWrite cp f.d (aluSub (gRead f.a c) (gRead f.b c) false) d))

/-- SUBC (R299, R343). -/
def execSubc (cp : Nat) (f : RR) (s : State) : Host.Outcome State Fault Refusal :=
  run s (cpRR cp 0x00 0x03 f false false false false (fun c d => aluWrite cp f.d (aluSub (gRead f.a c) (gRead f.b c) (!flagC c)) d))

/-- AND (R299, R343). -/
def execAndR (cp : Nat) (f : RR) (s : State) : Host.Outcome State Fault Refusal :=
  run s (cpRR cp 0x00 0x04 f false false false false (fun c d => aluWrite cp f.d (aluLogic ((gRead f.a c) &&& (gRead f.b c))) d))

/-- OR (R299, R343). -/
def execOrR (cp : Nat) (f : RR) (s : State) : Host.Outcome State Fault Refusal :=
  run s (cpRR cp 0x00 0x05 f false false false false (fun c d => aluWrite cp f.d (aluLogic ((gRead f.a c) ||| (gRead f.b c))) d))

/-- XOR (R299, R343). -/
def execXorR (cp : Nat) (f : RR) (s : State) : Host.Outcome State Fault Refusal :=
  run s (cpRR cp 0x00 0x06 f false false false false (fun c d => aluWrite cp f.d (aluLogic ((gRead f.a c) ^^^ (gRead f.b c))) d))

/-- ANDN (R299, R343). -/
def execAndn (cp : Nat) (f : RR) (s : State) : Host.Outcome State Fault Refusal :=
  run s (cpRR cp 0x00 0x07 f false false false false (fun c d => aluWrite cp f.d (aluLogic ((gRead f.a c) &&& ~~~ (gRead f.b c))) d))

/-- SHL (R299, R344). -/
def execShl (cp : Nat) (f : RR) (s : State) : Host.Outcome State Fault Refusal :=
  run s (cpRR cp 0x00 0x08 f false false false false (fun c d => aluWrite cp f.d (aluShl (gRead f.a c) (shiftAmt f c)) d))

/-- SHR (R299, R344). -/
def execShr (cp : Nat) (f : RR) (s : State) : Host.Outcome State Fault Refusal :=
  run s (cpRR cp 0x00 0x09 f false false false false (fun c d => aluWrite cp f.d (aluShr (gRead f.a c) (shiftAmt f c)) d))

/-- SAR (R299, R344). -/
def execSar (cp : Nat) (f : RR) (s : State) : Host.Outcome State Fault Refusal :=
  run s (cpRR cp 0x00 0x0A f false false false false (fun c d => aluWrite cp f.d (aluSar (gRead f.a c) (shiftAmt f c)) d))

/-- CMP (R299, R343). -/
def execCmp (cp : Nat) (f : RR) (s : State) : Host.Outcome State Fault Refusal :=
  run s (cpRR cp 0x00 0x0B f true false false false (fun c d => aluFlags cp (aluSub (gRead f.a c) (gRead f.b c) false) d))

/-- TST (R299, R343). -/
def execTst (cp : Nat) (f : RR) (s : State) : Host.Outcome State Fault Refusal :=
  run s (cpRR cp 0x00 0x0C f true false false false (fun c d => aluFlags cp (aluLogic ((gRead f.a c) &&& (gRead f.b c))) d))

/-- NEG (R299, R345). -/
def execNeg (cp : Nat) (f : RR) (s : State) : Host.Outcome State Fault Refusal :=
  run s (cpRR cp 0x00 0x0D f false false true false (fun c d => aluWrite cp f.d (aluNeg (gRead f.a c)) d))

/-- NEGS (R299, R345). -/
def execNegs (cp : Nat) (f : RR) (s : State) : Host.Outcome State Fault Refusal :=
  run s (cpRR cp 0x00 0x0E f false false true false (fun c d => aluWrite cp f.d (aluNegs (gRead f.a c)) d))

/-- CLZ (R299, R345). -/
def execClz (cp : Nat) (f : RR) (s : State) : Host.Outcome State Fault Refusal :=
  run s (cpRR cp 0x00 0x0F f false false true false (fun c d => aluWrite cp f.d (aluClz (gRead f.a c)) d))

/-- MOV (R299, R307). -/
def execMovR (cp : Nat) (f : RR) (s : State) : Host.Outcome State Fault Refusal :=
  run s (cpRR cp 0x00 0x10 f false false true false (fun c d => regWrite cp f.d (gRead f.a c) d))

/-- MFLK (R284, R299). -/
def execMflk (cp : Nat) (f : RR) (s : State) : Host.Outcome State Fault Refusal :=
  run s (cpRR cp 0x00 0x11 f false true true false (fun c d => regWrite cp f.d (lkRead c) d))

/-- MTLK (R284, R299). -/
def execMtlk (cp : Nat) (f : RR) (s : State) : Host.Outcome State Fault Refusal :=
  run s (cpRR cp 0x00 0x12 f true false true false (fun c d => .ok (cpMod cp (lkWrite (gRead f.a c)) d)))

/-! ### Immediate forms (R298, R300) -/

/-- ADDI (R298, R343). -/
def execAddi (cp : Nat) (f : RI) (s : State) : Host.Outcome State Fault Refusal :=
  run s (cpRI cp 0x01 f false false (fun c d => aluWrite cp f.d (aluAdd (gRead f.a c) f.sx false) d))

/-- ANDI (R298, R343). -/
def execAndi (cp : Nat) (f : RI) (s : State) : Host.Outcome State Fault Refusal :=
  run s (cpRI cp 0x02 f false false (fun c d => aluWrite cp f.d (aluLogic ((gRead f.a c) &&& f.zx)) d))

/-- ORI (R298, R343). -/
def execOri (cp : Nat) (f : RI) (s : State) : Host.Outcome State Fault Refusal :=
  run s (cpRI cp 0x03 f false false (fun c d => aluWrite cp f.d (aluLogic ((gRead f.a c) ||| f.zx)) d))

/-- XORI (R298, R343). -/
def execXori (cp : Nat) (f : RI) (s : State) : Host.Outcome State Fault Refusal :=
  run s (cpRI cp 0x04 f false false (fun c d => aluWrite cp f.d (aluLogic ((gRead f.a c) ^^^ f.zx)) d))

/-- CMPI (R298, R343). -/
def execCmpi (cp : Nat) (f : RI) (s : State) : Host.Outcome State Fault Refusal :=
  run s (cpRI cp 0x05 f true false (fun c d => aluFlags cp (aluSub (gRead f.a c) f.sx false) d))

/-- TSTI (R298, R343). -/
def execTsti (cp : Nat) (f : RI) (s : State) : Host.Outcome State Fault Refusal :=
  run s (cpRI cp 0x06 f true false (fun c d => aluFlags cp (aluLogic ((gRead f.a c) &&& f.zx)) d))

/-- SHI (R300, R344). -/
def execShi (cp : Nat) (f : RI) (s : State) : Host.Outcome State Fault Refusal :=
  run s (cpRI cp 0x07 f false false (fun c d => 
    let n := bits f.imm 7 0
    if 2048 ≤ f.imm.toNat then cpIllegal c
    else match bits f.imm 10 8 with
      | 0 => aluWrite cp f.d (aluShl (gRead f.a c) n) d
      | 1 => aluWrite cp f.d (aluShr (gRead f.a c) n) d
      | 2 => aluWrite cp f.d (aluSar (gRead f.a c) n) d
      | _ => cpIllegal c))

/-- MOVI (R298). -/
def execMovi (cp : Nat) (f : RI) (s : State) : Host.Outcome State Fault Refusal :=
  run s (cpRI cp 0x08 f false true (fun _ d => regWrite cp f.d f.sx d))

/-- LUI (R298). -/
def execLui (cp : Nat) (f : RI) (s : State) : Host.Outcome State Fault Refusal :=
  run s (cpRI cp 0x09 f false true (fun _ d => regWrite cp f.d (f.imm ++ 0#16) d))

/-- MOVL (R298). -/
def execMovl (cp : Nat) (f : RI) (s : State) : Host.Outcome State Fault Refusal :=
  run s (cpRI cp 0x0A f false true (fun c d => regWrite cp f.d ((gRead f.d c).extractLsb' 16 16 ++ f.imm) d))

/-! ### The MULDIV group (R301, R346 to R348) -/

/-- MUL (R301, R346). -/
def execMul (cp : Nat) (f : RR) (s : State) : Host.Outcome State Fault Refusal :=
  run s (cpRR cp 0x0B 0x00 f false false false false (fun c d => aluWrite cp f.d (aluMul (gRead f.a c) (gRead f.b c)) d))

/-- MULW (R301, R346). -/
def execMulw (cp : Nat) (f : RR) (s : State) : Host.Outcome State Fault Refusal :=
  run s (cpRR cp 0x0B 0x01 f false false false false (fun c d => wideWrite cp f c (aluMulw (gRead f.a c) (gRead f.b c)) d))

/-- MULWU (R301, R346). -/
def execMulwu (cp : Nat) (f : RR) (s : State) : Host.Outcome State Fault Refusal :=
  run s (cpRR cp 0x0B 0x02 f false false false false (fun c d => wideWrite cp f c (aluMulwu (gRead f.a c) (gRead f.b c)) d))

/-- DIV (R301, R347, R348). -/
def execDivS (cp : Nat) (f : RR) (s : State) : Host.Outcome State Fault Refusal :=
  run s (cpRR cp 0x0B 0x03 f false false false false (fun c d => aluWrite cp f.d (aluDiv (gRead f.a c) (gRead f.b c)) d))

/-- DIVU (R301, R347, R348). -/
def execDivu (cp : Nat) (f : RR) (s : State) : Host.Outcome State Fault Refusal :=
  run s (cpRR cp 0x0B 0x04 f false false false false (fun c d => aluWrite cp f.d (aluDivu (gRead f.a c) (gRead f.b c)) d))

/-- REM (R301, R347, R348). -/
def execRemS (cp : Nat) (f : RR) (s : State) : Host.Outcome State Fault Refusal :=
  run s (cpRR cp 0x0B 0x05 f false false false false (fun c d => aluWrite cp f.d (aluRem (gRead f.a c) (gRead f.b c)) d))

/-- REMU (R301, R347, R348). -/
def execRemu (cp : Nat) (f : RR) (s : State) : Host.Outcome State Fault Refusal :=
  run s (cpRR cp 0x0B 0x06 f false false false false (fun c d => aluWrite cp f.d (aluRemu (gRead f.a c) (gRead f.b c)) d))

/-- DIVS (R301, R347, R348). -/
def execDivs (cp : Nat) (f : RR) (s : State) : Host.Outcome State Fault Refusal :=
  run s (cpRR cp 0x0B 0x07 f false false false false (fun c d => aluWrite cp f.d (aluDivs (gRead f.a c) (gRead f.b c)) d))

/-! ### The FIX group (R302, R349 to R353) -/

/-- QADD (R302, R350). -/
def execQadd (cp : Nat) (f : RR) (s : State) : Host.Outcome State Fault Refusal :=
  run s (cpRR cp 0x0C 0x00 f false false false false (fun c d => aluWrite cp f.d (aluQadd (gRead f.a c) (gRead f.b c)) d))

/-- QSUB (R302, R350). -/
def execQsub (cp : Nat) (f : RR) (s : State) : Host.Outcome State Fault Refusal :=
  run s (cpRR cp 0x0C 0x01 f false false false false (fun c d => aluWrite cp f.d (aluQsub (gRead f.a c) (gRead f.b c)) d))

/-- QMUL (R302, R350). -/
def execQmul (cp : Nat) (f : RR) (s : State) : Host.Outcome State Fault Refusal :=
  run s (cpRR cp 0x0C 0x02 f false false false false (fun c d => aluWrite cp f.d (aluQmul (qrmOf c) (gRead f.a c) (gRead f.b c)) d))

/-- MAC (R302, R352). -/
def execMac (cp : Nat) (f : RR) (s : State) : Host.Outcome State Fault Refusal :=
  run s (cpRR cp 0x0C 0x03 f false false false false (fun c d => accWrite cp f c (accMac (accOf f.d c) (gRead f.a c) (gRead f.b c)) d))

/-- MSU (R302, R352). -/
def execMsu (cp : Nat) (f : RR) (s : State) : Host.Outcome State Fault Refusal :=
  run s (cpRR cp 0x0C 0x04 f false false false false (fun c d => accWrite cp f c (accMsu (accOf f.d c) (gRead f.a c) (gRead f.b c)) d))

/-- MULA (R302, R352). -/
def execMula (cp : Nat) (f : RR) (s : State) : Host.Outcome State Fault Refusal :=
  run s (cpRR cp 0x0C 0x05 f false false false false (fun c d => accWrite cp f c (accMula (gRead f.a c) (gRead f.b c)) d))

/-- ACLR (R302, R353). -/
def execAclr (cp : Nat) (f : RR) (s : State) : Host.Outcome State Fault Refusal :=
  run s (cpRR cp 0x0C 0x06 f false true true false (fun c d => accWrite cp f c accClear d))

/-- EXT (R302, R353). -/
def execExtA (cp : Nat) (f : RR) (s : State) : Host.Outcome State Fault Refusal :=
  run s (cpRR cp 0x0C 0x07 f false false true false (fun c d => if 1 < f.a then cpIllegal c else aluWrite cp f.d (accExt (qrmOf c) (accOf f.a c)) d))

/-! ### The FPU group (R303, R354 to R362) -/

/-- FADD (R303, R354). -/
def execFadd (cp : Nat) (f : RR) (s : State) : Host.Outcome State Fault Refusal :=
  run s (cpRR cp 0x0D 0x00 f false false false false (fun c d => aluWrite cp f.d (aluFadd (frmOf c) (gRead f.a c) (gRead f.b c)) d))

/-- FSUB (R303, R354). -/
def execFsub (cp : Nat) (f : RR) (s : State) : Host.Outcome State Fault Refusal :=
  run s (cpRR cp 0x0D 0x01 f false false false false (fun c d => aluWrite cp f.d (aluFsub (frmOf c) (gRead f.a c) (gRead f.b c)) d))

/-- FMUL (R303, R354). -/
def execFmul (cp : Nat) (f : RR) (s : State) : Host.Outcome State Fault Refusal :=
  run s (cpRR cp 0x0D 0x02 f false false false false (fun c d => aluWrite cp f.d (aluFmul (frmOf c) (gRead f.a c) (gRead f.b c)) d))

/-- FDIV (R303, R354). -/
def execFdiv (cp : Nat) (f : RR) (s : State) : Host.Outcome State Fault Refusal :=
  run s (cpRR cp 0x0D 0x03 f false false false false (fun c d => aluWrite cp f.d (aluFdiv (frmOf c) (gRead f.a c) (gRead f.b c)) d))

/-- FSQRT (R303, R354). -/
def execFsqrt (cp : Nat) (f : RR) (s : State) : Host.Outcome State Fault Refusal :=
  run s (cpRR cp 0x0D 0x04 f false false true false (fun c d => aluWrite cp f.d (aluFsqrt (frmOf c) (gRead f.a c)) d))

/-- FMIN (R303, R359). -/
def execFmin (cp : Nat) (f : RR) (s : State) : Host.Outcome State Fault Refusal :=
  run s (cpRR cp 0x0D 0x05 f false false false false (fun c d => aluWrite cp f.d (aluFminmax false (gRead f.a c) (gRead f.b c)) d))

/-- FMAX (R303, R359). -/
def execFmax (cp : Nat) (f : RR) (s : State) : Host.Outcome State Fault Refusal :=
  run s (cpRR cp 0x0D 0x06 f false false false false (fun c d => aluWrite cp f.d (aluFminmax true (gRead f.a c) (gRead f.b c)) d))

/-- FCMP (R303, R360). -/
def execFcmp (cp : Nat) (f : RR) (s : State) : Host.Outcome State Fault Refusal :=
  run s (cpRR cp 0x0D 0x07 f true false false false (fun c d => aluFlags cp (aluFcmp (gRead f.a c) (gRead f.b c)) d))

/-- FMADD (R303, R354). -/
def execFmadd (cp : Nat) (f : RR) (s : State) : Host.Outcome State Fault Refusal :=
  run s (cpRR cp 0x0D 0x08 f false false false false (fun c d => aluWrite cp f.d (aluFmadd (frmOf c) (gRead f.d c) (gRead f.a c) (gRead f.b c)) d))

/-- FCVTSW (R303, R361). -/
def execFcvtsw (cp : Nat) (f : RR) (s : State) : Host.Outcome State Fault Refusal :=
  run s (cpRR cp 0x0D 0x09 f false false true false (fun c d => aluWrite cp f.d (aluFcvtFrom (frmOf c) (gRead f.a c).toInt) d))

/-- FCVTSWU (R303, R361). -/
def execFcvtswu (cp : Nat) (f : RR) (s : State) : Host.Outcome State Fault Refusal :=
  run s (cpRR cp 0x0D 0x0A f false false true false (fun c d => aluWrite cp f.d (aluFcvtFrom (frmOf c) (gRead f.a c).toNat) d))

/-- FCVTWS (R303, R361). -/
def execFcvtws (cp : Nat) (f : RR) (s : State) : Host.Outcome State Fault Refusal :=
  run s (cpRR cp 0x0D 0x0B f false false true false (fun c d => aluWrite cp f.d (aluFcvtws (frmOf c) (gRead f.a c)) d))

/-- FCVTWUS (R303, R361). -/
def execFcvtwus (cp : Nat) (f : RR) (s : State) : Host.Outcome State Fault Refusal :=
  run s (cpRR cp 0x0D 0x0C f false false true false (fun c d => aluWrite cp f.d (aluFcvtwus (frmOf c) (gRead f.a c)) d))

/-- FABS (R303, R307). -/
def execFabs (cp : Nat) (f : RR) (s : State) : Host.Outcome State Fault Refusal :=
  run s (cpRR cp 0x0D 0x0D f false false true false (fun c d => regWrite cp f.d (fpAbs (gRead f.a c)) d))

/-- FNEG (R303, R307). -/
def execFneg (cp : Nat) (f : RR) (s : State) : Host.Outcome State Fault Refusal :=
  run s (cpRR cp 0x0D 0x0E f false false true false (fun c d => regWrite cp f.d (fpNeg (gRead f.a c)) d))

/-- FCLASS (R303, R307). -/
def execFclass (cp : Nat) (f : RR) (s : State) : Host.Outcome State Fault Refusal :=
  run s (cpRR cp 0x0D 0x0F f false false true false (fun c d => regWrite cp f.d (fpClass (gRead f.a c)) d))

/-! ### Special registers (R287, R288) -/

/-- MFS (R288). -/
def execMfs (cp : Nat) (f : RI) (s : State) : Host.Outcome State Fault Refusal :=
  run s (cpRI cp 0x0E f false true (fun c d => 
    match mfsValue cp f.imm.toNat c d with
    | some (v, d) => regWrite cp f.d v d
    | none => cpIllegal c))

/-- MTS (R287, R288). -/
def execMts (cp : Nat) (f : RI) (s : State) : Host.Outcome State Fault Refusal :=
  run s (cpRI cp 0x0F f true false (fun c d => 
    match mtsValue f.imm.toNat (gRead f.a c) (cpBase c) (cpGet d cp) with
    | some x => .ok (cpSet cp x d)
    | none => cpIllegal c))

end Sys2Proof.Machine
end

