-- ==== Sys2Proof/Machine/PackSvc.lean ====
section
/-!
DEFINITION. What an owner pack's entries return and the services they call through SVC (R333 to R337, R443, R445), with
the events that resume a pack: host transfers, timers, armed sources.
-/
namespace Sys2Proof.Machine

open Sys2Proof

/-! ### The end of an entry (R333, R334) -/

/-- The CP goes back to CP_BASE_FW (R384): base mode, no exception, interrupts off, at the return address. -/
def packLeave (i : Nat) (d : Dev) : Dev :=
  cpMod i (fun c => { c with
    serve := none, pc := (c.serve.map (·.ret)).getD c.pc
    sr := setBits (setBit (setBit c.sr 30 false) 31 true) 27 26 0 }) (leaveHandler i d)

/-- An entry returns with its disposition in g1 (R334). -/
def packReturn (i : Nat) (s : Serve) (d : Dev) : Dev :=
  let g := (gRead 1 (cpGet d i)).toNat
  let n := s.sub
  if [0, 4, 5, 6, 8].contains s.entry then
    match progOf d n with
    | none => packLeave i d
    | some p => match p.own with
      | none => packLeave i d
      | some o =>
          match g with
          | 0 => if packStatOk o d then liveP (packDone n p o) (packLeave i d) else packLeave i (handlerFault i d)
          | 1 => liveP (packOver n) (packLeave i d)
          | 2 =>
              if s.entry = 0 ∧ s.issued = false then
                let (a, w) := p.chain.headD (0, 0)
                liveP (commandEnd n p p.chain (endUc a (ccwCount w) 1 (ccwCode w) p.pos.toNat) none) (packLeave i d)
              else packLeave i (handlerFault i d)
          | _ => packLeave i (handlerFault i d)
  else if s.entry = 2 then liveP (bindEnd n (decide (g = 0))) (packLeave i d)
  else packLeave i d

/-! ### Services (R336) -/

/-- How a service ends: results in g1 to g4; an argument outside its range; it waits and EVENT resumes the pack; or it has still to be
done, since the host cannot be reached (R170, R515). -/
inductive SvcRes where
  | done (g1 g2 g3 g4 : Word) (d : Dev)
  | bad
  | waits (d : Dev)
  | later (d : Dev)

/-- A service called by SVC `imm` of the entry that CP i runs (R314, R336): its effect, its results, and the return to
the handler at the instruction after SVC. -/
def svcRow (i imm : Nat) (f : Cp → Serve → Dev → SvcRes) (d : Dev) : Dev :=
  let c := cpGet d i
  match c.serve with
  | none => d
  | some s =>
      if i < 72 ∧ c.run = .run ∧ bit c.sr 30 = true ∧ c.ecause = 8 ∧ c.eaddr.toNat = imm then
        match f c s d with
        | .bad => handlerFault i d
        | .waits e => packLeave i e
        | .later e => e
        | .done v1 v2 v3 v4 e =>
            cpAfter i (cpMod i (fun c => gWrite 4 v4 (gWrite 3 v3 (gWrite 2 v2 (gWrite 1 v1 (cpEret c))))) e)
      else d

/-- A result in g1 alone; g2 to g4 keep their values. -/
def svcOne (c : Cp) (v : Word) (d : Dev) : SvcRes := .done v (gRead 2 c) (gRead 3 c) (gRead 4 c) d

/-- The command that an entry serves. -/
def ownOfServe (d : Dev) (s : Serve) : Option (Prog × OwnCmd) :=
  match progOf d s.sub with
  | none => none
  | some p => p.own.map (fun o => (p, o))

/-- PZ_RESERVE (R225, R336, R445): a recovered command gets the reservations it held. The class is 1 (log entry 20). -/
def svcReserve (c : Cp) (s : Serve) (d : Dev) : SvcRes :=
  let k := (gRead 1 c).toNat
  match ownOfServe d s with
  | none => .bad
  | some (_, o) =>
      if k = 0 ∨ 64 < k then .bad
      else match o.replay.bind (fun r => (o.held[r.2]?).map (fun h => (r, h))) with
        | some (r, h) =>
            svcOne c (BitVec.ofNat 32 h.1) (ownMod s.sub (fun o => { o with replay := some (r.1, r.2 + 1) }) d)
        | none =>
            match pzAsk s.sub 1 k (streamEnds d s.sub) d with
            | (some (l, d), _) => (let (off, d) := pzPages s.sub l d; svcOne c (BitVec.ofNat 32 off) d)
            | (none, d) => .waits d

/-- PZ_RELEASE (R336): whole slices of the command's reservations. -/
def svcRelease (c : Cp) (s : Serve) (d : Dev) : SvcRes :=
  let off := (gRead 1 c).toNat
  let k := (gRead 2 c).toNat
  match ownOfServe d s with
  | none => .bad
  | some (_, o) =>
      let pages := span (off / 4096) k
      if off % 4096 ≠ 0 ∨ k = 0 ∨ pages.any (fun p => !(o.res.any (fun r => r.1 = p))) then .bad
      else
        let gone := (o.res.filter (fun r => pages.contains r.1)).map (·.2)
        let d := gone.foldl (fun d x => sliceSet x .free d) d
        let d := ownMod s.sub (fun o => { o with
          res := o.res.filter (fun r => !(pages.contains r.1)), held := o.held.filter (fun h => h.1 ≠ off) }) d
        svcOne c 0 (fenceSweep d)

/-- The Plaza address of an offset in the command's aperture 10 (R336); none outside its reservations. -/
def apPage (o : OwnCmd) (off : Nat) : Option Nat :=
  (o.res.find? (fun r => r.1 = off / 4096)).map (fun r => 4096 * r.2 + off % 4096)

/-- Read and write the command's reservations through aperture 10. -/
def resRead (o : OwnCmd) (off n : Nat) (d : Dev) : List Byte :=
  (span off n).map (fun a => match apPage o a with | some x => memGet d.plaza x | none => 0)
def resWrite (o : OwnCmd) : Nat → List Byte → Dev → Dev
  | _, [], d => d
  | off, b :: t, d =>
      resWrite o (off + 1) t (match apPage o off with | some x => { d with plaza := memSet d.plaza x b } | none => d)

/-- XFER_HOST (R336): the command's data moves between its segments and its reservation. Host data is read now; what
goes to the host leaves when the transfer completes. -/
def svcXfer (io : CmdIo) (c : Cp) (s : Serve) (d : Dev) : SvcRes :=
  let dir := (gRead 1 c).toNat
  let off := (gRead 2 c).toNat
  match ownOfServe d s with
  | none => .bad
  | some (p, o) =>
      let f := ownerOf (subGet d s.sub)
      let (segs, st) := buildSegs d f p.chain io.ida
      let total := segLen segs
      let ida := idaReads d f p.chain io.ida
      let touch := ida ++ (if dir = 0 then gatherTouch segs io.data else [])
      if 1 < dir ∨ (total ≠ 0 ∧ ((span (off / 4096) ((off % 4096 + total + 4095) / 4096)).any (fun k => !(o.res.any (fun r => r.1 = k))))) then .bad
      else if hostWaits d f touch then .later (hostAsk f touch d)
      else if dir = 0 ∧ inRefill d (segBlocks d f segs) ≠ [] then .later (joinAll (inRefill d (segBlocks d f segs)) (.engine s.sub) d)
      else match chanHold s.sub 1 d with
      | (false, d) => .later d
      | (true, d) =>
        let t := d.nextTok
        let d := emitIda s.sub ida { d with nextTok := t + 1 }
        let d := match progOf d s.sub with
          | some p => progSet s.sub { p with stopAt := st.orElse (fun _ => p.stopAt) } d
          | none => d
        let (bytes, miss) := if dir = 0 then gather d f segs io.data 0 else ([], none)
        let d := if dir = 0 then resWrite o off bytes (emitReads s.sub segs d) else d
        let d := ownMod s.sub (fun o => { o with
          xfers := o.xfers ++ [(t, decide (dir = 1), off)], segs := segs, cdc := miss.orElse (fun _ => o.cdc) }) d
        svcOne c (BitVec.ofNat 32 t) d

/-- A ledger entry's disposition in a recovered command (R443): g2, g3, g4. -/
def replayDisp (o : OwnCmd) (t : Nat) (e : Op) : Nat × Nat × Nat :=
  if o.settled.contains t then (4, 0, 0)
  else match e.cond with
  | .notIssued => (0, 0, 0)
  | .complete => match o.sense with
    | some x => (2, x.code, x.qual)
    | none => (1, 0, 0)
  | .uncertain => if e.idem && !e.reissued then (3, 0, 0) else (4, 0, 0)

/-- OP_ISSUE (R337, R443): a new ledger entry, or the next one of a recovered command. With no operation slot free it waits (R35,
R79, R336). -/
def svcOpIssue (i : Nat) (c : Cp) (s : Serve) (d : Dev) : SvcRes :=
  let cls := (gRead 1 c).toNat
  match ownOfServe d s with
  | none => .bad
  | some (p, o) =>
      if 2 < cls then .bad
      else
        let mark := cpMod i (fun c => { c with serve := some { s with issued := true } })
        let old := o.replay.bind (fun r => (o.toks[r.1]?).bind (fun t => (d.ops.find? (fun e => e.1 = t)).map (fun e => (r, e))))
        match old with
        | some (r, (t, e)) =>
            let (g2, g3, g4) := replayDisp o t e
            let d := ownMod s.sub (fun o => { o with
              replay := some (r.1 + 1, r.2), settled := if g2 = 4 then (o.settled ++ [t]).eraseDups else o.settled }) d
            let d := if g2 = 3 then { d with ops := tins (tdel d.ops t) t { e with reissued := true } } else d
            .done (BitVec.ofNat 32 t) (BitVec.ofNat 32 g2) (BitVec.ofNat 32 g3) (BitVec.ofNat 32 g4) (mark d)
        | none =>
            if slotsFree d p.cp 1 then
              (let (t, d) := ledgerPut s.sub cls (mark d)
               .done (BitVec.ofNat 32 t) 0 (gRead 3 c) (gRead 4 c) d)
            else .waits { mark d with opWait := d.opWait ++ [(s.sub, cls)] }

/-- OP_STATE (R337). -/
def svcOpState (c : Cp) (s : Serve) (d : Dev) : SvcRes :=
  let t := (gRead 1 c).toNat
  let k := (gRead 2 c).toNat
  match ownOfServe d s with
  | none => .bad
  | some (_, o) =>
      match d.ops.find? (fun e => e.1 = t) with
      | none => .bad
      | some (_, e) =>
          if !(o.toks.contains t) || k = 0 || 3 < k then .bad
          else
            let cond : OpCond := if k = 1 then .uncertain else if k = 2 then .complete else .notIssued
            svcOne c 0 { d with ops := tins (tdel d.ops t) t { e with cond := cond } }

/-- SRC_ARM (R333, R336): for the command with a token, or for ALERT. -/
def svcSrcArm (c : Cp) (s : Serve) (d : Dev) : SvcRes :=
  let n := (gRead 1 c).toNat
  let t := (gRead 2 c).toNat
  if 0x3FFF ≤ n ∨ srcKind n = .reserved then .bad
  else if t = 0 then svcOne c 0 { d with alertSrcs := d.alertSrcs.filter (fun a => a.1 ≠ n) ++ [(n, s.sub)] }
  else match ownOfServe d s with
    | none => .bad
    | some (_, o) =>
        if !(o.toks.contains t) then .bad
        else svcOne c 0 (ownMod s.sub (fun o => { o with srcs := o.srcs.filter (fun a => a.1 ≠ n) ++ [(n, t)] }) d)

/-- TMR_ARM (R336). -/
def svcTmrArm (c : Cp) (s : Serve) (d : Dev) : SvcRes :=
  let ms := (gRead 1 c).toNat
  match ownOfServe d s with
  | none => .bad
  | some (_, o) =>
      if ms = 0 ∨ 60000 < ms ∨ o.toks.contains (gRead 2 c).toNat = false then .bad
      else
        let t := d.nextTok
        let due := d.devtime + BitVec.ofNat 64 (ms * 1000000)
        svcOne c (BitVec.ofNat 32 t) (ownMod s.sub (fun o => { o with timers := o.timers ++ [(t, (gRead 2 c).toNat, due)] })
          { d with nextTok := t + 1 })

/-- SENSE_SET (R336, R337): an undeclared code of 0x80 to 0xFF is refused. -/
def svcSense (c : Cp) (s : Serve) (d : Dev) : SvcRes :=
  let code := (gRead 1 c).toNat
  match ownOfServe d s, d.packs.find? (fun e => e.1 = (subGet d s.sub).hpack) with
  | some _, some (_, pk) =>
      if 255 < code ∨ (0x80 ≤ code ∧ bit pk.senseDecl (code - 0x80) = false) then .bad
      else 
        let x : SenseSet := ⟨code, (gRead 2 c).toNat, (gRead 3 c).toNat + 2 ^ 32 * (gRead 4 c).toNat, 0, false, none⟩
        svcOne c 0 (ownMod s.sub (fun o => { o with sense := some x }) d)
  | _, _ => .bad

/-- Fields of an aperture descriptor (R294). -/
def apTaddr (x : QWord) : Nat := bits x 127 76 * 4096
def apLim (x : QWord) : Nat := bits x 58 32
def apValid (x : QWord) : Bool := bit x 31
def apKind (x : QWord) : Nat := bits x 30 29

/-- The range of apertures 8, 9 and 11 that holds a target (R336), with what is left of it; for aperture 10 it is the
slice of the command's reservations. -/
def apRange (c : Cp) (o : Option OwnCmd) (kind t : Nat) : Option (QWord × Nat) :=
  let hit := ([8, 9, 11].map (fun k => lget c.apert k 0)).find? (fun x =>
    apValid x && decide (apKind x = kind) && decide (apTaddr x ≤ t) && decide (t < apTaddr x + apLim x))
  match hit with
  | some x => some (x, apTaddr x + apLim x - t)
  | none => match o with
    | some o => if kind = 2 ∧ o.res.any (fun r => r.2 = t / 4096) = true then some (lget c.apert 10 0, 4096 - t % 4096) else none
    | none => none

/-- AP_OPEN (R294, R336): the new aperture has the rights of the range its target lies in, and ends with it. -/
def svcApOpen (i : Nat) (c : Cp) (s : Serve) (d : Dev) : SvcRes :=
  let k := (gRead 1 c).toNat
  let kind := (gRead 2 c).toNat
  let t := (gRead 3 c).toNat + 2 ^ 32 * (gRead 4 c).toNat
  if k < 12 ∨ 15 < k ∨ t % 4096 ≠ 0 then .bad
  else match apRange c ((progOf d s.sub).bind (·.own)) kind t with
    | none => .bad
    | some (x, left) =>
        let y : QWord := setBits (setBits (setBits x 127 64 t) 58 32 (min left 0x7FFFFFF)) 31 31 1
        svcOne c 0 (cpMod i (fun c => { c with apert := lset c.apert k y }) d)

/-- ALERT_POST (R336): ATTN is attention (R114); UC reports the subchannel's device lost, with QUAL 0 in its sense data, which R122's
table does not give (log entry 21). -/
def svcAlert (c : Cp) (s : Serve) (d : Dev) : SvcRes :=
  let n := (gRead 1 c).toNat
  let x := (gRead 2 c).toNat
  if Config.subchannels ≤ n ∨ (subGet d n).hpack ≠ (subGet d s.sub).hpack then .bad
  else if x = 0x10 then svcOne c 0 (liveA (attention n) d)
  else if x = 0x80 then
    svcOne c 0 (liveP (loseSub 0 (((progOps d n).filter (fun e => decide (e.2.cond = .uncertain))).map (·.1)) n) d)
  else .bad

/-! ### Events that resume a pack (R333) -/

/-- The command that waits for a transfer or timer token. -/
def ownerOfToken (d : Dev) (f : OwnCmd → Bool) : Option (Nat × Prog × OwnCmd) :=
  (d.progs.filterMap (fun e => e.2.own.bind (fun o => if f o then some (e.1, e.2, o) else none))).head?

/-- XFER_HOST_COMPLETE (R333): what goes to the host is written; EVENT is called with the token. A transfer
whose block is being refilled is held (R228), and its completion comes later. -/
def xferComplete (t : Nat) (res : WriteRes) (d : Dev) : Dev :=
  match ownerOfToken d (fun o => o.xfers.any (fun x => x.1 = t)) with
  | none => d
  | some (n, p, o) =>
      match o.xfers.find? (fun x => x.1 = t) with
      | none => d
      | some (_, toHost, off) =>
          if d.refills.any (fun x => decide (x.reader = .xfer t)) then d
          else hostGo (ownerOf (subGet d n)) (if toHost then writeTouch o.segs res else []) (fun d =>
          let (port, d) := if toHost then takeStream n o.segs d else (none, d)
          portGo n p port (fun d =>
          let (miss, d) := if toHost then
              scatter (port.getD 0) (ownerOf (subGet d n)) res o.segs (resRead o off (segLen o.segs) d) 0 d
            else (none, d)
          let d := match progOf d n with
            | some q => progSet n (wrotePort q port) d
            | none => d
          callEv n 4 3 t (ownMod n (fun o => { o with
            xfers := o.xfers.filter (fun x => x.1 ≠ t), cdc := o.cdc.orElse (fun _ => miss) }) d)) d) d

/-- PACK_TIMER_EXPIRY (R333): TIMEOUT is called with the timer token. -/
def packTimer (t : Nat) (d : Dev) : Dev :=
  match ownerOfToken d (fun o => o.timers.any (fun x => x.1 = t)) with
  | none => d
  | some (n, _, o) =>
      match o.timers.find? (fun x => x.1 = t) with
      | none => d
      | some (_, _, due) =>
          callEv n 5 4 t (ownMod n (fun o => { o with timers := o.timers.filter (fun x => x.1 ≠ t) }) (advanceTo due d))

/-- A source that a pack armed has been handed over to a CP (R333): EVENT for a command, ALERT for a subchannel; ALERT is called on the
first CP in service of the subchannel's home district (log entry 105). -/
def armedSource (src : Nat) (d : Dev) : Dev :=
  match ownerOfToken d (fun o => o.srcs.any (fun x => x.1 = src)) with
  | some (n, _, _) => callEv n 4 3 src (ownMod n (fun o => { o with srcs := o.srcs.filter (fun x => x.1 ≠ src) }) d)
  | none =>
      match d.alertSrcs.find? (fun a => a.1 = src) with
      | none => d
      | some (_, n) =>
          match d.packs.find? (fun e => e.1 = (subGet d n).hpack) with
          | none => d
          | some (k, pk) =>
              let cp := (roleIn d (subGet d n).home .inService).headD 0
              { d with packCalls := d.packCalls ++
                [⟨cp, n, k, 7, lget pk.ev 6 0, BitVec.ofNat 32 n, BitVec.ofNat 32 src, 0⟩] }

/-- A claim read with what follows it: a START begins (R384), an armed source resumes its pack; neither after a Fatal fault (R436). -/
def claimAll (fast : Bool) (i : Nat) (d : Dev) : Nat × Dev :=
  let (n, w, d) := claim fast i d
  if d.fatal then (n, d)
  else
    (n, match w with
      | none => if n = 0x3FFF then d else armedSource n d
      | some w => claimStart w i d)

/-- A claim read by a CP (R381): the answer goes to the CP; what it claims begins. -/
def claimRead (fast : Bool) (i : Nat) (d : Dev) : Dev :=
  let (n, d) := claimAll fast i d
  emit (.cpValue i (BitVec.ofNat 32 n)) d

/-- A claim by a CP (R381), also after a Fatal fault, which only stops what would follow it (R436). -/
def claimLive (fast : Bool) (i : Nat) (d : Dev) : Dev :=
  if d.fatal then claimRead fast i d else liveP (claimRead fast i) d

/-! ### Meanings -/

/-- CLAIM_N (R381). -/
def execClaimN (cp : Nat) (s : State) : Host.Outcome State Fault Refusal := run s (claimLive false cp)

/-- CLAIM_F (R381). -/
def execClaimF (cp : Nat) (s : State) : Host.Outcome State Fault Refusal := run s (claimLive true cp)

end Sys2Proof.Machine
end

