-- ==== Sys2Proof/Machine/CpFlow.lean ====
section
/-!
DEFINITION. Branches, jumps, the SYS group, SVC, interrupt entries and the services of an owner pack (R305, R306, R310 to
R312, R314 to R320, R336).
-/
namespace Sys2Proof.Machine

open Sys2Proof

/-! ### Branches and jumps (R298, R305, R306) -/

/-- Does a condition hold (R305)? Code 15 is illegal and holds never. -/
def bcHolds (cond : Nat) (sr : Word) : Bool :=
  let n := bit sr 3
  let z := bit sr 2
  let c := bit sr 1
  let v := bit sr 0
  match cond with
  | 0 => true
  | 1 => z
  | 2 => !z
  | 3 => c
  | 4 => !c
  | 5 => n
  | 6 => !n
  | 7 => v
  | 8 => !v
  | 9 => c && !z
  | 10 => !c || z
  | 11 => n == v
  | 12 => n != v
  | 13 => !z && (n == v)
  | 14 => z || (n != v)
  | _ => false

/-- pc and lk after a call: lk is the address of the next instruction. -/
def linkTo (i : Nat) (from_ target : Word) (d : Dev) : CpRes :=
  .ok (cpMod i (fun c => lkWrite (from_ + 4) { c with pc := target }) d)

/-- RET (R306). The return address of a pack entry takes the CP back to CP_BASE_FW with the entry's result (R333). -/
def cpReturn (i : Nat) (c : Cp) (d : Dev) : CpRes :=
  match c.serve with
  | some s => if lkRead c = s.ret then .ok (packReturn i s d) else pcWrite i (lkRead c) d
  | none => pcWrite i (lkRead c) d

/-! ### The SYS group (R306, R310 to R312, R316, R319, R508) -/

/-- Does a store of the CP still wait for its target (R310)? -/
def storesWait (d : Dev) (i : Nat) : Bool :=
  pageWaits d i || d.outHeld.any (fun x => decide (x.2.1 = .cp i) && (match x.2.2 with | .write _ _ => true | _ => false))

/-- WAIT (R319): issue stops until a presentation wakes the CP; one that has committed already does so at once
(settle). -/
def cpWaits (i : Nat) (d : Dev) : CpRes := .ok (cpMod i (fun c => { c with run := .wait }) d)

/-- Is the CP's bit of DB_BKGRANT set (R508, R509)? -/
def bkGrant (d : Dev) (i : Nat) : Bool := if i < 64 then bit (regGet d .dbBkgrant0 0) i else bit (regGet d .dbBkgrant1 0) (i - 64)

/-- BRK (R314, R508): a granted breakpoint stops the CP and raises BKPT; else the breakpoint exception is taken. -/
def cpBreak (i : Nat) (c : Cp) (d : Dev) : CpRes :=
  if bkGrant d i then .ok (pageEvent 12 0 (cpMod i (fun c => { c with run := .stopped, halted := true }) d))
  else .exc 7 (c.pc + 4) 0

/-- CKPT (R312): the record image in DRAM is written to a slot of the own district's bank. -/
def cpCheckpoint (i : Nat) (a slot : Word) (c : Cp) (d : Dev) : CpRes :=
  let x := a.toNat
  if x % 128 ≠ 0 ∨ x < 0x10000000 ∨ 0x10020000 < x + 128 ∨ 32783 < slot.toNat then .exc 5 c.pc a
  else .ok (bankWrite (i / 9) slot.toNat (BitVec.ofNat 1024 (leNat (dramRead c x 128))) d)

/-! ### Meanings: branches and jumps -/

/-- B.cond (R305). -/
def execBCond (cp : Nat) (cond : BitVec 4) (off : BitVec 22) (s : State) : Host.Outcome State Fault Refusal :=
  run s (cpIssue cp (encBC cond off) (fun c d =>
    if cond = 15 then cpIllegal c
    else if bcHolds cond.toNat c.sr then pcWrite cp (c.pc + (off.signExtend 32 <<< 2)) d else .ok d))

/-- BL (R298). -/
def execBl (cp : Nat) (off : BitVec 26) (s : State) : Host.Outcome State Fault Refusal :=
  run s (cpIssue cp (encBL off) (fun c d => linkTo cp c.pc (c.pc + (off.signExtend 32 <<< 2)) d))

/-- JR (R306). -/
def execJr (cp : Nat) (f : RR) (s : State) : Host.Outcome State Fault Refusal :=
  run s (cpRR cp 0x22 0x00 f true false true false (fun c d => pcWrite cp (gRead f.a c) d))

/-- BLR (R306). -/
def execBlr (cp : Nat) (f : RR) (s : State) : Host.Outcome State Fault Refusal :=
  run s (cpRR cp 0x22 0x01 f true false true false (fun c d => linkTo cp c.pc (gRead f.a c) d))

/-- RET (R306, R333). -/
def execRet (cp : Nat) (f : RR) (s : State) : Host.Outcome State Fault Refusal :=
  run s (cpRR cp 0x22 0x02 f true true true false (cpReturn cp))

/-! ### Meanings: the SYS group and SVC -/

/-- NOP (R306). -/
def execCpNop (cp : Nat) (f : RR) (s : State) : Host.Outcome State Fault Refusal :=
  run s (cpRR cp 0x30 0x00 f true true true false (fun _ d => .ok d))

/-- WAIT (R319). -/
def execCpWait (cp : Nat) (f : RR) (s : State) : Host.Outcome State Fault Refusal :=
  run s (cpRR cp 0x30 0x01 f true true true true (fun _ d => cpWaits cp d))

/-- ERET (R316). -/
def execEret (cp : Nat) (f : RR) (s : State) : Host.Outcome State Fault Refusal :=
  run s (cpRR cp 0x30 0x02 f true true true true (fun _ d => .ok (cpMod cp cpEret d)))

/-- FENCE (R310): it completes when no register store of the CP waits to take effect (R424) and no aperture store waits to leave (R170,
R515); every other store of this model has reached its target when its instruction is complete. -/
def execCpFence (cp : Nat) (f : RR) (s : State) : Host.Outcome State Fault Refusal :=
  run s (cpRR cp 0x30 0x03 f true true true false (fun _ d => if storesWait d cp then .wait else .ok d))

/-- ISYNC (R311): instructions come as commands, so no fetched instruction is held. -/
def execIsync (cp : Nat) (f : RR) (s : State) : Host.Outcome State Fault Refusal :=
  run s (cpRR cp 0x30 0x04 f true true true false (fun _ d => .ok d))

/-- BRK (R314, R508). -/
def execBrk (cp : Nat) (f : RR) (s : State) : Host.Outcome State Fault Refusal :=
  run s (cpRR cp 0x30 0x05 f true true true false (cpBreak cp))

/-- CKPT (R312). -/
def execCkpt (cp : Nat) (f : RR) (s : State) : Host.Outcome State Fault Refusal :=
  run s (cpRR cp 0x30 0x06 f true false false true (fun c d => cpCheckpoint cp (gRead f.a c) (gRead f.b c) c d))

/-- CKPT_MIRROR_ACK (R19, R312). -/
def execCkptMirrorAck (d : Nat) (slot : Nat) (s : State) : Host.Outcome State Fault Refusal :=
  run s (fun e => if e.mirrorWait.contains (d, slot) then liveP (mirrorAck d slot) e else e)

/-- SVC (R314). -/
def execSvc (cp : Nat) (f : RI) (s : State) : Host.Outcome State Fault Refusal :=
  run s (cpRI cp 0x31 f true true (fun c _ => .exc 8 (c.pc + 4) f.zx))

/-! ### Meanings: interrupts and the budget -/

/-- NORMAL_INTERRUPT_ENTRY (R315). -/
def execNormalInterruptEntry (cp : Nat) (s : State) : Host.Outcome State Fault Refusal := run s (cpInterrupt cp false)

/-- FAST_INTERRUPT_ENTRY (R315). -/
def execFastInterruptEntry (cp : Nat) (s : State) : Host.Outcome State Fault Refusal := run s (cpInterrupt cp true)

/-- BUDGET_EXPIRY (R320). -/
def execBudgetExpiry (cp : Nat) (s : State) : Host.Outcome State Fault Refusal := run s (budgetExpiry cp)

/-! ### Meanings: services (R336) -/

/-- A service for the operation of subchannel `sub`, which the entry on CP i serves. -/
def svcAt (i sub imm : Nat) (f : Cp → Serve → Dev → SvcRes) (d : Dev) : Dev :=
  if (cpGet d i).serve.map (·.sub) = some sub then svcRow i imm f d else d

/-- PZ_RESERVE (R336). -/
def execPzReserve (cp : Nat) (sub : Nat) (s : State) : Host.Outcome State Fault Refusal := run s (svcAt cp sub 1 svcReserve)

/-- PZ_RELEASE (R336). -/
def execPzRelease (cp : Nat) (sub : Nat) (s : State) : Host.Outcome State Fault Refusal := run s (svcAt cp sub 2 svcRelease)

/-- XFER_HOST (R336). -/
def execXferHost (cp : Nat) (sub : Nat) (io : CmdIo) (s : State) : Host.Outcome State Fault Refusal :=
  run s (svcAt cp sub 3 (svcXfer io))

/-- XFER_HOST_COMPLETE (R333). -/
def execXferHostComplete (token : Nat) (res : WriteRes) (s : State) : Host.Outcome State Fault Refusal :=
  run s (xferComplete token res)

/-- OP_ISSUE (R337). -/
def execOpIssue (cp : Nat) (sub : Nat) (s : State) : Host.Outcome State Fault Refusal := run s (svcAt cp sub 4 (svcOpIssue cp))

/-- OP_STATE (R337). -/
def execOpState (cp : Nat) (s : State) : Host.Outcome State Fault Refusal := run s (svcRow cp 5 svcOpState)

/-- SRC_ARM (R336). -/
def execSrcArm (cp : Nat) (sub : Nat) (s : State) : Host.Outcome State Fault Refusal := run s (svcAt cp sub 6 svcSrcArm)

/-- TMR_ARM (R336). -/
def execTmrArm (cp : Nat) (sub : Nat) (s : State) : Host.Outcome State Fault Refusal := run s (svcAt cp sub 7 svcTmrArm)

/-- PACK_TIMER_EXPIRY (R333). -/
def execPackTimerExpiry (token : Nat) (s : State) : Host.Outcome State Fault Refusal := run s (packTimer token)

/-- SENSE_SET (R336). -/
def execSenseSet (cp : Nat) (sub : Nat) (s : State) : Host.Outcome State Fault Refusal := run s (svcAt cp sub 8 svcSense)

/-- AP_OPEN (R336). -/
def execApOpen (cp : Nat) (s : State) : Host.Outcome State Fault Refusal := run s (svcRow cp 9 (svcApOpen cp))

/-- ALERT_POST (R336). -/
def execAlertPost (cp : Nat) (s : State) : Host.Outcome State Fault Refusal := run s (svcRow cp 10 svcAlert)

end Sys2Proof.Machine
end

