-- ==== Sys2Proof/Machine/LinkOps.lean ====
section
/-!
DEFINITION. Upstream ports, root ports, the time base, timers and GPIO pins (R271, R510 to R534, R566).
-/
namespace Sys2Proof.Machine

open Sys2Proof

/-! ### GPIO pins (R533, R534) -/

/-- The function code and parameter of a pin: those of its commitment, or IN. -/
def pinFn (d : Dev) (n : Nat) : Nat × Nat :=
  match d.commits.find? (fun e => e.1 = resKey 0 n) with
  | some (_, c) => (c.arg / 256 % 256, c.arg % 256)
  | none => (0, 0)

/-- The pins with a function and parameter. -/
def pinsWith (d : Dev) (code param : Nat) : List Nat :=
  (List.range 16).filter (fun n => (d.commits.any (fun e => decide (e.1 = resKey 0 n))) && decide (pinFn d n = (code, param)))

/-- Drive every pin with a function and parameter to a level. -/
def drivePins (code param : Nat) (level : Bool) (d : Dev) : Dev :=
  (pinsWith d code param).foldl (fun d n => emit (.gpio n level) d) d

/-- Does a commit of kind 0 name a function and a parameter of R533? -/
def pinArgOk (arg : Nat) : Bool :=
  let code := arg / 256 % 256
  let p := arg % 256
  decide (arg < 65536) && (match code with
    | 0 => decide (p = 0)
    | 1 => decide (p = 0)
    | 2 => decide (p < 32)
    | 3 => decide (p < 32)
    | 4 => decide (p < 32)
    | 5 => decide (p < 32)
    | 6 => decide (p < 32)
    | 7 => decide (p = 0)
    | 8 => true
    | 9 => decide (p = 0)
    | _ => false)

/-- A pin takes its committed function; an output in OUT drives its level, PWREN the slot power (R533). -/
def pinCommitted (n : Nat) (d : Dev) : Dev :=
  match pinFn d n with
  | (1, _) => emit (.gpio n (decide (regFld d .tmGpioOut 0 n n = 1))) d
  | (3, p) => emit (.gpio n (decide (regFld d .dpStat p 15 15 = 1))) d
  | _ => d

/-- A released pin stops driving and returns to IN (R418, R533). -/
def pinReleased (n : Nat) (d : Dev) : Dev := regSetFld .tmGpioOut 0 n n 0 d

/-- TM_GPIO_SET and TM_GPIO_CLR (R534): the pins of the mask that the writer holds in function OUT. -/
def gpioWrite (level : Bool) (mine : Nat → Bool) (mask : Nat) (d : Dev) : Dev :=
  ((List.range 16).filter (fun n => decide (mask / 2 ^ n % 2 = 1) && mine n && decide ((pinFn d n).1 = 1))).foldl
    (fun d n => emit (.gpio n level) (regSetFld .tmGpioOut 0 n n level.toNat d)) d

/-- An input level changes (R533, R566): the level reads in TM_GPIO_IN; in function IN the pin's event is raised. -/
def gpioInput (n : Nat) (level : Bool) (d : Dev) : Dev :=
  if 16 ≤ n ∨ regFld d .tmGpioIn 0 n n = level.toNat then d
  else
    let d := regSetFld .tmGpioIn 0 n n level.toNat d
    if (pinFn d n).1 = 0 then pageEvent 8 n d else d

/-- A rising edge on a pin in function PPS_IN (R533, R566). -/
def ppsEdge (n : Nat) (d : Dev) : Dev :=
  if n < 16 ∧ (pinFn d n).1 = 7 then pageEvent 8 17 (regSet .tbCap 0 d.devtime (regSetFld .tmGpioIn 0 n n 1 d)) else d

/-! ### The time base (R531) -/

/-- A PTM dialog with the port that TB_CTL.SRC names gives an offset: DEVTIME steps forward, or slews (R531). -/
def ptmDialog (o : DWord) (d : Dev) : Dev :=
  let src := regFld d .tbCtl 0 31 30
  let st := regFld d .upStat src 31 28
  if 2 ≤ src ∨ (fnGet d ⟨src, 0⟩).ptm = false ∨ (st ≠ 3 ∧ st ≠ 4) then d
  else
    let d := regSet .tbOffset 0 o d
    if o.toInt > (regFld d .tbStep 0 31 0 * 1000 : Nat) then
      let d := pageEvent 8 16 (regBump .tbSteps 0 { d with devtime := d.devtime + o, slew := 0, slewCnt := 0 })
      { d with ptmAt := some d.devtime }
    else { d with ptmAt := some d.devtime, slew := o.toInt, slewCnt := 0 }

/-- LOCKED (R531): the latest dialog gave at most 100 ns and is no older than 4 × PTM_MS. -/
def tbLocked (d : Dev) : Bool :=
  match d.ptmAt with
  | none => false
  | some t =>
      decide ((regGet d .tbOffset 0).toInt.natAbs ≤ 100)
        && decide (d.devtime.toNat ≤ t.toNat + 4 * regFld d .tbCtl 0 15 0 * 1000000)

/-- One TBK cycle (R531): DEVTIME advances by 1 ns, or by 2 or 0 in the cycle in which a slew takes up a nanosecond. -/
def timeTick (d : Dev) : Dev :=
  let d := fbkPass 1 d
  if d.slew = 0 then { d with devtime := d.devtime + 1 }
  else
    let n := d.slewCnt + 1
    if 1000000 / regFld d .tbSlew 0 9 0 ≤ n then
      (if 0 < d.slew then { d with devtime := d.devtime + 2, slew := d.slew - 1, slewCnt := 0 }
       else { d with slew := d.slew + 1, slewCnt := 0 })
    else { d with devtime := d.devtime + 1, slewCnt := n }

/-- Event timer t fires (R532): its source, the mover's waits and triggers, its pins, its count; then it stops or is
set to its next time after DEVTIME, the periods left out being counted. -/
def timerFire (t : Nat) (d : Dev) : Dev :=
  if 256 ≤ t ∨ regFld d .tmCtl t 31 31 = 0 then d
  else
    let cmp := regGet d .tmCmp t
    let d := advanceTo cmp d
    let d := moverTimer t (srcFire (0x2000 + t) (regBump .tmFires t d))
    let d := (pinsWith d 8 t).foldl (fun d n => emit (.gpioPulse n) d) d
    let per := (regGet d .tmPeriod t).toNat
    if per = 0 then regSetFld .tmCtl t 31 31 0 d
    else
      let k := (d.devtime.toNat - cmp.toNat) / per + 1
      let d := regSet .tmCmp t (BitVec.ofNat 64 (cmp.toNat + k * per)) d
      if k = 1 then d else pageEvent 8 18 (regAdd .tmMiss t (k - 1) d)

/-! ### Upstream ports (R133, R271, R281, R519) -/

/-- A log record of a port that came up or went down (R281). The manual gives no REASON for a port that comes up. -/
def portLog (arg : Nat) (up : Bool) (d : Dev) : Dev :=
  if up then
    let (v, d) := freeNext d
    sgLogPut 6 (v.toNat % 6) 1 arg 0 d
  else sgLogPut 6 5 0 arg 0 d

/-- Is a port with this LTSSM code in use: in L0, L0p, L1 or Recovery? -/
def ltssmUp (n : Nat) : Bool := 3 ≤ n && n ≤ 6

/-- What an upstream port carried when it is lost goes by the other one (R133): no entry, window change or burst waits for a
zero-length read there, no program has data on it, and no invalidation there awaits its completion. -/
def portLost (u : Nat) (d : Dev) : Dev :=
  let d := { d with invals := d.invals.filter (fun v => v.port ≠ u), progs := d.progs.map (fun e => (e.1, { e.2 with ports := e.2.ports.filter (· ≠ u) })) }
  moverPort u (portDone u d)

/-- Signpost learns whether upstream port u is up; rings take their port anew (R256, R271). -/
def upPortIs (u : Nat) (up : Bool) (d : Dev) : Dev :=
  if lget d.upDown u false = !up then d
  else
    let d := reportPorts (portLog u up { d with upDown := lset d.upDown u (!up) })
    if up then d else portLost u d

/-- The fields of UP_STAT of a link state; PERST keeps its value. -/
def upStatWord (st : LinkState) (perst : Nat) : DWord :=
  BitVec.ofNat 64 (fieldN 31 28 st.ltssm + fieldN 27 25 st.speed + fieldN 24 20 st.width + fieldN 19 19 st.flit.toNat
    + fieldN 18 18 st.cxl.toNat + fieldN 17 16 st.l1ss + fieldN 15 15 perst)

/-- A link with no partner. -/
def linkDetect : LinkState := ⟨0, 0, 0, false, false, 0⟩

/-- An upstream link changes state (R519): LINK on a change of LTSSM, SPEED or WIDTH, RECOV and its count on an entry into
Recovery. A port in reset stays as it is; without its reference clock a link that retrains goes to Detect (R547). -/
def upLink (u : Nat) (st : LinkState) (d : Dev) : Dev :=
  if 2 ≤ u ∨ 8 < st.ltssm ∨ regFld d .upStat u 15 15 = 1 then d
  else
    let old := regGet d .upStat u
    let st := if regFld d .thClk 0 u u = 0 ∧ (st.ltssm = 6 ∨ !(ltssmUp (bits old 31 28))) then linkDetect else st
    let d := regSet .upStat u (upStatWord st 0) d
    let d := if bits (regGet d .upStat u) 31 20 ≠ bits old 31 20 then pageEvent (0x10 + u) 2 d else d
    let d := if st.ltssm = 6 ∧ bits old 31 28 ≠ 6 then pageEvent (0x10 + u) 3 (regBump .upRecov u d) else d
    upPortIs u (ltssmUp st.ltssm) d

/-- Does a port answer its host: out of reset and trained? -/
def upAnswers (d : Dev) (u : Nat) : Bool := ltssmUp (regFld d .upStat u 31 28)

/-- The reads of host memory that have been sent and not answered (R515): of start rings, of CCWs, of the headers of mover programs, of
long loads, and of refills; each with its function, address and length. -/
def hostReads (d : Dev) : List (FnId × DWord × Nat) :=
  let rings := d.srings.filterMap (fun e => (ownOf e.2.own).bind (fun f =>
    let a := startAddr e.2 e.2.pref.length
    match e.2.rd with
    | .head => some (f, a, 16)
    | .line => some (f, a, 64)
    | .body _ => some (f, a + 16, 48)
    | _ => none))
  let ccws := d.progs.flatMap (fun e =>
    let p := e.2
    let f := ownerOf (subGet d e.1)
    let now := match p.stage with
      | .fetch a _ _ => if p.pref.isEmpty then [a] else []
      | .refetch a => [a]
      | _ => []
    (now ++ p.prefAt.toList).map (fun a => (f, a, 16)))
  let heads := d.chans.filterMap (fun e =>
    let x := e.2
    if x.st = .run ∧ x.needHdr = true ∧ x.again = false ∧ chSpace x = 0 then some (chFn x, chImage x, 64) else none)
  let loads := d.cps.flatMap (fun e => e.2.loads.filterMap (fun l => match l.src with
    | .outside (some (f, a)) => some (f, a, l.size)
    | _ => none))
  let refills := d.refills.filterMap (fun r => match r.origin with | .host f a => some (f, a, 256) | _ => none)
  (rings ++ ccws ++ heads ++ loads ++ refills).filter (fun x => !(d.outHeld.any (fun h => decide (h.1 = x.1) && (match h.2.2 with
    | .read a n => decide (a ≤ x.2.1) && decide (x.2.1.toNat < a.toNat + n)
    | _ => false))))

/-- The reads that a function with ATS enabled has sent to 4 KiB pages lo to hi − 1 (R515). -/
def readsUnder (d : Dev) (p : FnId → Bool) (lo hi : Nat) : List (FnId × DWord × Nat) :=
  (hostReads d).filter (fun x => p x.1 && (fnGet d x.1).ats
    && decide (x.2.1.toNat / 4096 < hi) && decide (lo ≤ (x.2.1.toNat + x.2.2 - 1) / 4096))

/-- An invalidation of `pages` 4 KiB translations of a function from an address on (R515, R519): it is completed once every read sent
under them has been answered. -/
def atsInvalidate (f : FnId) (a : DWord) (pages : Nat) (d : Dev) : Dev :=
  let lo := a.toNat / 4096
  let l := readsUnder d (fun g => decide (g = f)) lo (lo + pages)
  let d := regBump .upAtsinv f.port
    { d with xlate := d.xlate.filter (fun x => !(decide (x.1 = fnKey f) && decide (lo ≤ x.2.1) && decide (x.2.1 < lo + pages))) }
  if l.isEmpty then emit (.message f.port "ATS Invalidate Completion") d else { d with invals := d.invals ++ [⟨f.port, false, l⟩] }

/-- UP_ATC.FLUSH (R515, R519): every cached translation of the port is dropped; FLUSH reads 1 until the reads sent under them have been
answered. -/
def atcFlush (u : Nat) (d : Dev) : Dev :=
  let l := readsUnder d (fun g => decide (g.port = u)) 0 (2 ^ 52)
  let d := { d with xlate := d.xlate.filter (fun x => x.1 / 65 ≠ u) }
  if l.isEmpty then d else { d with invals := d.invals ++ [⟨u, true, l⟩] }

/-- Invalidations whose reads have all been answered are completed (R515). -/
def invalSweep (d : Dev) : Dev :=
  let now := hostReads d
  let l := d.invals.map (fun v => { v with reads := v.reads.filter (now.contains ·) })
  (l.filter (fun v => v.reads.isEmpty)).foldl
    (fun d v => if v.flush then d else emit (.message v.port "ATS Invalidate Completion") d)
    { d with invals := l.filter (fun v => !v.reads.isEmpty) }

/-! ### Root ports (R520 to R530) -/

/-- BIF in force on a root port's avenue (R520). -/
def dpBif (d : Dev) (p : Nat) : Nat := regFld d .avStat (p / 4) 31 30

/-- Does the bifurcation leave a root port out (R520)? -/
def bifAbsent (bf p : Nat) : Bool := (bf = 0 && p % 4 ≠ 0) || (bf = 1 && p % 2 ≠ 0)

/-- DP_STAT.ABSENT. -/
def dpAbsent (d : Dev) (p : Nat) : Bool := bifAbsent (dpBif d p) p

/-- Does REFCLKOUT_Aa run (R548): REFCLK_D is valid, and an existing root port of the avenue is not disabled? -/
def refclkOut (d : Dev) (a : Nat) : Bool :=
  decide (regFld d .thClk 0 2 2 = 1)
    && (span (4 * a) 4).any (fun p => !(dpAbsent d p) && decide (regFld d .dpCtl p 31 31 = 0))

/-- The REFCLKOUT outputs that start or stop with a change (R547, R548); those of avenue a are shown as port 32 + a. -/
def clkNote (was d : Dev) : Dev :=
  (List.range 8).foldl (fun d a =>
    if refclkOut was a = refclkOut d a then d
    else emit (.link (32 + a) (if refclkOut d a then "REFCLKOUT running" else "REFCLKOUT stopped")) d) d

/-- The first lane of a root port on its avenue, and how many it has (R520). -/
def dpLanes (d : Dev) (p : Nat) : Nat × Nat :=
  match dpBif d p with
  | 0 => (0, 16)
  | 1 => (4 * (p % 4), 8)
  | _ => (4 * (p % 4), 4)

/-- DP_MAXW (R528, R530): the widest of 16, 8, 4, 2 or 1 that consecutive good lanes form from either end; 0 when none. -/
def dpMaxw (d : Dev) (p : Nat) : Nat :=
  let (lo, n) := dpLanes d p
  let good := fun (i : Nat) => decide (regFld d .avStat (p / 4) i i = 0)
  let fits := fun (w : Nat) => decide (w ≤ n) && ((span lo w).all good || (span (lo + n - w) w).all good)
  if dpAbsent d p then 0 else (([16, 8, 4, 2, 1].find? fits).getD 0)

/-- Set the link fields of DP_STAT and DLUP; a retraining that was asked for is over (R530). -/
def dpLink (p : Nat) (st : LinkState) (up : Bool) (d : Dev) : Dev :=
  regSetFld .dpStat p 31 18 (fieldN 13 10 st.ltssm + fieldN 9 7 st.speed + fieldN 6 2 st.width + fieldN 1 1 st.flit.toNat
    + up.toNat) { d with scWait := d.scWait.filter (· ≠ (1, p)) }

/-- The data link of a root port goes down (R525): DLUP falls and the wait of DP_LDWAIT begins. -/
def dpDown (p ltssm : Nat) (d : Dev) : Dev :=
  if 32 ≤ p then d
  else
    let was := regFld d .dpStat p 18 18
    let d := dpLink p ⟨ltssm, 0, 0, false, false, 0⟩ false d
    if was = 0 then d
    else portLog (0x100 + p) false { d with ldAt := d.ldAt.filter (fun e => e.1 ≠ p) ++ [(p, d.devtime)] }

/-- A root port's link reaches L0 (R524, R526, R528): retired lanes given back return, presence is seen in-band, the
hierarchy is enumerated. A port that is absent, disabled, contained or without a reference clock never trains (R520,
R547). -/
def dpUpEvent (p : Nat) (st : LinkState) (d : Dev) : Dev :=
  if 32 ≤ p ∨ dpAbsent d p = true ∨ regFld d .dpCtl p 31 31 = 1 ∨ regFld d .dpStat p 16 16 = 1
      ∨ regFld d .thClk 0 2 2 = 0 then d
  else
    let (lo, n) := dpLanes d p
    let d := if d.lretry.contains p then
        regSetFld .avStat (p / 4) (lo + n - 1) lo 0 { d with lretry := d.lretry.filter (· ≠ p) }
      else d
    if dpMaxw d p = 0 then d
    else
      let was := regFld d .dpStat p 18 18
      let d := dpLink p { st with ltssm := 3 } true { d with ldAt := d.ldAt.filter (fun e => e.1 ≠ p) }
      let d := if (pinsWith d 2 p).isEmpty then regSetFld .dpStat p 17 17 1 d else d
      let d := if was = 1 then d else portLog (0x100 + p) true d
      pageEvent (0x40 + p) 0 d

/-- Slot power is requested or turned off (R525, R526, R530). -/
def slotPower (p : Nat) (on : Bool) (d : Dev) : Dev :=
  drivePins 3 p on (regSetFld .dpStat p 15 15 on.toNat (regSetFld .dpCtl p 23 23 on.toNat d))

/-- PERST of a root port, or Secondary Bus Reset in its place, asserted or released (R526). -/
def slotPerst (p : Nat) (asserted : Bool) (d : Dev) : Dev :=
  if (pinsWith d 4 p).isEmpty then
    emit (.link p (if asserted then "Secondary Bus Reset set" else "Secondary Bus Reset cleared")) d
  else drivePins 4 p (!asserted) d

/-- Every subchannel bound below a root port that has no other path loses its device (R116, R525). -/
def dpLost (p qual : Nat) (begun : List Nat) (d : Dev) : Dev :=
  (lostSubs d (.dport p)).foldl (fun d n => loseSub qual begun n d) d

/-- A debounced presence change (R525, R526). On removal the device counts as lost, and firmware turns off slot power
and asserts PERST; on insertion it turns power on and, 100 ms later, releases PERST. -/
def presence (p : Nat) (present : Bool) (begun : List Nat) (d : Dev) : Dev :=
  if 32 ≤ p ∨ dpAbsent d p = true ∨ regFld d .dpStat p 17 17 = present.toNat then d
  else
    let d := regSetFld .dpStat p 17 17 present.toNat d
    if present then slotPerst p false (slotPower p true d)
    else
      let d := pageEvent (0x40 + p) 1 (dpDown p 0 d)
      let d := { d with ldAt := d.ldAt.filter (fun e => e.1 ≠ p) }
      slotPerst p true (slotPower p false (dpLost p 1 begun d))

/-- A link-down has lasted DP_LDWAIT.MS (R525). -/
def linkDownExpiry (p : Nat) (begun : List Nat) (d : Dev) : Dev :=
  match d.ldAt.find? (fun e => e.1 = p) with
  | none => d
  | some (_, t) =>
      let d := advanceTo (t + BitVec.ofNat 64 (regFld d .dpLdwait p 15 0 * 1000000)) d
      dpLost p 3 begun { d with ldAt := d.ldAt.filter (fun e => e.1 ≠ p) }

/-- The operations at a root port that enters containment are settled (R124 to R127, R527), those that have another path
too (R273). `begun` are the operations the device has begun. -/
def settlePort (p : Nat) (status : Word) (begun : List Nat) (d : Dev) : Dev :=
  (d.ops.filter (fun e => decide (e.2.dport = p))).foldl (fun d e =>
    (opTrouble e.1 2 (if begun.contains e.1 then .uncertain else .notIssued) status.toNat) d) d

/-- Root port p enters containment (R527). An ERR_NONFATAL message does so only with DPCNF = 1. -/
def contain (p : Nat) (by_ : ContainBy) (status : Word) (begun : List Nat) (d : Dev) : Dev :=
  if 32 ≤ p ∨ dpAbsent d p = true ∨ regFld d .dpStat p 16 16 = 1
      ∨ (by_ = .nonfatalMsg ∧ regFld d .dpCtl p 24 24 = 0) then d
  else
    let d := regSet .dpAerunc p (status.zeroExtend 64) d
    let d := emit (.link p "disabled") (pageEvent (0x40 + p) 2 (regSetFld .dpStat p 16 16 1 (dpDown p 7 d)))
    let d := { d with ldAt := d.ldAt.filter (fun e => e.1 ≠ p) }
    settlePort p status begun (slotPerst p true (dpLost p 2 begun d))

/-- DP_CTL.RELEASE (R527): containment ends and the link retrains; without containment nothing happens. -/
def dpRelease (p : Nat) (d : Dev) : Dev :=
  if regFld d .dpStat p 16 16 = 0 then d
  else
    let d := regSetFld .dpStat p 16 16 0 (dpLink p linkDetect false d)
    emit (.link p "retrain") (slotPerst p false d)

/-- DP_CTL.RETRAIN (R530): an up link goes through Recovery; a link that is down trains. -/
def dpRetrain (p : Nat) (d : Dev) : Dev :=
  let d := emit (.link p "retrain") { d with scWait := d.scWait.filter (· ≠ (1, p)) ++ [(1, p)] }
  if regFld d .dpStat p 18 18 = 1 then regSetFld .dpStat p 31 28 6 d else d

/-- A bifurcation that was requested applies when the ports are enabled (R520). -/
def bifApply (a : Nat) (d : Dev) : Dev := regSetFld .avStat a 31 30 (regFld d .avCfg a 31 30) d

/-- LDIS changes (R520, R530): a disabled link goes down; an enabled one trains under the bifurcation requested. -/
def dpDisable (p : Nat) (off : Bool) (d : Dev) : Dev :=
  if off then emit (.link p "disabled") (dpDown p 7 d)
  else emit (.link p "train") (dpLink p linkDetect false (bifApply (p / 4) d))

/-- Is AV_CFG.BIF writable now: every root port of the avenue has LDIS = 1 (R520)? -/
def bifFree (d : Dev) (a : Nat) : Bool :=
  (span (4 * a) 4).all (fun p => bifAbsent (regFld d .avStat a 31 30) p || decide (regFld d .dpCtl p 31 31 = 1))

/-- A lane fault retires the lane (R528); the port retrains at the width its good lanes form, or its link stays down. -/
def retireLane (a lane : Nat) (d : Dev) : Dev :=
  if 8 ≤ a ∨ 16 ≤ lane ∨ regFld d .avStat a lane lane = 1 then d
  else
    let d := pageEvent (0x18 + a) 0 (repairUse 9 (regSetFld .avStat a lane lane 1 d))
    let k := match regFld d .avStat a 31 30 with
      | 0 => 0
      | 1 => lane / 8 * 2
      | _ => lane / 4
    let p := 4 * a + k
    let d := deviceFault 2 6 (16 * a + lane) (pageEvent (0x40 + p) 3 d)
    let w := dpMaxw d p
    if regFld d .dpStat p 18 18 = 0 then d
    else if w = 0 then dpDown p 0 d
    else regSetFld .dpStat p 24 20 (min w (regFld d .dpStat p 24 20)) d

/-- A request from below a root port that is refused (R522). -/
def badRequest (p : Nat) (write : Bool) (a : DWord) (d : Dev) : Dev :=
  let d := pageEvent (0x40 + p) 5 (regSet .dpBadaddr p a (regBump .dpBadreq p d))
  if write then d else emit (.devAnswer p 1 []) d

/-- May root port p reach Plaza slice s (R523)? A handler has opened a window, and the slice is of a reservation held by an
operation of a subchannel at p, or of the handlers' scratch area. -/
def windowOpen (d : Dev) (p s : Nat) : Bool :=
  match sliceGet d s with
  | .stream _ n who =>
      let x := subGet d n
      let op := fun (e : Nat × Op) => decide (e.2.sub = n) && (match who with
        | .detached j => e.2.detached && decide (e.2.jseq = j)
        | _ => !e.2.detached && decide (e.2.cond ≠ .complete))
      (decide (x.dport = p) || decide (x.altPort = some p)) && d.ops.any op
  | .scratch area => decide (area = 0x100) && d.subs.any (fun e => decide (e.2.hpack < 0xFF) &&
      (decide (e.2.dport = p) || decide (e.2.altPort = some p)))
  | _ => false

/-- The operation on behalf of which root port p reaches slice s; a number that no operation has for the handlers' scratch area. -/
def windowOp (d : Dev) (p s : Nat) : Nat :=
  match sliceGet d s with
  | .stream _ n _ => ((d.ops.find? (fun e => decide (e.2.sub = n) && decide (e.2.cond ≠ .complete))).map (·.1)).getD d.nextTok
  | _ => let _ := p; d.nextTok

/-- A request from below root port p (R522, R523, R367): the message window, Plaza through an open window, or refused. A read of a block
that is being refilled is held with it (R231).
`opened` says whether a handler has opened a window over the slices. -/
def dpRequest (p : Nat) (write : Bool) (a : DWord) (len : Nat) (b : List Byte) (opened : Bool) (d : Dev) : Dev :=
  let base := 0x10000000000
  let n := a.toNat
  if 32 ≤ p then d
  else if 0xFFFFF00000 ≤ n ∧ n < 0xFFFFF01000 then
    if write && decide (b.length = 4) && decide (n % 4 = 0) then
      let v : Word := BitVec.ofNat 32 (leNat b)
      if bits v 31 12 ≠ 0 then pageEvent 4 3 (regBump .jcBadmsg 0 d) else srcFire (bits v 13 0) d
    else badRequest p write a d
  else
    let m := if write then b.length else len
    let off := n - base
    let lo := off / 4096
    let hi := (off + m - 1) / 4096
    if base ≤ n ∧ 0 < m ∧ hi < 16384 ∧ opened = true ∧ (span lo (hi + 1 - lo)).all (windowOpen d p) = true then
      if write then { d with plaza := memWrite d.plaza off b }
      else match refilling d off m with
        | [] => emit (.devAnswer p 0 (memRead d.plaza off m)) d
        | l => l.foldl (fun d k => joinRefill k (.device p (windowOp d p lo) off m) d) d
    else badRequest p write a d

/-- An AER error message from below root port p (R527, R530). Containment is an event of its own. -/
def dpMessage (p : Nat) (m : ErrMsg) (status : Word) (d : Dev) : Dev :=
  if 32 ≤ p then d
  else match m with
    | .cor => regBump .dpAercor p d
    | _ => regSet .dpAerunc p (status.zeroExtend 64) d

/-! ### Configuration space (R513 to R515, R168, R170) -/

/-- A host's configuration write or a mask of its MSI-X table. VF Enable cleared is an event of its own (R130). -/
def cfgWrite (f : FnId) (w : CfgWrite) (d : Dev) : Dev :=
  let x := fnGet d f
  match w with
  | .vfEnable n => if f.fn = 0 then fnSet f { x with vfEnable := true, numVfs := min n 64 } d else d
  | .ats on => fnSet f { x with ats := on } (if on then d else { d with xlate := d.xlate.filter (fun e => e.1 ≠ fnKey f) })
  | .pasid on => fnSet f { x with pasid := on } d
  | .ptm on => if f.fn = 0 then fnSet f { x with ptm := on } d else d
  | .busMaster on => fnSet f { x with busMaster := on } d
  | .pmeEn on => fnSet f { x with pmeEn := on } d
  | .pmeClear => fnSet f { x with pmeStatus := false } d
  | .msixMask on =>
      let d := fnSet f { x with msixMask := on } d
      (unmasked d f).foldl (fun d v => vecOut f v d) d
  | .vecMask v => if x.vecMask.contains v then d else fnSet f { x with vecMask := x.vecMask ++ [v] } d

/-! ### Meanings -/

/-- LINK_UP (R524). -/
def execLinkUp (port : Nat) (st : LinkState) (s : State) : Host.Outcome State Fault Refusal := run s (dpUpEvent port st)

/-- PRESENCE_CHANGE (R525). -/
def execPresenceChange (port : Nat) (present : Bool) (begun : List Nat) (s : State) : Host.Outcome State Fault Refusal :=
  run s (liveP (presence port present begun))

/-- LINK_DOWN_WAIT_EXPIRY (R525). -/
def execLinkDownWaitExpiry (port : Nat) (begun : List Nat) (s : State) : Host.Outcome State Fault Refusal :=
  run s (liveP (linkDownExpiry port begun))

/-- CONTAINMENT_ENTRY (R527). -/
def execContainmentEntry (port : Nat) (by_ : ContainBy) (status : Word) (begun : List Nat) (s : State) :
    Host.Outcome State Fault Refusal :=
  run s (liveP (contain port by_ status begun))

/-- DOWNSTREAM_LANE_FAULT (R528). -/
def execDownstreamLaneFault (avenue lane : Nat) (s : State) : Host.Outcome State Fault Refusal := run s (retireLane avenue lane)

/-- DOWNSTREAM_REQUEST (R522, R523). -/
def execDownstreamRequest (port : Nat) (write : Bool) (addr : DWord) (len : Nat) (bytes : List Byte) (opened : Bool)
    (s : State) : Host.Outcome State Fault Refusal :=
  run s (dpRequest port write addr len bytes opened)

/-- ATS_INVALIDATION (R515). -/
def execAtsInvalidation (fn : FnId) (addr : DWord) (pages : Nat) (s : State) : Host.Outcome State Fault Refusal :=
  run s (atsInvalidate fn addr pages)

/-- PTM_DIALOG (R531). -/
def execPtmDialog (offset : DWord) (s : State) : Host.Outcome State Fault Refusal := run s (ptmDialog offset)

/-- TIMER_FIRING (R532). -/
def execTimerFiring (timer : Nat) (s : State) : Host.Outcome State Fault Refusal := run s (timerFire timer)

/-- GPIO_INPUT_CHANGE (R533, R566). -/
def execGpioInputChange (pin : Nat) (level : Bool) (s : State) : Host.Outcome State Fault Refusal := run s (gpioInput pin level)

/-- PPS_IN_EDGE (R533). -/
def execPpsInEdge (pin : Nat) (s : State) : Host.Outcome State Fault Refusal := run s (ppsEdge pin)

/-- UPSTREAM_LINK_STATE_CHANGE (R519). -/
def execUpstreamLinkStateChange (port : Nat) (st : LinkState) (s : State) : Host.Outcome State Fault Refusal :=
  run s (upLink port st)

/-- DOWNSTREAM_LINK_DOWN (R525). -/
def execDownstreamLinkDown (port : Nat) (s : State) : Host.Outcome State Fault Refusal := run s (dpDown port 0)

/-- CONFIGURATION_WRITE (R513). -/
def execConfigurationWrite (fn : FnId) (w : CfgWrite) (s : State) : Host.Outcome State Fault Refusal := run s (cfgWrite fn w)

/-- DOWNSTREAM_ERROR_MESSAGE (R527). -/
def execDownstreamErrorMessage (port : Nat) (msg : ErrMsg) (status : Word) (s : State) : Host.Outcome State Fault Refusal :=
  run s (dpMessage port msg status)

end Sys2Proof.Machine
end

