-- ==== Sys2Proof/Machine/PowerOps.lean ====
section
/-!
DEFINITION. Rails, clocks, temperature, power and district frequency (R431, R432, R461, R463, R543 to R547, R554 to R558).
-/
namespace Sys2Proof.Machine

open Sys2Proof

/-! ### Faults with no unit code (R432, R451) -/

/-- A Fatal fault for which R451 has no unit code: UNIT and INST are free values (log entry 3). -/
def fatalFault (d : Dev) : Dev :=
  let (u, d) := freeNext d
  let (i, d) := freeNext d
  deviceFault 4 (u.toNat % 256) (i.toNat % 1048576) d

/-- A supply rail fails (R432, R543, R545). -/
def railFail (rail : Nat) (d : Dev) : Dev := if rail < 10 then fatalFault d else d

/-- A PLL, the always-on block or the crystal fails (R432, R547). -/
def pllFail (which : Nat) (d : Dev) : Dev :=
  if which = 3 then fatalFault (regSetFld .thClk 0 3 3 0 d) else if which < 3 then fatalFault d else d

/-- A reference clock becomes invalid (R547): 0 and 1 those of the upstream ports, 2 REFCLK_D, whose loss puts every
avenue in Detect, stops REFCLKOUT and is Degraded. -/
def refclkLoss (c : Nat) (d : Dev) : Dev :=
  if 3 ≤ c ∨ regFld d .thClk 0 c c = 0 then d
  else
    let was := d
    let d := pageEvent 10 3 (regSetFld .thClk 0 c c 0 d)
    if c = 2 then
      let d := (List.range 32).foldl (fun d p => dpDown p 0 d) (clkNote was d)
      let (u, d) := freeNext d
      let (i, d) := freeNext d
      deviceFault 2 (u.toNat % 256) (i.toNat % 1048576) d
    else d

/-- A reference clock is within 1,000 ppm of 100 MHz again (R547). -/
def refclkValid (c : Nat) (d : Dev) : Dev :=
  if 3 ≤ c ∨ regFld d .thClk 0 c c = 1 then d
  else clkNote d (regSetFld .thClk 0 c c 1 d)

/-! ### Throttling and the trip (R555 to R557) -/

/-- Signed 16-bit temperature of a register's low half. -/
def tjOf (v : Nat) : Int := (BitVec.ofNat 16 v).toInt

/-- TH_STAT.STAGE follows the steps taken (R555, R558). -/
def stageNote (d : Dev) : Dev :=
  let on := regFld d .thStat 0 30 29 ≠ 0
  let st := if d.thrDuty < 8 then 2 else if d.thrCap < Config.ceilingMHz ∨ on then 1 else 0
  regSetFld .thStat 0 28 27 st d

/-- Throttling begins for a reason: 30 temperature, 29 power (R555, R556). An entry into stage 1 counts. -/
def throttleOn (b : Nat) (d : Dev) : Dev :=
  if regFld d .thStat 0 b b = 1 then d
  else
    let d := if regFld d .thStat 0 28 27 = 0 then regBump .thThrcnt 0 d else d
    stageNote (pageEvent 10 (if b = 30 then 1 else 2) (regSetFld .thStat 0 b b 1 d))

/-- The reason has gone; the steps are undone one by one. -/
def throttleOff (b : Nat) (d : Dev) : Dev := stageNote (regSetFld .thStat 0 b b 0 { d with thrWait := 0 })

/-- A step of 100 µs (R555): down while a reason stands, first the frequency cap, and the mover's duty once a further
1 ms has passed; up again in reverse order otherwise. On a -28 part stage 1 has no effect. -/
def throttleStep (d : Dev) : Dev :=
  let cap := d.thrCap
  let d := if regFld d .thStat 0 30 29 ≠ 0 then
      (if 2800 < cap then { d with thrCap := max 2800 (cap - 100), thrWait := 0 }
       else if d.thrWait < 10 then { d with thrWait := d.thrWait + 1 }
       else { d with thrDuty := max 4 (d.thrDuty - 1) })
    else if d.thrDuty < 8 then { d with thrDuty := d.thrDuty + 1 }
    else if cap < Config.ceilingMHz then { d with thrCap := min Config.ceilingMHz (cap + 100) }
    else d
  stageNote d

/-- Current CPK frequency of a district (R461, R555, R558): the fallback clock, or its step under the throttle's cap. -/
def dsMhz (d : Dev) (e : Nat) : Nat :=
  if regFld d .dsStat e 26 26 = 1 then 1600 else min (regFld d .dsFreq e 15 0) (max 2800 d.thrCap)

/-- The thermal trip (R557): THERMTRIP_N and the latch, in a frozen TC9640 too; else a Fatal fault, and every district is
gated unless the fault froze the TC9640. -/
def thermTrip (d : Dev) : Dev :=
  let d := latchSet 0x3F91 { d with thermtrip := true }
  if d.frozen then d
  else
    let d := fatalFault (regSetFld .thStat 0 31 31 1 d)
    if d.frozen then d
    else (List.range 8).foldl (fun d e => regSetFld .dsStat e 24 24 1 d) { d with thrDuty := 0 }

/-- The twelve sensors are read (R555, R557). -/
def thermalSample (tj : List (BitVec 16)) (d : Dev) : Dev :=
  let hot := (List.range 12).map (fun i =>
    if (lget tj i 0#16).toInt < 1920 then 0 else lget d.hot i 0 + 1)
  let trip := hot.any (3 ≤ ·) && !d.thermtrip
  let d := { d with hot := hot }
  if d.frozen then (if trip then thermTrip d else d)
  else
    let top := (List.range 12).foldl (fun (m : BitVec 16) i =>
      if m.toInt < (lget tj i 0#16).toInt then lget tj i 0#16 else m) (lget tj 0 0#16)
    let was := tjOf (regFld d .thStat 0 15 0)
    let d := (List.range 12).foldl (fun d i => regSetFld .thTj i 15 0 (lget tj i 0#16).toNat d) d
    let d := regSetFld .thStat 0 15 0 top.toNat d
    let warn := tjOf (regFld d .thWarn 0 15 0)
    let d := if warn ≤ top.toInt ∧ was < warn then pageEvent 10 0 d else d
    let thr := tjOf (regFld d .thThrot 0 15 0)
    let d := if thr ≤ top.toInt then throttleOn 30 d
             else if top.toInt ≤ thr - 48 ∧ regFld d .thStat 0 30 30 = 1 then throttleOff 30 d else d
    if trip then thermTrip d else d

/-- The averaged package power is compared with the limit (R556). -/
def powerSample (w8 : BitVec 16) (d : Dev) : Dev :=
  let d := regSetFld .thPwr 0 15 0 w8.toNat d
  let lim := 8 * regFld d .thPlim 0 15 0
  if lim < w8.toNat then throttleOn 29 d
  else if 100 * w8.toNat ≤ 95 * lim ∧ regFld d .thStat 0 29 29 = 1 then throttleOff 29 d else d

/-! ### VDD_CP and district frequency (R461, R543) -/

/-- The highest voltage any district needs (R543). -/
def vddNeed (d : Dev) : Nat := ((List.range 8).map (fun e => regFld d .dsVneed e 15 0)).foldl max 650

/-- The next request on the way to the highest need: at most 25 mV in 5 mV steps, up to 900 mV (R461, R543). -/
def avsNext (d : Dev) : Nat :=
  let now := regFld d .thVreq 0 15 0
  let want := min 900 ((vddNeed d + 4) / 5 * 5)
  if now < want then min want (now + 25) else max want (now - 25)

/-- The TC9640 sends a voltage command while none is under way and the need has changed (R543); none before 200 ms of DEVTIME. -/
def avsSend (d : Dev) : Dev :=
  let d := advanceTo 200000000 d
  let v := avsNext d
  if d.avsPend.isSome ∨ v = regFld d .thVreq 0 15 0 then d
  else emit (.avs v) (regSetFld .thVreq 0 15 0 v { d with avsPend := some (v, d.devtime + 200000) })

/-- The voltage the regulator is known to hold: while a raise is under way, the one before it. -/
def avsHeld (d : Dev) : Nat :=
  match d.avsPend with
  | none => regFld d .thVreq 0 15 0
  | some (v, _) => v - 25

/-- The regulator reports (R543): a fault it reports is a rail failure. -/
def avsReport (faulty : Bool) (d : Dev) : Dev :=
  match d.avsPend with
  | none => if faulty then railFail 0 d else d
  | some _ => (if faulty then railFail 0 else id) { d with avsPend := none }

/-- No report came within 200 µs (R543). -/
def avsTimeout (d : Dev) : Dev :=
  match d.avsPend with
  | none => d
  | some (_, due) => railFail 0 (advanceTo due { d with avsPend := none })

/-- A district's ceiling: the grade's, or DS_FCAP (R461, R465). -/
def dsCeiling (d : Dev) (e : Nat) : Nat :=
  let c := regFld d .dsFcap e 15 0
  if c = 0 then Config.ceilingMHz else min c Config.ceilingMHz

/-- The canaries of a district are measured (R461): `mhz` is the highest step at which they pass with margin, `need` the
voltage the district needs at its ceiling. Frequency rises only at a voltage that has been reported (R543). -/
def canarySample (e mhz need : Nat) (slack rosc : BitVec 16) (d : Dev) : Dev :=
  if 8 ≤ e then d
  else
    let old := regFld d .dsFreq e 15 0
    let f := min mhz (dsCeiling d e)
    let f := if old < f ∧ avsHeld d < min need 900 then old else f
    let d := regSet .dsCanary e (BitVec.ofNat 64 (fieldN 31 16 rosc.toNat + fieldN 15 0 slack.toNat)) d
    let d := regSetFld .dsVneed e 15 0 need d
    let most := ((List.range 8).map (fun k => regFld d .dsVneed k 15 0 - regFld d .dsVneed k 31 16)).foldl max 0
    let d := regSet .rpUsed 10 (BitVec.ofNat 64 most) d
    let d := if regFld d .rpBudget 10 15 0 ≤ most ∧ regFld d .rpStat 0 29 29 = 0 then
        pageEvent 11 1 (regSetFld .rpStat 0 29 29 1 d) else d
    let d := regSetFld .dsFreq e 15 0 f d
    let d := if f < dsCeiling d e ∧ old ≥ dsCeiling d e then pageEvent (0x20 + e) 5 d else d
    if f < 2800 ∧ 2800 ≤ old then
      let (u, d) := freeNext d
      deviceFault 2 (u.toNat % 256) e (latchSet (0x3F80 + e) d)
    else d

/-! ### Gating and powered time (R463, R554) -/

/-- A district gates its clock (R554): every CP in service waits and no presentation is outstanding. -/
def districtGate (e : Nat) (d : Dev) : Dev :=
  if e < 8 ∧ regFld d .thGate 0 31 31 = 1 ∧ (roleIn d e .inService).all (fun i => decide ((cpGet d i).run = .wait)) = true
      ∧ d.pres.all (fun p => decide (p.cp / 9 ≠ e)) = true then
    regSetFld .dsStat e 24 24 1 d
  else d

/-- Another powered hour with its mean Tj (R463, R464): RP_TJAVG is the mean over all of them, rounded down. -/
def poweredHour (tj : BitVec 16) (d : Dev) : Dev :=
  let d := regBump .rpHours 0 { d with tjSum := d.tjSum + tj.toInt }
  let h := regFld d .rpHours 0 31 0
  let avg := d.tjSum.fdiv h
  let d := regSetFld .rpTjavg 0 15 0 (BitVec.ofInt 16 avg).toNat d
  if 1000 < h ∧ 1360 < avg ∧ regFld d .rpStat 0 28 28 = 0 then pageEvent 11 2 (regSetFld .rpStat 0 28 28 1 d) else d

/-! ### Meanings -/

/-- THERMAL_SAMPLE (R555, R557). -/
def execThermalSample (tj : List (BitVec 16)) (s : State) : Host.Outcome State Fault Refusal := runAlways s (thermalSample tj)

/-- THROTTLE_STEP (R555). -/
def execThrottleStep (s : State) : Host.Outcome State Fault Refusal := run s throttleStep

/-- POWER_LIMIT_SAMPLE (R556). -/
def execPowerLimitSample (w8 : BitVec 16) (s : State) : Host.Outcome State Fault Refusal := run s (powerSample w8)

/-- AVSBUS_COMMAND (R543). -/
def execAvsbusCommand (s : State) : Host.Outcome State Fault Refusal := run s avsSend

/-- AVSBUS_REPORT (R543). -/
def execAvsbusReport (faulty : Bool) (s : State) : Host.Outcome State Fault Refusal := run s (avsReport faulty)

/-- AVSBUS_TIMEOUT (R543). -/
def execAvsbusTimeout (s : State) : Host.Outcome State Fault Refusal := run s avsTimeout

/-- RAIL_FAILURE (R545). -/
def execRailFailure (rail : Nat) (s : State) : Host.Outcome State Fault Refusal := run s (railFail rail)

/-- REFCLK_LOSS (R547). -/
def execRefclkLoss (clk : Nat) (s : State) : Host.Outcome State Fault Refusal := run s (refclkLoss clk)

/-- REFCLK_VALID (R547). -/
def execRefclkValid (clk : Nat) (s : State) : Host.Outcome State Fault Refusal := run s (refclkValid clk)

/-- PLL_FAILURE (R432). -/
def execPllFailure (which : Nat) (s : State) : Host.Outcome State Fault Refusal := run s (pllFail which)

/-- DISTRICT_GATE (R554). -/
def execDistrictGate (d : Nat) (s : State) : Host.Outcome State Fault Refusal := run s (districtGate d)

/-- DISTRICT_CANARY_SAMPLE (R461). -/
def execDistrictCanarySample (d mhz need : Nat) (slack rosc : BitVec 16) (s : State) : Host.Outcome State Fault Refusal :=
  run s (canarySample d mhz need slack rosc)

/-- POWERED_HOURS_TICK (R463). -/
def execPoweredHoursTick (tj : BitVec 16) (s : State) : Host.Outcome State Fault Refusal := run s (poweredHour tj)

end Sys2Proof.Machine
end

