-- ==== Sys2Proof/Machine/TrustOps.lean ====
section
/-!
DEFINITION. Images, boot, rollback counters, owner keys, the mailbox, attestation and firmware update (R467 to R490, R535,
R536, R590).
-/
namespace Sys2Proof

open Machine

/-! ### The image header (R468, R476) -/

/-- The 4,096 bits of an image's header. -/
def Img.bits (x : Img) : BitVec 4096 := BitVec.ofNat 4096 (leNat (fitBytes 512 x.head))

def Img.svn (x : Img) : Nat := Machine.bits x.bits 63 56
def Img.version (x : Img) : Nat := Machine.bits x.bits 95 64
def Img.uilLo (x : Img) : Nat := Machine.bits x.bits 111 96
def Img.uilHi (x : Img) : Nat := Machine.bits x.bits 127 112
def Img.dilLo (x : Img) : Nat := Machine.bits x.bits 143 128
def Img.dilHi (x : Img) : Nat := Machine.bits x.bits 159 144
def Img.psize (x : Img) : Nat := Machine.bits x.bits 191 160
def Img.rbc (x : Img) : Bool := bit x.bits 192
def Img.keysel (x : Img) : Nat := Machine.bits x.bits 215 208

/-- The COMPAT entries (R476), as 128 bits each. -/
def Img.compat (x : Img) : List (BitVec 128) :=
  (List.range 12).map (fun i => BitVec.ofNat 128 (Machine.bits x.bits (128 * i + 1535) (128 * i + 1408)))

end Sys2Proof

namespace Sys2Proof.Machine

open Sys2Proof

/-! ### Images (R467, R468, R470, R474 to R476) -/

/-- TYPE and SLOT of image index i (R467, R490). -/
def imgType (i : Nat) : Nat := if i < 4 then i + 1 else 5
def imgSlot (i : Nat) : Nat := i - 4

/-- The payload limit of an image (R467). -/
def imgLimit (i : Nat) : Nat :=
  match i with
  | 0 => 0x80000
  | 1 => 0x100000
  | 2 => 0x10000
  | 3 => 0x10000
  | _ => 165120

/-- Check 0x1 of R470: MAGIC, HVER, TYPE and SLOT, the reserved fields (R468, R476), and PSIZE. -/
def imgForm (i : Nat) (x : Img) : Bool :=
  let v := x.bits
  decide (bits v 31 0 = 0x4D494654 ∧ bits v 39 32 = 1 ∧ bits v 47 40 = imgType i
    ∧ bits v 55 48 = (if imgType i = 5 then imgSlot i else 0))
  && decide (bits v 3327 2944 = 0 ∧ bits v 255 216 = 0 ∧ bits v 207 193 = 0)
  && x.compat.all (fun e => decide (bits e 63 16 = 0))
  && decide (x.psize ≤ imgLimit i)

/-- The image index of a PLDM component identifier (R487). -/
def compIndex (comp : Nat) : Option Nat :=
  let t := comp / 256
  let s := comp % 256
  if 1 ≤ t ∧ t ≤ 4 ∧ s = 0 then some (t - 1) else if t = 5 ∧ s < 16 then some (4 + s) else none

/-- An image as it stands; absent when nothing is loaded. -/
def imgGet (d : Dev) (i : Nat) : ImgSt := tget d.imgs i ⟨2, 0, 0, none⟩

/-- Store what is known of an image. -/
def imgSet (i : Nat) (x : ImgSt) (d : Dev) : Dev := { d with imgs := tins (tdel d.imgs i) i x }

/-- The loaded image of an index: tested or untested. -/
def imgLoaded (d : Dev) (i : Nat) : Option Img :=
  let x := imgGet d i
  if x.status = 0 ∨ x.status = 3 then x.img else none

/-- The state of an owner slot (R480, R490): 0 EMPTY, 1 ACTIVE, 2 REVOKED. -/
def ownerState (k : OwnerKey) : Nat := if k.revk then 2 else if k.inst then 1 else 0

/-- The active owner slot of a set of slots, 1 to 4; 0 for none. -/
def activeSlot (l : List OwnerKey) : Nat :=
  match (List.range 4).find? (fun i => ownerState (lget l i ⟨false, false, 0⟩) = 1) with
  | some i => i + 1
  | none => 0

/-- The parent of an image (R474). -/
def imgParent (i : Nat) : Option Nat := if i = 0 then none else if i ≤ 2 then some 0 else some 2

/-- The range of interface levels an image's parent offers; ROM offers level 1 (R474). -/
def parentRange (d : Dev) (i : Nat) : Option (Nat × Nat) :=
  match imgParent i with
  | none => some (1, 1)
  | some p => (imgLoaded d p).map (fun x => (x.dilLo, x.dilHi))

/-- Do two ranges share a level? -/
def meets (a b : Nat × Nat) : Bool := decide (a.1 ≤ b.2) && decide (b.1 ≤ a.2) && decide (a.1 ≤ a.2) && decide (b.1 ≤ b.2)

/-- Check 0x7 of an image (R474); an update also checks the images that depend on it. -/
def levelsOk (update : Bool) (i : Nat) (x : Img) (d : Dev) : Bool :=
  (match parentRange d i with
  | none => false
  | some r => meets (x.uilLo, x.uilHi) r)
  && (!update || (List.range 20).all (fun c => match imgLoaded d c with
    | none => true
    | some y => decide (imgParent c ≠ some i) || meets (y.uilLo, y.uilHi) (x.dilLo, x.dilHi)))

/-! ### Handler packs (R327 to R332) -/

/-- The 10,240 bits of a pack's descriptor (R328). -/
def packDesc (p : PackImg) : BitVec 10240 := BitVec.ofNat 10240 (leNat (fitBytes 1280 p.payload))

/-- The entry of code n as the descriptor gives it (R328, R329). -/
def descEntry (v : BitVec 10240) (n : Nat) : BitVec 64 := BitVec.ofNat 64 (bits v (64 * n + 2111) (64 * n + 2048))

/-- The eight EV offsets (R328). -/
def descEv (v : BitVec 10240) : List Nat := (List.range 8).map (fun k => bits v (543 + 32 * k) (512 + 32 * k))

/-- The pack's text and data images (R328). -/
def packText (p : PackImg) : List Byte :=
  let v := packDesc p
  fitBytes (bits v 223 192) (p.payload.drop (bits v 191 160))
def packData (p : PackImg) : List Byte :=
  let v := packDesc p
  fitBytes (bits v 287 256) (p.payload.drop (bits v 255 224))

/-- The bytes of text, and of data with BSS, that the pack of a slot may take beside those loaded (R327). -/
def packShare (d : Dev) (slot : Nat) : Nat × Nat :=
  match slot with
  | 0 => (40960, 20480)
  | 1 => (12288, 4096)
  | 2 => (16384, 8192)
  | _ =>
      let l := (d.packs.filter (fun e => decide (3 ≤ e.1) && decide (e.1 ≠ slot))).map (·.2)
      (28672 - (l.map (·.textSize)).foldl (· + ·) 0, 32768 - (l.map (fun k => k.dataSize + k.bssSize)).foldl (· + ·) 0)

/-- Is [a, a + n) a free 16-byte-aligned place in [lo, hi) (R331)? `used` are the places of the packs loaded. -/
def placeFree (lo hi : Nat) (used : List (Nat × Nat)) (n a : Nat) : Bool :=
  decide (a % 16 = 0) && decide (lo ≤ a) && decide (a + n ≤ hi)
    && used.all (fun u => decide (a + n ≤ u.1) || decide (u.1 + u.2 ≤ a) || decide (n = 0) || decide (u.2 = 0))

/-- Where an image of n bytes goes: where the firmware puts it, or else the first free place behind another (R331). -/
def placeAt (lo hi : Nat) (used : List (Nat × Nat)) (n want : Nat) : Option Nat :=
  (want :: lo :: used.map (fun u => (u.1 + u.2 + 15) / 16 * 16)).find? (placeFree lo hi used n)

/-- Where the text and the data of a slot's pack go (R327, R331). -/
def textPlace (d : Dev) (slot : Nat) (p : PackImg) : Option Nat :=
  placeAt 0x8000 0x20000 ((d.packs.filter (fun e => e.1 ≠ slot)).map (fun e => (e.2.text, e.2.textSize))) (bits (packDesc p) 223 192) p.textAt
def dataPlace (d : Dev) (slot : Nat) (p : PackImg) : Option Nat :=
  placeAt 0x10010000 0x10020000 ((d.packs.filter (fun e => e.1 ≠ slot)).map (fun e => (e.2.data, e.2.dataSize + e.2.bssSize)))
    (bits (packDesc p) 287 256 + bits (packDesc p) 319 288) p.dataAt

/-- The checks of R330 that the payload decides, and R332. -/
def packForm (i : Nat) (x : Img) (p : PackImg) (d : Dev) : Bool :=
  let v := packDesc p
  let size := bits v 223 192
  let slot := imgSlot i
  let share := packShare d slot
  let offOk := fun (o : Nat) => decide (o % 4 = 0) && decide (o < size)
  decide (bits v 31 0 = 0x4B504843) && decide (bits v 39 32 = 1)
  && decide (bits v 47 40 = 0 ∧ bits v 159 121 = 0 ∧ bits v 511 384 = 0 ∧ bits v 2047 1024 = 0)
  && (List.range 128).all (fun n =>
    let w := descEntry v n
    if [0, 3, 4, 5, 6, 8, 9, 0x0B, 0x0C, 0x0D, 0x0E].contains n then decide (w = 0xFFFFFFFF00000000#64)
    else (decide (bits w 63 32 = 0xFFFFFFFF) || offOk (bits w 63 32)) && decide (bits w 31 30 ≠ 3) && decide (bits w 19 0 = 0)
      && (!([1, 2, 7, 0x0A, 0x0F].contains n) || decide (bits w 28 20 = 0)))
  && (descEv v).all offOk
  && decide (size ≤ share.1) && decide (bits v 287 256 + bits v 319 288 ≤ share.2)
  && (textPlace d slot p).isSome && (dataPlace d slot p).isSome
  && (match imgLoaded d 2 with
    | none => false
    | some b => decide (b.dilLo ≤ bits v 111 96) && decide (bits v 111 96 ≤ b.dilHi))
  && d.packs.all (fun e => decide (e.1 = slot) || decide (e.2.htype ≠ bits v 119 112))
  && (!(bit v 120) || decide (x.keysel = 0))

/-- The REASON of the first check an image fails; 0 when it is accepted (R470). A KEYSEL that names a REVOKED slot fails
check 0x3 (R482). -/
def imgReason (update : Bool) (i : Nat) (x : Img) (d : Dev) : Nat :=
  let t := imgType i
  let k := lget d.ownersNow (x.keysel - 1) ⟨false, false, 0⟩
  if !(imgForm i x) then 1
  else if x.keysel ≠ 0 ∧ (4 < x.keysel ∨ ownerState k = 0 ∨ t < 4) then 2
  else if (if x.keysel = 0 then decide (x.keyHash ≠ Config.rootKeyHash)
      else decide (ownerState k = 2) || decide (x.keyHash ≠ k.hash)) then 3
  else if !x.sigOk then 4
  else if !x.hashOk then 5
  else if x.svn < regFld d .seRb (t - 1) 6 0 then 6
  else if !(levelsOk update i x d) then 7
  else if t = 5 ∧ (x.packOk = false ∨
      (match x.pack with
      | none => true
      | some p => decide (x.uilLo ≠ bits (packDesc p) 111 96) || decide (x.uilHi ≠ bits (packDesc p) 111 96) || !(packForm i x p d)) = true) then 8
  else 0

/-- Does a COMPAT list name image j with its version (R476)? -/
def compatNames (x : Img) (j : Nat) (y : Img) : Bool :=
  x.compat.any (fun e => decide (bits e 7 0 ≠ 0) && decide (bits e 7 0 = imgType j)
    && (decide (imgType j ≠ 5) || decide (bits e 15 8 = 0xFF) || decide (bits e 15 8 = imgSlot j))
    && decide (bits e 95 64 ≤ y.version) && decide (y.version ≤ bits e 127 96))

/-- Is an image in an untested pairing with its parent (R475)? The ROM is no image, and its pairing needs no entry. -/
def untested (d : Dev) (i : Nat) (x : Img) : Bool :=
  match imgParent i with
  | none => false
  | some p => match imgLoaded d p with
    | none => false
    | some y => !(compatNames x p y) && !(compatNames y i x)

/-! ### What a loaded image does (R327, R262, R511) -/

/-- SIGNPOST_POLICY's values (R262). Registers an expert has written since the last reset keep their values (R488). -/
def policyLoad (p : Policy) (d : Dev) : Dev :=
  let put := fun (r : Reg) (k v : Nat) (d : Dev) =>
    if d.sgWritten.contains (regKey r k) then d else regSet r k (BitVec.ofNat 64 v) d
  let d := (List.range 4).foldl (fun d k => put .sgH k (lget p.h k 0) (put .sgW k (lget p.w k 0) d)) d
  let d := put .sgRebal 0 p.rebal (put .sgBset 0 p.bset (put .sgMovRange 0 p.movRange d))
  { d with sgDist := p.dist.foldl (fun t e => tset t e.1 e.2 0) [] }

/-- A pack as CP_BASE_FW keeps it (R328). -/
def packOfImg (d : Dev) (slot : Nat) (x : Img) (p : PackImg) : Pack :=
  let v := packDesc p
  { htype := bits v 119 112, ilvl := bits v 111 96, packId := bits v 63 48, ver := x.version, packVer := bits v 95 64, trusted := bit v 120
    entries := (List.range 128).foldl (fun t n => tset t n (descEntry v n) 0xFFFFFFFF00000000#64) []
    ev := descEv v, senseDecl := BitVec.ofNat 128 (bits v 895 768), senseUx := BitVec.ofNat 128 (bits v 1023 896)
    tmoMs := bits v 351 320, sources := bits v 383 352
    textSize := bits v 223 192, dataSize := bits v 287 256, bssSize := bits v 319 288
    text := (textPlace d slot p).getD 0x8000, data := (dataPlace d slot p).getD 0x10010000, svn := x.svn }

/-- Text and data go to every CP (R327), with BSS as zeros (DESIGN CHOICE, log entry 110: the spec gives its size alone), and INIT is
called once on each, on one that runs BIST when that has ended (R333). What the vendor packs of slots 0 to 2 do is modelled without
their code, so no INIT of theirs runs (log entry 22). -/
def packInstall (slot : Nat) (x : Img) (p : PackImg) (d : Dev) : Dev :=
  let pk := packOfImg d slot x p
  let d := { d with packs := tins (tdel d.packs slot) slot pk }
  let d := (List.range 72).foldl (fun d i => cpMod i (fun c => { c with
    iram := memWrite c.iram pk.text (packText p), dram := memWrite c.dram pk.data (packData p ++ List.replicate pk.bssSize 0) }) d) d
  let own := decide (3 ≤ slot)
  let bist := (List.range 72).filter (fun i => own && (match (cpGet d i).role with | .bist _ => true | _ => false))
  let up := (List.range 72).filter (fun i =>
    own && (decide ((cpGet d i).role = .inService) || decide ((cpGet d i).role = .spare)))
  { d with
    initDue := d.initDue.filter (fun x => x.2 ≠ slot) ++ bist.map (fun i => (i, slot))
    packCalls := d.packCalls ++ up.map (fun i => (⟨i, Config.subchannels, slot, 1, lget pk.ev 0 0, 0, 0, 0⟩ : PackCall)) }

/-- The effect of an accepted image (R467, R473). -/
def imgEffect (i : Nat) (x : Img) (d : Dev) : Dev :=
  match i with
  | 0 => d
  | 1 => match x.option_ with
    | some (true, c, s, _) => (List.range 2).foldl (fun d u =>
        regSet .upCfg u (BitVec.ofNat 64 (fieldN 31 31 c.toNat + fieldN 30 30 s.toNat + fieldN 29 29 1)) d) d
    | _ => d
  | 2 => (List.range 72).foldl (fun d k => cpMod k (fun c => { c with
      iram := memWrite c.iram 0 x.iram, dram := memWrite c.dram 0x10000000 x.dram }) d) d
  | 3 => match x.policy with
    | some p => policyLoad p d
    | none => d
  | _ => match x.pack with
    | some p => packInstall (imgSlot i) x p d
    | none => d

/-- GL_STAT and SE_STAT show whether a loaded image is untested (R475); an image that is loaded untested is told by the events and by an
audit record. -/
def untestedNote (new : Bool) (d : Dev) : Dev :=
  let any := (List.range 20).any (fun i => decide ((imgGet d i).status = 3))
  let old := regFld d .glStat 0 31 0
  let d := regSetFld .seStat 0 29 29 any.toNat (regSetFld .glStat 0 30 30 any.toNat d)
  if new then
    pageEvent 1 2 (pageEvent 0 5
      (auditPut .elfort 0 0x011 15 (BitVec.ofNat 32 (regFld d .glStat 0 31 0)) (BitVec.ofNat 32 old) 0 d))
  else d

/-- An image that was accepted is loaded, from copy c (R467, R473, R475). -/
def imgTake (i c : Nat) (x : Img) (d : Dev) : Dev :=
  let u := untested d i x
  untestedNote u (imgEffect i x (imgSet i ⟨if u then 3 else 0, 0, c, some x⟩ d))

/-- The copy of an image in the flash. -/
def flashImg (b : BootIn) (i c : Nat) : Option Img := (b.imgs.find? (fun e => decide (e.1 = i) && decide (e.2.1 = c))).map (·.2.2)

/-- The REASON of what stands in a flash copy; where no image stands, its MAGIC is wrong (R470). -/
def copyReason (i : Nat) (x : Option Img) (d : Dev) : Nat :=
  match x with
  | none => 1
  | some x => imgReason false i x d

/-- Load one image at boot (R471): copy a, the active one, or the other when it is refused. With both refused the image is absent: its
STATUS is 2 where the flash holds none, and 1 otherwise and for SIGNPOST_POLICY (R472). -/
def bootImage (b : BootIn) (a i : Nat) (d : Dev) : Dev :=
  let r := copyReason i (flashImg b i a) d
  match flashImg b i a, flashImg b i (1 - a) with
  | some x, y =>
      if r = 0 then imgTake i a x d
      else match y with
        | some y => if imgReason false i y d = 0 then imgTake i (1 - a) y (regSetFld .seStat 0 30 30 1 d)
                    else pageEvent 1 1 (imgSet i ⟨1, r, a, some x⟩ d)
        | none => pageEvent 1 1 (imgSet i ⟨1, r, a, some x⟩ d)
  | none, some y =>
      if imgReason false i y d = 0 then imgTake i (1 - a) y (regSetFld .seStat 0 30 30 1 d)
      else pageEvent 1 1 (imgSet i ⟨1, 1, a, none⟩ d)
  | none, none => imgSet i ⟨if i = 3 then 1 else 2, 1, a, none⟩ d

/-! ### The boot flash (R540, R541) -/

/-- Where copy c of image i lies in the flash (R540). -/
def flashBase (i c : Nat) : Nat :=
  match i with
  | 0 => 0x80000 + 0x100000 * c
  | 1 => 0x280000 + 0x200000 * c
  | 2 => 0x680000 + 0x20000 * c
  | 3 => 0x6C0000 + 0x20000 * c
  | _ => 0x700000 + 0x80000 * imgSlot i + 0x40000 * c

/-- The bytes the flash has for one copy of image i (R540). -/
def flashRoom (i : Nat) : Nat :=
  match i with
  | 0 => 0x100000
  | 1 => 0x200000
  | 2 => 0x20000
  | 3 => 0x20000
  | _ => 0x40000

/-- The 64 bytes of a directory copy (R541). -/
def dirBytes (gen : Nat) (active : List Nat) : List Byte :=
  let b := leBytes 4 0x52494456 ++ leBytes 4 gen ++ fitBytes 20 (active.map (BitVec.ofNat 8)) ++ List.replicate 32 0
  b ++ leBytes 4 (crc32c b).toNat

/-- Is a directory copy valid (R541)? -/
def dirValid (b : List Byte) : Bool :=
  let b := fitBytes 64 b
  decide (leNat (b.take 4) = 0x52494456) && decide (leNat (b.drop 60) = (crc32c (b.take 60)).toNat)

/-- GEN of a directory copy. -/
def dirGenOf (b : List Byte) : Nat := leNat ((fitBytes 64 b).drop 4 |>.take 4)

/-- The directory copy in force (R541): the valid one with the higher GEN; of two with one GEN, copy 0 (log entry 119). -/
def dirInForce (b : BootIn) : Option Nat :=
  if dirValid b.dir0 && (!(dirValid b.dir1) || decide (dirGenOf b.dir1 ≤ dirGenOf b.dir0)) then some 0
  else if dirValid b.dir1 then some 1
  else none

/-- The active copies that boot finds: those of the directory in force, or copy A of every image. -/
def bootActive (b : BootIn) : List Nat :=
  match dirInForce b with
  | none => List.replicate 20 0
  | some k => ((fitBytes 64 (if k = 0 then b.dir0 else b.dir1)).drop 8 |>.take 20).map (·.toNat)

/-- Boot takes over the directory (R541). -/
def dirTake (b : BootIn) (d : Dev) : Dev :=
  let d := { d with dirActive := bootActive b }
  match dirInForce b with
  | none => regSetFld .seStat 0 30 30 1 { d with dirGen := 0, dirCopy := 1 }
  | some k => { d with dirGen := dirGenOf (if k = 0 then b.dir0 else b.dir1), dirCopy := k }

/-- The directory is written to the copy not in force, with GEN + 1, and that copy is in force (R541). -/
def dirWrite (active : List Nat) (d : Dev) : Dev :=
  let c := 1 - d.dirCopy
  emit (.flash (0x10000 * c) (dirBytes (d.dirGen + 1) active)) { d with dirActive := active, dirGen := d.dirGen + 1, dirCopy := c }

/-! ### Rollback counters (R477 to R479) -/

/-- The commit target of a TYPE (R479): the loaded image's SVN, or the lowest among the loaded packs. -/
def rbTarget (d : Dev) (t : Nat) : Option Nat :=
  if 1 ≤ t ∧ t ≤ 4 then (imgLoaded d (t - 1)).map (·.svn)
  else if t = 5 then
    match ((span 4 16).filterMap (imgLoaded d)).map (·.svn) with
    | [] => none
    | x :: l => some (l.foldl min x)
  else none

/-- A commit (R477, R479): the counter rises to the target, never falls, and is audited with OTYPE 3. -/
def rbRaise (t : Nat) (d : Dev) : Dev :=
  match rbTarget d t with
  | none => d
  | some v =>
      let old := regFld d .seRb (t - 1) 6 0
      let new := max old (min v 64)
      auditPut .elfort 1 ((0x50 + 4 * t) / 4) 15 (BitVec.ofNat 32 new) (BitVec.ofNat 32 old) 0
        (regSet .seRb (t - 1) (BitVec.ofNat 64 new) d)

/-- The commits boot makes itself (R479). -/
def rbAuto (d : Dev) : Dev :=
  if regFld d .seUpdpol 0 2 2 = 0 then d
  else
    let asks := fun (i : Nat) => match imgLoaded d i with
      | some x => x.rbc
      | none => false
    let ts := (span 1 4).filter (fun t => asks (t - 1)) ++ (if (span 4 16).any asks then [5] else [])
    ts.foldl (fun d t => rbRaise t d) d

/-! ### The end of boot (R472, R473, R553, R590) -/

/-- The Degraded conditions that the repair store records are reported again at boot (R590): the retired CPs of a district
without a spare, mirror mode and the fallback clock (R590), the banks with fenced slices (R234), fewer than five mover
lane groups (R17; which of the failed groups each report names is a free value, log entry 24) and the retired lanes
(R528). Retired banks and Boulevard ports on a spare were reported Recovered, and hold no Degraded condition. -/
def degradedAgain (d : Dev) : Dev :=
  let d := (List.range 8).foldl (fun d e =>
    let d := if (spareOf d e).isNone && (roleIn d e (.bist true)).isEmpty && (roleIn d e (.bist false)).isEmpty then
        (roleIn d e .retired).foldl (fun d i => deviceFault 2 1 i d) d else d
    let d := if regFld d .dsStat e 25 25 = 1 then deviceFault 2 2 e d else d
    if regFld d .dsStat e 26 26 = 1 then deviceFault 2 7 e d else d) d
  let d := ((List.range 64).filter (fun b => decide (bankState d b = 3))).foldl (fun d b => deviceFault 2 3 b d) d
  let d := (List.range (5 - d.lanes.length)).foldl (fun d _ =>
    let (i, d) := freeNext d
    deviceFault 2 5 (i.toNat % 6) d) d
  ((List.range 128).filter (fun l => decide (regFld d .avStat (l / 16) (l % 16) (l % 16) = 1))).foldl
    (fun d l => deviceFault 2 6 l d) d

/-- Revocation that a loss of power interrupted is completed (R482). -/
def finishRevoke (l : List OwnerKey) : List OwnerKey :=
  match (List.range 4).filter (fun i => ownerState (lget l i ⟨false, false, 0⟩) = 1) with
  | i :: _ :: _ => lset l i { lget l i ⟨false, false, 0⟩ with revk := true }
  | _ => l

/-- The measurement of a loaded image (R469). -/
def measurement (d : Dev) (i : Nat) : BitVec 384 := BitVec.ofNat 384 (((imgLoaded d i).map (·.digest)).getD 0)

/-- The keys as boot forms them (R483): DICE layers over the measurements of ELFORT_FW, SDS_FW, CP_BASE_FW and SIGNPOST_POLICY, and the
alias certificate, signed with the DeviceID key. -/
def formKeys (d : Dev) : Dev :=
  let c0 := Config.hmac384 Config.uds (measurement d 0)
  let c1 := Config.hmac384 c0 (Config.sha384 [measurement d 1, measurement d 2, measurement d 3])
  let pub := Config.derivedPublic c1
  { d with keys := {
      uds := Config.uds, devicePrivate := Config.deviceIdPrivate, devicePublic := Config.deviceIdPublic
      deviceChain := Config.deviceChain, cdi0 := c0, cdi1 := c1, aliasPrivate := Config.derivedPrivate c1, aliasPublic := pub
      aliasCert := Config.certificate Config.deviceIdPrivate pub ((List.range 4).map (measurement d)) } }

/-- Boot loads image i (R471). -/
def bootLoad (b : BootIn) (i : Nat) (d : Dev) : Dev := bootImage b (lget (bootActive b) i 0 % 2) i d

/-- BOOT_READY (R473, R483, R553): the images are verified and loaded in order, every CP not retired starts, the keys are formed, conditions
are re-evaluated, and READY rises; without ELFORT_FW or CP_BASE_FW it does not (R472). -/
def bootReady (b : BootIn) (d : Dev) : Dev :=
  if isReady d then d
  else
    let d := dirTake b { d with owners := finishRevoke d.owners, boots := d.boots + 1 }
    let d := bootLoad b 0 { d with ownersNow := d.owners }
    if (imgLoaded d 0).isNone then regSetFld .seStat 0 31 31 1 { d with fatal := true }
    else
      let d := bootLoad b 1 d
      let d := if (imgLoaded d 1).isNone then (let (u, d) := freeNext d; let (i, d) := freeNext d
                                               deviceFault 2 (u.toNat % 256) (i.toNat % 1048576) d) else d
      let d := bootLoad b 2 d
      if (imgLoaded d 2).isNone then { d with fatal := true }
      else
        let d := (span 3 17).foldl (fun d i => bootLoad b i d) d
        let d := (List.range 72).foldl (fun d i => match (cpGet d i).role with
          | .inService => cpSet i { cpGet d i with run := .run } d
          | .spare => cpSet i { cpGet d i with run := .run } d
          | .bist _ => cpSet i { cpGet d i with run := .bist } d
          | .retired => d) d
        let d := degradedAgain (formKeys d)
        rbAuto (regSetFld .glStat 0 31 31 1 { d with faultAt := none })

/-! ### The mailbox (R479, R481, R482, R490) -/

/-- The 512 bytes of an origin's buffer as a number. -/
def mbBlock (d : Dev) (o : Origin) : BitVec 4096 :=
  BitVec.ofNat 4096 (((List.range 128).map (fun i => regFld d .seMbData (originKey o * 128 + i) 31 0 * 2 ^ (32 * i))).foldl
    (· + ·) 0)

/-- Answer the mailbox command at the front (R490): RESULT, BUSY falls, MBDONE. -/
def mbAnswer (o : Origin) (result : Nat) (d : Dev) : Dev :=
  pageEvent 1 0 (regSet .seMbRsp (originKey o) (BitVec.ofNat 64 result) { d with mbQueue := d.mbQueue.drop 1 })

/-- Commands with no row of their own are answered with RESULT 3 as they reach the front. -/
def mbBad : List (Origin × Nat) → Dev → Dev
  | [], d => d
  | (o, c) :: t, d => if c = 1 ∨ c = 2 then d else mbBad t (mbAnswer o 3 d)

/-- SE_MB_CMD.GO (R490). -/
def mbGo (o : Origin) (cmd : Nat) (d : Dev) : Dev :=
  let d := regSetFld .seMbRsp (originKey o) 31 31 1 { d with mbQueue := d.mbQueue ++ [(o, cmd)] }
  mbBad d.mbQueue d

/-- SE_OWN (R490). -/
def ownWord (d : Dev) : Nat :=
  ((List.range 4).map (fun k => ownerState (lget d.owners k ⟨false, false, 0⟩) * 4 ^ k)).foldl (· + ·) 0

/-- RESULT of OWN_XFER (R482). -/
def ownCheck (o : Origin) (curHash : Nat) (sigOk : Bool) (d : Dev) : Nat :=
  let b := mbBlock d o
  let act := activeSlot d.owners
  let cls := originClass o
  if regFld d .seUpdpol 0 1 1 = 0 then 1
  else if !(cls = 4 || (cls = 3 && act ≠ 0)) then 1
  else if !((List.range 4).any (fun i => decide (ownerState (lget d.owners i ⟨false, false, 0⟩) = 0))) then 4
  else if bits b 7 0 ≠ 1 ∨ bits b 31 8 ≠ 0 ∨ bits b 3327 1824 ≠ 0 then 2
  else if (d.nonces.find? (fun e => e.1 = originKey o)).map (·.2) ≠ some (bits b 287 32) then 2
  else if act = 0 then (if bits b 4095 3328 = 0 ∧ bits b 1823 1056 = 0 then 0 else 2)
  else if curHash = (lget d.owners (act - 1) ⟨false, false, 0⟩).hash ∧ sigOk = true then 0 else 2

/-- OWN_XFER (R481, R482): the hashes of CURKEY and NEWKEY and the signature's verdict come with the command. -/
def ownXfer (curHash newHash : Nat) (sigOk : Bool) (d : Dev) : Dev :=
  match d.mbQueue with
  | (o, 1) :: _ =>
      let r := ownCheck o curHash sigOk d
      let old := ownWord d
      let act := activeSlot d.owners
      let d := { d with nonces := tdel d.nonces (originKey o) }
      let d := if r = 0 then
          let e := ((List.range 4).find? (fun i => decide (ownerState (lget d.owners i ⟨false, false, 0⟩) = 0))).getD 0
          let l := lset d.owners e ⟨true, false, newHash⟩
          let l := if act = 0 then l else lset l (act - 1) { lget l (act - 1) ⟨false, false, 0⟩ with revk := true }
          pageEvent 1 3 { d with owners := l }
        else d
      let d := auditPut .elfort 1 0x1A 15 (BitVec.ofNat 32 (ownWord d)) (BitVec.ofNat 32 old) 0 d
      let d := mbAnswer o r d
      mbBad d.mbQueue d
  | _ => d

/-- RB_COMMIT (R479). -/
def rbCommit (d : Dev) : Dev :=
  match d.mbQueue with
  | (o, 2) :: _ =>
      let t := bits (mbBlock d o) 7 0
      let d := match rbTarget d t with
        | none => mbAnswer o 2 d
        | some _ => mbAnswer o 0 (rbRaise t d)
      mbBad d.mbQueue d
  | _ => d

/-- A read of SE_NONCE_0 makes a new 32-byte nonce for the origin (R490). -/
def newNonce (o : Origin) (d : Dev) : Dev :=
  let (a, d) := freeNext d
  let (b, d) := freeNext d
  { d with nonces := tins (tdel d.nonces (originKey o)) (originKey o) (a.toNat + 2 ^ 128 * b.toNat) }

/-! ### Attestation (R485, R486) -/

/-- A number as an octet string, most significant byte first. -/
def beBytes (n x : Nat) : List Byte := (leBytes n x).reverse

/-- Where the answer to an attestation request goes (R485): paths 0 and 1 are the sideband bindings; a PCIe VDM (2) of port u is answered
as 2 + u, a DOE data object (3) of port u as 4 + u. -/
def attPath (path port : Nat) : Nat := if path < 2 then path else 2 * path - 2 + port

/-- The answer to GET_CHAIN (R483, R485): the certificates of the CA, of DeviceID and of the alias key. -/
def chainAnswer (via off len : Nat) (d : Dev) : Dev :=
  let chain := d.keys.deviceChain ++ d.keys.aliasCert
  if 1024 < len then emit (.sideband via [1, 0x81, 1]) d
  else emit (.sideband via ([1, 0x81, 0, 0] ++ leBytes 4 chain.length ++ (chain.drop off).take len)) d

/-- Entry i of a report (R486). -/
def reportEntry (d : Dev) (i : Nat) : List Byte :=
  let x := imgGet d i
  let y := imgLoaded d i
  let f := fun (g : Img → Nat) => (y.map g).getD 0
  leBytes 1 i ++ leBytes 1 (imgType i) ++ leBytes 1 (if imgType i = 5 then imgSlot i else 0) ++ leBytes 1 (f (·.svn))
    ++ leBytes 4 (f (·.version)) ++ leBytes 1 (f (·.keysel)) ++ leBytes 1 x.status
    ++ leBytes 1 (regFld d .seRb (imgType i - 1) 6 0) ++ List.replicate 5 0 ++ beBytes 48 (f (·.digest))

/-- The owner entry of a report (R486). -/
def ownerEntry (d : Dev) : List Byte :=
  let a := activeSlot d.owners
  leBytes 1 20 ++ leBytes 1 0xF0 ++ leBytes 1 a ++ List.replicate 13 0
    ++ beBytes 48 (if a = 0 then 0 else (lget d.owners (a - 1) ⟨false, false, 0⟩).hash)

/-- The answer to GET_REPORT (R485, R486): one snapshot, signed with the alias key; the number a signature draws is a free value. -/
def reportAnswer (via nonce : Nat) (d : Dev) : Dev :=
  let any := (List.range 20).any (fun i => decide ((imgGet d i).status = 3))
  let flags := fieldN 0 0 any.toNat + fieldN 1 1 (regFld d .seStat 0 30 30)
    + fieldN 2 2 (decide (regFld d .glDbgpol 0 1 0 ≠ 0)).toNat + fieldN 3 3 (regFld d .glStat 0 29 29)
  let body := leBytes 1 1 ++ leBytes 1 flags ++ leBytes 2 21 ++ leBytes 4 d.boots ++ leBytes 8 d.devtime.toNat
    ++ leBytes 32 nonce ++ List.replicate 16 0 ++ ((List.range 20).map (reportEntry d)).flatten ++ ownerEntry d
  let (k, d) := freeNext d
  emit (.sideband via ([1, 0x82, 0, 0] ++ body ++ fitBytes 96 (Config.signature d.keys.aliasPrivate body k))) d

/-- An attestation request arrives (R485): it waits its turn, or is answered busy while eight wait behind the one in hand. -/
def attAsk (via cmd : Nat) (r : AttReq) (d : Dev) : Dev :=
  if 9 ≤ d.attQ.length then emit (.sideband via [1, BitVec.ofNat 8 (0x80 + cmd), 2]) d else { d with attQ := d.attQ ++ [r] }

/-- The request in front is served (R485). -/
def attServe (d : Dev) : Dev :=
  match d.attQ with
  | [] => d
  | .chain via off len :: t => chainAnswer via off len { d with attQ := t }
  | .report via nonce :: t => reportAnswer via nonce { d with attQ := t }

/-- GET_CHAIN (R485). -/
def getChain (path port off len : Nat) (d : Dev) : Dev :=
  attAsk (attPath path port) 1 (.chain (attPath path port) off len) d

/-- GET_REPORT (R485). -/
def getReport (path port nonce : Nat) (d : Dev) : Dev := attAsk (attPath path port) 2 (.report (attPath path port) nonce) d

/-! ### Firmware update (R487 to R489) -/

/-- Are updates taken now (R472, R487): READY, recovery mode over the sideband, or CP_BASE_FW absent? -/
def updTakes (path : Nat) (d : Dev) : Bool :=
  if regFld d .seStat 0 31 31 = 1 then decide (path < 2)
  else isReady d || d.imgs.any (fun e => decide (e.1 = 2) && (decide (e.2.status = 1) || decide (e.2.status = 2)))

/-- RequestUpdate (R487). -/
def requestUpdate (path port : Nat) (d : Dev) : Dev :=
  let via := attPath path port
  if path = 2 ∧ regFld d .seUpdpol 0 0 0 = 0 then emit (.pldm via "RequestUpdate not accepted") d
  else if d.upd.isSome then emit (.pldm via "ALREADY_IN_UPDATE_MODE") d
  else if updTakes path d = false then emit (.pldm via "RETRY_REQUEST_UPDATE") d
  else emit (.pldm via "RequestUpdate accepted") { d with upd := some ⟨path, via, none, none, false, []⟩ }

/-- A transfer of firmware data is written to the inactive copy, within its place in the flash (R487, R540). -/
def pldmTransfer (comp off : Nat) (b : List Byte) (d : Dev) : Dev :=
  match d.upd, compIndex comp with
  | some u, some i =>
      if b.length ≤ (if u.path = 2 then 4096 else 1024) ∧ off + b.length ≤ flashRoom i then
        emit (.flash (flashBase i (1 - lget d.dirActive i 0 % 2) + off) b) { d with upd := some { u with comp := some comp, img := none, ok := false } }
      else d
  | _, _ => d

/-- VerifyComplete reports the outcome of R470 and R474 (R487). -/
def verifyComplete (comp : Nat) (x : Img) (d : Dev) : Dev :=
  match d.upd, compIndex comp with
  | some u, some i =>
      if u.comp ≠ some comp then d
      else
        let r := imgReason true i x d
        let d := if r = 0 then d else pageEvent 1 1 d
        emit (.sideband u.via (leBytes 1 r)) { d with upd := some { u with img := some (i, x), ok := decide (r = 0) } }
  | _, _ => d

/-- ApplyComplete switches the directory only after a successful verification (R487, R541). -/
def applyComplete (ok : Bool) (d : Dev) : Dev :=
  match d.upd with
  | none => d
  | some u => match u.img with
    | none => d
    | some (i, x) =>
        if ok && u.ok then
          let c := 1 - lget d.dirActive i 0 % 2
          let dir := lset (d.dirActive ++ List.replicate (20 - d.dirActive.length) 0) i c
          dirWrite dir { d with upd := some { u with img := none, ok := false, applied := u.applied ++ [(i, x)] } }
        else { d with upd := some { u with img := none, ok := false } }

/-- Is a command of a pack slot current on any CP (R489)? -/
def slotBusy (d : Dev) (slot : Nat) : Bool :=
  d.progs.any (fun e => decide ((subGet d e.1).hpack = slot) && !(finalMade e.2))
    || (List.range 72).any (fun i => match (cpGet d i).serve with
      | some s => decide ((subGet d s.sub).hpack = slot)
      | none => false)

/-- Step 3 and 4 of R489: the new pack is installed; bindings that it does not inherit are lost with QUAL 4. -/
def activInstall (a : Activ) (d : Dev) : Dev :=
  match a.img.pack with
  | none => d
  | some p =>
      let same := match d.packs.find? (fun e => e.1 = a.slot) with
        | some (_, o) => decide (o.packId = bits (packDesc p) 63 48) && decide (o.htype = bits (packDesc p) 119 112)
        | none => true
      let d := { d with activ := d.activ.filter (fun x => x.slot ≠ a.slot) }
      let d := imgTake (4 + a.slot) a.copy a.img d
      let d := if same then d else (lostSubs d (.pack a.slot)).foldl (fun d n => loseSub 4 [] n d) d
      let d := if a.img.rbc && decide (regFld d .seUpdpol 0 2 2 = 1) then rbRaise 5 d else d
      liveP (emit (.pldm a.via "ActivateFirmware complete")) d

/-- Activations whose slot has come to rest are made (R489). -/
def activSweep (d : Dev) : Dev :=
  (d.activ.filter (fun a => !(slotBusy d a.slot))).foldl (fun d a => activInstall a d) d

/-- ActivateFirmware (R488): packs and the policy at once, the others pending the next warm reset. -/
def activateFirmware (d : Dev) : Dev :=
  match d.upd with
  | none => d
  | some u =>
      let d := { d with upd := none }
      let d := u.applied.foldl (fun d (e : Nat × Img) =>
        let (i, x) := e
        let c := lget d.dirActive i 0 % 2
        if 4 ≤ i then
          { d with activ := d.activ.filter (fun a => a.slot ≠ i - 4) ++ [⟨i - 4, u.via, x, c, d.devtime + 1000000000⟩] }
        else if i = 3 then imgTake 3 c x d
        else emit (.pldm u.via "ActivateFirmware pending activation") d) d
      activSweep d

/-- An activation that does not come to rest within 1 s fails (R489): the old pack stays. -/
def activTimeout (d : Dev) : Dev :=
  match d.activ with
  | [] => d
  | a :: t => emit (.pldm a.via "ActivateFirmware failed") (advanceTo a.due { d with activ := t })

/-! ### Sideband (R535, R536, R567) -/

/-- The reading of a sensor (R536); none for a number that names no sensor. States are numbered in the table's order. -/
def sensorValue (d : Dev) (n : Nat) : Option Nat :=
  if n = 1 then some (regFld d .thStat 0 15 0)
  else if n = 2 then some (regFld d .thPwr 0 15 0 / 8)
  else if n = 3 then some (regFld d .thVreq 0 15 0)
  else if n = 4 then
    some (if d.fatal then 3 else if isReady d = false then 0 else if regFld d .glStat 0 29 29 = 1 then 2 else 1)
  else if n = 5 then
    some (((List.range 11).map (fun k => 100 * regFld d .rpUsed k 15 0 / regFld d .rpBudget k 15 0)).foldl max 0)
  else if 16 ≤ n ∧ n < 18 then
    let u := n - 16
    let full := if regFld d .upCfg u 30 30 = 1 then 8 else 16
    some (if upAnswers d u = false then 0 else if regFld d .upStat u 24 20 < full ∨ regFld d .upStat u 27 25 < 6 then 2 else 1)
  else if 32 ≤ n ∧ n < 64 then
    let p := n - 32
    some (if dpAbsent d p then 0 else if regFld d .dpStat p 16 16 = 1 then 4 else if regFld d .dpStat p 18 18 = 0 then 1
      else if regFld d .dpStat p 24 20 < (dpLanes d p).2 then 3 else 2)
  else none

/-- A PLDM type 0 command (R536): types 0, 2 and 5 are served; the terminus ID and the versions are free values. -/
def pldm0 (path : Nat) (q : Pldm0) (d : Dev) : Dev :=
  match q with
  | .getTid => (let (v, d) := freeNext d; emit (.sideband path [v.extractLsb' 0 8]) d)
  | .getVersion => (let (v, d) := freeNext d; emit (.sideband path (leBytes 4 v.toNat)) d)
  | .getTypes => emit (.sideband path [0, 2, 5]) d
  | .getCommands => emit (.pldm path "GetTID, GetPLDMVersion, GetPLDMTypes, GetPLDMCommands") d

/-- Set Endpoint ID (R535): binding 0 is the sideband pins, 1 + u PCIe VDM on port u. -/
def setEid (b eid : Nat) (d : Dev) : Dev :=
  if b = 0 then { d with sbEid := eid % 256 } else if b ≤ 2 then regSetFld .upMctp (b - 1) 7 0 eid d else d

/-! ### Meanings -/

/-- BOOT_READY (R473, R553). -/
def execBootReady (boot : BootIn) (s : State) : Host.Outcome State Fault Refusal := run s (bootReady boot)

/-- OWN_XFER (R482). -/
def execOwnXfer (curHash newHash : Nat) (sigOk : Bool) (s : State) : Host.Outcome State Fault Refusal :=
  run s (ownXfer curHash newHash sigOk)

/-- RB_COMMIT (R479). -/
def execRbCommit (s : State) : Host.Outcome State Fault Refusal := run s rbCommit

/-- GET_CHAIN (R485). -/
def execGetChain (path port off len : Nat) (s : State) : Host.Outcome State Fault Refusal := run s (getChain path port off len)

/-- GET_REPORT (R485, R486). -/
def execGetReport (path port nonce : Nat) (s : State) : Host.Outcome State Fault Refusal := run s (getReport path port nonce)

/-- REQUEST_UPDATE (R487). -/
def execRequestUpdate (path port : Nat) (s : State) : Host.Outcome State Fault Refusal := run s (requestUpdate path port)

/-- PLDM_TRANSFER (R487). -/
def execPldmTransfer (comp off : Nat) (bytes : List Byte) (s : State) : Host.Outcome State Fault Refusal :=
  run s (pldmTransfer comp off bytes)

/-- VERIFY_COMPLETE (R487). -/
def execVerifyComplete (comp : Nat) (img : Img) (s : State) : Host.Outcome State Fault Refusal := run s (verifyComplete comp img)

/-- APPLY_COMPLETE (R487). -/
def execApplyComplete (ok : Bool) (s : State) : Host.Outcome State Fault Refusal := run s (applyComplete ok)

/-- ACTIVATE_FIRMWARE (R488). -/
def execActivateFirmware (s : State) : Host.Outcome State Fault Refusal := run s activateFirmware

/-- PACK_ACTIVATION_TIMEOUT (R489). -/
def execPackActivationTimeout (s : State) : Host.Outcome State Fault Refusal := run s (liveP activTimeout)

/-- PLDM_TYPE0_COMMAND (R536). -/
def execPldmType0Command (path : Nat) (q : Pldm0) (s : State) : Host.Outcome State Fault Refusal := run s (pldm0 path q)

/-- GET_SENSOR_READING (R536). -/
def execGetSensorReading (path sensor : Nat) (s : State) : Host.Outcome State Fault Refusal :=
  run s (fun d => match sensorValue d sensor with
    | some v => emit (.sideband path (leBytes 4 v)) d
    | none => emit (.pldm path "invalid sensor ID") d)

/-- SET_ENDPOINT_ID (R535). -/
def execSetEndpointId (binding eid : Nat) (s : State) : Host.Outcome State Fault Refusal := run s (setEid binding eid)

/-- SMBUS_CLOCK_LOW_TIMEOUT (R567): only the SMBus binding has the timeout (R510 GPIO_4). -/
def execSmbusClockLowTimeout (s : State) : Host.Outcome State Fault Refusal :=
  run s (fun d => if bit d.straps 4 then emit .sidebandRelease d else d)

end Sys2Proof.Machine
end

