-- ==== Sys2Proof/Machine/RegFind.lean ====
section
/-!
DEFINITION. Where a register access lands and what it reads: the page map (R398), the header (R402), class sets and
reading limits (R406 to R409), and the value of every register as an origin reads it, with the side effects of a read.
-/
namespace Sys2Proof.Machine

open Sys2Proof

/-! ### The place of an access (R398 to R401) -/

/-- A register met by an access: page type, index and number, the register with its table row, its copy, and the byte of
it that is met first. -/
structure RegAt where
  ty : PageTy
  idx : Nat
  page : Nat
  reg : Reg
  info : RegInfo
  copy : Nat
  byte : Nat
  deriving DecidableEq, Repr

/-- The row of a table that covers an offset: register, row, copy and byte. -/
def regAtOff (off : Nat) : List (Reg × RegInfo) → Option (Reg × RegInfo × Nat × Nat)
  | [] => none
  | (r, i) :: t =>
      let x := off - i.off
      let k := if i.stride = 0 then 0 else x / i.stride
      let b := if i.stride = 0 then x else x % i.stride
      if i.off ≤ off ∧ k < i.count ∧ b < i.bytes then some (r, i, k, b) else regAtOff off t

/-- The register at an offset of a page; none for a reserved page or offset. The quota registers and 0x100 to 0x12F exist
in PLZ_0 alone (R253). -/
def regFind (page off : Nat) : Option RegAt :=
  match pageOf page with
  | none => none
  | some (ty, i) =>
      if ty = .plz ∧ i ≠ 0 ∧ ((0x100 ≤ off ∧ off < 0x130) ∨ 0x900 ≤ off) then none
      else
        match regAtOff off (if off < 0x40 then regsHdr else pageRegs ty) with
        | none => none
        | some (r, info, k, b) => some ⟨ty, i, page, r, info, k, b⟩

/-- PG_ID.TYPE of a page type (R398). -/
def pageTypeCode (t : PageTy) : Nat :=
  match t with
  | .hdr => 0
  | .glb => 0x01 | .sec => 0x02 | .blv => 0x03 | .sgn => 0x04 | .jct => 0x05 | .dff => 0x06 | .jnl => 0x07
  | .aud => 0x08 | .tim => 0x09 | .hbm => 0x0A | .thm => 0x0B | .rpr => 0x0C | .dbg => 0x0D
  | .upt => 0x10 | .ave => 0x11 | .dst => 0x12 | .dpt => 0x13 | .plz => 0x14 | .mov => 0x15 | .cpc => 0x16 | .rng => 0x17

/-- PG_PERM of a page type (R406). -/
def pagePerm (t : PageTy) : Nat :=
  match t with
  | .hdr => 0
  | .glb => 0x1F1F0000 | .sec => 0x1B1A1000 | .blv => 0x1B1A1B00 | .sgn => 0x1F1A1A00 | .jct => 0x1B120300
  | .dff => 0x1B1A0000 | .jnl => 0x1B1A1200 | .aud => 0x1B1A0000 | .tim => 0x1F1E1300 | .hbm => 0x1B121300
  | .thm => 0x1B1A1200 | .rpr => 0x1B121300 | .dbg => 0x1B131100 | .upt => 0x1B1A1300 | .ave => 0x13121300
  | .dst => 0x1B120300 | .dpt => 0x13121300 | .plz => 0x1B1A1B00 | .mov => 0x1F000F00 | .cpc => 0x1B020000
  | .rng => 0x1F1C0000

/-- The classes that may read, write the basic half, and write the expert half. -/
def pageRd (t : PageTy) : Nat := pagePerm t / 2 ^ 24 % 32
def pageBw (t : PageTy) : Nat := pagePerm t / 2 ^ 16 % 32
def pageXw (t : PageTy) : Nat := pagePerm t / 2 ^ 8 % 32

/-- Is a class in a set (R402)? HW, which is in no class, is in none. -/
def inSet (set cls : Nat) : Bool := decide (cls < 5) && decide (set / 2 ^ cls % 2 = 1)

/-- PG_CAP of a page (R398, R402): expert half, per-origin selection registers, domain, source index. -/
def pageCap (t : PageTy) (page : Nat) : Nat :=
  let xh := !([PageTy.glb, .dff, .aud, .cpc, .rng].contains t)
  let sel := [PageTy.glb, .sec, .blv, .sgn, .jct, .dff, .jnl, .aud, .tim, .rpr, .dbg, .upt].contains t
  let dom := match t with
    | .cpc => 1 | .dst => 1 | .hbm => 2 | .upt => 3 | .ave => 3 | .dpt => 3 | .tim => 4 | .thm => 5 | _ => 0
  fieldN 31 31 xh.toNat + fieldN 30 30 sel.toNat + fieldN 29 27 dom + fieldN 9 0 page

/-- The event bits a page uses; the others are reserved (R415 and the tables of the other pages). -/
def evtMask (t : PageTy) (i : Nat) : Nat :=
  match t with
  | .hdr => 0
  | .glb => 0x3F | .sec => 0xF | .blv => 0x1F | .sgn => 3 | .jct => 0xF | .dff => 3 | .jnl => 3 | .aud => 3
  | .tim => 0x7FFFF | .hbm => 3 | .thm => 0xF | .rpr => 0xF | .dbg => 3 | .upt => 0xF | .ave => 1 | .dst => 0x3F
  | .dpt => 0x3F | .plz => if i = 0 then 0x1F7 else 0xF7 | .mov => 3 | .cpc => 3 | .rng => 0xFFFFFFFF

/-- The bits of a register whose access code passes a test. -/
def accMask (i : RegInfo) (p : Acc → Bool) : DWord :=
  BitVec.ofNat 64 (i.fields.foldl (fun m f => if p f.acc then m + fieldN f.hi f.lo (2 ^ 64 - 1) else m) 0)

/-- The bits of a register a write can act on (RW, SC, WO). -/
def writeMask (i : RegInfo) : DWord := accMask i (fun a => a = .rw || a = .sc || a = .wo)

/-! ### Selections (R408) -/

/-- The registers each origin has for itself and writes unaudited (R252, R280, R391, R393, R408, R415, R427, R458, R464,
R490, R509, R519, R534). -/
def isSelection (r : Reg) : Bool :=
  [Reg.evtCntSel, .glFnSel, .seImgSel, .rplSel, .watchSel, .sgRecSel, .sgAffSel, .sgFnSel, .sgLogRd, .sgScoreSel, .sgPinSub,
    .srcSel, .grpSel, .ffSel, .jnRd, .auRd, .tmSel, .rpSel, .trRd, .dbCpsel, .upFnSel].contains r

/-- What origin `o` has selected in a register of its own. -/
def selOf (d : Dev) (o : Origin) (r : Reg) : Nat := (regGet d r (originKey o)).toNat

/-- The function a selection of the form [7] PORT, [6:0] FN names. -/
def selFn (d : Dev) (o : Origin) (r : Reg) : FnId := fnOfCode (selOf d o r)

/-- The number under which copy `a.copy` of a register is stored for an origin. -/
def regInst (d : Dev) (o : Origin) (a : RegAt) : Nat :=
  let ok := originKey o
  match a.reg with
  | .evtCntSel => a.page * 1024 + ok
  | .evtCnt => 33 * a.page + min 32 (regFld d .evtCntSel (a.page * 1024 + ok) 5 0)
  | .glFnPerm => fnKey (selFn d o .glFnSel)
  | .seMbData => ok * 128 + a.copy
  | .seMbCmd => ok
  | .seMbRsp => ok
  | .blvWatchThr => 4 * selOf d o .watchSel + a.copy
  | .blvWatchMax => 4 * selOf d o .watchSel + a.copy
  | .blvWatchOvr => 4 * selOf d o .watchSel + a.copy
  | .rplCnt => selOf d o .rplSel
  | .plzWatchThr => 4 * a.idx + a.copy
  | .plzWatchMax => 4 * a.idx + a.copy
  | .plzWatchOvr => 4 * a.idx + a.copy
  | .pzQuota => a.copy
  | .pzHeld => a.copy
  | .pzWait => a.copy
  | .ffCfg => selOf d o .ffSel
  | .ffHwm => selOf d o .ffSel
  | .sgRec0 => ok
  | .sgRec1 => ok
  | .sgRec2 => ok
  | .sgRecBanks => ok
  | .sgAffBase => selOf d o .sgAffSel
  | .sgAffLimit => selOf d o .sgAffSel
  | .sgAffCtl => selOf d o .sgAffSel
  | .sgLogData => ok * 8 + a.copy
  | .sgExcl => fnCode (selFn d o .sgFnSel)
  | .jnData => ok * 16 + a.copy
  | .auData => ok * 8 + a.copy
  | .trData => ok * 8 + a.copy
  | .tmCmp => selOf d o .tmSel
  | .tmPeriod => selOf d o .tmSel
  | .tmCtl => selOf d o .tmSel
  | .tmFires => selOf d o .tmSel
  | .tmMiss => selOf d o .tmSel
  | .rpTotal => selOf d o .rpSel
  | .rpUsed => selOf d o .rpSel
  | .rpBudget => selOf d o .rpSel
  | .upFnSel => a.idx * 1024 + ok
  | .upFnpasid => fnKey ⟨a.idx, regFld d .upFnSel (a.idx * 1024 + ok) 6 0⟩
  | .avLerr => 16 * a.idx + a.copy
  | r =>
      if isSelection r then ok
      else if a.info.page = .hdr then a.page
      else if 1 < a.info.count then a.copy
      else a.idx

/-! ### Values that other state holds -/

/-- The owner of a channel as a host origin sees it (R406): may a T origin read it? -/
def chanOf (a : RegAt) : Nat := 64 * a.idx + a.copy
def ringOf (a : RegAt) : Nat := 16 * a.idx + a.copy

/-- The holder an origin is (R419). -/
def holderOf (o : Origin) : Holder :=
  match o with
  | .hostPf p => .fn ⟨p, 0⟩
  | .hostVf p v => .fn ⟨p, v⟩
  | .cp _ => .firmware
  | .bmc _ => .bmc
  | .elfort => .elfort
  | .jtag => .jtag
  | .hw _ => .signpost

/-- The commitment of a resource. -/
def commitOf (d : Dev) (kind i : Nat) : Option Commit := (d.commits.find? (fun e => e.1 = resKey kind i)).map (·.2)

/-- Does an origin hold a resource? -/
def holds (d : Dev) (o : Origin) (kind i : Nat) : Bool := (commitOf d kind i).map (·.holder) = some (holderOf o)

/-- Free resources of a kind (R415 GL_RES_FREE). -/
def resFree (d : Dev) (k : Nat) : Nat :=
  if k = 2 then pzFree d
  else lget [16, 256, 0, 4096, 4012] k 0 - (d.commits.filter (fun e => e.1 / 65536 = k)).length

/-- The entries of a deep FIFO, and how many of them stand in its head and its tail (R255). The feeds and hand-off queues
that the model keeps as lists count their head first. -/
def fifoParts (d : Dev) (n : Nat) : Nat × Nat × Nat :=
  if n < 4096 then
    let f := (crGet d n).fifo
    (f.items.length, f.head, f.tail)
  else
    let c := if n < 4168 then (cpGet d (n - 4096)).handoff.length
             else if n = 4177 then d.auFeed else feedCount d n (if n = 4178 then d.jnFeed else tget d.feeds n 0)
    let h := min 16 c
    let m := min (c - h) (middleCap (midSize d n))
    (c, h, c - h - m)

/-- POOL_FREE (R249, R255): the value after reset, corrected by every MIDSZ that has been changed. -/
def poolFree (d : Dev) : Nat :=
  let own := d.regs.filter (fun e => e.1 / 1048576 = Reg.ffCfg.ctorIdx)
  let was := (own.map (fun e => middleCap (fifoMidReset (e.1 % 1048576)))).foldl (· + ·) 0
  let now := (own.map (fun e => middleCap (bits e.2 4 0))).foldl (· + ·) 0
  0x6DAB000 + was - now

/-- SR_STAT and CR_STAT (R172, R173). -/
def srStatWord (r : SRing) : Nat :=
  fieldN 31 31 r.phase.toNat + fieldN 30 30 r.rderr.toNat + fieldN 29 29 r.crverr.toNat + fieldN 28 28 r.cfgerr.toNat
    + fieldN 27 24 (min 8 r.pref.length) + fieldN 15 0 (min 65535 r.stale)

def crStatWord (d : Dev) (n : Nat) : Nat :=
  let r := crGet d n
  fieldN 31 31 r.phase.toNat + fieldN 30 30 r.full.toNat + fieldN 29 29 r.stall.toNat
    + fieldN 28 28 (ringD3 d r && !r.fifo.items.isEmpty).toNat + fieldN 27 27 r.armed.toNat + fieldN 26 26 r.wrerr.toNat
    + fieldN 25 25 r.dberr.toNat + fieldN 24 24 r.vecerr.toNat + fieldN 23 23 r.cfgerr.toNat + fieldN 15 0 (min 65535 r.armCnt)

/-- CP_STAT (R338). -/
def CpRun.code : CpRun → Nat
  | .run => 0
  | .wait => 1
  | .stopped => 2
  | .off => 3
  | .bist => 4

def cpStatWord (c : Cp) : Nat :=
  fieldN 31 28 c.run.code + fieldN 27 26 (cpRunLevel c) + fieldN 25 25 (bit c.sr 31).toNat + fieldN 24 24 (bit c.sr 28).toNat
    + fieldN 23 23 c.sterr.toNat + fieldN 22 22 c.semerr.toNat

/-- SRC_STAT (R392). -/
def srcStatWord (d : Dev) (n : Nat) : Nat :=
  let s := srcGet d n
  let kind := match srcKind n with | .level => 1 | .queue => 2 | .privileged => 3 | _ => 0
  let cp := match s.holder with
    | some i => i
    | none => s.lastCp.getD 0x7F
  if srcKind n = .reserved then fieldN 22 16 0x7F
  else
    fieldN 31 31 (srcPending d n).toNat + fieldN 30 30 s.en.toNat + fieldN 29 29 s.act.toNat
      + fieldN 28 28 (srcPresented d n).toNat + fieldN 27 26 kind + fieldN 25 25 s.fast.toNat
      + fieldN 24 24 (srcOwnCp n).isSome.toNat + fieldN 22 16 cp

/-- The 64 bits of a group: what a test says of sources 64g to 64g + 63 (R392). -/
def groupBits (g : Nat) (p : Nat → Bool) : Nat :=
  (List.range 64).foldl (fun m i => if p (64 * g + i) then m + 2 ^ i else m) 0

/-- The bits of a group of mover channels. -/
def chanBits (g : Nat) (p : Nat → Bool) : Nat := groupBits g p

/-- SE_IMG_STAT (R490). -/
def imgStatWord (d : Dev) (i : Nat) : Nat :=
  if 20 ≤ i then fieldN 31 28 2
  else
    let x := imgGet d i
    let y := imgLoaded d i
    fieldN 31 28 x.status + fieldN 27 24 x.reason + fieldN 23 16 ((y.map (·.svn)).getD 0)
      + fieldN 15 8 ((y.map (·.keysel)).getD 0) + fieldN 0 0 x.copy

/-- DB_CPREG_i (R509): g0 to g31 of the bank in use, lk, pc, SR. -/
def cpRegView (c : Cp) (i : Nat) : Word :=
  if i < 32 then gRead i c else if i = 32 then lkRead c else if i = 33 then c.pc else srRead c

/-- A register as origin `o` reads it, apart from the side effects of the read. -/
def regView (d : Dev) (o : Origin) (a : RegAt) : DWord :=
  let n := regInst d o a
  let ok := originKey o
  let w := fun (x : Nat) => BitVec.ofNat 64 x
  match a.reg with
  | .pgId => w (fieldN 31 24 (pageTypeCode a.ty) + fieldN 23 12 a.idx + 1)
  | .pgCap => w (pageCap a.ty a.page)
  | .pgPerm => w (pagePerm a.ty)
  | .pgXkey => w (fieldN 31 31 (d.xmodes.any (fun m => decide (m.origin = o ∧ m.page = a.page))).toNat)
  | .glFnPerm => if 64 < (selFn d o .glFnSel).fn then 0 else regGet d .glFnPerm n
  | .glResRsp => tget d.resRsp ok (w (fieldN 27 24 0xF))
  | .glResFree => w (resFree d a.copy)
  | .seStat => setBits (regGet d .seStat 0) 26 24 (activeSlot d.owners)
  | .seImgStat => w (imgStatWord d (selOf d o .seImgSel))
  | .seImgVer => w (if 20 ≤ selOf d o .seImgSel then 0 else ((imgLoaded d (selOf d o .seImgSel)).map (·.version)).getD 0)
  | .seOwn => w (ownWord d)
  | .seNonce => w (((d.nonces.find? (fun e => e.1 = ok)).map (·.2)).getD 0 / 2 ^ (32 * a.copy) % 2 ^ 32)
  | .bkUse => w (fieldN 24 16 (d.slices.filter (fun e => decide (e.1 / 256 = a.idx) && (match e.2 with | .scratch _ => true | _ => false))).length
      + fieldN 8 0 (bankUsed d a.idx))
  | .pzFree => w (pzFree d)
  | .pzHeld => w (pzHeld d a.copy)
  | .pzWait => w (min 65535 (d.resv.filter (fun r => r.cls = a.copy)).length)
  | .ffCount => w (fifoParts d (selOf d o .ffSel)).1
  | .ffParts => (let p := fifoParts d (selOf d o .ffSel); w (fieldN 28 24 p.2.1 + fieldN 20 16 p.2.2))
  | .ffMid => (let p := fifoParts d (selOf d o .ffSel); w (p.1 - p.2.1 - p.2.2))
  | .poolFree => w (poolFree d)
  | .sgStat => w (fieldN 31 31 (migStop d).toNat + fieldN 30 30 (d.subs.any (fun e => e.2.pbrk)).toNat
      + fieldN 29 29 (regFld d .sgStat 0 29 29) + fieldN 28 28 (regFld d .sgStat (1000 + ok) 28 28))
  | .sgLogHead => w d.sgLog.length
  | .sgScore => w (score d (selOf d o .sgScoreSel / 65536) (selOf d o .sgScoreSel % 64))
  | .sgAvgLat => (avgGet d (selOf d o .sgScoreSel / 65536) (selOf d o .sgScoreSel % 64)).lat.zeroExtend 64
  | .sgAvgQ => (avgGet d (selOf d o .sgScoreSel / 65536) (selOf d o .sgScoreSel % 64)).q.zeroExtend 64
  | .sgAvgLoad => (avgGet d (selOf d o .sgScoreSel / 65536) (selOf d o .sgScoreSel % 64)).load.zeroExtend 64
  | .jcStat => w (fieldN 31 31 (d.srcs.any (fun e => e.2.orph)).toNat)
  | .srcStat => w (srcStatWord d (selOf d o .srcSel))
  | .grpPend => w (groupBits (selOf d o .grpSel) (srcPending d))
  | .grpEn => w (groupBits (selOf d o .grpSel) (fun n => (srcGet d n).en))
  | .grpAct => w (groupBits (selOf d o .grpSel) (fun n => (srcGet d n).act))
  | .grpHold => (let g := grpGet d (selOf d o .grpSel)
      w (if g.run then fieldN 31 31 1 + fieldN 15 0 ((g.until_.toNat - d.devtime.toNat + 19) / 20) else 0))
  | .privLatch => d.latches.zeroExtend 64
  | .srcTgt => (srcGet d (selOf d o .srcSel)).tgt
  | .srcCtl => w (srcGet d (selOf d o .srcSel)).fast.toNat
  | .grpHoldoff => w (grpGet d (selOf d o .grpSel)).holdoff
  | .jnHead => w d.jnHead
  | .jnWrap => w (d.jnHead / 2 ^ 24 % 2 ^ 32)
  | .jnStat => w (fieldN 31 31 (regFld d .jnStat (1000 + ok) 31 31) + fieldN 30 30 (regFld d .jnStat 0 30 30))
  | .auHead => w d.auHead
  | .auWrap => w (d.auHead / 2 ^ 23 % 2 ^ 32)
  | .auStat => w (fieldN 31 31 (regFld d .auStat (1000 + ok) 31 31) + fieldN 30 29 (regFld d .auStat 0 30 29))
  | .tbTime => d.devtime
  | .tbStat => w (fieldN 31 31 (tbLocked d).toNat + fieldN 30 30 (decide (d.slew ≠ 0)).toNat)
  | .tmGpioFn => w (((commitOf d 0 a.copy).map (·.arg)).getD 0 % 65536)
  | .dsStat => w (fieldN 31 28 (roleIn d a.idx .inService).length + fieldN 27 27 (spareOf d a.idx).isSome.toNat
      + fieldN 26 24 (regFld d .dsStat a.idx 26 24)
      + fieldN 8 0 ((roleIn d a.idx .retired).foldl (fun m i => m + 2 ^ (i % 9)) 0))
  | .dsFreq => w (dsMhz d a.idx)
  | .dsLedger => w (opsIn d a.idx)
  | .trHead => w d.trHead
  | .dbCpctl => w (fieldN 30 30 (cpGet d (selOf d o .dbCpsel)).halted.toNat)
  | .dbCpreg => (cpRegView (cpGet d (selOf d o .dbCpsel)) a.copy).zeroExtend 64
  | .dpStat => setBits (regGet d .dpStat a.idx) 14 14 (dpAbsent d a.idx).toNat
  | .dpMaxw => w (dpMaxw d a.idx)
  | .chStat => w (chStatWord (chGet d (chanOf a)))
  | .chBytes => (chGet d (chanOf a)).bytes
  | .chCtl => w (fieldN 31 31 (decide ((chGet d (chanOf a)).st = .disabled)).toNat)
  | .chCfg => (chGet d (chanOf a)).cfg.zeroExtend 64
  | .chProg => (chGet d (chanOf a)).prog
  | .chBuf => (chGet d (chanOf a)).buf.zeroExtend 64
  | .chLink => (chGet d (chanOf a)).link.zeroExtend 64
  | .chPc => (chGet d (chanOf a)).pc
  | .chFaddr => (chGet d (chanOf a)).faddr
  | .grpRun => w (chanBits a.idx (fun c => decide ((chGet d c).st = .run ∨ (chGet d c).st = .wait)))
  | .grpHalt => w (chanBits a.idx (fun c => decide ((chGet d c).st = .halted)))
  | .grpUse => w (chanBits a.idx (fun c => (commitOf d 3 c).isSome))
  | .cpStat => w (cpStatWord (cpGet d a.idx))
  | .cpPc => (cpGet d a.idx).lastPc.zeroExtend 64
  | .cpStaddr => (cpGet d a.idx).staddr.zeroExtend 64
  | .cpExcnt => (cpGet d a.idx).excnt.zeroExtend 64
  | .cpSstop => (cpGet d a.idx).sstop.zeroExtend 64
  | .rgEn => w (fieldN 31 16 ((List.range 16).foldl (fun m i => m + (bit (crGet d (16 * a.idx + i)).ctl 31).toNat * 2 ^ i) 0)
      + fieldN 15 0 ((List.range 16).foldl (fun m i => m + (bit (srGet d (16 * a.idx + i)).ctl 31).toNat * 2 ^ i) 0))
  | .srBase => (srGet d (ringOf a)).base
  | .srShadow => (srGet d (ringOf a)).shadow
  | .srCtl => (srGet d (ringOf a)).ctl.zeroExtend 64
  | .srOwn => (srGet d (ringOf a)).own.zeroExtend 64
  | .srCons => (srGet d (ringOf a)).cons.zeroExtend 64
  | .srStat => w (srStatWord (srGet d (ringOf a)))
  | .crBase => (crGet d (ringOf a)).base
  | .crCtl => (crGet d (ringOf a)).ctl.zeroExtend 64
  | .crOwn => (crGet d (ringOf a)).own.zeroExtend 64
  | .crMod => (crGet d (ringOf a)).mod.zeroExtend 64
  | .crProd => (crGet d (ringOf a)).prod.zeroExtend 64
  | .crCons => (crGet d (ringOf a)).cons.zeroExtend 64
  | .crStat => w (crStatWord d (ringOf a))
  | .crFifo => w (crGet d (ringOf a)).fifo.items.length
  | .crStalled => w (stalledCount d (ringOf a))
  | r => regGet d r n

/-- The self-clearing bits whose action has not completed (R12): a rotation asked for at once that waits (R395, R460), lanes to be
returned at the next training, a link that retrains (R530), a flush of translations under which reads are out (R515). Every other action completes with its write. -/
def selfBusy (d : Dev) (a : RegAt) : DWord :=
  let on := fun (b : Bool) (k : Nat) => BitVec.ofNat 64 (fieldN k k b.toNat)
  match a.reg with
  | .dsRotCtl => on (d.scWait.contains (0, a.idx) && d.rotWait.any (fun w => decide (w.1 = a.idx))) 31
  | .dpCtl => on (d.scWait.contains (1, a.idx)) 30
  | .dpLretry => on (d.lretry.contains a.idx) 0
  | .upAtc => on (d.invals.any (fun v => v.flush && decide (v.port = a.idx))) 31
  | _ => 0

/-- The value a read shows: write-only bits read 0, self-clearing ones once their action has completed (R12). -/
def regShown (d : Dev) (o : Origin) (a : RegAt) : DWord :=
  (regView d o a &&& ~~~ (accMask a.info (fun x => x = .wo || x = .sc))) ||| selfBusy d a

/-! ### Reading (R27, R408, R409) -/

/-- May an origin read a page at all (R409)? -/
def mayRead (d : Dev) (o : Origin) (t : PageTy) : Bool :=
  inSet (pageRd t) (originClass o) && !(decide (o = .jtag) && decide (regFld d .glDbgpol 0 0 0 = 0))

/-- The reading limits of R406 for class T: timers its function holds, channels and rings its function owns. -/
def inLimits (d : Dev) (o : Origin) (a : RegAt) : Bool :=
  match o with
  | .hostVf p v =>
      match a.ty with
      | .tim => !([Reg.tmCmp, .tmPeriod, .tmCtl, .tmFires, .tmMiss].contains a.reg) || holds d o 1 (selOf d o .tmSel)
      | .mov => !([Reg.chStat, .chBytes, .chCtl, .chCfg, .chProg, .chBuf, .chLink, .chPc, .chFaddr].contains a.reg)
          || decide (chOwner (chGet d (chanOf a)) = some ⟨p, v⟩)
      | .rng =>
          if a.reg = .rgEn ∨ a.info.page = .hdr then true
          else if a.info.off < 0x300 then decide (ownOf (srGet d (ringOf a)).own = some ⟨p, v⟩)
          else decide (ownOf (crGet d (ringOf a)).own = some ⟨p, v⟩)
      | _ => true
  | _ => true

/-- The side effects of a read of a register, the bits [8*byte + 8*size - 1 : 8*byte] of it (R12, R27, R402, R403, R490). -/
def readEffect (o : Origin) (a : RegAt) (d : Dev) : Dev :=
  match a.reg with
  | .pgStat => regSet .pgStat a.page 0 d
  | .ffStat => regSet .ffStat 0 0 d
  | .jnStat => regSetFld .jnStat 0 30 30 0 d
  | .auStat => regSetFld .auStat 0 30 29 0 d
  | .dswStat => regSet .dswStat a.idx 0 d
  | .srStat => srSet (ringOf a) { srGet d (ringOf a) with rderr := false, crverr := false, cfgerr := false } d
  | .crStat => crSet (ringOf a) { crGet d (ringOf a) with wrerr := false, dberr := false, vecerr := false, cfgerr := false } d
  | .cpStat => cpSet a.idx { cpGet d a.idx with sterr := false, semerr := false } d
  | .seNonce => if a.copy = 0 then newNonce o d else d
  | _ => d

/-- The holding register of DEVTIME's high word for an origin (R27): bit 32 says that it holds one. -/
def timHold (o : Origin) (v : Nat) (d : Dev) : Dev := regSet .tbTime (1 + originKey o) (BitVec.ofNat 64 v) d

/-- One read of `size` bytes of a register from byte `a.byte` on. -/
def readOne (o : Origin) (a : RegAt) (size : Nat) (d : Dev) : DWord × Dev :=
  if a.reg = .pgXkey then
    let (x, d) := freeNext d
    let c : BitVec 16 := BitVec.ofNat 16 x.toNat
    let v := regView d o a ||| (c.zeroExtend 64)
    let d := if a.ty = .tim then timHold o 0 d else d
    (v, { d with chals := d.chals.filter (fun y => !(decide (y.origin = o) && decide (y.page = a.page))) ++ [⟨o, a.page, c, d.devtime⟩] })
  else if a.reg = .tbTime ∧ size = 4 ∧ a.byte = 0 then
    (BitVec.ofNat 64 (d.devtime.toNat % 2 ^ 32), timHold o (2 ^ 32 + d.devtime.toNat / 2 ^ 32) d)
  else if a.reg = .tbTime ∧ size = 4 then
    let h := (regGet d .tbTime (1 + originKey o)).toNat
    (BitVec.ofNat 64 (if 2 ^ 32 ≤ h then h % 2 ^ 32 else d.devtime.toNat / 2 ^ 32), timHold o 0 d)
  else if a.reg = .cpCyc then
    let (x, d) := cycNow a.idx d
    (BitVec.ofNat 64 (x.toNat / 2 ^ (8 * a.byte) % 2 ^ (8 * size)), d)
  else
    -- A read of word 0 of the nonce makes the nonce that it shows.
    let d := if a.reg = .seNonce then readEffect o a d else d
    let v := BitVec.ofNat 64 ((regShown d o a).toNat / 2 ^ (8 * a.byte) % 2 ^ (8 * size))
    let d := if a.reg = .seNonce then d else readEffect o a d
    (v, if a.ty = .tim then timHold o 0 d else d)

/-- One read by an origin at an offset of a page: 0 with no side effect where R409 says so; in the TIM page it is another read of that
page (R27). -/
def readAt (o : Origin) (page off size : Nat) (d : Dev) : DWord × Dev :=
  let none_ := (0, if (pageOf page).map (·.1) = some PageTy.tim then timHold o 0 d else d)
  match regFind page off with
  | none => none_
  | some a => if mayRead d o a.ty && inLimits d o a then readOne o a size d else none_

/-- A read of BAR 0 of an allowed size (R400): an 8-byte read of a 64-bit register is one snapshot, of two registers two
reads in ascending order. -/
def barRead (o : Origin) (off size : Nat) (d : Dev) : DWord × Dev :=
  let page := off / 4096
  let x := off % 4096
  if size = 8 then
    match regFind page x with
    | some ⟨_, _, _, _, info, _, b⟩ =>
        if info.bytes = 8 ∧ b = 0 then readAt o page x 8 d
        else
          let (lo, d) := readAt o page x 4 d
          let (hi, d) := readAt o page (x + 4) 4 d
          (lo ||| (hi <<< 32), d)
    | none =>
        let (lo, d) := readAt o page x 4 d
        let (hi, d) := readAt o page (x + 4) 4 d
        (lo ||| (hi <<< 32), d)
  else readAt o page x size d

/-- Is an access to BAR 0 of an allowed size and alignment (R400)? An access of 4 or 8 bytes with a byte enable clear is none of them:
the command spells it with a size that is neither (log entry 111). -/
def sizeOk (off size : Nat) : Bool := (size = 4 || size = 8) && decide (off % size = 0) && decide (off < 0x4000000)

/-- The word of BAR 0 at an offset as the dump shows it (R12, R502): without side effects, every page and register as the
JTAG origin sees it while its reads are permitted. -/
def barPeek (d : Dev) (off : Nat) : Nat :=
  match regFind (off / 4096) (off % 4096) with
  | none => 0
  | some a => (regShown d .jtag a).toNat / 2 ^ (8 * a.byte) % 2 ^ 32

end Sys2Proof.Machine
end

