-- ==== Sys2Proof/Machine/ResOps.lean ====
section
/-!
DEFINITION. The shared-resource table (R417 to R421), expert mode (R411 to R414), the flags of a refused write (R403), and
the snapshot and pins of a subchannel's placement (R276, R280).
-/
namespace Sys2Proof.Machine

open Sys2Proof

/-! ### Shared resources -/

/-- Is INDEX in the range of a kind (R418)? -/
def resIndexOk (kind i : Nat) : Bool :=
  match kind with
  | 0 => decide (i < 16)
  | 1 => decide (i < 256)
  | 2 => decide (i = 0x100) || (decide (i < 256) && decide (i % 128 ≤ 64))
  | 3 => decide (i < 4096)
  | 4 => decide (4180 ≤ i ∧ i ≤ 8191)
  | _ => false

/-- Is ARG in the range of a kind (R418)? -/
def resArgOk (kind arg : Nat) : Bool :=
  match kind with
  | 0 => pinArgOk arg
  | 2 => decide (arg ≤ 4096)
  | _ => decide (arg = 0)

/-- XMOV of a function (R417). -/
def xmovOf (d : Dev) (f : FnId) : Bool := decide (regFld d .glFnPerm (fnKey f) 0 0 = 1)

/-- May an origin commit a resource (R418)? -/
def mayCommit (d : Dev) (o : Origin) (kind i : Nat) : Bool :=
  let c := originClass o
  match kind with
  | 0 => c = 4 || c = 1
  | 1 => decide (1 ≤ c ∧ c ≤ 4)
  | 2 =>
      if i = 0x100 then c = 1
      else c = 4 || c = 1
        || (match o with
            | .hostPf p => decide ((fnOfCode i).port = p)
            | .hostVf p v => decide (fnOfCode i = ⟨p, v⟩)
            | _ => false)
  | 3 => c = 4 || c = 1 || c = 0 || (match originFn o with | some f => xmovOf d f | none => false)
  | _ => c = 1

/-- May an origin release what another holds (R418)? -/
def mayRelease (o : Origin) (h : Holder) : Bool :=
  originClass o = 4
    || (match o, h with
        | .hostPf p, .fn f => decide (f.port = p) && decide (f.fn ≠ 0)
        | _, _ => false)

/-- HTYPE and HID of a holder (R419). -/
def holderCode (h : Holder) : Nat × Nat :=
  match h with
  | .fn f => (if f.fn = 0 then 0 else 1, f.port * 256 + f.fn)
  | .firmware => (4, 0xFFFF)
  | .bmc => (2, 0xFFFE)
  | .elfort => (3, 0)
  | .jtag => (5, 0)
  | .signpost => (6, 2)

/-- GL_RES_RSP for an origin: result and holder of a resource (R415, R419). -/
def resRspWord (d : Dev) (o : Origin) (kind i result : Nat) : DWord :=
  match commitOf d kind i with
  | none => BitVec.ofNat 64 (fieldN 27 24 0xF + result)
  | some c =>
      if originClass o = 2 && decide (c.holder ≠ holderOf o) then BitVec.ofNat 64 (fieldN 27 24 0xE + result)
      else
        let h := holderCode c.holder
        BitVec.ofNat 64 (fieldN 45 28 c.arg + fieldN 27 24 h.1 + fieldN 23 8 h.2 + result)

/-- What a commit does to its resource (R418); none where R224 refuses a scratch commit. -/
def commitEffect (kind i arg : Nat) (c : Commit) (d : Dev) : Option Dev :=
  let put := fun (d : Dev) => { d with commits := tins (tdel d.commits (resKey kind i)) (resKey kind i) c }
  match kind with
  | 0 => some (pinCommitted i (put d))
  | 2 => (scratchCommit i arg d).map put
  | _ => some (put d)

/-- What a release does to its resource (R418). -/
def releaseEffect (kind i : Nat) (d : Dev) : Dev :=
  let free := fun (d : Dev) => { d with commits := tdel d.commits (resKey kind i) }
  match kind with
  | 0 => free (pinReleased i d)
  | 1 => free (regSet .tmMiss i 0 (regSet .tmFires i 0 (regSet .tmCtl i 0 (regSet .tmPeriod i 0 (regSet .tmCmp i 0 d)))))
  | 2 => free (scratchRelease i d)
  | 3 => free (chSet i chReset (chDisable i d))
  | _ => free d

/-- Is a deep FIFO idle, so that its release is not BUSY (R418)? -/
def resBusy (d : Dev) (kind i : Nat) : Bool := kind = 4 && decide ((fifoParts d i).1 ≠ 0)

/-- A resource command (R418, R419): RESULT, and the device after it. -/
def resCommand (o : Origin) (op kind i arg : Nat) (d : Dev) : Nat × Dev :=
  if op = 3 || !(resIndexOk kind i) || (op = 0 && !(resArgOk kind arg)) then (3, d)
  else if op = 2 then (0, d)
  else
    let h := holderOf o
    match op, commitOf d kind i with
    | 1, none => (2, d)
    | 1, some c =>
        if decide (c.holder = h) || mayRelease o c.holder then
          (if resBusy d kind i then (5, d) else (0, releaseEffect kind i d))
        else (4, d)
    | _, some c =>
        if !(mayCommit d o kind i) then (4, d) else if c = ⟨h, arg⟩ then (0, d) else (1, d)
    | _, none =>
        if !(mayCommit d o kind i) then (4, d)
        else match commitEffect kind i arg ⟨h, arg⟩ d with
          | some d' => (0, d')
          | none => (1, d)

/-- A write of GL_RES_CMD: the command, its response for the origin, and the CONFLICT event; RESULT. -/
def resWriteCmd (o : Origin) (v : DWord) (d : Dev) : Nat × Dev :=
  let kind := bits v 27 24
  let i := bits v 15 0
  let (r, d) := resCommand o (bits v 31 30) kind i (bits v 49 32) d
  let d := { d with resRsp := tins (tdel d.resRsp (originKey o)) (originKey o) (resRspWord d o kind i r) }
  (r, if r = 1 then pageEvent 0 3 d else d)

/-! ### Refused writes (R403, R405) -/

/-- Set a bit of PG_STAT, and the matching event bit and counter of GLB (R403, R415): 31 DENY, 30 RSVW, 29 CFGERR,
28 XFAIL. A page that does not exist has no PG_STAT. -/
def pgFlag (page b : Nat) (d : Dev) : Dev :=
  let d := if (pageOf page).isSome then regSetFld .pgStat page b b 1 d else d
  match b with
  | 31 => pageEvent 0 0 (regBump .glDenyCnt 0 d)
  | 30 => pageEvent 0 1 (regBump .glRsvwCnt 0 d)
  | 29 => pageEvent 0 2 (regBump .glCfgerrCnt 0 d)
  | _ => pageEvent 0 4 (regBump .glXfailCnt 0 d)

/-- The records of a write of 4 or 8 bytes: one for each word, the upper one of 8 bytes marked HI (R400, R423). -/
def auditWords (o : Origin) (page x size : Nat) (new old : DWord) (flags : Nat) (d : Dev) : Dev :=
  let lo := fun (v : DWord) => BitVec.ofNat 32 v.toNat
  let hi := fun (v : DWord) => BitVec.ofNat 32 (v.toNat / 2 ^ 32)
  let d := auditPut o page (x / 4) 15 (lo new) (lo old) flags d
  if size = 8 then auditPut o page (x / 4 + 1) 15 (hi new) (hi old) (flags + 0x40) d else d

/-! ### Expert mode (R411 to R413) -/

/-- Modes whose idle time has passed close before the next write is judged (R413, R414). -/
def xExpire (d : Dev) : Dev :=
  let ms := regFld d .glXtmo 0 15 0
  if ms = 0 then d else xClose (fun m => decide (m.at_.toNat + ms * 1000000 ≤ d.devtime.toNat)) d

/-- Is expert mode open to an origin on a page? -/
def xOpen (d : Dev) (o : Origin) (page : Nat) : Bool := d.xmodes.any (fun m => decide (m.origin = o) && decide (m.page = page))

/-- An accepted write to the expert half restarts the idle time (R413). -/
def xTouch (o : Origin) (page : Nat) (d : Dev) : Dev :=
  { d with xmodes := d.xmodes.map (fun m => if m.origin = o ∧ m.page = page then { m with at_ := d.devtime } else m) }

/-- Is an origin allowed to open expert mode on a page type now (R411)? -/
def xAllowed (d : Dev) (o : Origin) (t : PageTy) : Bool :=
  inSet (pageXw t) (originClass o) && inSet (regFld d .glXpol 0 4 0) (originClass o)
    && (match originFn o with | some f => decide (regFld d .glFnPerm (fnKey f) 1 1 = 1) | none => true)
    && (decide (o ≠ .jtag) || decide (regFld d .glDbgpol 0 1 1 = 1))

/-- After a Fatal fault, BAR 0 writes from classes other than P and D are denied (R436). -/
def fatalShut (d : Dev) (o : Origin) : Bool :=
  decide (regFld d .rpStat 0 31 31 = 1) && decide (originClass o ≠ 4) && decide (originClass o ≠ 0)

/-- Check 2 of R405 for origins of class A and T, and for JTAG: WLOCK and JWR; and for every class after a Fatal fault. -/
def lockOk (d : Dev) (o : Origin) (page : Nat) : Bool :=
  let c := originClass o
  !((c = 2 || c = 3) && decide (regFld d .pgCtl page 0 0 = 1)) && !(decide (o = .jtag) && decide (regFld d .glDbgpol 0 1 1 = 0))
    && !(fatalShut d o)

/-- Does an open meet the procedure of R412: a challenge of this origin and page, at most 1 ms old, TYPE and RESP right,
and fewer than 8 other pages open? -/
def xProcedure (d : Dev) (o : Origin) (t : PageTy) (page : Nat) (v : Word) : Bool :=
  (match d.chals.find? (fun y => decide (y.origin = o) && decide (y.page = page)) with
   | none => false
   | some y => decide (d.devtime.toNat ≤ y.at_.toNat + 1000000)
       && decide (bits v 23 16 = pageTypeCode t) && decide (bits v 15 0 = (y.val ^^^ 0x9640#16).toNat))
    && decide ((d.xmodes.filter (fun m => decide (m.origin = o) && decide (m.page ≠ page))).length < 8)

/-- Drop the challenge of an origin for a page. -/
def dropChal (o : Origin) (page : Nat) (d : Dev) : Dev :=
  { d with chals := d.chals.filter (fun y => !(decide (y.origin = o) && decide (y.page = page))) }

/-- A write of PG_XKEY (R412, R413); the outcome is 0 accepted or 1 denied. -/
def xkeyWrite (o : Origin) (t : PageTy) (page : Nat) (v : Word) (d : Dev) : Nat × Dev :=
  let cmd := bits v 31 24
  let put := fun (flags : Nat) (d : Dev) => auditPut o page 3 15 v 0 flags d
  let d := xExpire d
  let ok := inSet (pageXw t) (originClass o) && lockOk d o page
  let d' := dropChal o page d
  if cmd = 0xA5 then
    if ok && xAllowed d o t && xProcedure d o t page v then
      let d' := put 0x20 d'
      (0, if xOpen d o page then d' else { d' with xmodes := d'.xmodes ++ [⟨o, page, d.devtime⟩] })
    else (1, pgFlag page 28 (pgFlag page 31 (put 0x21 d')))
  else if !ok then (1, pgFlag page 31 (put (if cmd = 0x5A then 0x21 else 1) d'))
  else if cmd = 0x5A ∧ xOpen d o page then
    let d' := put 0x20 d'
    (0, { d' with xmodes := d'.xmodes.filter (fun m => !(decide (m.origin = o) && decide (m.page = page))) })
  else (0, put 0x28 d')

/-! ### Placement snapshots and pins (R276, R280, R283) -/

/-- What the stream of a command holds (R256, R280): its upstream port, its path, its first mover channel and its bank set. -/
structure StreamView where
  port : Nat
  path : Nat
  chan : Option Nat
  banks : List Nat
  deriving DecidableEq, Repr

/-- The stream of the earliest command of a program that still runs (R280). -/
def streamNow (d : Dev) (n : Nat) : Option StreamView :=
  let s := subGet d n
  let chan := fun (who : StreamHolder) => (d.strChans.find? (fun y => decide (y.2 = (n, who)))).map (·.1)
  let ofRun := fun (r : Run) =>
    some ⟨r.port.getD 0, livePath d s ((r.paths.map (·.2)).headD (s.sgDown.getD s.dport)), chan (.run r.id), r.banks⟩
  match progOf d n with
  | none => none
  | some p => match p.grp.find? (fun r => r.ended.isNone), p.run, p.own, p.stage with
    | some r, _, _, _ => ofRun r
    | none, some r, _, _ => ofRun r
    | none, none, some o, _ =>
        some ⟨((streamPort d n o.segs).orElse (fun _ => p.lastPort)).getD 0, pathNow d s, chan .hand, tget d.bankSets n []⟩
    | none, none, none, .copying _ _ _ port => some ⟨port, pathNow d s, chan .hand, tget d.bankSets n []⟩
    | none, none, none, .waitMover c =>
        if c < Config.moverChannels then
          some ⟨((chGet d c).port).getD (portOf d (.sub n) (ownerOf s) (chImage (chGet d c)).toNat), pathNow d s, some c,
            tget d.bankSets (chanStream c) []⟩
        else none
    | _, _, _, _ => none

/-- SG_REC_SEL: the placement of a subchannel as it stands (R280); zeros for a T origin that does not own it. -/
def sgSnapshot (o : Origin) (n : Nat) (d : Dev) : Dev :=
  let s := subGet d n
  let hide := match o with | .hostVf p v => decide (subOwner s ≠ some ⟨p, v⟩) | _ => false
  let ok := originKey o
  let put := fun (a b c : Nat) (m : Nat) => regSet .sgRecBanks ok (BitVec.ofNat 64 m) (regSet .sgRec2 ok (BitVec.ofNat 64 c)
    (regSet .sgRec1 ok (BitVec.ofNat 64 b) (regSet .sgRec0 ok (BitVec.ofNat 64 a) d)))
  if hide || decide (Config.subchannels ≤ n) then put 0 0 0 0
  else
    let a := fieldN 31 31 s.pinned.toNat + fieldN 30 30 s.portPin.isSome.toNat + fieldN 29 29 (s.portPin.getD 0)
      + fieldN 28 28 s.pbrk.toNat + fieldN 27 27 s.mpend.isSome.toNat + fieldN 26 24 s.home + fieldN 15 0 s.slot
    let b := fieldN 31 16 s.migCnt
    match streamNow d n with
    | none => put a b 0 0
    | some v =>
        let c := fieldN 31 31 1 + fieldN 30 30 v.port + fieldN 29 29 (decide (v.path ≠ s.dport)).toNat
          + fieldN 28 24 v.path + fieldN 23 12 (v.chan.getD 0) + fieldN 11 11 v.chan.isSome.toNat
        put a b c (v.banks.foldl (fun m k => m + 2 ^ k) 0)

/-- SG_PIN_CTL.APPLY (R276): the pins of a subchannel, with a log record (R281). -/
def applyPin (n : Nat) (v : Word) (d : Dev) : Dev :=
  let s := subGet d n
  let hp := bit v 11
  let e := bits v 10 8
  let d := subSet n { s with pinned := hp, pbrk := false, mpend := if hp && decide (s.home ≠ e) then some e else none
                             portPin := if bit v 1 then some (bits v 0 0) else none } d
  sgLogPut 2 2 v.toNat n 0 d

/-- May an origin pin a subchannel (R276)? -/
def mayPin (d : Dev) (o : Origin) (n : Nat) : Bool :=
  match o with
  | .hostPf p => (match subOwner (subGet d n) with | some f => decide (f.port = p) | none => false)
  | _ => true

/-- A write of exclusions: functions whose exclusions were ignored and are kept to again are logged, and XBRK falls when
none is ignored any more (R270, R281). -/
def exclRestore (was : Dev) (d : Dev) : Dev := exclSweep was 4 d

end Sys2Proof.Machine
end

