-- ==== Sys2Proof/Machine/RegOps.lean ====
section
/-!
DEFINITION. Writes of BAR 0 (R400, R405 to R410, R422 to R424): for each page what a write of its registers does (step 4
and 5 of R405), the fixed order of checks with the audit record of each outcome, and the wait on a full feed.
-/
namespace Sys2Proof.Machine

open Sys2Proof

/-- What a register's own rules say of a write (R405): denied by its object rule, ignored with CFGERR, accepted with
nothing changed, or accepted. The function is what happens besides the flags and the record. -/
inductive WrRes where
  | denied (f : Dev → Dev)
  | cfgerr (f : Dev → Dev)
  | quiet
  | ok (f : Dev → Dev)

/-- The value a register keeps: without its self-clearing and write-only bits (R12). -/
def kept (a : RegAt) (v : DWord) : DWord := v &&& ~~~ (accMask a.info (fun x => x = .wo || x = .sc))

/-- A register takes the written value. -/
def store (d0 : Dev) (o : Origin) (a : RegAt) (v : DWord) (d : Dev) : Dev := regSet a.reg (regInst d0 o a) (kept a v) d

/-- The register takes a value when a condition on the origin holds; a write from another origin is denied. -/
def gate (p : Bool) (f : Dev → Dev) : WrRes := if p then .ok f else .denied id

/-- The write is ignored with CFGERR when a condition holds. -/
def unlessErr (bad : Bool) (r : WrRes) : WrRes := if bad then .cfgerr id else r

def isP (o : Origin) : Bool := originClass o = 4
def isF (o : Origin) : Bool := originClass o = 1
def isPf (o : Origin) (p : Nat) : Bool := decide (o = .hostPf p)
def plocked (d : Dev) : Bool := decide (regFld d .glPlock 0 0 0 = 1)

/-! ### The effects, page by page -/

/-- GLB (R416 to R419). -/
def effGlb (d : Dev) (o : Origin) (a : RegAt) (v : DWord) : WrRes :=
  let st := store d o a v
  match a.reg with
  | .glXpol =>
      gate (if plocked d then decide (o = .elfort) else isP o)
        (fun d => xClose (fun m => !(inSet (bits v 4 0) (originClass m.origin))) (st d))
  | .glXtmo => gate (isP o) st
  | .glPlock => if isP o then unlessErr (plocked d && !(bit v 0)) (.ok st) else .denied id
  | .glDbgpol => gate (decide (o = .elfort)) (store d o a (v &&& regView d o a))
  | .glFnPerm =>
      let f := selFn d o .glFnSel
      let may := if plocked d then decide (o = .elfort) else isP o || (isPf o f.port && decide (f.fn ≠ 0))
      if 64 < f.fn then (if may || (isPf o f.port && !(plocked d)) then .cfgerr id else .denied id)
      else gate may (fun d =>
        let was := regFld d .glFnPerm (fnKey f) 1 1
        let d := st d
        if was = 1 ∧ bit v 1 = false then xClose (fun m => decide (originFn m.origin = some f)) d else d)
  | .glResCmd =>
      let (r, d') := resWriteCmd o v d
      if r = 4 then .denied (fun d => { d with resRsp := d'.resRsp }) else .ok (fun d => (resWriteCmd o v d).2)
  | _ => .ok st

/-- SEC (R490). -/
def effSec (d : Dev) (o : Origin) (a : RegAt) (v : DWord) : WrRes :=
  let st := store d o a v
  let busy := decide (regFld d .seMbRsp (originKey o) 31 31 = 1)
  match a.reg with
  | .seMbCmd => unlessErr (busy && bit v 31) (.ok (fun d => if bit v 31 then mbGo o (bits v 7 0) (st d) else st d))
  | .seMbData => unlessErr busy (.ok st)
  | .seUpdpol => gate (!(plocked d) || decide (o = .elfort)) st
  | _ => .ok st

/-- WATCH_CLR (R253, R254): bit c clears MAX and OVR of class c. -/
def watchClear (mx ov : Reg) (k : Nat) (v : DWord) (d : Dev) : Dev :=
  (List.range 4).foldl (fun d c => if bit v c then regSet mx (k + c) 0 (regSet ov (k + c) 0 d) else d) d

/-- BLV and PLZ (R253, R254). -/
def effBlv (d : Dev) (o : Origin) (a : RegAt) (v : DWord) : WrRes :=
  match a.reg with
  | .blvWatchClr => .ok (watchClear .blvWatchMax .blvWatchOvr (4 * selOf d o .watchSel) v)
  | .rplLim => .ok (store d o a (if bits v 3 0 = 0 then 1 else v))
  | _ => .ok (store d o a v)

def effPlz (d : Dev) (o : Origin) (a : RegAt) (v : DWord) : WrRes :=
  match a.reg with
  | .plzWatchClr => .ok (watchClear .plzWatchMax .plzWatchOvr (4 * a.idx) v)
  | .pzQuota => .ok (fun d => qshortCheck (store d o a v d))
  | _ => .ok (store d o a v)

/-- Would an exclusion of `own` and `all` leave no bank (R277)? -/
def leavesNone (d : Dev) (own all : DWord) : Bool :=
  ((List.range 64).filter (bankUp d)).all (fun b => bit own b || bit all b)

/-- SGN (R276 to R283). -/
def effSgn (d : Dev) (o : Origin) (a : RegAt) (v : DWord) : WrRes :=
  let st := store d o a v
  let logged := fun (d : Dev) => { d with sgWritten := d.sgWritten ++ [regKey a.reg (regInst d o a)] }
  match a.reg with
  | .sgAffBase | .sgAffLimit | .sgAffCtl => gate (isP o || isPf o (selOf d o .sgAffSel / 32)) st
  | .sgPinCtl =>
      let n := selOf d o .sgPinSub
      if bit v 31 then
        gate (mayPin d o n) (fun d => if n < Config.subchannels then applyPin n (v.truncate 32) (st d) else st d)
      else .ok st
  | .sgExcl =>
      let f := selFn d o .sgFnSel
      if isP o || isF o || isPf o f.port then
        unlessErr (leavesNone d v (regGet d .sgExclAll 0))
          (.ok (fun d => exclRestore d (sgLogPut 3 4 v.toNat (fnCode f) 0 (st d))))
      else .denied id
  | .sgExclAll =>
      unlessErr ((List.range 130).any (fun k => leavesNone d (regGet d .sgExcl (fnCode ⟨k / 65, k % 65⟩)) v))
        (.ok (fun d => exclRestore d (sgLogPut 3 4 v.toNat 0xFFFFFFFF 0 (st d))))
  | .sgW | .sgH => .ok (fun d => logged (sgLogPut 4 4 v.toNat (a.info.off + 4 * a.copy) 0 (st d)))
  | .sgMovRange => unlessErr (decide (bits v 11 0 < bits v 27 16)) (.ok (fun d => logged (st d)))
  | .sgBset | .sgRebal => .ok (fun d => logged (st d))
  | _ => .ok st

/-- JCT (R366, R370, R377, R388, R392). A write that names a source it may not is ignored and counted. -/
def effJct (d : Dev) (o : Origin) (a : RegAt) (v : DWord) : WrRes :=
  let n := bits v 13 0
  let sel := selOf d o .srcSel
  let k := srcKind n
  let act := fun (good : Bool) (f : Dev → Dev) => if good then WrRes.ok f else WrRes.cfgerr f
  match a.reg with
  | .setPend => act (k = .edge) (doSetPend n)
  | .clrPend => act (k = .edge || k = .privileged) (doClrPend n)
  | .setEn => act (k ≠ .reserved) (doSetEn n)
  | .clrEn => act (k ≠ .reserved && k ≠ .privileged) (doClrEn n)
  | .srcTgt =>
      if srcKind sel = .reserved then .cfgerr (doSrcTgt sel v)
      else unlessErr (srcOwnCp sel).isSome (.ok (doSrcTgt sel v))
  | .srcCtl =>
      if srcKind sel = .reserved then .cfgerr (doSrcCtl sel (bit v 0))
      else unlessErr ((srcOwnCp sel).isSome || srcKind sel = .privileged) (.ok (doSrcCtl sel (bit v 0)))
  | .grpHoldoff =>
      let g := selOf d o .grpSel
      unlessErr (decide (g = 254)) (.ok (fun d =>
        let x := grpGet d g
        grpSet g { x with holdoff := bits v 15 0, run := x.run && decide (bits v 15 0 ≠ 0) } d))
  | _ => .ok (store d o a v)

/-- DFF (R249, R250, R255). -/
def effDff (d : Dev) (o : Origin) (a : RegAt) (v : DWord) : WrRes :=
  let n := selOf d o .ffSel
  let count := (fifoParts d n).1
  match a.reg with
  | .ffCfg =>
      let m := bits v 4 0
      let pf := decide (n < 4096) && (match ownOf (crGet d n).own with | some f => isPf o f.port | none => false)
      if !(isF o || pf) then .denied id
      else if !(m = 0 || (decide (4 ≤ m) && decide (m ≤ 20))) || decide (count ≠ 0) then .cfgerr id
      else if poolFree d + middleCap (regFld d .ffCfg n 4 0) < middleCap m then
        .cfgerr (fun d => pageEvent 5 0 (regSetFld .ffStat 0 31 31 1 d))
      else .ok (store d o a v)
  | .ffHwm => .ok (regSet .ffHwm n (BitVec.ofNat 64 count))
  | _ => .ok (store d o a v)

/-- JNL (R452, R458). -/
def effJnl (d : Dev) (o : Origin) (a : RegAt) (v : DWord) : WrRes :=
  match a.reg with
  | .jnMark => .ok (jput { jblank 0x0C deviceWide with arg := v.truncate 32 })
  | _ => .ok (store d o a v)

/-- The export registers of AUD (R428, R430). -/
def effAud (d : Dev) (o : Origin) (a : RegAt) (v : DWord) : WrRes :=
  let st := store d o a v
  let en := decide (regFld d .auExpCtl 0 31 31 = 1)
  let may := match o with | .hostPf p => !en || decide (regFld d .auExpCtl 0 7 7 = p) | _ => true
  match a.reg with
  | .auExpBase => if may then unlessErr (en && decide (v ≠ regGet d .auExpBase 0)) (.ok st) else .denied id
  | .auExpCtl =>
      if !may || (match o with | .hostPf p => decide (bits v 7 7 ≠ p) | _ => false) then .denied id
      else if bits v 6 0 ≠ 0 then .cfgerr id
      else
        let v := if 11 < bits v 27 24 then setBits v 27 24 11 else v
        .ok (fun d =>
          let d := store d o a v d
          if !en && bit v 31 then { regSet .auExpNext 0 (regGet d .auExpStart 0) d with auPhase := true } else d)
  | _ => gate may st

/-- TIM (R531 to R534). -/
def effTim (d : Dev) (o : Origin) (a : RegAt) (v : DWord) : WrRes :=
  let st := store d o a v
  match a.reg with
  | .tmCmp | .tmPeriod | .tmCtl => gate (isP o || isF o || holds d o 1 (selOf d o .tmSel)) st
  | .tmGpioSet => .ok (gpioWrite true (holds d o 0) v.toNat)
  | .tmGpioClr => .ok (gpioWrite false (holds d o 0) v.toNat)
  | .tbCtl => unlessErr (decide (bits v 31 30 = 3)) (.ok (store d o a (if bits v 15 0 = 0 then setBits v 15 0 1 else v)))
  | .tbSlew => .ok (store d o a (if bits v 9 0 = 0 then 1 else v))
  | _ => .ok st

/-- HBM and THM (R466, R558). -/
def effHbm (d : Dev) (o : Origin) (a : RegAt) (v : DWord) : WrRes :=
  .ok (store d o a (if bits v 15 0 = 0 then setBits v 15 0 1 else v))

def effThm (d : Dev) (o : Origin) (a : RegAt) (v : DWord) : WrRes :=
  match a.reg with
  | .thThrot => .ok (store d o a (if 0x690 < tjOf (bits v 15 0) then 0x690 else v))
  | .thPlim => .ok (store d o a (BitVec.ofNat 64 (max 60 (min 240 (bits v 15 0)))))
  | .thGate => .ok (store d o a (if bits v 7 0 = 0 then setBits v 7 0 1 else v))
  | _ => .ok (store d o a v)

/-- A fault injected into a unit (R464): it follows the rules of a real one and consumes no spare; its unit returns to
service at the next rotation. An instance that the unit does not have is not injected. -/
def injectFault (unit inst : Nat) (d : Dev) : Dev :=
  if lget [0, 72, 8, 64, 40, 6, 128, 8] unit 0 ≤ inst then d
  else
    let x := { d with injecting := true }
    let mark := fun (p : Bool) (d : Dev) => if p then { d with injected := d.injected ++ [(unit, inst)] } else d
    let y := match unit with
      | 1 => cpFail inst false true x
      | 2 => bankCtxFault inst false true x
      | 3 => mark (decide (bankState d inst = 0)) (bankFault inst .bank x)
      | 4 => mark (!(d.blvBad.contains inst)) (boulevardFail inst x)
      | 5 => mark (!(d.laneBad.contains inst)) (laneFault inst x)
      | 6 => mark (decide (regFld d .avStat (inst / 16) (inst % 16) (inst % 16) = 0)) (retireLane (inst / 16) (inst % 16) x)
      | _ => mark (decide (regFld d .dsStat inst 26 26 = 0)) (clockFault inst x)
    { y with injecting := false }

/-- RPR (R464). -/
def effRpr (d : Dev) (o : Origin) (a : RegAt) (v : DWord) : WrRes :=
  let st := store d o a v
  match a.reg with
  | .rpInj =>
      let u := bits v 27 20
      if u = 0 ∨ 7 < u then .cfgerr id
      else if bit v 31 then
        unlessErr (decide (regFld d .rpPol 0 1 1 = 0)) (.ok (fun d => injectFault u (bits v 19 0) (st d)))
      else .ok st
  | _ => .ok st

/-- DB_CPREG (R508, R509): a register of the bank in use of a stopped CP. -/
def cpRegSet (i : Nat) (v : Word) (c : Cp) : Cp :=
  if i < 32 then gWrite i v c
  else if i = 32 then lkWrite v c
  else if i = 33 then { c with pc := v }
  else srRestore v c

/-- DBG (R491, R506 to R509). -/
def effDbg (d : Dev) (o : Origin) (a : RegAt) (v : DWord) : WrRes :=
  let st := store d o a v
  let i := selOf d o .dbCpsel
  match a.reg with
  | .dbSwtrace => (match o with
      | .cp k => .ok (traceEvent 6 (some (originId o)) v.toNat (cpidWord k).toNat)
      | _ => .denied id)
  | .dbCntSel => unlessErr (decide (0x0A < bits v 7 0)) (.ok st)
  | .dbSnap =>
      if bit v 0 then .ok (fun d => (List.range 8).foldl (fun d i => regSet .dbSnapCnt i (regGet d .dbCnt i) d) d)
      else .quiet
  | .fzCtl => if bit v 31 then .ok (fzAssert 2 true) else .quiet
  | .dbCpctl =>
      if bit v 31 ∧ (cpGet d i).halted = true then .ok (cpMod i (fun c => { c with run := .run, halted := false })) else .quiet
  | .dbCpreg =>
      if originClass o ≠ 0 then .denied id
      else unlessErr (!(cpGet d i).halted) (.ok (cpMod i (cpRegSet a.copy (v.truncate 32))))
  | _ => .ok st

/-- MAXSPD 0 and 7 read back as 6 (R519, R530). -/
def maxSpd (v : DWord) (hi lo : Nat) : DWord := if bits v hi lo = 0 ∨ bits v hi lo = 7 then setBits v hi lo 6 else v

/-- UPT (R515, R519): a class A origin writes only the page of its own port. -/
def effUpt (d : Dev) (o : Origin) (a : RegAt) (v : DWord) : WrRes :=
  let st := store d o a v
  let mine := originClass o ≠ 3 || isPf o a.idx
  match a.reg with
  | .upVfvec =>
      if !mine then .denied id
      else unlessErr (decide (bits v 11 0 = 0) || decide (2048 < bits v 11 0) || (fnGet d ⟨a.idx, 0⟩).vfEnable) (.ok st)
  | .upFnpasid => gate (isP o || isF o || isPf o a.idx) st
  | .upMctp => gate (isP o) st
  | .upLctl => gate mine (store d o a (maxSpd v 30 28))
  | .upAtc => if !mine then .denied id else if bit v 31 then .ok (atcFlush a.idx) else .quiet
  | _ => gate mine st

/-- AVE (R520, R529). -/
def effAve (d : Dev) (o : Origin) (a : RegAt) (v : DWord) : WrRes :=
  unlessErr (decide (bits v 31 30 = 3) || (decide (bits v 31 30 ≠ regFld d .avCfg a.idx 31 30) && !(bifFree d a.idx)))
    (.ok (store d o a v))

/-- A write of DP_CTL (R520, R526, R527, R530): what each field that changes or acts does. -/
def dpCtlWrite (p : Nat) (old v : DWord) (d : Dev) : Dev :=
  let d := if bit v 31 = bit old 31 then d else dpDisable p (bit v 31) d
  let d := if bit v 23 = bit old 23 then d else slotPower p (bit v 23) d
  let d := if bit v 22 then dpRelease p d else d
  if bit v 30 then dpRetrain p d else d

/-- DPT (R526 to R530). -/
def effDpt (d : Dev) (o : Origin) (a : RegAt) (v : DWord) : WrRes :=
  match a.reg with
  | .dpCtl =>
      let v := maxSpd v 29 27
      .ok (fun d => clkNote d (dpCtlWrite a.idx (regGet d .dpCtl a.idx) v (store d o a v d)))
  | .dpCto => unlessErr (decide (bits v 31 0 < 50)) (.ok (store d o a v))
  | .dpLretry =>
      if bit v 0 then .ok (fun d => { d with lretry := (d.lretry.filter (· ≠ a.idx)) ++ [a.idx] }) else .quiet
  | _ => .ok (store d o a v)

/-- DST (R460, R461, R465). -/
def effDst (d : Dev) (o : Origin) (a : RegAt) (v : DWord) : WrRes :=
  let st := store d o a v
  match a.reg with
  | .dsRotCtl => .ok (fun d =>
      if bit v 31 then rotateNow a.idx (st d) else st d)
  | .dsFcap => .ok (fun d =>
      let d := st d
      if dsCeiling d a.idx < regFld d .dsFreq a.idx 15 0 then regSetFld .dsFreq a.idx 15 0 (dsCeiling d a.idx) d else d)
  | _ => .ok st

/-- May an origin write the registers of channel c (R178, R406)? -/
def mayChan (d : Dev) (o : Origin) (c : Nat) : Bool :=
  (match commitOf d 3 c with
   | none => false
   | some x => if x.holder = .signpost then isF o else decide (x.holder = holderOf o))
    && (match originFn o with | some f => xmovOf d f | none => true)

/-- May an origin name an owner in CH_CFG (R406)? -/
def mayName (o : Origin) (port fn : Nat) : Bool :=
  match o with
  | .hostPf p => decide (port = p) && decide (fn ≤ 64)
  | .hostVf p v => decide (port = p) && decide (fn = v)
  | _ => true

/-- Does a value of CH_LINK name a channel with another owner (R209): TNUM where TSRC is an event of a channel, ETGT where EVR routes an
event to it? -/
def linksAway (d : Dev) (x : Chan) (w : Word) : Bool :=
  let other := fun (c : Nat) => decide (chOwner (chGet d c) ≠ chOwner x)
  (decide (2 ≤ bits w 14 12) && other (bits w 11 0)) || (decide (bits w 31 28 ≠ 0) && other (bits w 27 16))

/-- MOV (R178, R180, R181, R211, R217). -/
def effMov (d : Dev) (o : Origin) (a : RegAt) (v : DWord) : WrRes :=
  let c := chanOf a
  let x := chGet d c
  let busy := decide (x.st = .run ∨ x.st = .wait)
  let w : Word := v.truncate 32
  if !(mayChan d o c) then .denied id
  else match a.reg with
  | .chCtl => .ok (chCtlWrite c w)
  | .chCfg =>
      if mayName o (bits v 7 7) (bits v 6 0) then
        unlessErr busy (.ok (fun d => rbtClass c (bits w 28 27) (chSet c { x with cfg := if 4 < bits w 26 24 then setBits w 26 24 4 else w } d)))
      else .denied id
  | .chProg => unlessErr busy (.ok (chSet c { x with prog := v, sig := 0 }))
  | .chBuf => unlessErr busy (.ok (chSet c { x with buf := w }))
  | .chLink => if 6 ≤ bits w 14 12 || linksAway d x w then .denied id else unlessErr busy (.ok (chSet c { x with link := w }))
  | _ => .ok (store d o a v)

/-- May an origin write a ring's block, other than its OWN register, and a CR_CTL in which it sets EN (R174)? -/
def mayRing (o : Origin) (own : Word) : Bool :=
  match ownOf own with
  | none => false
  | some f => decide (originFn o = some f) || isPf o f.port

/-- RNG (R172 to R174). -/
def effRng (d : Dev) (o : Origin) (a : RegAt) (v : DWord) : WrRes :=
  let n := ringOf a
  let s := srGet d n
  let c := crGet d n
  let w : Word := v.truncate 32
  let owns := isP o || isPf o (bits v 7 7)
  let sr := fun (bad : Bool) (f : Dev → Dev) =>
    if !(mayRing o s.own) then WrRes.denied id else if bad then .cfgerr (srCfgErr n) else .ok f
  let cr := fun (bad : Bool) (f : Dev → Dev) =>
    if !(mayRing o c.own) then WrRes.denied id else if bad then .cfgerr (crCfgErr n) else .ok f
  match a.reg with
  | .srBase => sr (srLocked d n v s.shadow s.ctl s.own) (srBaseWrite n v)
  | .srShadow => sr (srLocked d n s.base v s.ctl s.own) (srShadowWrite n v)
  | .srCtl => sr (srLocked d n s.base s.shadow w s.own) (srCtlWrite n w)
  | .srOwn =>
      if !owns then .denied id
      else if srLocked d n s.base s.shadow s.ctl w then .cfgerr (srCfgErr n) else .ok (srOwnWrite n w)
  | .crBase => cr (crLocked d n v c.ctl c.own) (crBaseWrite n v)
  | .crCtl =>
      if isP o && (ownOf c.own).isSome && bit w 31 && decide (clampSize w = setBit c.ctl 31 true) then .ok (crCtlWrite n w)
      else cr (crLocked d n c.base w c.own) (crCtlWrite n w)
  | .crOwn =>
      if !owns then .denied id
      else if crLocked d n c.base c.ctl w || crOwnBusy d n then .cfgerr (crCfgErr n) else .ok (crOwnWrite n w)
  | .crMod => cr false (crModWrite n w)
  | _ => .ok id

/-- The header (R389, R390, R407, R413). Reserved event bits stay 0. -/
def effHdr (d : Dev) (o : Origin) (a : RegAt) (v : DWord) : WrRes :=
  match a.reg with
  | .evtPending | .evtEnable =>
      .ok (fun d => pageSummary a.page (store d o a (v &&& BitVec.ofNat 64 (evtMask a.ty a.idx)) d))
  | .pgCtl =>
      let shut := bit v 1 && d.xmodes.any (fun m => m.page = a.page)
      let close := fun (d : Dev) => if bit v 1 then xClose (fun m => m.page = a.page) d else d
      if isP o then .ok (fun d => close (store d o a v d)) else if shut then .ok close else .quiet
  | _ => .ok (store d o a v)

/-- Steps 4 and 5 of R405 for a register. -/
def regEffect (d : Dev) (o : Origin) (a : RegAt) (v : DWord) : WrRes :=
  if a.info.page = .hdr then effHdr d o a v
  else match a.ty with
  | .hdr => .quiet
  | .glb => effGlb d o a v
  | .sec => effSec d o a v
  | .blv => effBlv d o a v
  | .sgn => effSgn d o a v
  | .jct => effJct d o a v
  | .dff => effDff d o a v
  | .jnl => effJnl d o a v
  | .aud => effAud d o a v
  | .tim => effTim d o a v
  | .hbm => effHbm d o a v
  | .thm => effThm d o a v
  | .rpr => effRpr d o a v
  | .dbg => effDbg d o a v
  | .upt => effUpt d o a v
  | .ave => effAve d o a v
  | .dst => effDst d o a v
  | .dpt => effDpt d o a v
  | .plz => effPlz d o a v
  | .mov => effMov d o a v
  | .cpc => .ok (store d o a v)
  | .rng => effRng d o a v

/-! ### Selections (R408) -/

/-- The words of a record appear in the DATA registers of an origin; zeros and the stale bit where there is none (R282,
R427, R458, R506). -/
def loadWords (o : Origin) (r : Reg) (count : Nat) (v : Nat) (d : Dev) : Dev :=
  (List.range count).foldl (fun d i => regSet r (originKey o * count + i) (BitVec.ofNat 64 (v / 2 ^ (32 * i) % 2 ^ 32)) d) d

/-- What a write of a selection register does besides selecting (R280, R282, R427, R456, R458, R506). -/
def selEffect (o : Origin) (r : Reg) (v : DWord) (d : Dev) : Dev :=
  let key := 1000 + originKey o
  match r with
  | .sgRecSel => sgSnapshot o (bits v 19 0) d
  | .sgLogRd =>
      let x := sgLogFind d v.toNat
      regSetFld .sgStat key 28 28 x.isNone.toNat (loadWords o .sgLogData 8 ((x.getD 0).toNat) d)
  | .auRd =>
      let x := auditFind d v.toNat
      regSetFld .auStat key 31 31 x.isNone.toNat (loadWords o .auData 8 ((x.getD 0).toNat) d)
  | .trRd => loadWords o .trData 8 (((traceFind d v.toNat).getD 0).toNat) d
  | .jnRd =>
      let x := jfind d v.toNat
      let scope := match o with | .hostPf p => some ⟨p, 0⟩ | _ => none
      let w := jshow scope d v.toNat
      let d := loadWords o .jnData 16 w.toNat d
      let d := regSetFld .jnStat key 31 31 x.isNone.toNat d
      if bits w 135 128 = 0xFE then regBump .jnLost 0 d else d
  | _ => d

/-! ### The checks (R405) -/

/-- The classes that may write a register (R406, R407). -/
def writers (a : RegAt) (x : Nat) : Nat :=
  match a.reg with
  | .evtPending | .evtEnable => if a.ty = .dbg then 0x13 else 0x12
  | .pgCtl => 0x12
  | _ => if 0x800 ≤ x then pageXw a.ty else pageBw a.ty

/-- A write that is not audited when it is accepted, besides those of selection registers (R422). -/
def unaudited (d : Dev) (o : Origin) (a : RegAt) : Bool :=
  decide (a.reg = .evtPending) || decide (a.reg = .auExpCons)
    || (decide (a.ty = .mov) && decide (a.info.page = .mov) && isF o
        && decide ((commitOf d 3 (chanOf a)).map (·.holder) = some .signpost))

/-- One write of BAR 0 (R405; a register whose fields are all RO passes every check): the outcome, 0 accepted, 1 denied, 2 reserved, and the device after it. -/
def barWrite1 (o : Origin) (page x size : Nat) (val : DWord) (d : Dev) : Nat × Dev :=
  let half := decide (0x800 ≤ x)
  let xf := if half then 0x10 else 0
  let drop := fun (d : Dev) => if x = 0x00C then d else dropChal o page d
  match regFind page x with
  | none =>
      (2, pgFlag page 30 (auditWords o page x size val 0 (2 + (if (pageOf page).isSome then xf else 0)) (drop d)))
  | some a =>
      if a.reg = .pgXkey then xkeyWrite o a.ty page (val.truncate 32) d
      else
        let d := drop d
        let shown := regShown d o a
        let old : DWord := BitVec.ofNat 64 (shown.toNat / 2 ^ (8 * a.byte) % 2 ^ (8 * size))
        let acc : DWord := writeMask a.info &&& BitVec.ofNat 64 (fieldN (8 * (a.byte + size) - 1) (8 * a.byte) (2 ^ 64 - 1))
        let v := (shown &&& ~~~ acc) ||| ((val <<< (8 * a.byte)) &&& acc)
        let put := fun (fl : Nat) (d : Dev) => auditWords o page x size val old (fl + xf) d
        let deny := fun (f : Dev → Dev) (d : Dev) => (1, f (pgFlag page 31 (put 1 d)))
        if isSelection a.reg then
          let open_ := a.reg = .sgPinSub || a.reg = .sgFnSel
          let d := if open_ then xExpire d else d
          if mayRead d o a.ty && !(fatalShut d o) && (!open_ || xOpen d o page) then
            let d := if open_ then xTouch o page d else d
            (0, selEffect o a.reg v (regSet a.reg (regInst d o a) v d))
          else deny id d
        else
          let d := if half then xExpire d else d
          if writeMask a.info = 0 then (0, (if half then xTouch o page else id) (put 8 d))
          else if !(inSet (writers a x) (originClass o) && lockOk d o page) then deny id d
          else if half && !(xOpen d o page) then deny id d
          else
            let touch := fun (d : Dev) => if half then xTouch o page d else d
            match regEffect d o a v with
              | .denied f => deny f d
              | .cfgerr f => (0, touch (f (pgFlag page 29 (put 8 d))))
              | .quiet => (0, touch (put 8 d))
              | .ok f => (0, touch (f (if unaudited d o a then d else put 0 d)))

/-- A write of BAR 0 whose record can enter the feed (R400, R405): the outcome (3: the wrong size), and the device. One of the wrong size is a
write of its origin to the page all the same, which ends a challenge (R412). -/
def barWriteNow (o : Origin) (off size : Nat) (val : DWord) (d : Dev) : Nat × Dev :=
  let page := off / 4096
  let x := off % 4096
  if !(sizeOk off size) || (decide (page = 0) && decide (size = 4) && (decide (x = 0x80) || decide (x = 0x84))) then
    let d := auditPut o page (x / 4) (2 ^ min 4 size - 1) (BitVec.ofNat 32 val.toNat) 0 4 (dropChal o page d)
    (3, pageEvent 0 1 (regBump .glRsvwCnt 0 d))
  else if size = 4 then barWrite1 o page x 4 (BitVec.ofNat 64 (val.toNat % 2 ^ 32)) d
  else
    let whole := match regFind page x with | some a => decide (a.info.bytes = 8) && decide (a.byte = 0) | none => false
    if whole || ((regFind page x).isNone && (regFind page (x + 4)).isNone) then barWrite1 o page x 8 val d
    else
      let (c, d) := barWrite1 o page x 4 (BitVec.ofNat 64 (val.toNat % 2 ^ 32)) d
      let (e, d) := barWrite1 o page (x + 4) 4 (BitVec.ofNat 64 (val.toNat / 2 ^ 32)) d
      (max c e, d)

/-! ### Accesses, their answers, and the full feed (R424, R537) -/

/-- The answer to a write: only the BMC's is answered (R537). -/
def writeAnswer (o : Origin) (code : Nat) (d : Dev) : Dev :=
  match o with
  | .bmc p => emit (.sideband p [1, 0x91, 0, BitVec.ofNat 8 code]) d
  | _ => d

/-- The answer to a read (R400, R537). -/
def readAnswer (o : Origin) (v : DWord) (d : Dev) : Dev :=
  match o with
  | .bmc p => emit (.sideband p ([1, 0x90, 0, 0] ++ leBytes 8 v.toNat)) d
  | .jtag => emit (.tdo 96 (v.zeroExtend 128)) d
  | _ => emit (.regValue o v) d

/-- Must a write leave a record in the audit log if it is accepted (R422)? -/
def needsRecord (off : Nat) : Bool :=
  match regFind (off / 4096) (off % 4096) with
  | none => true
  | some a => !(isSelection a.reg || decide (a.reg = .evtPending) || decide (a.reg = .auExpCons))

/-- Does a write wait: the feed is full, or an earlier write of its origin to its page waits (R424)? -/
def mustWait (d : Dev) (o : Origin) (off : Nat) : Bool :=
  d.auWait.any (fun w => !w.rd && decide (w.origin = o) && decide (w.off / 4096 = off / 4096))
    || (needsRecord off && decide (feedCap d 4177 ≤ d.auFeed))

/-- A write of BAR 0 (R405, R424). -/
def barWrite (o : Origin) (off size : Nat) (val : DWord) (d : Dev) : Dev :=
  if mustWait d o off then
    { regSetFld .auStat 0 29 29 1 d with auWait := d.auWait ++ [⟨false, o, off, size, val⟩] }
  else
    let (c, d) := barWriteNow o off size val d
    writeAnswer o c d

/-- A read of BAR 0 with its answer (R400, R424): behind a waiting write of its origin it waits. -/
def barReadOp (o : Origin) (off size : Nat) (d : Dev) : Dev :=
  if !(sizeOk off size) then
    match o with
    | .bmc p => emit (.sideband p [1, 0x90, 1]) d
    | _ => emit (.unsupported o) d
  else if d.auWait.any (fun w => !w.rd && decide (w.origin = o)) then
    { d with auWait := d.auWait ++ [⟨true, o, off, size, 0⟩] }
  else
    let (v, d) := barRead o off size d
    readAnswer o v d

/-- AUDIT_WRITE_RESUME (R424): the feed has emptied; the accesses that wait go on in order. -/
def auditResume (d : Dev) : Dev :=
  d.auWait.foldl (fun d w => if w.rd then barReadOp w.origin w.off w.size d else barWrite w.origin w.off w.size w.val d)
    { d with auFeed := 0, auWait := [] }

/-- The BAR 0 offset of copy k of a register of page `page`. -/
def offOf (page : Nat) (t : PageTy) (r : Reg) (k : Nat) : Nat :=
  match (regsHdr ++ pageRegs t).find? (fun e => e.1 = r) with
  | none => 0
  | some (_, i) => 4096 * page + i.off + i.stride * k

/-- A write of one whole register of 4 or 8 bytes, as the rows that name a register make it. -/
def write32 (o : Origin) (page off : Nat) (v : Word) : Dev → Dev := barWrite o (4096 * page + off) 4 (v.zeroExtend 64)
def write64 (o : Origin) (page off : Nat) (v : DWord) : Dev → Dev := barWrite o (4096 * page + off) 8 v

end Sys2Proof.Machine
end

