-- ==== Sys2Proof/Machine/CpMem.lean ====
section
/-!
DEFINITION. Loads and stores of a channel processor (R290 to R296, R304, R308, R309, R380) and the accesses they make to
Plaza, registers, Junction, semaphores and apertures.
-/
namespace Sys2Proof.Machine

open Sys2Proof

/-! ### The local address space (R290, R291, R294) -/

/-- What a local address names: IRAM or DRAM (by local address), the context bank (byte offset), a Plaza byte offset, a
BAR 0 offset, the Junction interface, a word of a semaphore pair, a word of the aperture descriptors, host memory of a
function, memory below a root port; or a target that no access reaches. -/
inductive CpTarget where
  | iram (a : Nat)
  | dram (a : Nat)
  | bank (off : Nat)
  | plaza (off : Nat)
  | page (off : Nat)
  | junction (off : Nat)
  | sem (k : Nat) (rel : Bool)
  | desc (off : Nat)
  | host (fn : FnId) (addr : DWord)
  | port (p : Nat) (addr : DWord)
  | lost
  deriving DecidableEq, Repr

/-- May a handler access [a, a + n) of DRAM: it lies in the pack data window or in the operation window (R290). -/
def dramWindow (c : Cp) (a n : Nat) : Bool :=
  (decide (c.hdlo.toNat ≤ a) && decide (a + n ≤ c.hdhi.toNat)) || (decide (c.holo.toNat ≤ a) && decide (a + n ≤ c.hohi.toNat))

/-- The Plaza byte that an offset of an aperture of kind 2 names: of aperture 10 while an entry runs, a byte of the
command's reservations (R336), else TADDR plus the offset. -/
def aperPlaza (d : Dev) (c : Cp) (k : Nat) (x : QWord) (off : Nat) : CpTarget :=
  if k = 10 ∧ c.serve.isSome = true then
    match (c.serve.bind (fun s => progOf d s.sub)).bind (·.own) with
    | some o => (match apPage o off with | some a => .plaza a | none => .lost)
    | none => .lost
  else if apTaddr x + off < 0x4000000 then .plaza (apTaddr x + off) else .lost

/-- What an access through aperture k reaches (R294); none is an access fault. -/
def aperTarget (d : Dev) (c : Cp) (k off size : Nat) (store : Bool) : Option CpTarget :=
  let x := lget c.apert k 0
  let addr : DWord := BitVec.ofNat 64 (apTaddr x + off)
  if apValid x = false ∨ apLim x < off + size ∨ (store = true ∧ bit x 28 = true) then none
  else match apKind x with
    | 0 => some (.host ⟨bits x 7 7, bits x 6 0⟩ addr)
    | 1 => if size = 4 ∨ size = 8 then some (.port (bits x 12 8) addr) else none
    | 2 => some (aperPlaza d c k x off)
    | _ => none

/-- What an aligned access reaches (R290, R291); none is an access fault. -/
def cpTarget (d : Dev) (c : Cp) (a size : Nat) (store : Bool) : Option CpTarget :=
  let m := cpBase c
  if a < 0x20000 then
    if m || (!store && decide (0x8000 ≤ a)) then some (.iram a) else none
  else if 0x10000000 ≤ a ∧ a < 0x10020000 then
    if m || dramWindow c a size then some (.dram a) else none
  else if 0x80000000 ≤ a then
    let k := (a - 0x80000000) / 0x8000000
    if m || decide (8 ≤ k) then aperTarget d c k (a % 0x8000000) size store else none
  else if m = false then none
  else if 0x20000000 ≤ a ∧ a < 0x20400800 then (if store then none else some (.bank (a - 0x20000000)))
  else if 0x40000000 ≤ a ∧ a < 0x44000000 then some (.plaza (a - 0x40000000))
  else if 0x60000000 ≤ a ∧ a < 0x64000000 then (if size = 4 ∨ size = 8 then some (.page (a - 0x60000000)) else none)
  else if size ≠ 4 then none
  else if 0x70000000 ≤ a ∧ a < 0x70001000 then some (.junction (a - 0x70000000))
  else if 0x70001000 ≤ a ∧ a < 0x70001800 then some (.sem ((a - 0x70001000) / 8) (decide (a % 8 = 4)))
  else if 0x70001800 ≤ a ∧ a < 0x70001A00 then some (.sem (2048 + (a - 0x70001800) / 8) (decide (a % 8 = 4)))
  else if 0x70002000 ≤ a ∧ a < 0x70002100 then some (.desc (a - 0x70002000))
  else none

/-! ### The Junction per-CP interface (R380 to R384) -/

/-- The source presented to a CP in a class, as the district has seen it; 0x3FFF is none. -/
def peekSrc (d : Dev) (i : Nat) (fast : Bool) : Nat :=
  match d.pres.find? (fun p => decide (p.cp = i) && decide (p.fast = fast)) with
  | some p => p.src
  | none => 0x3FFF

/-- The source active at a CP in a class. -/
def actSrc (d : Dev) (i : Nat) (fast : Bool) : Nat :=
  match d.srcs.find? (fun e => e.2.act && decide (e.2.holder = some i) && decide (e.2.actFast = fast)) with
  | some e => e.1
  | none => 0x3FFF

/-- LSLOT (R380). -/
def lslotWord (d : Dev) (i : Nat) : Nat :=
  match (List.range 8).find? (fun k => slotCp d (i / 9) k = some i) with
  | some k => fieldN 6 4 (i / 9) + k
  | none => 2 ^ 31 + fieldN 6 4 (i / 9)

/-- The inline CCW of the head work entry; 0 without one. -/
def headIccw (c : Cp) : Nat :=
  match c.handoff with
  | w :: _ => if seInl w.take.entry then (seIccw w.take.entry).toNat else 0
  | [] => 0

/-- A claim read in a load (R381, R384); after a Fatal fault nothing is handed over (R436). -/
def claimIn (fast : Bool) (i : Nat) (d : Dev) : Nat × Dev :=
  let (n, d) := claimAll fast i d
  (n, if d.fatal then d else liveP id d)

/-- A read of the interface at an offset (R380): its word, and the device after it. -/
def jctRead (i off : Nat) (d : Dev) : Nat × Dev :=
  let c := cpGet d i
  let work := match c.handoff with | w :: _ => (workWord w).toNat | [] => 0
  match off with
  | 0x000 => claimIn false i d
  | 0x004 => claimIn true i d
  | 0x010 =>
      let n := peekSrc d i false
      let f := peekSrc d i true
      (fieldN 31 31 (decide (n ≠ 0x3FFF)).toNat + fieldN 30 30 (decide (f ≠ 0x3FFF)).toNat + fieldN 29 16 n + f, d)
  | 0x014 => (fieldN 29 16 (actSrc d i false) + actSrc d i true, d)
  | 0x018 => (lslotWord d i, d)
  | 0x05C => (work / 2 ^ 224, cpSet i { c with handoff := c.handoff.drop 1 } d)
  | _ =>
      if 0x040 ≤ off ∧ off < 0x060 then (work / 2 ^ (8 * (off - 0x040)) % 2 ^ 32, d)
      else if 0x060 ≤ off ∧ off < 0x070 then (headIccw c / 2 ^ (8 * (off - 0x060)) % 2 ^ 32, d)
      else (0, d)

/-- A write of the interface (R380, R382, R383). -/
def jctWrite (i off : Nat) (v : Word) (d : Dev) : Dev :=
  match off with
  | 0x008 => doEoi i (bits v 13 0) d
  | 0x00C => doSet (bits v 13 0) d
  | _ => d

/-! ### Semaphores and aperture descriptors (R294, R321 to R323) -/

/-- The semaphore of a CP's own district, or of the device, that number k of its address window names. -/
def semOf (i k : Nat) : Nat := if k < 2048 then 256 * (i / 9) + k else k

/-- The bits of an aperture descriptor that hold fields (R294). -/
def descMask : QWord := 0xFFFFFFFFFFFFF00007FFFFFFF0001FFF#128

/-- A 4-byte store to the aperture descriptors (R294, R295). -/
def descWrite (i off : Nat) (v : Word) (d : Dev) : Dev :=
  cpMod i (fun c =>
    let k := off / 16
    let lo := 8 * (off % 16)
    { c with apert := lset c.apert k (setBits (lget c.apert k 0) (lo + 31) lo v.toNat &&& descMask) }) d

/-! ### Loads (R296, R304, R308, R309) -/

/-- Is the load of `size` bytes from host memory a CXL.cache line read (R295)? -/
def lineLoad (d : Dev) (f : FnId) (a : DWord) (i size : Nat) : Bool :=
  decide (size = 16) && decide (regFld d .upStat (portOf d (.cp i) f a.toNat) 18 18 = 1)

/-- The bytes of a long load from data address `la`, read when it issues; what lies outside comes with LONG_LOAD_COMPLETE. A read of Plaza
joins the refills of its check blocks (R292). -/
def loadFrom (i : Nat) (la : Word) (t : CpTarget) (size : Nat) (d : Dev) : LoadSrc × Dev :=
  match t with
  | .iram a => (.have_ (memRead (cpGet d i).iram a size), d)
  | .dram a => (.have_ (memRead (cpGet d i).dram a size), d)
  | .bank off =>
      let (v, d) := bankRead d (i / 9) (off / 128)
      (.have_ (((leBytes 128 v.toNat).drop (off % 128)).take size), d)
  | .plaza off => (.plaza off (memRead d.plaza off size), joinAll (refilling d off size) (.cpLoad i la) d)
  | .page off =>
      if pageWaits d i then (.page off size, d)
      else (let (v, d) := barRead (.cp i) off size d; (.have_ (leBytes size v.toNat), d))
  | .junction off => (let (v, d) := jctRead i off d; (.have_ (leBytes 4 v), d))
  | .sem k rel =>
      if rel then (.have_ (leBytes 4 0), d)
      else (let (v, d) := semAcquire i (semOf i k) d; (.have_ (leBytes 4 v.toNat), d))
  | .desc off => (.have_ (((leBytes 16 (lget (cpGet d i).apert (off / 16) 0).toNat).drop (off % 16)).take 4), d)
  | .host f a => (.outside (some (f, a)), hostOut (.cp i) f (if lineLoad d f a i size then .read (a &&& ~~~63#64) 64 else .read a size) d)
  | .port p a => (.outside none, emit (.devRead p a size) d)
  | .lost => (.failed, d)

/-- The value of word w of a load: the bytes extended as the instruction says (R298). -/
def loadWord (size : Nat) (signed : Bool) (bytes : List Byte) (w : Nat) : Word :=
  if size = 1 then
    (let b : Byte := BitVec.ofNat 8 (leNat (bytes.take 1)); if signed then b.signExtend 32 else b.zeroExtend 32)
  else if size = 2 then
    (let h : BitVec 16 := BitVec.ofNat 16 (leNat (bytes.take 2)); if signed then h.signExtend 32 else h.zeroExtend 32)
  else BitVec.ofNat 32 (leNat ((bytes.drop (4 * w)).take 4))

/-- The registers a load of `size` bytes writes, with the number of the word each takes. -/
def loadDst (rd size : Nat) : List (Nat × Nat) := (List.range ((size + 3) / 4)).map (fun k => (rd + k, k))

/-- A load takes over its destinations from the loads before it (R308). -/
def claimDst (rd size : Nat) (c : Cp) : Cp :=
  { c with loads := c.loads.map (fun l => { l with dst := l.dst.filter (fun x => !(decide (rd ≤ x.1) && decide (x.1 < rd + (size + 3) / 4))) }) }

/-- The values of a completed load's registers. -/
def loadVals (size : Nat) (signed : Bool) (bytes : List Byte) (dst : List (Nat × Nat)) : List (Nat × Word) :=
  dst.map (fun x => (x.1, loadWord size signed bytes x.2))

/-- The register number of an 8-byte or 16-byte access is a multiple of 2 or 4 (R298). -/
def regAligned (rd size : Nat) : Bool := decide (rd % ((size + 3) / 4) = 0)

/-- The data address (R304). -/
def dataAddr (f : RI) (c : Cp) : Word := gRead f.a c + f.sx

/-- Is an address one of IRAM or DRAM, whose loads are short (R309)? -/
def shortAddr (a : Nat) : Bool := decide (a < 0x20000) || (decide (0x10000000 ≤ a) && decide (a < 0x10020000))

/-- A long load is in progress (R309). -/
def longLoad (c0 : Cp) (f : RI) (size : Nat) (signed : Bool) (a : Word) (src : LoadSrc) (c : Cp) : Cp :=
  let c := claimDst f.d size c
  { c with loads := c.loads ++ [⟨c0.pc, loadDst f.d size, bit c0.sr 29, size, signed, a, src, false⟩] }

/-- A load of `size` bytes (R304, R308, R309): alignment, then permission, which a long load fails after the next instruction; a short
load's registers are written after the next instruction, a long load is in progress. -/
def cpLoad (i op : Nat) (f : RI) (size : Nat) (signed : Bool) (d : Dev) : Dev :=
  cpIssue i (encRI op f) (fun c0 e =>
    let a := dataAddr f c0
    if regAligned f.d size = false then cpIllegal c0
    else if a.toNat % size ≠ 0 then .exc 2 c0.pc a
    else match cpTarget e c0 a.toNat size false with
      | none => if shortAddr a.toNat then .exc 4 c0.pc a else .ok (cpMod i (longLoad c0 f size signed a .failed) e)
      | some t =>
          let short := match t with | .iram _ => true | .dram _ => true | _ => false
          let (src, e) := loadFrom i a t size e
          .ok (cpMod i (fun c =>
            match src, short with
            | .have_ b, true => { claimDst f.d size c with slot := loadVals size signed b (loadDst f.d size) }
            | _, _ => longLoad c0 f size signed a src c) e)) d

/-- A long load has its bytes (R308): its registers are written now, or after the next instruction when that has not
issued. -/
def loadDone (i : Nat) (l : PendLoad) (bytes : List Byte) (d : Dev) : Dev :=
  cpAfter i (cpMod i (fun c =>
    let v := loadVals l.size l.signed bytes l.dst
    let c := { c with loads := c.loads.drop 1 }
    if l.slotUsed then v.foldl (fun c x => gWriteIn l.fast x.1 x.2 c) c else { c with slot := v }) d)

/-- The oldest long load fails (R296). -/
def loadFails (i : Nat) (l : PendLoad) (d : Dev) : Dev :=
  cpAfter i (cpMod i (fun c => { c with loads := { l with src := .failed } :: c.loads.drop 1 }) d)

/-- LONG_LOAD_COMPLETE (R296, R309): data or fault of the oldest long load returns. A Plaza read whose block is being
refilled (R230), and a register read behind a waiting write (R26), return later. -/
def longLoadDone (i : Nat) (res : HostRead) (d : Dev) : Dev :=
  match (cpGet d i).loads with
  | [] => d
  | l :: _ =>
      if readHeld d (.cpLoad i l.addr) then d
      else match l.src with
        | .failed => d
        | .have_ b => loadDone i l b d
        | .plaza _ b => loadDone i l b d
        | .page off size =>
            if pageWaits d i then d
            else (let (v, d) := barRead (.cp i) off size d; loadDone i l (leBytes size v.toNat) d)
        | .outside _ => (match res with
          | .ok b => loadDone i l (fitBytes l.size (if l.size = 16 ∧ b.length = 64 then b.drop (l.addr.toNat % 64) else b)) d
          | .err _ => loadFails i l d)

/-! ### Stores (R296, R304, R310) -/

/-- A posted store fails (R296): STERR, CP_STADDR, and the CP's store-error source. -/
def storeFails (i : Nat) (a : Word) (d : Dev) : Dev :=
  srcFire (0x2200 + 8 * i + 1) (pageEvent (0x100 + i) 0 (cpMod i (fun c => { c with sterr := true, staddr := a }) d))

/-- What a store does at its target. -/
def storeTo (i : Nat) (a : Word) (t : CpTarget) (bytes : List Byte) (d : Dev) : Dev :=
  match t with
  | .iram x => cpMod i (fun c => { c with iram := memWrite c.iram x bytes }) d
  | .dram x => cpMod i (dramWrite x bytes) d
  | .plaza off => { d with plaza := memWrite d.plaza off bytes }
  | .page off => barWrite (.cp i) off bytes.length (BitVec.ofNat 64 (leNat bytes)) d
  | .junction off => jctWrite i off (BitVec.ofNat 32 (leNat bytes)) d
  | .sem k rel => if rel then semRelease i (semOf i k) (bit (BitVec.ofNat 32 (leNat bytes)) 0) d else d
  | .desc off => descWrite i off (BitVec.ofNat 32 (leNat bytes)) d
  | .host f x => hostOut (.cp i) f (.write x bytes) d
  | .port p x => emit (.devWrite p x bytes) d
  | .bank _ => d
  | .lost => storeFails i a d

/-- The bytes a store takes from its registers (R298). -/
def storeBytes (rd size : Nat) (c : Cp) : List Byte :=
  ((List.range ((size + 3) / 4)).flatMap (fun k => leBytes 4 (gRead (rd + k) c).toNat)).take size

/-- A store of `size` bytes (R304). -/
def cpStore (i op : Nat) (f : RI) (size : Nat) (d : Dev) : Dev :=
  cpIssue i (encRI op f) (fun c e =>
    let a := dataAddr f c
    if regAligned f.d size = false then cpIllegal c
    else if a.toNat % size ≠ 0 then .exc 3 c.pc a
    else match cpTarget e c a.toNat size true with
      | none => .exc 5 c.pc a
      | some t => .ok (storeTo i a t (storeBytes f.d size c) e)) d

/-! ### Meanings -/

/-- LDW (R304). -/
def execLdw (cp : Nat) (f : RI) (s : State) : Host.Outcome State Fault Refusal := run s (cpLoad cp 0x10 f 4 false)

/-- LDH (R304). -/
def execLdh (cp : Nat) (f : RI) (s : State) : Host.Outcome State Fault Refusal := run s (cpLoad cp 0x11 f 2 true)

/-- LDHU (R304). -/
def execLdhu (cp : Nat) (f : RI) (s : State) : Host.Outcome State Fault Refusal := run s (cpLoad cp 0x12 f 2 false)

/-- LDB (R304). -/
def execLdb (cp : Nat) (f : RI) (s : State) : Host.Outcome State Fault Refusal := run s (cpLoad cp 0x13 f 1 true)

/-- LDBU (R304). -/
def execLdbu (cp : Nat) (f : RI) (s : State) : Host.Outcome State Fault Refusal := run s (cpLoad cp 0x14 f 1 false)

/-- LDD (R304). -/
def execLdd (cp : Nat) (f : RI) (s : State) : Host.Outcome State Fault Refusal := run s (cpLoad cp 0x15 f 8 false)

/-- LDQ (R304). -/
def execLdq (cp : Nat) (f : RI) (s : State) : Host.Outcome State Fault Refusal := run s (cpLoad cp 0x16 f 16 false)

/-- STW (R304). -/
def execStw (cp : Nat) (f : RI) (s : State) : Host.Outcome State Fault Refusal := run s (cpStore cp 0x18 f 4)

/-- STH (R304). -/
def execSth (cp : Nat) (f : RI) (s : State) : Host.Outcome State Fault Refusal := run s (cpStore cp 0x19 f 2)

/-- STB (R304). -/
def execStb (cp : Nat) (f : RI) (s : State) : Host.Outcome State Fault Refusal := run s (cpStore cp 0x1A f 1)

/-- STD (R304). -/
def execStd (cp : Nat) (f : RI) (s : State) : Host.Outcome State Fault Refusal := run s (cpStore cp 0x1B f 8)

/-- STQ (R304). -/
def execStq (cp : Nat) (f : RI) (s : State) : Host.Outcome State Fault Refusal := run s (cpStore cp 0x1C f 16)

/-- LONG_LOAD_COMPLETE (R309). -/
def execLongLoadComplete (cp : Nat) (res : HostRead) (s : State) : Host.Outcome State Fault Refusal :=
  run s (fun d => if cp < 72 then longLoadDone cp res d else d)

/-- POSTED_STORE_FAIL (R296). -/
def execPostedStoreFail (cp : Nat) (addr : Word) (s : State) : Host.Outcome State Fault Refusal :=
  run s (fun d => if cp < 72 then storeFails cp addr d else d)

/-- SEM_ACQ (R321, R322): semaphore 0 to 255 of the CP's district, or 256 + j for semaphore j of the device. -/
def execSemAcq (cp : Nat) (sem : Nat) (s : State) : Host.Outcome State Fault Refusal :=
  run s (fun d =>
    if cp < 72 ∧ sem < 320 then
      let (v, d) := semAcquire cp (if sem < 256 then semOf cp sem else 2048 + (sem - 256)) d
      emit (.cpValue cp v) d
    else d)

/-- SEM_REL (R321, R323). -/
def execSemRel (cp : Nat) (sem : Nat) (val : Word) (s : State) : Host.Outcome State Fault Refusal :=
  run s (fun d =>
    if cp < 72 ∧ sem < 320 then semRelease cp (if sem < 256 then semOf cp sem else 2048 + (sem - 256)) (bit val 0) d else d)

/-- APERTURE_DESCRIPTOR_WRITE (R294, R295): a word of the CP's 256 bytes of descriptors. -/
def execApertureDescriptorWrite (cp : Nat) (off : Nat) (val : Word) (s : State) : Host.Outcome State Fault Refusal :=
  run s (fun d => if cp < 72 ∧ off < 256 ∧ off % 4 = 0 then descWrite cp off val d else d)

end Sys2Proof.Machine
end

