-- ==== Sys2Proof/Machine/ExportOps.lean ====
section
/-!
DEFINITION. BAR 4 of a function (R454 to R457): its registers, the journal window, and the exports of the journal and of
the audit log to host memory (R428, R456).
-/
namespace Sys2Proof.Machine

open Sys2Proof

/-- The registers of BAR 4: offset and bytes (R455). -/
def jxRegs : List (Nat × Nat) :=
  [(0x00, 8), (0x08, 8), (0x10, 8), (0x18, 8), (0x20, 8), (0x28, 4), (0x2C, 4), (0x30, 4), (0x34, 4), (0x38, 8), (0x40, 8),
    (0x48, 4)]

/-- The register that holds an offset of BAR 4. -/
def jxFind (off : Nat) : Option (Nat × Nat) := jxRegs.find? (fun r => decide (r.1 ≤ off) && decide (off < r.1 + r.2))

/-- JW_LAST (R455): the latest record in a function's scope that is still in the ring. -/
def jwLast (d : Dev) (f : FnId) : Nat :=
  let l := (d.journal.filter (fun r => jscope f r && decide (jOldest d ≤ r.seq) && decide (r.seq < d.jnHead))).map (·.seq)
  match l with
  | [] => 2 ^ 64 - 1
  | a :: t => t.foldl max a

/-- The value of a register of BAR 4 (R455). -/
def jxView (d : Dev) (f : FnId) (r : Nat) : Nat :=
  let x := fnGet d f
  match r with
  | 0x00 => d.jnHead
  | 0x08 => jOldest d
  | 0x10 => x.jwWin.toNat
  | 0x18 => jwLast d f
  | 0x20 => x.jxBase.toNat
  | 0x28 => x.jxCtl.toNat
  | 0x2C => x.jxCons.toNat
  | 0x30 => x.jxProd.toNat
  | 0x34 => fieldN 31 31 x.jxLostBit.toNat + fieldN 30 30 x.jxWrerr.toNat + fieldN 29 29 x.jxCfgerr.toNat
  | 0x38 => x.jxStart.toNat
  | 0x40 => x.jxNext.toNat
  | 0x48 => x.jxLost.toNat
  | _ => 0

/-- A write of JX_CTL (R455, R456): SIZE changes only while EN is 0; setting EN starts the export. -/
def jxCtlWrite (f : FnId) (v : Word) (d : Dev) : Dev :=
  let x := fnGet d f
  let v := v &&& 0x8F000000#32
  let v := if bits v 27 24 = 15 then setBits v 27 24 14 else v
  if bit x.jxCtl 31 && decide (bits v 27 24 ≠ bits x.jxCtl 27 24) then fnSet f { x with jxCfgerr := true } d
  else if !(bit x.jxCtl 31) && bit v 31 then
    fnSet f { x with jxCtl := v, jxNext := x.jxStart, jxProd := 0, jxPhase := true } d
  else fnSet f { x with jxCtl := v } d

/-- What a write of a register of BAR 4 changes (R455); RO registers keep their value. -/
def jxWrite (f : FnId) (r : Nat) (v : DWord) (d : Dev) : Dev :=
  let x := fnGet d f
  match r with
  | 0x10 => fnSet f { x with jwWin := setBits v 8 0 0 } d
  | 0x20 =>
      let v := setBits v 11 0 0
      if bit x.jxCtl 31 && decide (v ≠ x.jxBase) then fnSet f { x with jxCfgerr := true } d
      else fnSet f { x with jxBase := v } d
  | 0x28 => jxCtlWrite f (v.truncate 32) d
  | 0x2C => fnSet f { x with jxCons := v.truncate 32 } d
  | 0x38 => fnSet f { x with jxStart := v } d
  | _ => d

/-- One write within a register: its JCTL record (R452, R455) and its effect. -/
def jctlOne (f : FnId) (off size : Nat) (val : Nat) (d : Dev) : Dev :=
  match jxFind off with
  | none => d
  | some (r, _) =>
      let v := BitVec.ofNat 64 (val % 2 ^ (8 * size))
      let sh := 8 * (off - r)
      let m := BitVec.ofNat 64 (fieldN (sh + 8 * size - 1) sh (2 ^ 64 - 1))
      let old := BitVec.ofNat 64 (jxView d f r)
      let d := jput { jblank 0x09 f with arg := BitVec.ofNat 32 off, ccw := v } d
      jxWrite f r ((old &&& ~~~ m) ||| ((v <<< sh) &&& m)) d

/-- A write of BAR 4 (R455, R456): dropped when its size or place is wrong; over two registers it is two writes. -/
def jctlWrite (f : FnId) (off size : Nat) (val : DWord) (d : Dev) : Dev :=
  if !((size = 4 || size = 8) && decide (off % size = 0) && decide (off < 0x8000)) then d
  else
    match jxFind off with
    | some (r, b) =>
        if size = 8 ∧ b = 8 ∧ r = off then jctlOne f off 8 val.toNat d
        else if size = 8 then jctlOne f (off + 4) 4 (val.toNat / 2 ^ 32) (jctlOne f off 4 val.toNat d)
        else jctlOne f off 4 val.toNat d
    | none => d

/-- A read within one register of BAR 4; JX_STAT is cleared by the read. -/
def jxReadOne (f : FnId) (off size : Nat) (d : Dev) : Nat × Dev :=
  match jxFind off with
  | none => (0, d)
  | some (r, _) =>
      let v := jxView d f r / 2 ^ (8 * (off - r)) % 2 ^ (8 * size)
      (v, if r = 0x34 then fnSet f { fnGet d f with jxLostBit := false, jxWrerr := false, jxCfgerr := false } d else d)

/-- A read of BAR 4 (R455, R456). -/
def bar4Read (f : FnId) (off size : Nat) (d : Dev) : Dev :=
  let o := fnOrigin f
  if 0x8000 ≤ off then
    if off < 0x10000 ∧ [4, 8, 16, 32, 64].contains size = true ∧ off % 64 + size ≤ 64 then
      let w := jshow (some f) d ((fnGet d f).jwWin.toNat + (off - 0x8000) / 64)
      let d := if bits w 135 128 = 0xFE then regBump .jnLost 0 d else d
      emit (.window f ((leBytes 64 w.toNat).drop (off % 64) |>.take size)) d
    else emit (.unsupported o) d
  else if !((size = 4 || size = 8) && decide (off % size = 0)) then emit (.unsupported o) d
  else if size = 8 ∧ (jxFind off).map (·.2) = some 4 then
    let (lo, d) := jxReadOne f off 4 d
    let (hi, d) := jxReadOne f (off + 4) 4 d
    emit (.regValue o (BitVec.ofNat 64 (lo + 2 ^ 32 * hi))) d
  else
    let (v, d) := jxReadOne f off size d
    emit (.regValue o (BitVec.ofNat 64 v)) d

/-- The next record for a function at or after n: the lowest number in its scope (R456). -/
def jNext (d : Dev) (f : FnId) (n : Nat) : Option JRec :=
  (d.journal.filter (fun r => jscope f r && decide (n ≤ r.seq) && decide (r.seq < d.jnHead))).foldl
    (fun b r => match b with
      | none => some r
      | some y => if r.seq < y.seq then some r else some y) none

/-- One posted write of a record to a journal export ring (R456); of one that fails any subset of the bytes arrives (R591). -/
def exportWrite (f : FnId) (a : DWord) (b : List Byte) (res : WriteRes) (d : Dev) : Dev :=
  match res with
  | .ok => hostOut .any f (.write a b) d
  | .fail w => (List.range b.length).foldl (fun d i =>
      if w.contains i then sendHost .any f (.write (a + BitVec.ofNat 64 i) ((b.drop i).take 1)) d else d) d

/-- JOURNAL_EXPORT_WRITE (R456): the next record of the function's scope goes to its export ring, once its address is translated
(R515). A write that fails ends the export. -/
def journalExport (f : FnId) (res : WriteRes) (d : Dev) : Dev :=
  let x := fnGet d f
  let size := 2 ^ (bits x.jxCtl 27 24 + 10)
  if !(bit x.jxCtl 31) || x.d3hot || decide (size ≤ (x.jxProd - x.jxCons).toNat) || decide (d.jnHead ≤ x.jxNext.toNat) then d
  else
    let old := jOldest d
    let x := if x.jxNext.toNat < old then
        { x with jxNext := BitVec.ofNat 64 old, jxLostBit := true
                 jxLost := BitVec.ofNat 32 (satCount (x.jxLost.toNat + (old - x.jxNext.toNat) - 1)) }
      else x
    match jNext d f x.jxNext.toNat with
    | none => fnSet f { x with jxNext := BitVec.ofNat 64 d.jnHead } d
    | some r =>
        let a := x.jxBase + BitVec.ofNat 64 (64 * (x.jxProd.toNat % size))
        let b := leBytes 64 (setBit r.word 0 x.jxPhase).toNat
        hostGo f [(a, 64, decide (res = .ok))] (fun d =>
          exportWrite f a b res (match res with
            | .ok =>
                let p := x.jxProd + 1
                fnSet f { x with jxProd := p, jxNext := BitVec.ofNat 64 (r.seq + 1)
                                 jxPhase := if p.toNat % size = 0 then !x.jxPhase else x.jxPhase } d
            | .fail _ => fnSet f { x with jxWrerr := true, jxCtl := setBit x.jxCtl 31 false } d)) d

/-- AUDIT_EXPORT_WRITE (R428): the next audit record goes to the export ring by one posted write, which is held while its address is not
translated and not made where the translation is denied (R515). R428 gives a write that fails no effect on the counts, and no register
to show it, so the counts go on (R591; log entry 93). -/
def auditExport (d : Dev) : Dev :=
  let en := regFld d .auExpCtl 0 31 31
  let f : FnId := ⟨regFld d .auExpCtl 0 7 7, 0⟩
  let size := 2 ^ (regFld d .auExpCtl 0 27 24 + 12)
  let prod : Word := (regGet d .auExpProd 0).truncate 32
  let cons : Word := (regGet d .auExpCons 0).truncate 32
  let next := (regGet d .auExpNext 0).toNat
  if en = 0 ∨ (fnGet d f).d3hot = true ∨ size ≤ (prod - cons).toNat ∨ d.auHead ≤ next then d
  else
    let old := d.auHead - 8388608
    let a := (regGet d .auExpBase 0) + BitVec.ofNat 64 (32 * (prod.toNat % size))
    let d := if next < old then
        pageEvent 7 1 (regSetFld .auStat 0 30 30 1 (regAdd .auXlost 0 (old - next) d))
      else d
    let n := max old next
    let w := setBit ((auditFind d n).getD 0) 16 d.auPhase
    let p := prod + 1
    let d := { d with auPhase := if p.toNat % size = 0 then !d.auPhase else d.auPhase }
    hostOut .any f (.write a (leBytes 32 w.toNat))
      (regSet .auExpProd 0 (p.zeroExtend 64) (regSet .auExpNext 0 (BitVec.ofNat 64 (n + 1)) d))

end Sys2Proof.Machine
end

