-- ==== Sys2Proof/Machine/DebugOps.lean ====
section
/-!
DEFINITION. The test access port and the dump (R499 to R505), and register access through it (R502).
-/
namespace Sys2Proof.Machine

open Sys2Proof

/-! ### The regions (R501) -/

/-- Length of an instance of a region, and how many instances it has; 0 for a length that only the header gives. -/
def dumpLen (region : Nat) : Nat × Nat :=
  match region with
  | 0x00 => (8192, 1)
  | 0x01 => (0x4000000, 1)
  | 0x02 => (0, 22)
  | 0x03 => (0x20000, 72)
  | 0x04 => (0x20000, 72)
  | 0x05 => (4196352, 8)
  | 0x06 => (294912, 8)
  | 0x07 => (0x100000, 64)
  | 0x08 => (0x4000, 64)
  | 0x09 => (0x800000, 1)
  | 0x0A => (0x20000, 1)
  | 0x0B => (0x200000, 1)
  | 0x0C => (0x100000, 1)
  | 0x0D => (0x80000, 1)
  | 0x10 => (0x600000000, 1)
  | _ => (0, 0)

/-- The region table: region and instance of each entry, in ascending order. -/
def dumpTable : List (Nat × Nat) :=
  ((List.range 14) ++ [0x10]).flatMap (fun r => (List.range (dumpLen r).2).map (fun i => (r, i)))

/-- A free 64-bit word (log entry 3). -/
def freeWord (d : Dev) : Nat × Dev := (let (x, d) := freeNext d; (x.toNat % 2 ^ 64, d))

/-- Is JRD, as the freeze captured it, 0 (R502)? -/
def dumpHidden (d : Dev) : Bool := decide (regFld d .glDbgpol 0 0 0 = 0)

/-- A word of the header (R505). Bases in bulk memory, and the sizes the manual does not state, are free. -/
def headerWord (off : Nat) (d : Dev) : Nat × Dev :=
  if off = 0x00 then (0x4D444354 + 2 ^ 32 * (1 + 65536 * dumpTable.length), d)
  else if off = 0x08 then (regFld d .glId 0 31 0 + 2 ^ 32 * regFld d .fzStat 0 31 0, d)
  else if off = 0x10 then ((regGet d .fzTime 0).toNat, d)
  else if off = 0x18 then (regFld d .rpLastf 0 31 0 + 2 ^ 32 * regFld d .glDbgpol 0 31 0, d)
  else if off = 0x20 then (d.jnHead, d)
  else if off = 0x28 then (d.auHead, d)
  else if off = 0x30 then (d.trHead, d)
  else if off = 0x38 then (d.sgLog.length, d)
  else if off < 0x40 ∨ (0xB0 ≤ off ∧ off < 0x100) then (0, d)
  else if off = 0x58 then (2 ^ 30, d)
  else if off = 0x68 then (2 ^ 28, d)
  else if off = 0x78 then (2 ^ 29, d)
  else if off = 0x88 then (2 ^ 25, d)
  else if off < 0xB0 then freeWord d
  else match dumpTable[(off - 0x100) / 16]? with
    | none => (0, d)
    | some (r, i) =>
        if off % 16 = 0 then
          (r + 256 * i + 65536 * (1 + (if r ≠ 0 ∧ dumpHidden d = true then 2 else 0) + (if r = 0x10 then 4 else 0)), d)
        else if r = 0x02 then freeWord d
        else ((dumpLen r).1, d)

/-- The CRC of check block k of bank b (R227): 256 bytes, in slice order. -/
def blockCrc (d : Dev) (b k : Nat) : Nat := (crc32c (memRead d.plaza (0x100000 * b + 256 * k) 256)).toNat

/-- Eight bytes of a region at an offset (R500 to R503): zeros past its end, for an absent region or instance, for one that
policy hides, where the keys of R484 would show, and outside a freeze. What the manual gives no layout for is free (log entry 3). -/
def dumpWord (region inst off : Nat) (d : Dev) : Nat × Dev :=
  let (len, n) := dumpLen region
  if d.frozenPin = false ∨ n ≤ inst ∨ (region ≠ 0x02 ∧ len ≤ off) then (0, d)
  else if region = 0x00 then headerWord off d
  else if dumpHidden d then (0, d)
  else if (region = 0x02 ∨ region = 0x0D) ∧ Config.showsKeys region off = true then (0, d)
  else match region with
    | 0x01 => (barPeek d off + 2 ^ 32 * barPeek d (off + 4), d)
    | 0x03 => (leNat (memRead (cpGet d inst).iram off 8), d)
    | 0x04 => (leNat (memRead (cpGet d inst).dram off 8), d)
    | 0x05 => (let (v, d) := bankRead d inst (off / 128); (v.toNat / 2 ^ (8 * (off % 128)) % 2 ^ 64, d))
    | 0x07 => (leNat (memRead d.plaza (0x100000 * inst + off) 8), d)
    | 0x08 => (blockCrc d inst (off / 4) + 2 ^ 32 * blockCrc d inst (off / 4 + 1), d)
    | 0x0B => (swFields (subGet d (off / 8)), d)
    | 0x10 => if d.maint then freeWord d else (0, d)
    | _ => freeWord d

/-! ### The instructions -/

/-- The instruction register takes a code. -/
def tapIs (ir : Nat) (d : Dev) : Dev := { d with tapIr := ir }

/-- DUMP_SEL (R500, R504): the selection, and the counts start anew. -/
def dumpSelect (v : DWord) (d : Dev) : Dev :=
  { tapIs 0x11 d with dumpSel := v, dumpOff := bits v 47 0, dumpCrc := 0, dumpUe := 0 }

/-- DUMP_DATA (R499, R504): the next 8 bytes; `ue` says that they held an uncorrectable error. -/
def dumpNext (ue : Bool) (d : Dev) : Dev :=
  let (w, d) := dumpWord (bits d.dumpSel 63 56) (bits d.dumpSel 55 48) d.dumpOff d
  let d := { tapIs 0x12 d with
    dumpOff := d.dumpOff + 8, dumpCrc := crcMore d.dumpCrc (leBytes 8 w), dumpUe := d.dumpUe + ue.toNat }
  emit (.tdo 64 (BitVec.ofNat 128 w)) d

/-- MAINT (R503): the stack leaves self-refresh for the maintenance engine, and returns to it. -/
def maintMode (on : Bool) (d : Dev) : Dev :=
  if d.frozenPin then regSetFld .hbStat 0 31 30 (if on then 2 else 1) { tapIs 0x14 d with maint := on } else tapIs 0x14 d

/-- REGACC (R502): one access with origin JTAG; a write may wait on the audit feed like any other. -/
def regAccess (wr w64 : Bool) (off : Nat) (val : DWord) (d : Dev) : Dev :=
  let size := if w64 then 8 else 4
  let d := tapIs 0x15 d
  if wr then emit (.tdo 96 (val.zeroExtend 128)) (barWrite .jtag off size val d)
  else if sizeOk off size then barReadOp .jtag off size d
  else
    let (v, d) := freeWord d
    emit (.tdo 96 (BitVec.ofNat 128 v)) d

/-- IDCODE (R499). -/
def idcodeWord : Nat := fieldN 31 28 1 + fieldN 27 12 0x9640 + fieldN 11 1 Config.idManufacturer.toNat + 1

end Sys2Proof.Machine
end

