-- ==== Sys2Proof/Machine/ResetOps.lean ====
section
/-!
DEFINITION. Resets (R130 to R134, R175, R219, R396, R413, R421, R429, R457, R498, R549 to R551, R588, R590): a port, a
function, the VFs of a PF, and the warm and cold device resets.
-/
namespace Sys2Proof.Machine

open Sys2Proof

/-- The journal's record of a reset (R452): `code` 1 cold, 2 warm, 3 port, 4 function, 5 VF Enable cleared. FN is 0x7F for a whole port
or the device. -/
def resetNote (code : Nat) (f : FnId) (d : Dev) : Dev := jput { jblank 0x0A f with arg := BitVec.ofNat 32 code } d

/-- The audit log's record of a reset (R422, R423), with the same codes; VF Enable cleared has none. -/
def resetAudit (code : Nat) (f : FnId) (d : Dev) : Dev :=
  let new : Word := BitVec.ofNat 32 (fieldN 7 7 f.port + fieldN 6 0 f.fn)
  let w := auditWord d.devtime new 0 d.auHead 0 0 0 6 code 0x80
  let d := noteHwm 4177 (d.auFeed + 1) { d with audit := d.audit ++ [w], auHead := d.auHead + 1, auFeed := d.auFeed + 1 }
  if d.auHead % 1048576 = 0 then pageEvent 7 0 d else d

/-! ### Port and function resets -/

/-- The functions of port u (R130): its PF and every VF. -/
def portFns (u : Nat) : List FnId := (List.range 65).map (fun v => ⟨u, v⟩)

/-- A start ring of an affected function (R175): EN cleared, phase 1 and counts 0. DESIGN CHOICE (log entry 107): the counts are
SR_CONS and STALE; the change of SR_CONS to 0 is not written to the shadow, and a shadow write still due is dropped. -/
def srResetRing (n : Nat) (d : Dev) : Dev :=
  let r := srGet d n
  let ctl := setBit r.ctl 31 false
  let d := srSet n { r with ctl := ctl, cons := 0, phase := true, pref := [], rd := .idle, stale := 0, dirty := false } d
  if bit r.ctl 31 then auditHw 6 (0x200 + n / 16) (0x110 + 0x20 * (n % 16)) ctl r.ctl d else d

/-- A completion ring of an affected function (R175): EN cleared, counts 0, phase 1, its deep FIFO drained: no window entry shows one
of its entries as held (R163), and entries that waited for its places take them. DESIGN CHOICE (log entry 107): the counts are
CR_PROD and CR_CONS; ARM_CNT stays with ARMED. -/
def crResetRing (n : Nat) (d : Dev) : Dev :=
  let r := crGet d n
  let ctl := setBit r.ctl 31 false
  let d := crSet n { r with ctl := ctl, prod := 0, cons := 0, phase := true, full := false, stall := false
                            xwait := none, fifo := ⟨[], 0, 0⟩ } d
  let d := retryStalled (r.fifo.items.foldl (fun d x =>
    if x.status then subSet x.sub { subGet d x.sub with swHeld := false } d else d) d)
  if bit r.ctl 31 then auditHw 6 (0x200 + n / 16) (0x308 + 0x40 * (n % 16)) ctl r.ctl d else d

/-- A function's own state (R64, R175, R456, R550): slots freed, event counters 0, its configuration space at reset values, its
journal export off. Its counters and other BAR 4 registers stay. -/
def fnClear (f : FnId) (d : Dev) : Dev :=
  let x := fnGet d f
  fnSet f { fnReset with dsDrop := x.dsDrop, dsMalf := x.dsMalf, winErr := x.winErr, nopost := x.nopost
                         jseqLast := x.jseqLast, jwWin := x.jwWin, jxBase := x.jxBase
                         jxCtl := setBit x.jxCtl 31 false, jxCons := x.jxCons, jxProd := x.jxProd, jxPhase := x.jxPhase
                         jxLostBit := x.jxLostBit, jxWrerr := x.jxWrerr, jxCfgerr := x.jxCfgerr, jxStart := x.jxStart
                         jxNext := x.jxNext, jxLost := x.jxLost } d

/-- The audit export of a PF that is reset stops (R428). -/
def auditExportOff (fs : List FnId) (d : Dev) : Dev :=
  if regFld d .auExpCtl 0 31 31 = 1 ∧ fs.contains ⟨regFld d .auExpCtl 0 7 7, 0⟩ = true then
    let old : Word := (regGet d .auExpCtl 0).truncate 32
    auditHw 6 7 0x0A8 (setBit old 31 false) old (regSetFld .auExpCtl 0 31 31 0 d)
  else d

/-- What every reset of R130 does to the functions it affects: rings and windows (R175), subchannels and channels (R131,
R219), expert modes (R413), exports, translations and configuration. -/
def resetFns (fs : List FnId) (begun : List Nat) (d : Dev) : Dev :=
  let mine := fun (o : Option FnId) => match o with | some f => fs.contains f | none => false
  let gone := d.dsWait.filter (fun t => fs.contains t.fn)
  let d := { d with dsWait := d.dsWait.filter (fun t => !(gone.contains t)) }
  let d := resetClears fs begun d
  let d := (d.srings.filter (fun e => mine (ownOf e.2.own))).foldl (fun d e => srResetRing e.1 d) d
  let d := (d.crings.filter (fun e => mine (ownOf e.2.own))).foldl (fun d e => crResetRing e.1 d) d
  let d := fs.foldl (fun d f => fnClear f d) d
  let d := { d with
    xlate := d.xlate.filter (fun x => !(fs.any (fun f => fnKey f = x.1)))
    xasked := d.xasked.filter (fun x => !(fs.any (fun f => fnKey f = x.1)))
    outHeld := d.outHeld.filter (fun x => !(fs.contains x.1)) }
  let d := xClose (fun m => mine (originFn m.origin)) d
  auditExportOff fs d

/-- A reset of port u (R130, R549, R550); one that arrives while the port is in reset has no further effect. The RESET record follows
those of the programs that it ended (R453), here and in the resets of functions. -/
def portReset (u : Nat) (by_ : PortResetBy) (begun : List Nat) (d : Dev) : Dev :=
  if 2 ≤ u ∨ regFld d .upStat u 15 15 = 1 then d
  else
    let d := resetAudit 3 ⟨u, 0x7F⟩ d
    let old := regGet d .upStat u
    let lt := match by_ with | .hotReset => 8 | _ => 0
    let d := regSet .upStat u (upStatWord { linkDetect with ltssm := lt } (decide (by_ = .perst)).toNat) d
    let d := if bits (regGet d .upStat u) 31 20 ≠ bits old 31 20 then pageEvent (0x10 + u) 2 d else d
    resetNote 3 ⟨u, 0x7F⟩ (resetFns (portFns u) begun (upPortIs u false d))

/-- PERST_Uu_N is released: the link trains anew. -/
def portRelease (u : Nat) (d : Dev) : Dev := if u < 2 then regSetFld .upStat u 15 15 0 d else d

/-- A function-level reset (R130). -/
def fnLevelReset (f : FnId) (begun : List Nat) (d : Dev) : Dev :=
  if 2 ≤ f.port ∨ 64 < f.fn ∨ regFld d .upStat f.port 15 15 = 1 then d
  else resetNote 4 f (resetFns (if f.fn = 0 then portFns f.port else [f]) begun (resetAudit 4 f d))

/-- VF Enable of a PF is cleared (R130). -/
def vfEnableClear (u : Nat) (begun : List Nat) (d : Dev) : Dev :=
  if 2 ≤ u ∨ regFld d .upStat u 15 15 = 1 ∨ (fnGet d ⟨u, 0⟩).vfEnable = false then d
  else
    let d := resetNote 5 ⟨u, 0⟩ (resetFns ((portFns u).drop 1) begun d)
    fnSet ⟨u, 0⟩ { fnGet d ⟨u, 0⟩ with vfEnable := false, numVfs := 0 } d

/-! ### Device resets -/

/-- What the repair store, fuses and pins hold, by register and bits: kept by every device reset (R459, R463, R528, R549,
R590). -/
def keptCold : List (Reg × DWord) :=
  ([.dsSeg, .rpUsed, .rpHours, .rpTjavg, .blvSteer, .bkStat, .bkFenced, .pzSlices, .hbPpr, .seRb, .tmGpioIn,
    .dsVneed].map (fun r => (r, 0xFFFFFFFFFFFFFFFF#64)))
    ++ [(.pzStat, 7#64), (.avStat, 0xFFFF#64), (.dsStat, 0x06000000#64), (.rpStat, 0x30000000#64), (.upStat, 0x8000#64)]

/-- A warm reset keeps more: the freeze's own fields (R498) and which CP fills which slot (R588). -/
def keptWarm : List (Reg × DWord) :=
  keptCold ++ [(.fzTime, 0xFFFFFFFFFFFFFFFF#64), (.cpMap, 0xFFFFFFFFFFFFFFFF#64), (.fzStat, 0xC00000FF#64)]

/-- Registers after a device reset: the kept bits of each, over its reset value. -/
def keepRegs (keep : List (Reg × DWord)) (d : Dev) : Tbl DWord :=
  d.regs.foldr (fun e t =>
    match keep.find? (fun p => p.1.ctorIdx = e.1 / 1048576) with
    | none => t
    | some (r, m) =>
        let z := r.resetValue (e.1 % 1048576)
        tset t e.1 ((e.2 &&& m) ||| (z &&& ~~~ m)) z) []

/-- CPs after a device reset: `keep` says what of each stays, over its reset state. -/
def keepCps (keep : Nat → Cp → Cp) (d : Dev) : Tbl Cp :=
  d.cps.foldr (fun e t => tset t e.1 (keep e.1 e.2) (cpReset e.1)) []

/-- UP_CFG as the straps set it (R510, R511, R519). -/
def strapCfg (d : Dev) : Dev :=
  (List.range 2).foldl (fun d u =>
    regSet .upCfg u (BitVec.ofNat 64 (fieldN 31 31 (bit d.straps u).toNat + fieldN 30 30 (bit d.straps (2 + u)).toNat)) d) d

/-- What both device resets do, from a state in which injected faults have ended: everything at its reset value but what
R550 keeps in both; `keep` says which registers. -/
def deviceReset (keep : List (Reg × DWord)) (d : Dev) : Dev :=
  let fenced := d.slices.filter (fun e => e.2 = .fenced)
  let d : Dev := { Dev.reset with
    freeCtr := d.freeCtr, out := d.out, regs := keepRegs keep d, nextTok := d.nextTok, slices := fenced, lanes := d.lanes
    laneBad := d.laneBad, blvBad := d.blvBad
    cps := keepCps (fun i c => { cpReset i with role := c.role }) d
    resvNext := d.resvNext, owners := d.owners, ownersNow := d.owners, boots := d.boots, straps := d.straps, tjSum := d.tjSum
    tapIr := d.tapIr, bsr := d.bsr, dumpSel := d.dumpSel, dumpOff := d.dumpOff, dumpCrc := d.dumpCrc, dumpUe := d.dumpUe }
  let d := (List.range 64).foldl (fun d b => bankRetired b d) d
  (List.range 8).foldl (fun d e =>
    if regFld d .dsStat e 26 26 = 1 then regSetFld .dsFreq e 15 0 1600 d else d) (strapCfg d)

/-- Injected faults consume no spare: their units are whole again after a device reset (R464), and a rotation that had
begun is dropped. The reset empties every slice, so those that waited to be empty are fenced (R234). -/
def endInjected (d : Dev) : Dev :=
  let d := d.fenceWait.foldl (fun d s => fenceNow s d) d
  let d := d.injected.foldl (fun d u => injectEnd u d) { d with injected := [] }
  d.rotWait.foldl (fun d w => cpMapSet w.1 (w.2 % 8) (w.2 / 8 % 9) d) { d with rotWait := [] }

/-- A warm reset (R429, R457, R498, R506, R550, R588): DEVTIME, straps, bulk memory with the logs, and each CP's role are
kept. The expert modes it closes are recorded behind the reset records. -/
def warmReset (d : Dev) : Dev :=
  let was := endInjected d
  let d := deviceReset keptWarm was
  let d := regSetFld .fzStat 0 31 31 (was.frozenPin || decide (regFld was .fzStat 0 31 31 = 1)).toNat { d with
    devtime := was.devtime, journal := was.journal, jnHead := was.jnHead, audit := was.audit, auHead := was.auHead
    trace := was.trace, trHead := was.trHead, thermtrip := was.thermtrip
    cps := keepCps (fun i c => { cpReset i with role := c.role, failedAt := c.failedAt }) was
    xmodes := was.xmodes }
  let d := xClose (fun _ => true) (resetAudit 2 deviceWide (resetNote 2 deviceWide d))
  d

/-- The CPs of a district after power-on BIST (R588): up to eight that are not retired serve, in ascending order, and the
next is the spare. -/
def coldRoles (e : Nat) (d : Dev) : Dev :=
  let good := (span (9 * e) 9).filter (fun i => (cpGet d i).role ≠ .retired)
  let d := (good.take 8).foldl (fun d i => cpSet i { cpGet d i with role := .inService } d) d
  let d := (good.drop 8).foldl (fun d i => cpSet i { cpGet d i with role := .spare } d) d
  (List.range 8).foldl (fun d k => cpMapSet e k (match good[k]? with | some i => i % 9 | none => 15) d) d

/-- A cold reset (R457, R429, R510, R531, R550): DEVTIME and the logs start anew, the straps are sampled, and power-on BIST
runs. -/
def coldReset (d : Dev) : Dev :=
  let was := endInjected d
  let d := deviceReset keptCold { was with straps := BitVec.ofNat 6 (regFld was .tmGpioIn 0 5 0) }
  let d := (List.range 8).foldl (fun d e => coldRoles e d) { d with tapIr := 1 }
  resetAudit 1 deviceWide (resetNote 1 deviceWide d)

end Sys2Proof.Machine
end

