-- ==== Sys2Proof/Machine/DebugRows.lean ====
section
/-!
DEFINITION. The commands of the freeze, the test access port and the resets (R491 to R505, R549, R550).
-/
namespace Sys2Proof.Machine

open Sys2Proof

/-- FREEZE_N_FALL (R491): the pin freezes while PINEN is set. -/
def execFreezeNFall (s : State) : Host.Outcome State Fault Refusal :=
  runAlways s (fun d => fzAssert 0 (decide (regFld d .fzPol 0 0 0 = 1)) d)

/-- JTAG_FREEZE (R491, R499). -/
def execJtagFreeze (s : State) : Host.Outcome State Fault Refusal :=
  runAlways s (fun d => fzAssert 1 (decide (regFld d .glDbgpol 0 1 1 = 1)) (tapIs 0x10 d))

/-- DUMP_SEL (R500, R504). -/
def execDumpSel (v : DWord) (s : State) : Host.Outcome State Fault Refusal := runAlways s (dumpSelect v)

/-- DUMP_DATA (R499 to R504). -/
def execDumpData (ue : Bool) (s : State) : Host.Outcome State Fault Refusal := runAlways s (dumpNext ue)

/-- DUMP_CRC (R504): uncorrectable words and CRC since DUMP_SEL. -/
def execDumpCrc (s : State) : Host.Outcome State Fault Refusal :=
  runAlways s (fun d => emit (.tdo 64 (BitVec.ofNat 128 (d.dumpUe % 2 ^ 32 * 2 ^ 32 + d.dumpCrc.toNat))) (tapIs 0x13 d))

/-- MAINT (R503). -/
def execMaint (on : Bool) (s : State) : Host.Outcome State Fault Refusal := runAlways s (maintMode on)

/-- REGACC (R502): while the TC9640 is frozen it has no effect. -/
def execRegacc (wr w64 : Bool) (off : Nat) (val : DWord) (s : State) : Host.Outcome State Fault Refusal :=
  run s (regAccess wr w64 off val)

/-- IDCODE (R499). -/
def execIdcode (s : State) : Host.Outcome State Fault Refusal :=
  runAlways s (fun d => emit (.tdo 32 (BitVec.ofNat 128 idcodeWord)) (tapIs 0x01 d))

/-- EXTEST (R499): the boundary cells take the bits shifted in and drive the pins. -/
def execExtest (bits : List Bool) (s : State) : Host.Outcome State Fault Refusal :=
  runAlways s (fun d => emit (.boundary bits) { tapIs 0x00 d with bsr := bits })

/-- SAMPLE/PRELOAD (R499): the pins are sampled and shifted out; the cells take the bits shifted in. -/
def execSamplePreload (pins bits : List Bool) (s : State) : Host.Outcome State Fault Refusal :=
  runAlways s (fun d => emit (.scan pins) { tapIs 0x02 d with bsr := bits })

/-- BYPASS (R499): a 0 is captured, and the bit shifted in follows it. -/
def execBypass (b : Bool) (s : State) : Host.Outcome State Fault Refusal :=
  runAlways s (fun d => emit (.tdo 2 (BitVec.ofNat 128 (2 * b.toNat))) (tapIs 0xFF d))

/-- TAP_RESET (R499): Test-Logic-Reset selects IDCODE. -/
def execTapReset (s : State) : Host.Outcome State Fault Refusal := runAlways s (tapIs 0x01)

/-- PERST_ASSERT (R130, R549, R550): PERST_Uu_N, a hot reset or DL_Down of port u. -/
def execPerstAssert (port : Nat) (by_ : PortResetBy) (begun : List Nat) (s : State) : Host.Outcome State Fault Refusal :=
  run s (portReset port by_ begun)

/-- PERST_RELEASE (R549). -/
def execPerstRelease (port : Nat) (s : State) : Host.Outcome State Fault Refusal := run s (portRelease port)

/-- FUNCTION_LEVEL_RESET (R130). -/
def execFunctionLevelReset (fn : FnId) (begun : List Nat) (s : State) : Host.Outcome State Fault Refusal :=
  run s (fnLevelReset fn begun)

/-- VF_ENABLE_CLEAR (R130). -/
def execVfEnableClear (port : Nat) (begun : List Nat) (s : State) : Host.Outcome State Fault Refusal :=
  run s (vfEnableClear port begun)

/-- COLD_RESET (R549, R550): it acts in a frozen TC9640 too. -/
def execColdReset (s : State) : Host.Outcome State Fault Refusal := runAlways s coldReset

/-- WARM_RESET (R549, R550): it ends a freeze (R498). -/
def execWarmReset (s : State) : Host.Outcome State Fault Refusal := runAlways s warmReset

end Sys2Proof.Machine
end

