-- ==== Sys2Proof/Machine/FaultRows.lean ====
section
/-!
DEFINITION. Failing check blocks and their refills (R228 to R231), and the commands of faults and repair (R431, R432, R440,
R441, R460, R466, R588).
-/
namespace Sys2Proof.Machine

open Sys2Proof

/-! ### Check blocks (R20, R228 to R231) -/

/-- The ports whose PF a failed read concerns (R434, R435). -/
def readerPorts (d : Dev) (r : BlockUser) : List Nat :=
  let ofOp := fun (t : Nat) => match d.ops.find? (fun e => e.1 = t) with | some (_, o) => [(subGet d o.sub).ownPort] | none => []
  match r with
  | .chan c _ => (match chOwner (chGet d c) with | some f => [f.port] | none => [])
  | .cmd t => ofOp t
  | .device _ t _ _ => ofOp t
  | .xfer t => (match ownerOfToken d (fun o => o.xfers.any (fun x => x.1 = t)) with
      | some (n, _, _) => [(subGet d n).ownPort] | none => [])
  | .engine n => [(subGet d n).ownPort]
  | .copy _ => []
  | .cpLoad i _ => (match (cpGet d i).serve with | some s => [(subGet d s.sub).ownPort] | none => [])

/-- Does a load of a CP read Plaza from a data address: the check blocks it touches (R292). -/
def loadBlocks (l : PendLoad) (a : Word) : List Nat :=
  match l.src with
  | .plaza off _ => if l.addr = a then blocksOf off l.size else []
  | _ => []

/-- The load of a CP from Plaza at a data address whose block stays bad fails (R230, R292, R309). -/
def failLoad (i : Nat) (a : Word) (b : Nat) (d : Dev) : Dev :=
  cpAfter i (cpMod i (fun c => { c with loads := c.loads.map (fun l => if (loadBlocks l a).contains b then { l with src := .failed } else l) }) d)

/-- The load of a CP from Plaza at a data address gets the bytes of its block as the refill wrote them (R228). -/
def refreshLoad (i : Nat) (a : Word) (b : Nat) (d : Dev) : Dev :=
  cpMod i (fun c => { c with loads := c.loads.map (fun l =>
    if (loadBlocks l a).contains b then
      (match l.src with
       | .plaza off _ => { l with src := .plaza off (memRead d.plaza off l.size) }
       | _ => l)
    else l) }) d

/-- Where a check block stands in a transfer that starts at offset `off` of the command's aperture 10. -/
def blockPos (o : OwnCmd) (off b : Nat) : Nat :=
  match o.res.find? (fun r => r.2 = b / 16) with
  | some r => 4096 * r.1 + 256 * (b % 16) - off
  | none => 0

/-- A transfer of an owner pack to the host fails at a check block (R230): CDC for its command, and EVENT is called. The bytes before the
block have gone. -/
def xferFails (t b : Nat) (d : Dev) : Dev :=
  match ownerOfToken d (fun o => o.xfers.any (fun x => x.1 = t)) with
  | none => d
  | some (n, _, o) =>
      match o.xfers.find? (fun x => x.1 = t) with
      | none => d
      | some (_, _, off) =>
          let k := blockPos o off b
          let (port, d) := takeStream n o.segs d
          let d := (scatter (port.getD 0) (ownerOf (subGet d n)) .ok o.segs (resRead o off (min k (segLen o.segs)) d) 0 d).2
          callEv n 4 3 t (ownMod n (fun o => { o with
            xfers := o.xfers.filter (fun x => x.1 ≠ t), cdc := o.cdc.orElse (fun _ => some k) }) d)

/-- The block of an operation's data stays bad (R230, R231): its command ends with CDC; the command of an owner pack ends so when its
handler returns. -/
def cmdFails (t : Nat) (d : Dev) : Dev :=
  match d.ops.find? (fun e => e.1 = t) with
  | some (_, o) =>
      if o.kind = .pack ∧ o.detached = false then
        ownMod o.sub (fun w => { w with cdc := some 0 }) { d with ops := tins (tdel d.ops t) t { o with cond := .complete } }
      else opComplete t .badBlock .ok d
  | none => d

/-- The engine's own read of a scratch area fails (R81, R230): the command in hand ends with CDC, and nothing of it is transferred. -/
def engineFails (n : Nat) (d : Dev) : Dev :=
  match progOf d n, handlerOf d (subGet d n) with
  | some p, some h =>
      let (a, w) := p.chain.headD (0, 0)
      if p.stage = .ready then endNow n (subGet d n) h p (endC csCdc a (ccwCount w)) none d else d
  | _, _ => d

/-- A reader waits no more: all it waits for is forgotten. -/
def dropReader (r : BlockUser) (d : Dev) : Dev := { d with refills := d.refills.filter (fun y => y.reader ≠ r) }

/-- A read fails under R230 or R231: RESEND_FAIL, RFAIL, Contained, and what its reader gets. -/
def readFailed (b : Nat) (r : BlockUser) (d : Dev) : Dev :=
  let k := blkBank b
  let d := pageEvent (0x80 + k) 1 (regBump .resendFail k (dropReader r d))
  let d := reportFault 3 3 k (readerPorts d r) d
  match r with
  | .chan c a => if (chGet d c).st = .run then liveM (chHalt c 8 (some a)) d else d
  | .cmd t => liveP (cmdFails t) d
  | .device p t off len => liveP (cmdFails t) (emit (.devAnswer p 2 (memRead d.plaza off len)) d)
  | .xfer t => liveP (xferFails t b) d
  | .cpLoad i a => failLoad i a b d
  | .engine n => liveP (engineFails n) d
  | .copy _ => d

/-- The refill of a block is asked for (R228): the host's bytes, the logical blocks, or the window's bytes. A burst within Plaza is
computed again with nothing to ask. -/
def refillAsk (g : BlockSrc) (d : Dev) : Dev :=
  match g with
  | .host f a => sendHost .any f (.read a 256) d
  | .nvme n nsid lba k _ =>
      let t := d.nextTok
      emit (.devOp (pathNow d (subGet d n)) n t (.nvmeRead nsid lba k)) { d with nextTok := t + 1 }
  | .window n off => emit (.devRead (pathNow d (subGet d n)) (BitVec.ofNat 64 ((subGet d n).hpriv.base + off)) 256) d
  | _ => d

/-- PLAZA_CRC_MISMATCH (R20, R228, R230): the read is held and the block is refilled, or the read fails at once. A read of a block in
refill joins it. -/
def crcMismatch (b : Nat) (origin : BlockSrc) (r : BlockUser) (d : Dev) : Dev :=
  if 0x40000 ≤ b then d
  else if (d.refills.any (fun x => decide (x.blk = b))) = true then joinRefill b r d
  else
    let d := mismatch b r d
    if noRefill origin || decide (regFld d .pzResend 0 2 0 = 0) then readFailed b r d
    else refillAsk origin { d with refills := d.refills ++ [⟨b, origin, r, 0, holdEnd d r⟩] }

/-- Bytes of Plaza at an offset of a scratch area, or of all Plaza. -/
def prodRead (d : Dev) (area : Option Nat) (off n : Nat) : List Byte :=
  match area with
  | none => memRead d.plaza off n
  | some a => areaRead d a off n

/-- A check block computed again from its source blocks (R228). -/
def produced (d : Dev) : PlazaProd → List Byte
  | .move a off => prodRead d a off 256
  | .xform ctl a src len off => ((xfApply ctl (prodRead d a src len)).drop off).take 256
  | .parityP a l => parityP 256 (l.map (fun x => prodRead d a x 256))
  | .parityQ a l => parityQ 256 (l.map (fun x => prodRead d a x 256))

/-- What a refill brings (R228, R229): the bytes of the block, from outside or computed; what a re-read of logical blocks brings beside it is
discarded. None where its transfer failed. -/
def refillBytes (d : Dev) (g : BlockSrc) (res : HostRead) : Option (List Byte) :=
  match res, g with
  | .err _, _ => none
  | .ok _, .plaza q => some (fitBytes 256 (produced d q))
  | .ok b, .nvme _ _ _ _ off => some (fitBytes 256 (b.drop off))
  | .ok b, _ => some (fitBytes 256 b)

/-- A reader goes on when the block has passed (R230, R231): a device's read is answered once no block of it is held. -/
def readerGoes (b : Nat) (d : Dev) (x : Refill) : Dev :=
  match x.reader with
  | .device p _ off len => if d.refills.any (fun y => decide (y.reader = x.reader)) then d else emit (.devAnswer p 0 (memRead d.plaza off len)) d
  | .cpLoad i a => refreshLoad i a b d
  | _ => d

/-- One more refill of a block has failed (R230): the reads at their limit fail, and for the rest it is asked for again. -/
def refillAgain (b : Nat) (g : BlockSrc) (l : List Refill) (d : Dev) : Dev :=
  let lim := regFld d .pzResend 0 2 0
  let lost := l.filter (fun x => decide (lim ≤ x.tries + 1))
  let kept := (l.filter (fun x => !(decide (lim ≤ x.tries + 1)))).map (fun x => { x with tries := x.tries + 1 })
  let d := { d with refills := d.refills ++ kept }
  let d := if kept.isEmpty then d else refillAsk g d
  lost.foldl (fun d x => readFailed b x.reader d) d

/-- PLAZA_REFILL_COMPLETE (R228 to R231): the block alone is written, and checked again as its reads go on. -/
def refillDone (b : Nat) (res : HostRead) (passes : Bool) (d : Dev) : Dev :=
  match d.refills.filter (fun x => x.blk = b) with
  | [] => d
  | x :: t =>
      let d' := { d with refills := d.refills.filter (fun y => y.blk ≠ b) }
      match refillBytes d x.origin res with
      | none => refillAgain b x.origin (x :: t) d'
      | some bytes =>
          let d' := { d' with plaza := memWrite d'.plaza (256 * b) bytes }
          if passes then (x :: t).foldl (readerGoes b) (deviceFault 0 3 (blkBank b) (regBump .resendOk (blkBank b) d'))
          else refillAgain b x.origin (x :: t) ((x :: t).foldl (fun d y => mismatch b y.reader d) d')

/-- Is the reader of a refill a downstream device? -/
def Refill.held (x : Refill) : Bool := match x.reader with | .device _ _ _ _ => true | _ => false

/-- PLAZA_HOLD_EXPIRY (R231): the hold of the downstream read that has waited longest for a block ends. -/
def holdExpiry (b : Nat) (d : Dev) : Dev :=
  match d.refills.find? (fun x => decide (x.blk = b) && x.held) with
  | some x => readFailed b x.reader (advanceTo x.due d)
  | none => d

/-- PLAZA_CRC_MISMATCH (R228, R230). -/
def execPlazaCrcMismatch (blk : Nat) (origin : BlockSrc) (reader : BlockUser) (s : State) :
    Host.Outcome State Fault Refusal := run s (crcMismatch blk origin reader)

/-- PLAZA_REFILL_COMPLETE (R228 to R231). -/
def execPlazaRefillComplete (blk : Nat) (res : HostRead) (passes : Bool) (s : State) : Host.Outcome State Fault Refusal :=
  run s (refillDone blk res passes)

/-- PLAZA_HOLD_EXPIRY (R231). -/
def execPlazaHoldExpiry (blk : Nat) (s : State) : Host.Outcome State Fault Refusal := run s (holdExpiry blk)

/-! ### Faults and repair -/

/-- HEARTBEAT_TIMEOUT (R441): a CP that should retire instructions or wait has sent no heartbeat; one that a debugger holds
counts as waiting (R508). -/
def execHeartbeatTimeout (cp : Nat) (s : State) : Host.Outcome State Fault Refusal :=
  run s (fun d => if (cpGet d cp).halted then d else liveP id (cpFail cp true false d))

/-- CP_ECC_ERROR (R431, R441): declared at once. -/
def execCpEccError (cp : Nat) (s : State) : Host.Outcome State Fault Refusal :=
  run s (fun d => liveP id (cpFail cp false false d))

/-- CONTEXT_BANK_FAULT (R431, R440): of a segment, or of the bank's shared logic. -/
def execContextBankFault (d : Nat) (logic : Bool) (s : State) : Host.Outcome State Fault Refusal :=
  run s (liveP (bankCtxFault d logic false))

/-- DISTRICT_CLOCK_FAULT (R431). -/
def execDistrictClockFault (d : Nat) (s : State) : Host.Outcome State Fault Refusal := run s (clockFault d)

/-- BULK_MEMORY_FAILURE (R432). -/
def execBulkMemoryFailure (s : State) : Host.Outcome State Fault Refusal := run s hbmFail

/-- SPARE_BIST_COMPLETE (R588). -/
def execSpareBistComplete (cp : Nat) (pass : Bool) (s : State) : Host.Outcome State Fault Refusal :=
  run s (fun d => if cp < 72 then bistDone cp pass d else d)

/-- HBM_SCRUB_PASS (R466). -/
def execHbmScrubPass (corrected recurring : Nat) (lost : List HbmLoss) (s : State) : Host.Outcome State Fault Refusal :=
  run s (scrubPass corrected recurring lost)

/-- SPARE_ROTATION (R395, R460): the period of a district has passed. -/
def execSpareRotation (d : Nat) (s : State) : Host.Outcome State Fault Refusal :=
  run s (fun x => if d < 8 ∧ regFld x .dsRotCtl d 7 0 ≠ 0 then rotate d x else x)

end Sys2Proof.Machine
end

