-- ==== Sys2Proof/Machine/RegRows.lean ====
section
/-!
DEFINITION. The commands that are accesses to BAR 0 and BAR 4: each is one access of its origin at the place of its
register, under the checks of R405 and R409. What the row names happens when the value written asks for it.
-/
namespace Sys2Proof.Machine

open Sys2Proof

/-- SR_CTL_EN_SET (R172): a write of SR_CTL of a start ring. -/
def execSrCtlEnSet (o : Origin) (ring : Nat) (val : Word) (s : State) :
    Host.Outcome State Fault Refusal :=
  run s (write32 o (0x200 + ring / 16) (0x110 + 0x20 * (ring % 16)) val)

/-- CR_CTL_EN_WRITE (R158, R173): a write of CR_CTL of a completion ring. -/
def execCrCtlEnWrite (o : Origin) (ring : Nat) (val : Word) (s : State) :
    Host.Outcome State Fault Refusal :=
  run s (write32 o (0x200 + ring / 16) (0x308 + 0x40 * (ring % 16)) val)

/-- CR_OWN_WRITE (R174): a write of CR_OWN. -/
def execCrOwnWrite (o : Origin) (ring : Nat) (val : Word) (s : State) :
    Host.Outcome State Fault Refusal :=
  run s (write32 o (0x200 + ring / 16) (0x30C + 0x40 * (ring % 16)) val)

/-- MOVER_DISABLE (R215): a write of CH_CTL. -/
def execMoverDisable (o : Origin) (chan : Nat) (val : Word) (s : State) :
    Host.Outcome State Fault Refusal :=
  run s (write32 o (0x0C0 + chan / 64) (0x800 + 0x20 * (chan % 64)) val)

/-- MOVER_CLR_ERR (R211): a write of CH_CTL. -/
def execMoverClrErr (o : Origin) (chan : Nat) (val : Word) (s : State) :
    Host.Outcome State Fault Refusal :=
  run s (write32 o (0x0C0 + chan / 64) (0x800 + 0x20 * (chan % 64)) val)

/-- CH_PROG_WRITE (R217): a write of CH_PROG clears SIGCNT. -/
def execChProgWrite (o : Origin) (chan : Nat) (val : DWord) (s : State) :
    Host.Outcome State Fault Refusal :=
  run s (write64 o (0x0C0 + chan / 64) (0x808 + 0x20 * (chan % 64)) val)

/-- FF_CFG_WRITE (R250, R255). -/
def execFfCfgWrite (o : Origin) (val : Word) (s : State) :
    Host.Outcome State Fault Refusal :=
  run s (write32 o 5 0x044 val)

/-- FF_HWM_WRITE (R255). -/
def execFfHwmWrite (o : Origin) (val : Word) (s : State) :
    Host.Outcome State Fault Refusal :=
  run s (write32 o 5 0x054 val)

/-- SG_PIN_APPLY (R276): a write of SG_PIN_CTL. -/
def execSgPinApply (o : Origin) (val : Word) (s : State) :
    Host.Outcome State Fault Refusal :=
  run s (write32 o 3 0x804 val)

/-- SG_REC_SEL_WRITE (R280). -/
def execSgRecSelWrite (o : Origin) (val : Word) (s : State) :
    Host.Outcome State Fault Refusal :=
  run s (write32 o 3 0x048 val)

/-- SG_LOG_RD_WRITE (R282). -/
def execSgLogRdWrite (o : Origin) (val : DWord) (s : State) :
    Host.Outcome State Fault Refusal :=
  run s (write64 o 3 0x088 val)

/-- SET_PEND (R370, R392). -/
def execSetPend (o : Origin) (val : Word) (s : State) :
    Host.Outcome State Fault Refusal :=
  run s (write32 o 4 0x070 val)

/-- CLR_PEND (R370, R392). -/
def execClrPend (o : Origin) (val : Word) (s : State) :
    Host.Outcome State Fault Refusal :=
  run s (write32 o 4 0x074 val)

/-- SET_EN (R370, R392). -/
def execSetEn (o : Origin) (val : Word) (s : State) : Host.Outcome State Fault Refusal :=
  run s (write32 o 4 0x078 val)

/-- CLR_EN (R370, R392). -/
def execClrEn (o : Origin) (val : Word) (s : State) : Host.Outcome State Fault Refusal :=
  run s (write32 o 4 0x07C val)

/-- SRC_TGT_WRITE (R372, R377, R392). -/
def execSrcTgtWrite (o : Origin) (val : DWord) (s : State) :
    Host.Outcome State Fault Refusal :=
  run s (write64 o 4 0x800 val)

/-- SRC_CTL_WRITE (R371, R377, R392). -/
def execSrcCtlWrite (o : Origin) (val : Word) (s : State) :
    Host.Outcome State Fault Refusal :=
  run s (write32 o 4 0x808 val)

/-- EVT_PENDING_WRITE (R389, R407): the write replaces the event bits of a page. -/
def execEvtPendingWrite (o : Origin) (page : Nat) (val : Word) (s : State) :
    Host.Outcome State Fault Refusal :=
  run s (write32 o page 0x018 val)

/-- DS_ROT_NOW (R460, R465): a write of DS_ROT_CTL. -/
def execDsRotNow (o : Origin) (d : Nat) (val : Word) (s : State) :
    Host.Outcome State Fault Refusal :=
  run s (write32 o (0x020 + d) 0x800 val)

/-- FAULT_INJECT (R464): a write of RP_INJ. -/
def execFaultInject (o : Origin) (val : Word) (s : State) :
    Host.Outcome State Fault Refusal :=
  run s (write32 o 11 0x804 val)

/-- XKEY_OPEN (R411, R412): a write of PG_XKEY. -/
def execXkeyOpen (o : Origin) (page : Nat) (val : Word) (s : State) :
    Host.Outcome State Fault Refusal :=
  run s (write32 o page 0x00C val)

/-- XKEY_CLOSE (R412, R413): a write of PG_XKEY. -/
def execXkeyClose (o : Origin) (page : Nat) (val : Word) (s : State) :
    Host.Outcome State Fault Refusal :=
  run s (write32 o page 0x00C val)

/-- XCLOSE (R407, R413): a write of PG_CTL. -/
def execXclose (o : Origin) (page : Nat) (val : Word) (s : State) :
    Host.Outcome State Fault Refusal :=
  run s (write32 o page 0x010 val)

/-- GL_XPOL_WRITE (R415, R416). -/
def execGlXpolWrite (o : Origin) (val : Word) (s : State) :
    Host.Outcome State Fault Refusal :=
  run s (write32 o 0 0x048 val)

/-- GL_PLOCK_WRITE (R415, R416). -/
def execGlPlockWrite (o : Origin) (val : Word) (s : State) :
    Host.Outcome State Fault Refusal :=
  run s (write32 o 0 0x050 val)

/-- GL_DBGPOL_WRITE (R415, R416). -/
def execGlDbgpolWrite (o : Origin) (val : Word) (s : State) :
    Host.Outcome State Fault Refusal :=
  run s (write32 o 0 0x054 val)

/-- GL_FN_PERM_WRITE (R417). -/
def execGlFnPermWrite (o : Origin) (val : Word) (s : State) :
    Host.Outcome State Fault Refusal :=
  run s (write32 o 0 0x05C val)

/-- COMMIT (R418, R419): a write of GL_RES_CMD. -/
def execCommit (o : Origin) (val : DWord) (s : State) :
    Host.Outcome State Fault Refusal :=
  run s (write64 o 0 0x080 val)

/-- RELEASE (R418, R419): a write of GL_RES_CMD. -/
def execRelease (o : Origin) (val : DWord) (s : State) :
    Host.Outcome State Fault Refusal :=
  run s (write64 o 0 0x080 val)

/-- QUERY (R418, R419): a write of GL_RES_CMD. -/
def execQuery (o : Origin) (val : DWord) (s : State) :
    Host.Outcome State Fault Refusal :=
  run s (write64 o 0 0x080 val)

/-- AU_RD_WRITE (R427). -/
def execAuRdWrite (o : Origin) (val : DWord) (s : State) :
    Host.Outcome State Fault Refusal :=
  run s (write64 o 7 0x050 val)

/-- AU_EXP_CTL_EN (R428, R430): a write of AU_EXP_CTL. -/
def execAuExpCtlEn (o : Origin) (val : Word) (s : State) :
    Host.Outcome State Fault Refusal :=
  run s (write32 o 7 0x0A8 val)

/-- AU_EXP_CONS_WRITE (R428, R430). -/
def execAuExpConsWrite (o : Origin) (val : Word) (s : State) :
    Host.Outcome State Fault Refusal :=
  run s (write32 o 7 0x0C0 val)

/-- JN_RD_WRITE (R458). -/
def execJnRdWrite (o : Origin) (val : DWord) (s : State) :
    Host.Outcome State Fault Refusal :=
  run s (write64 o 6 0x050 val)

/-- JN_MARK (R452, R458). -/
def execJnMark (o : Origin) (val : Word) (s : State) :
    Host.Outcome State Fault Refusal :=
  run s (write32 o 6 0x800 val)

/-- FZ_CTL_GO (R491): a write of FZ_CTL. -/
def execFzCtlGo (o : Origin) (val : Word) (s : State) :
    Host.Outcome State Fault Refusal :=
  run s (write32 o 12 0x800 val)

/-- DB_CPCTL_RESUME (R508): a write of DB_CPCTL. -/
def execDbCpctlResume (o : Origin) (val : Word) (s : State) :
    Host.Outcome State Fault Refusal :=
  run s (write32 o 12 0x81C val)

/-- DB_CPREG_WRITE (R508, R509). -/
def execDbCpregWrite (o : Origin) (i : Nat) (val : Word) (s : State) :
    Host.Outcome State Fault Refusal :=
  run s (write32 o 12 (0x820 + 4 * i) val)

/-- DB_SNAP_GO (R507): a write of DB_SNAP. -/
def execDbSnapGo (o : Origin) (val : Word) (s : State) :
    Host.Outcome State Fault Refusal :=
  run s (write32 o 12 0x100 val)

/-- DB_SWTRACE (R506, R509). -/
def execDbSwtrace (o : Origin) (val : DWord) (s : State) :
    Host.Outcome State Fault Refusal :=
  run s (write64 o 12 0x088 val)

/-- TR_RD_WRITE (R506, R509). -/
def execTrRdWrite (o : Origin) (val : DWord) (s : State) :
    Host.Outcome State Fault Refusal :=
  run s (write64 o 12 0x060 val)

/-- DP_RELEASE (R527): a write of DP_CTL. -/
def execDpRelease (o : Origin) (port : Nat) (val : Word) (s : State) :
    Host.Outcome State Fault Refusal :=
  run s (write32 o (0x040 + port) 0x060 val)

/-- DP_RETRAIN (R530): a write of DP_CTL. -/
def execDpRetrain (o : Origin) (port : Nat) (val : Word) (s : State) :
    Host.Outcome State Fault Refusal :=
  run s (write32 o (0x040 + port) 0x060 val)

/-- DP_LRETRY_GO (R528, R530). -/
def execDpLretryGo (o : Origin) (port : Nat) (val : Word) (s : State) :
    Host.Outcome State Fault Refusal :=
  run s (write32 o (0x040 + port) 0x800 val)

/-- AV_CFG_BIF_WRITE (R520, R529). -/
def execAvCfgBifWrite (o : Origin) (avenue : Nat) (val : Word) (s : State) :
    Host.Outcome State Fault Refusal :=
  run s (write32 o (0x018 + avenue) 0x800 val)

/-- UP_ATC_FLUSH (R515, R519). -/
def execUpAtcFlush (o : Origin) (port : Nat) (val : Word) (s : State) :
    Host.Outcome State Fault Refusal :=
  run s (write32 o (0x010 + port) 0x804 val)

/-- TM_GPIO_SET (R533, R534). -/
def execTmGpioSet (o : Origin) (val : Word) (s : State) :
    Host.Outcome State Fault Refusal :=
  run s (write32 o 8 0x0C8 val)

/-- TM_GPIO_CLR (R533, R534). -/
def execTmGpioClr (o : Origin) (val : Word) (s : State) :
    Host.Outcome State Fault Refusal :=
  run s (write32 o 8 0x0CC val)

/-- SG_EXCL_WRITE (R277): a write of SG_EXCL of the selected function, or of SG_EXCL_ALL. -/
def execSgExclWrite (o : Origin) (all : Bool) (val : DWord) (s : State) : Host.Outcome State Fault Refusal :=
  run s (write64 o 3 (if all then 0x818 else 0x810) val)

/-- MOVER_GO (R181): a write of CH_CTL; the header of the program it starts comes with the command. -/
def execMoverGo (o : Origin) (chan : Nat) (val : Word) (hdr : HostRead) (s : State) : Host.Outcome State Fault Refusal :=
  run s (fun d =>
    let d := write32 o (0x0C0 + chan / 64) (0x800 + 0x20 * (chan % 64)) val d
    let x := chGet d chan
    if x.st = .run ∧ x.needHdr = true ∧ bit val 30 = true then hostHeader chan hdr d else d)

/-- REGISTER_WRITE (R405): a write of BAR 0 at any offset. -/
def execRegisterWrite (o : Origin) (off size : Nat) (val : DWord) (s : State) : Host.Outcome State Fault Refusal :=
  run s (barWrite o off size val)

/-- Where READ_CLEAR_STATUS finds a function's configuration space among its offsets, in this model. -/
def cfgBase : Nat := 0x40000000

/-- The 4 bytes of a function's configuration space at word i (R2, R514): vendor and device, revision and class code. Where the rest
stands and what it reads is not given: a free value. -/
def cfgWord (f : FnId) (i : Nat) (d : Dev) : Nat × Dev :=
  if i = 0 then (fieldN 31 16 (if f.fn = 0 then 0x9640 else 0x9641) + fieldN 15 0 0x1F4B, d)
  else if i = 2 then (fieldN 31 8 0x120000 + fieldN 7 0 0xB1, d)
  else (let (v, d) := freeNext d; (v.toNat % 2 ^ 32, d))

/-- A read of configuration space: bytes of one word. -/
def cfgRead (f : FnId) (off size : Nat) (d : Dev) : Dev :=
  if off < 0x1000 ∧ 0 < size ∧ off % 4 + size ≤ 4 then
    let (v, d) := cfgWord f (off / 4) d
    emit (.window f ((leBytes 4 v).drop (off % 4) |>.take size)) d
  else emit (.unsupported (fnOrigin f)) d

/-- READ_CLEAR_STATUS (R12, R400, R409): a read of BAR 0. Offsets from 64 MiB on address the other ranges of the origin's function
(log entry 92): BAR 4 (R455, R456), BAR 2 (R137, R164), the CXL.mem range of its port (R518), configuration space (R2, R514). -/
def execReadClearStatus (o : Origin) (off size : Nat) (s : State) : Host.Outcome State Fault Refusal :=
  run s (fun d =>
    if off < 0x4000000 then barReadOp o off size d
    else match originFn o with
      | none => emit (.unsupported o) d
      | some f =>
          if off < bar2Base then bar4Read f (off - 0x4000000) size d
          else if off < hdmBase then
            (if off - bar2Base < 0x400000 then bar2Read f (off - bar2Base) size d else emit (.unsupported o) d)
          else if off < cfgBase then
            (if off - hdmBase < 0x20000000 then hdmRead f.port (off - hdmBase) size d else emit (.unsupported o) d)
          else cfgRead f (off - cfgBase) size d)

/-- PG_XKEY_READ (R402, R412): the read makes a new challenge. -/
def execPgXkeyRead (o : Origin) (page : Nat) (s : State) : Host.Outcome State Fault Refusal :=
  run s (barReadOp o (4096 * page + 0x00C) 4)

/-- DEVTIME_LOW_READ (R27). -/
def execDevtimeLowRead (o : Origin) (s : State) : Host.Outcome State Fault Refusal :=
  run s (barReadOp o (4096 * 8 + 0x040) 4)

/-- SE_NONCE_READ (R490). -/
def execSeNonceRead (o : Origin) (s : State) : Host.Outcome State Fault Refusal :=
  run s (barReadOp o (4096 + 0x070) 4)

/-- EXPERT_IDLE_CLOSE (R413): GL_XTMO.MS have passed without an accepted expert write of the origin to the page. -/
def execExpertIdleClose (o : Origin) (page : Nat) (s : State) : Host.Outcome State Fault Refusal :=
  run s (fun d =>
    let ms := regFld d .glXtmo 0 15 0
    match d.xmodes.find? (fun m => decide (m.origin = o) && decide (m.page = page)) with
    | some m =>
        if ms = 0 then d
        else xExpire (advanceTo (m.at_ + BitVec.ofNat 64 (ms * 1000000)) d)
    | none => d)

/-- AUDIT_WRITE_RESUME (R424). -/
def execAuditWriteResume (s : State) : Host.Outcome State Fault Refusal := run s auditResume

/-- AUDIT_EXPORT_WRITE (R428). -/
def execAuditExportWrite (s : State) : Host.Outcome State Fault Refusal := run s auditExport

/-- JCTL_WRITE (R452, R455): a write of BAR 4 of a function. -/
def execJctlWrite (fn : FnId) (off size : Nat) (val : DWord) (s : State) : Host.Outcome State Fault Refusal :=
  run s (jctlWrite fn off size val)

/-- JX_CTL_EN (R456): a write of JX_CTL. -/
def execJxCtlEn (fn : FnId) (val : Word) (s : State) : Host.Outcome State Fault Refusal :=
  run s (jctlWrite fn 0x28 4 (val.zeroExtend 64))

/-- JOURNAL_EXPORT_WRITE (R456). -/
def execJournalExportWrite (fn : FnId) (res : WriteRes) (s : State) : Host.Outcome State Fault Refusal :=
  run s (journalExport fn res)

/-- Is an MCTP message that arrived on a path an access of origin BMC (R538)? -/
def vdmOk (d : Dev) (path port : Nat) : Bool := decide (path ≠ 2) || decide (regFld d .upMctp port 31 31 = 1)

/-- REG_READ (R537, R538). -/
def execRegRead (path port : Nat) (off size : Nat) (s : State) : Host.Outcome State Fault Refusal :=
  run s (fun d =>
    if vdmOk d path port then barReadOp (.bmc path) off size d else emit (.sideband path [1, 0x90, 3]) d)

/-- REG_WRITE (R537, R538). -/
def execRegWrite (path port : Nat) (off size : Nat) (val : DWord) (s : State) : Host.Outcome State Fault Refusal :=
  run s (fun d =>
    if vdmOk d path port then barWrite (.bmc path) off size val d else emit (.sideband path [1, 0x91, 3]) d)

end Sys2Proof.Machine
end

