-- ==== Sys2Proof/Machine/Dispatch.lean ====
section
/-!
DEFINITION. What each command does: one arm for each constructor of Instr, each one direct call of its meaning.
-/
namespace Sys2Proof.Machine

open Sys2Proof

/-- The meaning of a command. -/
def exec (i : Instr) (s : State) : Host.Outcome State Fault Refusal :=
  match i with
  | .startRingPoll ring => Sys2Proof.Machine.execStartRingPoll ring s
  | .cxlLineInvalidate ring => Sys2Proof.Machine.execCxlLineInvalidate ring s
  | .directStartWrite fn off oneTlp bytes => Sys2Proof.Machine.execDirectStartWrite fn off oneTlp bytes s
  | .takeInResume => Sys2Proof.Machine.execTakeInResume s
  | .start jseq => Sys2Proof.Machine.execStart jseq s
  | .resume jseq => Sys2Proof.Machine.execResume jseq s
  | .halt jseq => Sys2Proof.Machine.execHalt jseq s
  | .clear jseq accepts => Sys2Proof.Machine.execClear jseq accepts s
  | .modify jseq blk => Sys2Proof.Machine.execModify jseq blk s
  | .store jseq res => Sys2Proof.Machine.execStore jseq res s
  | .test jseq => Sys2Proof.Machine.execTest jseq s
  | .bind jseq blk env => Sys2Proof.Machine.execBind jseq blk env s
  | .workClaim cp => Sys2Proof.Machine.execWorkClaim cp s
  | .ccwFetchComplete sub res => Sys2Proof.Machine.execCcwFetchComplete sub res s
  | .write sub io => Sys2Proof.Machine.execWrite sub io s
  | .read sub io => Sys2Proof.Machine.execRead sub io s
  | .nop sub => Sys2Proof.Machine.execNop sub s
  | .sense sub io wr => Sys2Proof.Machine.execSense sub io wr s
  | .control sub blk ns => Sys2Proof.Machine.execControl sub blk ns s
  | .tic sub => Sys2Proof.Machine.execTic sub s
  | .copy sub desc data wr => Sys2Proof.Machine.execCopy sub desc data wr s
  | .peer sub => Sys2Proof.Machine.execPeer sub s
  | .waitEvent sub => Sys2Proof.Machine.execWaitEvent sub s
  | .waitEventTimeout sub => Sys2Proof.Machine.execWaitEventTimeout sub s
  | .signalEvent sub => Sys2Proof.Machine.execSignalEvent sub s
  | .mover sub hdr => Sys2Proof.Machine.execMover sub hdr s
  | .stripe sub io => Sys2Proof.Machine.execStripe sub io s
  | .flush sub => Sys2Proof.Machine.execFlush sub s
  | .deallocate sub => Sys2Proof.Machine.execDeallocate sub s
  | .writeZeroes sub => Sys2Proof.Machine.execWriteZeroes sub s
  | .identify sub => Sys2Proof.Machine.execIdentify sub s
  | .compare sub io => Sys2Proof.Machine.execCompare sub io s
  | .fence sub => Sys2Proof.Machine.execFence sub s
  | .writeImm sub => Sys2Proof.Machine.execWriteImm sub s
  | .downstreamOpComplete op res wr => Sys2Proof.Machine.execDownstreamOpComplete op res wr s
  | .handlerTimeout op cond => Sys2Proof.Machine.execHandlerTimeout op cond s
  | .downstreamLinkError op cond aer => Sys2Proof.Machine.execDownstreamLinkError op cond aer s
  | .deviceOrHandlerLost scope qual begun => Sys2Proof.Machine.execDeviceOrHandlerLost scope qual begun s
  | .attention sub => Sys2Proof.Machine.execAttention sub s
  | .leaseExpiry sub => Sys2Proof.Machine.execLeaseExpiry sub s
  | .crDoorbell fn ring size val => Sys2Proof.Machine.execCrDoorbell fn ring size val s
  | .msixHoldoffExpiry ring => Sys2Proof.Machine.execMsixHoldoffExpiry ring s
  | .msixUnmask fn vec => Sys2Proof.Machine.execMsixUnmask fn vec s
  | .d3hotEntry fn => Sys2Proof.Machine.execD3hotEntry fn s
  | .d0Return fn => Sys2Proof.Machine.execD0Return fn s
  | .srCtlEnSet o ring val => Sys2Proof.Machine.execSrCtlEnSet o ring val s
  | .crCtlEnWrite o ring val => Sys2Proof.Machine.execCrCtlEnWrite o ring val s
  | .crOwnWrite o ring val => Sys2Proof.Machine.execCrOwnWrite o ring val s
  | .shadowWrite ring => Sys2Proof.Machine.execShadowWrite ring s
  | .moverGo o chan val hdr => Sys2Proof.Machine.execMoverGo o chan val hdr s
  | .moverDisable o chan val => Sys2Proof.Machine.execMoverDisable o chan val s
  | .moverClrErr o chan val => Sys2Proof.Machine.execMoverClrErr o chan val s
  | .chProgWrite o chan val => Sys2Proof.Machine.execChProgWrite o chan val s
  | .move chan w io => Sys2Proof.Machine.execMove chan w io s
  | .movex chan w io => Sys2Proof.Machine.execMovex chan w io s
  | .loop chan w io => Sys2Proof.Machine.execLoop chan w io s
  | .moverWait chan w io => Sys2Proof.Machine.execMoverWait chan w io s
  | .moverWaitDelayExpiry chan => Sys2Proof.Machine.execMoverWaitDelayExpiry chan s
  | .signal chan w io => Sys2Proof.Machine.execSignal chan w io s
  | .xform chan w io => Sys2Proof.Machine.execXform chan w io s
  | .parity chan w io => Sys2Proof.Machine.execParity chan w io s
  | .moverNop chan w io => Sys2Proof.Machine.execMoverNop chan w io s
  | .progEnd chan w io => Sys2Proof.Machine.execProgEnd chan w io s
  | .moverBurstComplete chan res => Sys2Proof.Machine.execMoverBurstComplete chan res s
  | .moverBurstRetry chan io => Sys2Proof.Machine.execMoverBurstRetry chan io s
  | .pzReservationGrant cls => Sys2Proof.Machine.execPzReservationGrant cls s
  | .plazaCrcMismatch blk origin reader => Sys2Proof.Machine.execPlazaCrcMismatch blk origin reader s
  | .plazaRefillComplete blk res passes => Sys2Proof.Machine.execPlazaRefillComplete blk res passes s
  | .plazaHoldExpiry blk => Sys2Proof.Machine.execPlazaHoldExpiry blk s
  | .plazaBankFault bank kind => Sys2Proof.Machine.execPlazaBankFault bank kind s
  | .bankRetired bank => Sys2Proof.Machine.execBankRetired bank s
  | .scratchSliceCopy slice target => Sys2Proof.Machine.execScratchSliceCopy slice target s
  | .boulevardFlitError hop flits => Sys2Proof.Machine.execBoulevardFlitError hop flits s
  | .boulevardPortFault port => Sys2Proof.Machine.execBoulevardPortFault port s
  | .moverLaneGroupFault group => Sys2Proof.Machine.execMoverLaneGroupFault group s
  | .roundaboutDecision isOutput index raise bursts => Sys2Proof.Machine.execRoundaboutDecision isOutput index raise bursts s
  | .watchThreshold isOutput index cls src => Sys2Proof.Machine.execWatchThreshold isOutput index cls src s
  | .deepFifoMiddleMove fifo altCopy => Sys2Proof.Machine.execDeepFifoMiddleMove fifo altCopy s
  | .ffCfgWrite o val => Sys2Proof.Machine.execFfCfgWrite o val s
  | .ffHwmWrite o val => Sys2Proof.Machine.execFfHwmWrite o val s
  | .signpostSample kind index lat q load => Sys2Proof.Machine.execSignpostSample kind index lat q load s
  | .rebalancePeriod => Sys2Proof.Machine.execRebalancePeriod s
  | .pinMove sub => Sys2Proof.Machine.execPinMove sub s
  | .moverChannelAssign sub => Sys2Proof.Machine.execMoverChannelAssign sub s
  | .sgPinApply o val => Sys2Proof.Machine.execSgPinApply o val s
  | .sgExclWrite o all val => Sys2Proof.Machine.execSgExclWrite o all val s
  | .sgRecSelWrite o val => Sys2Proof.Machine.execSgRecSelWrite o val s
  | .sgLogRdWrite o val => Sys2Proof.Machine.execSgLogRdWrite o val s
  | .junctionSourceFire src => Sys2Proof.Machine.execJunctionSourceFire src s
  | .levelSourceChange src level => Sys2Proof.Machine.execLevelSourceChange src level s
  | .privLatchSet src => Sys2Proof.Machine.execPrivLatchSet src s
  | .downstreamMsi port data => Sys2Proof.Machine.execDownstreamMsi port data s
  | .junctionPresentation => Sys2Proof.Machine.execJunctionPresentation s
  | .claimN cp => Sys2Proof.Machine.execClaimN cp s
  | .claimF cp => Sys2Proof.Machine.execClaimF cp s
  | .eoi cp val => Sys2Proof.Machine.execEoi cp val s
  | .setSrc cp val => Sys2Proof.Machine.execSetSrc cp val s
  | .setPend o val => Sys2Proof.Machine.execSetPend o val s
  | .clrPend o val => Sys2Proof.Machine.execClrPend o val s
  | .setEn o val => Sys2Proof.Machine.execSetEn o val s
  | .clrEn o val => Sys2Proof.Machine.execClrEn o val s
  | .srcTgtWrite o val => Sys2Proof.Machine.execSrcTgtWrite o val s
  | .srcCtlWrite o val => Sys2Proof.Machine.execSrcCtlWrite o val s
  | .holdoffExpiry grp => Sys2Proof.Machine.execHoldoffExpiry grp s
  | .evtPendingWrite o page val => Sys2Proof.Machine.execEvtPendingWrite o page val s
  | .spareRotation d => Sys2Proof.Machine.execSpareRotation d s
  | .dsRotNow o d val => Sys2Proof.Machine.execDsRotNow o d val s
  | .add cp f => Sys2Proof.Machine.execAdd cp f s
  | .addc cp f => Sys2Proof.Machine.execAddc cp f s
  | .sub cp f => Sys2Proof.Machine.execSub cp f s
  | .subc cp f => Sys2Proof.Machine.execSubc cp f s
  | .andR cp f => Sys2Proof.Machine.execAndR cp f s
  | .orR cp f => Sys2Proof.Machine.execOrR cp f s
  | .xorR cp f => Sys2Proof.Machine.execXorR cp f s
  | .andn cp f => Sys2Proof.Machine.execAndn cp f s
  | .shl cp f => Sys2Proof.Machine.execShl cp f s
  | .shr cp f => Sys2Proof.Machine.execShr cp f s
  | .sar cp f => Sys2Proof.Machine.execSar cp f s
  | .cmp cp f => Sys2Proof.Machine.execCmp cp f s
  | .tst cp f => Sys2Proof.Machine.execTst cp f s
  | .neg cp f => Sys2Proof.Machine.execNeg cp f s
  | .negs cp f => Sys2Proof.Machine.execNegs cp f s
  | .clz cp f => Sys2Proof.Machine.execClz cp f s
  | .movR cp f => Sys2Proof.Machine.execMovR cp f s
  | .mflk cp f => Sys2Proof.Machine.execMflk cp f s
  | .mtlk cp f => Sys2Proof.Machine.execMtlk cp f s
  | .addi cp f => Sys2Proof.Machine.execAddi cp f s
  | .andi cp f => Sys2Proof.Machine.execAndi cp f s
  | .ori cp f => Sys2Proof.Machine.execOri cp f s
  | .xori cp f => Sys2Proof.Machine.execXori cp f s
  | .cmpi cp f => Sys2Proof.Machine.execCmpi cp f s
  | .tsti cp f => Sys2Proof.Machine.execTsti cp f s
  | .shi cp f => Sys2Proof.Machine.execShi cp f s
  | .movi cp f => Sys2Proof.Machine.execMovi cp f s
  | .lui cp f => Sys2Proof.Machine.execLui cp f s
  | .movl cp f => Sys2Proof.Machine.execMovl cp f s
  | .mul cp f => Sys2Proof.Machine.execMul cp f s
  | .mulw cp f => Sys2Proof.Machine.execMulw cp f s
  | .mulwu cp f => Sys2Proof.Machine.execMulwu cp f s
  | .divS cp f => Sys2Proof.Machine.execDivS cp f s
  | .divu cp f => Sys2Proof.Machine.execDivu cp f s
  | .remS cp f => Sys2Proof.Machine.execRemS cp f s
  | .remu cp f => Sys2Proof.Machine.execRemu cp f s
  | .divs cp f => Sys2Proof.Machine.execDivs cp f s
  | .qadd cp f => Sys2Proof.Machine.execQadd cp f s
  | .qsub cp f => Sys2Proof.Machine.execQsub cp f s
  | .qmul cp f => Sys2Proof.Machine.execQmul cp f s
  | .mac cp f => Sys2Proof.Machine.execMac cp f s
  | .msu cp f => Sys2Proof.Machine.execMsu cp f s
  | .mula cp f => Sys2Proof.Machine.execMula cp f s
  | .aclr cp f => Sys2Proof.Machine.execAclr cp f s
  | .extA cp f => Sys2Proof.Machine.execExtA cp f s
  | .fadd cp f => Sys2Proof.Machine.execFadd cp f s
  | .fsub cp f => Sys2Proof.Machine.execFsub cp f s
  | .fmul cp f => Sys2Proof.Machine.execFmul cp f s
  | .fdiv cp f => Sys2Proof.Machine.execFdiv cp f s
  | .fsqrt cp f => Sys2Proof.Machine.execFsqrt cp f s
  | .fmin cp f => Sys2Proof.Machine.execFmin cp f s
  | .fmax cp f => Sys2Proof.Machine.execFmax cp f s
  | .fcmp cp f => Sys2Proof.Machine.execFcmp cp f s
  | .fmadd cp f => Sys2Proof.Machine.execFmadd cp f s
  | .fcvtsw cp f => Sys2Proof.Machine.execFcvtsw cp f s
  | .fcvtswu cp f => Sys2Proof.Machine.execFcvtswu cp f s
  | .fcvtws cp f => Sys2Proof.Machine.execFcvtws cp f s
  | .fcvtwus cp f => Sys2Proof.Machine.execFcvtwus cp f s
  | .fabs cp f => Sys2Proof.Machine.execFabs cp f s
  | .fneg cp f => Sys2Proof.Machine.execFneg cp f s
  | .fclass cp f => Sys2Proof.Machine.execFclass cp f s
  | .mfs cp f => Sys2Proof.Machine.execMfs cp f s
  | .mts cp f => Sys2Proof.Machine.execMts cp f s
  | .ldw cp f => Sys2Proof.Machine.execLdw cp f s
  | .ldh cp f => Sys2Proof.Machine.execLdh cp f s
  | .ldhu cp f => Sys2Proof.Machine.execLdhu cp f s
  | .ldb cp f => Sys2Proof.Machine.execLdb cp f s
  | .ldbu cp f => Sys2Proof.Machine.execLdbu cp f s
  | .ldd cp f => Sys2Proof.Machine.execLdd cp f s
  | .ldq cp f => Sys2Proof.Machine.execLdq cp f s
  | .stw cp f => Sys2Proof.Machine.execStw cp f s
  | .sth cp f => Sys2Proof.Machine.execSth cp f s
  | .stb cp f => Sys2Proof.Machine.execStb cp f s
  | .std cp f => Sys2Proof.Machine.execStd cp f s
  | .stq cp f => Sys2Proof.Machine.execStq cp f s
  | .longLoadComplete cp res => Sys2Proof.Machine.execLongLoadComplete cp res s
  | .postedStoreFail cp addr => Sys2Proof.Machine.execPostedStoreFail cp addr s
  | .bCond cp cond off => Sys2Proof.Machine.execBCond cp cond off s
  | .bl cp off => Sys2Proof.Machine.execBl cp off s
  | .jr cp f => Sys2Proof.Machine.execJr cp f s
  | .blr cp f => Sys2Proof.Machine.execBlr cp f s
  | .ret cp f => Sys2Proof.Machine.execRet cp f s
  | .cpNop cp f => Sys2Proof.Machine.execCpNop cp f s
  | .cpWait cp f => Sys2Proof.Machine.execCpWait cp f s
  | .eret cp f => Sys2Proof.Machine.execEret cp f s
  | .cpFence cp f => Sys2Proof.Machine.execCpFence cp f s
  | .isync cp f => Sys2Proof.Machine.execIsync cp f s
  | .brk cp f => Sys2Proof.Machine.execBrk cp f s
  | .ckpt cp f => Sys2Proof.Machine.execCkpt cp f s
  | .ckptMirrorAck d slot => Sys2Proof.Machine.execCkptMirrorAck d slot s
  | .svc cp f => Sys2Proof.Machine.execSvc cp f s
  | .normalInterruptEntry cp => Sys2Proof.Machine.execNormalInterruptEntry cp s
  | .fastInterruptEntry cp => Sys2Proof.Machine.execFastInterruptEntry cp s
  | .budgetExpiry cp => Sys2Proof.Machine.execBudgetExpiry cp s
  | .pzReserve cp sub => Sys2Proof.Machine.execPzReserve cp sub s
  | .pzRelease cp sub => Sys2Proof.Machine.execPzRelease cp sub s
  | .xferHost cp sub io => Sys2Proof.Machine.execXferHost cp sub io s
  | .xferHostComplete token res => Sys2Proof.Machine.execXferHostComplete token res s
  | .opIssue cp sub => Sys2Proof.Machine.execOpIssue cp sub s
  | .opState cp => Sys2Proof.Machine.execOpState cp s
  | .srcArm cp sub => Sys2Proof.Machine.execSrcArm cp sub s
  | .tmrArm cp sub => Sys2Proof.Machine.execTmrArm cp sub s
  | .packTimerExpiry token => Sys2Proof.Machine.execPackTimerExpiry token s
  | .senseSet cp sub => Sys2Proof.Machine.execSenseSet cp sub s
  | .apOpen cp => Sys2Proof.Machine.execApOpen cp s
  | .alertPost cp => Sys2Proof.Machine.execAlertPost cp s
  | .semAcq cp sem => Sys2Proof.Machine.execSemAcq cp sem s
  | .semRel cp sem val => Sys2Proof.Machine.execSemRel cp sem val s
  | .apertureDescriptorWrite cp off val => Sys2Proof.Machine.execApertureDescriptorWrite cp off val s
  | .heartbeatTimeout cp => Sys2Proof.Machine.execHeartbeatTimeout cp s
  | .cpEccError cp => Sys2Proof.Machine.execCpEccError cp s
  | .contextBankFault d logic => Sys2Proof.Machine.execContextBankFault d logic s
  | .districtClockFault d => Sys2Proof.Machine.execDistrictClockFault d s
  | .bulkMemoryFailure => Sys2Proof.Machine.execBulkMemoryFailure s
  | .spareBistComplete cp pass => Sys2Proof.Machine.execSpareBistComplete cp pass s
  | .faultInject o val => Sys2Proof.Machine.execFaultInject o val s
  | .hbmScrubPass corrected recurring lost => Sys2Proof.Machine.execHbmScrubPass corrected recurring lost s
  | .pgXkeyRead o page => Sys2Proof.Machine.execPgXkeyRead o page s
  | .xkeyOpen o page val => Sys2Proof.Machine.execXkeyOpen o page val s
  | .xkeyClose o page val => Sys2Proof.Machine.execXkeyClose o page val s
  | .xclose o page val => Sys2Proof.Machine.execXclose o page val s
  | .expertIdleClose o page => Sys2Proof.Machine.execExpertIdleClose o page s
  | .readClearStatus o off size => Sys2Proof.Machine.execReadClearStatus o off size s
  | .devtimeLowRead o => Sys2Proof.Machine.execDevtimeLowRead o s
  | .registerWrite o off size val => Sys2Proof.Machine.execRegisterWrite o off size val s
  | .auditWriteResume => Sys2Proof.Machine.execAuditWriteResume s
  | .glXpolWrite o val => Sys2Proof.Machine.execGlXpolWrite o val s
  | .glPlockWrite o val => Sys2Proof.Machine.execGlPlockWrite o val s
  | .glDbgpolWrite o val => Sys2Proof.Machine.execGlDbgpolWrite o val s
  | .glFnPermWrite o val => Sys2Proof.Machine.execGlFnPermWrite o val s
  | .commit o val => Sys2Proof.Machine.execCommit o val s
  | .release o val => Sys2Proof.Machine.execRelease o val s
  | .query o val => Sys2Proof.Machine.execQuery o val s
  | .auRdWrite o val => Sys2Proof.Machine.execAuRdWrite o val s
  | .auExpCtlEn o val => Sys2Proof.Machine.execAuExpCtlEn o val s
  | .auditExportWrite => Sys2Proof.Machine.execAuditExportWrite s
  | .auExpConsWrite o val => Sys2Proof.Machine.execAuExpConsWrite o val s
  | .jnRdWrite o val => Sys2Proof.Machine.execJnRdWrite o val s
  | .jnMark o val => Sys2Proof.Machine.execJnMark o val s
  | .journalFeedResume => Sys2Proof.Machine.execJournalFeedResume s
  | .jctlWrite fn off size val => Sys2Proof.Machine.execJctlWrite fn off size val s
  | .jxCtlEn fn val => Sys2Proof.Machine.execJxCtlEn fn val s
  | .journalExportWrite fn res => Sys2Proof.Machine.execJournalExportWrite fn res s
  | .coldReset => Sys2Proof.Machine.execColdReset s
  | .warmReset => Sys2Proof.Machine.execWarmReset s
  | .bootReady boot => Sys2Proof.Machine.execBootReady boot s
  | .ownXfer curHash newHash sigOk => Sys2Proof.Machine.execOwnXfer curHash newHash sigOk s
  | .rbCommit => Sys2Proof.Machine.execRbCommit s
  | .seNonceRead o => Sys2Proof.Machine.execSeNonceRead o s
  | .getChain path port off len => Sys2Proof.Machine.execGetChain path port off len s
  | .getReport path port nonce => Sys2Proof.Machine.execGetReport path port nonce s
  | .requestUpdate path port => Sys2Proof.Machine.execRequestUpdate path port s
  | .pldmTransfer comp off bytes => Sys2Proof.Machine.execPldmTransfer comp off bytes s
  | .verifyComplete comp img => Sys2Proof.Machine.execVerifyComplete comp img s
  | .applyComplete ok => Sys2Proof.Machine.execApplyComplete ok s
  | .activateFirmware => Sys2Proof.Machine.execActivateFirmware s
  | .packActivationTimeout => Sys2Proof.Machine.execPackActivationTimeout s
  | .pldmType0Command path q => Sys2Proof.Machine.execPldmType0Command path q s
  | .getSensorReading path sensor => Sys2Proof.Machine.execGetSensorReading path sensor s
  | .setEndpointId binding eid => Sys2Proof.Machine.execSetEndpointId binding eid s
  | .regRead path port off size => Sys2Proof.Machine.execRegRead path port off size s
  | .regWrite path port off size val => Sys2Proof.Machine.execRegWrite path port off size val s
  | .freezeNFall => Sys2Proof.Machine.execFreezeNFall s
  | .fzCtlGo o val => Sys2Proof.Machine.execFzCtlGo o val s
  | .jtagFreeze => Sys2Proof.Machine.execJtagFreeze s
  | .dumpSel v => Sys2Proof.Machine.execDumpSel v s
  | .dumpData ue => Sys2Proof.Machine.execDumpData ue s
  | .dumpCrc => Sys2Proof.Machine.execDumpCrc s
  | .maint on => Sys2Proof.Machine.execMaint on s
  | .regacc wr w64 off val => Sys2Proof.Machine.execRegacc wr w64 off val s
  | .idcode => Sys2Proof.Machine.execIdcode s
  | .extest bits => Sys2Proof.Machine.execExtest bits s
  | .samplePreload pins bits => Sys2Proof.Machine.execSamplePreload pins bits s
  | .bypass b => Sys2Proof.Machine.execBypass b s
  | .tapReset => Sys2Proof.Machine.execTapReset s
  | .dbCpctlResume o val => Sys2Proof.Machine.execDbCpctlResume o val s
  | .dbCpregWrite o n val => Sys2Proof.Machine.execDbCpregWrite o n val s
  | .dbSnapGo o val => Sys2Proof.Machine.execDbSnapGo o val s
  | .dbSwtrace o val => Sys2Proof.Machine.execDbSwtrace o val s
  | .trRdWrite o val => Sys2Proof.Machine.execTrRdWrite o val s
  | .perstAssert port by_ begun => Sys2Proof.Machine.execPerstAssert port by_ begun s
  | .perstRelease port => Sys2Proof.Machine.execPerstRelease port s
  | .functionLevelReset fn begun => Sys2Proof.Machine.execFunctionLevelReset fn begun s
  | .vfEnableClear port begun => Sys2Proof.Machine.execVfEnableClear port begun s
  | .linkUp port st => Sys2Proof.Machine.execLinkUp port st s
  | .presenceChange port present begun => Sys2Proof.Machine.execPresenceChange port present begun s
  | .linkDownWaitExpiry port begun => Sys2Proof.Machine.execLinkDownWaitExpiry port begun s
  | .containmentEntry port by_ status begun => Sys2Proof.Machine.execContainmentEntry port by_ status begun s
  | .dpRelease o port val => Sys2Proof.Machine.execDpRelease o port val s
  | .dpRetrain o port val => Sys2Proof.Machine.execDpRetrain o port val s
  | .downstreamLaneFault avenue lane => Sys2Proof.Machine.execDownstreamLaneFault avenue lane s
  | .dpLretryGo o port val => Sys2Proof.Machine.execDpLretryGo o port val s
  | .avCfgBifWrite o avenue val => Sys2Proof.Machine.execAvCfgBifWrite o avenue val s
  | .downstreamRequest port write addr len bytes opened => Sys2Proof.Machine.execDownstreamRequest port write addr len bytes opened s
  | .atsInvalidation fn addr pages => Sys2Proof.Machine.execAtsInvalidation fn addr pages s
  | .upAtcFlush o port val => Sys2Proof.Machine.execUpAtcFlush o port val s
  | .ptmDialog offset => Sys2Proof.Machine.execPtmDialog offset s
  | .timerFiring timer => Sys2Proof.Machine.execTimerFiring timer s
  | .gpioInputChange pin level => Sys2Proof.Machine.execGpioInputChange pin level s
  | .ppsInEdge pin => Sys2Proof.Machine.execPpsInEdge pin s
  | .tmGpioSet o val => Sys2Proof.Machine.execTmGpioSet o val s
  | .tmGpioClr o val => Sys2Proof.Machine.execTmGpioClr o val s
  | .thermalSample tj => Sys2Proof.Machine.execThermalSample tj s
  | .throttleStep => Sys2Proof.Machine.execThrottleStep s
  | .powerLimitSample w8 => Sys2Proof.Machine.execPowerLimitSample w8 s
  | .avsbusCommand => Sys2Proof.Machine.execAvsbusCommand s
  | .avsbusTimeout => Sys2Proof.Machine.execAvsbusTimeout s
  | .railFailure rail => Sys2Proof.Machine.execRailFailure rail s
  | .refclkLoss clk => Sys2Proof.Machine.execRefclkLoss clk s
  | .districtGate d => Sys2Proof.Machine.execDistrictGate d s
  | .startRingReadComplete ring res => Sys2Proof.Machine.execStartRingReadComplete ring res s
  | .zeroLengthReadComplete port => Sys2Proof.Machine.execZeroLengthReadComplete port s
  | .atsTranslationComplete fn addr answer => Sys2Proof.Machine.execAtsTranslationComplete fn addr answer s
  | .upstreamLinkStateChange port st => Sys2Proof.Machine.execUpstreamLinkStateChange port st s
  | .downstreamLinkDown port => Sys2Proof.Machine.execDownstreamLinkDown port s
  | .refclkValid clk => Sys2Proof.Machine.execRefclkValid clk s
  | .pllFailure which => Sys2Proof.Machine.execPllFailure which s
  | .avsbusReport faulty => Sys2Proof.Machine.execAvsbusReport faulty s
  | .districtCanarySample d mhz need slack rosc => Sys2Proof.Machine.execDistrictCanarySample d mhz need slack rosc s
  | .configurationWrite fn w => Sys2Proof.Machine.execConfigurationWrite fn w s
  | .statusWindowWrite fn => Sys2Proof.Machine.execStatusWindowWrite fn s
  | .smbusClockLowTimeout => Sys2Proof.Machine.execSmbusClockLowTimeout s
  | .downstreamErrorMessage port msg status => Sys2Proof.Machine.execDownstreamErrorMessage port msg status s
  | .poweredHoursTick tj => Sys2Proof.Machine.execPoweredHoursTick tj s

end Sys2Proof.Machine
end

