-- ==== Sys2Proof/Machine/Idle.lean ====
section
/-!
DEFINITION. What the TC9640 does by itself while no command waits: one nanosecond of the time base passes, the feeds of
the logs drain, reset clears complete (R132), pack activations whose slot has come to rest are made, invalidations whose reads have been
answered are completed, and the attestation request in front is served (R248, R453, R485, R489, R515, R531; log entry 23).
-/
namespace Sys2Proof.Machine

open Sys2Proof

/-- One idle nanosecond. A TC9640 that a freeze has stopped asserts FROZEN (R493), and stands still (R494). -/
def idleTick (d : Dev) : Dev :=
  if d.frozen then (if d.frozenPin then d else fzEnd d)
  else
    let d := timeTick { d with
      jnFeed := d.jnFeed - 1, auFeed := d.auFeed - 1
      feeds := (d.feeds.map (fun e => (e.1, e.2 - 1))).filter (fun e => e.2 ≠ 0) }
    settle (attServe (invalSweep (resetClearsDone (if d.activ.isEmpty then d else activSweep d))))

end Sys2Proof.Machine
end

