-- ==== Sys2Proof/WellFormed.lean ====
section
/-!
DEFINITION. Well-formed commands: every number an operand names exists in the TC9640 (R3, R6). A command that is not well
formed has a meaning too, and changes nothing that does not exist.
-/
namespace Sys2Proof

/-- A function that exists: port 0 or 1, PF or VF 1 to 64 (R90). -/
def FnId.wf (f : FnId) : Bool := decide (f.port < 2) && decide (f.fn ≤ 64)

/-- An origin that exists (R404). -/
def Origin.wf : Origin → Bool
  | .hostPf p => decide (p < 2)
  | .hostVf p v => decide (p < 2) && decide (1 ≤ v) && decide (v ≤ 64)
  | .bmc p => decide (p < 4)
  | .elfort => true
  | .cp i => decide (i < 72)
  | .jtag => true
  | .hw a => decide (a < 8)

/-- Is every operand of the command within its range? -/
def instrWf (i : Instr) : Bool :=
  match i with
  | .startRingPoll ring => decide (ring < 4096)
  | .cxlLineInvalidate ring => decide (ring < 4096)
  | .directStartWrite fn _ _ _ => fn.wf
  | .takeInResume => true
  | .start _ => true
  | .resume _ => true
  | .halt _ => true
  | .clear _ _ => true
  | .modify _ _ => true
  | .store _ _ => true
  | .test _ => true
  | .bind _ _ _ => true
  | .workClaim cp => decide (cp < 72)
  | .ccwFetchComplete sub _ => decide (sub < 262144)
  | .write sub _ => decide (sub < 262144)
  | .read sub _ => decide (sub < 262144)
  | .nop sub => decide (sub < 262144)
  | .sense sub _ _ => decide (sub < 262144)
  | .control sub _ _ => decide (sub < 262144)
  | .tic sub => decide (sub < 262144)
  | .copy sub _ _ _ => decide (sub < 262144)
  | .peer sub => decide (sub < 262144)
  | .waitEvent sub => decide (sub < 262144)
  | .waitEventTimeout sub => decide (sub < 262144)
  | .signalEvent sub => decide (sub < 262144)
  | .mover sub _ => decide (sub < 262144)
  | .stripe sub _ => decide (sub < 262144)
  | .flush sub => decide (sub < 262144)
  | .deallocate sub => decide (sub < 262144)
  | .writeZeroes sub => decide (sub < 262144)
  | .identify sub => decide (sub < 262144)
  | .compare sub _ => decide (sub < 262144)
  | .fence sub => decide (sub < 262144)
  | .writeImm sub => decide (sub < 262144)
  | .downstreamOpComplete _ _ _ => true
  | .handlerTimeout _ _ => true
  | .downstreamLinkError _ _ _ => true
  | .deviceOrHandlerLost _ _ _ => true
  | .attention sub => decide (sub < 262144)
  | .leaseExpiry sub => decide (sub < 262144)
  | .crDoorbell fn ring _ _ => fn.wf && decide (ring < 4096)
  | .msixHoldoffExpiry ring => decide (ring < 4096)
  | .msixUnmask fn _ => fn.wf
  | .d3hotEntry fn => fn.wf
  | .d0Return fn => fn.wf
  | .srCtlEnSet o ring _ => o.wf && decide (ring < 4096)
  | .crCtlEnWrite o ring _ => o.wf && decide (ring < 4096)
  | .crOwnWrite o ring _ => o.wf && decide (ring < 4096)
  | .shadowWrite ring => decide (ring < 4096)
  | .moverGo o chan _ _ => o.wf && decide (chan < 4096)
  | .moverDisable o chan _ => o.wf && decide (chan < 4096)
  | .moverClrErr o chan _ => o.wf && decide (chan < 4096)
  | .chProgWrite o chan _ => o.wf && decide (chan < 4096)
  | .move chan _ _ => decide (chan < 4096)
  | .movex chan _ _ => decide (chan < 4096)
  | .loop chan _ _ => decide (chan < 4096)
  | .moverWait chan _ _ => decide (chan < 4096)
  | .moverWaitDelayExpiry chan => decide (chan < 4096)
  | .signal chan _ _ => decide (chan < 4096)
  | .xform chan _ _ => decide (chan < 4096)
  | .parity chan _ _ => decide (chan < 4096)
  | .moverNop chan _ _ => decide (chan < 4096)
  | .progEnd chan _ _ => decide (chan < 4096)
  | .moverBurstComplete chan _ => decide (chan < 4096)
  | .moverBurstRetry chan _ => decide (chan < 4096)
  | .pzReservationGrant cls => decide (cls < 8)
  | .plazaCrcMismatch blk _ _ => decide (blk < 262144)
  | .plazaRefillComplete blk _ _ => decide (blk < 262144)
  | .plazaHoldExpiry blk => decide (blk < 262144)
  | .plazaBankFault bank _ => decide (bank < 64)
  | .bankRetired bank => decide (bank < 64)
  | .scratchSliceCopy slice target => decide (slice < 16384) && decide (target < 16384)
  | .boulevardFlitError hop flits => decide (hop.port < 40) && (flits.sent ++ flits.tries).all (fun f => decide (f.payload.length = 128))
  | .boulevardPortFault port => decide (port < 40)
  | .moverLaneGroupFault _ => true
  | .roundaboutDecision o i raise bursts => decide (i < if o then 40 else 64)
      && raise.all (fun q => decide (q.1 < 42) && decide (0 < q.2.2))
      && bursts.all (fun q => decide (q.1 < 40) && decide (q.2.1 < 4096) && decide (0 < q.2.2))
  | .watchThreshold o i cls src => decide (i < if o then 40 else 64) && decide (cls < 4) && decide (src < 42)
  | .deepFifoMiddleMove _ _ => true
  | .ffCfgWrite o _ => o.wf
  | .ffHwmWrite o _ => o.wf
  | .signpostSample kind _ _ _ _ => decide (kind < 4)
  | .rebalancePeriod => true
  | .pinMove sub => decide (sub < 262144)
  | .moverChannelAssign sub => decide (sub < 262144)
  | .sgPinApply o _ => o.wf
  | .sgExclWrite o _ _ => o.wf
  | .sgRecSelWrite o _ => o.wf
  | .sgLogRdWrite o _ => o.wf
  | .junctionSourceFire src => decide (src < 16384)
  | .levelSourceChange src _ => decide (src < 16384)
  | .privLatchSet src => decide (src < 16384)
  | .downstreamMsi port _ => decide (port < 32)
  | .junctionPresentation => true
  | .claimN cp => decide (cp < 72)
  | .claimF cp => decide (cp < 72)
  | .eoi cp _ => decide (cp < 72)
  | .setSrc cp _ => decide (cp < 72)
  | .setPend o _ => o.wf
  | .clrPend o _ => o.wf
  | .setEn o _ => o.wf
  | .clrEn o _ => o.wf
  | .srcTgtWrite o _ => o.wf
  | .srcCtlWrite o _ => o.wf
  | .holdoffExpiry grp => decide (grp < 256)
  | .evtPendingWrite o page _ => o.wf && decide (page < 16384)
  | .spareRotation d => decide (d < 8)
  | .dsRotNow o d _ => o.wf && decide (d < 8)
  | .add cp _ => decide (cp < 72)
  | .addc cp _ => decide (cp < 72)
  | .sub cp _ => decide (cp < 72)
  | .subc cp _ => decide (cp < 72)
  | .andR cp _ => decide (cp < 72)
  | .orR cp _ => decide (cp < 72)
  | .xorR cp _ => decide (cp < 72)
  | .andn cp _ => decide (cp < 72)
  | .shl cp _ => decide (cp < 72)
  | .shr cp _ => decide (cp < 72)
  | .sar cp _ => decide (cp < 72)
  | .cmp cp _ => decide (cp < 72)
  | .tst cp _ => decide (cp < 72)
  | .neg cp _ => decide (cp < 72)
  | .negs cp _ => decide (cp < 72)
  | .clz cp _ => decide (cp < 72)
  | .movR cp _ => decide (cp < 72)
  | .mflk cp _ => decide (cp < 72)
  | .mtlk cp _ => decide (cp < 72)
  | .addi cp _ => decide (cp < 72)
  | .andi cp _ => decide (cp < 72)
  | .ori cp _ => decide (cp < 72)
  | .xori cp _ => decide (cp < 72)
  | .cmpi cp _ => decide (cp < 72)
  | .tsti cp _ => decide (cp < 72)
  | .shi cp _ => decide (cp < 72)
  | .movi cp _ => decide (cp < 72)
  | .lui cp _ => decide (cp < 72)
  | .movl cp _ => decide (cp < 72)
  | .mul cp _ => decide (cp < 72)
  | .mulw cp _ => decide (cp < 72)
  | .mulwu cp _ => decide (cp < 72)
  | .divS cp _ => decide (cp < 72)
  | .divu cp _ => decide (cp < 72)
  | .remS cp _ => decide (cp < 72)
  | .remu cp _ => decide (cp < 72)
  | .divs cp _ => decide (cp < 72)
  | .qadd cp _ => decide (cp < 72)
  | .qsub cp _ => decide (cp < 72)
  | .qmul cp _ => decide (cp < 72)
  | .mac cp _ => decide (cp < 72)
  | .msu cp _ => decide (cp < 72)
  | .mula cp _ => decide (cp < 72)
  | .aclr cp _ => decide (cp < 72)
  | .extA cp _ => decide (cp < 72)
  | .fadd cp _ => decide (cp < 72)
  | .fsub cp _ => decide (cp < 72)
  | .fmul cp _ => decide (cp < 72)
  | .fdiv cp _ => decide (cp < 72)
  | .fsqrt cp _ => decide (cp < 72)
  | .fmin cp _ => decide (cp < 72)
  | .fmax cp _ => decide (cp < 72)
  | .fcmp cp _ => decide (cp < 72)
  | .fmadd cp _ => decide (cp < 72)
  | .fcvtsw cp _ => decide (cp < 72)
  | .fcvtswu cp _ => decide (cp < 72)
  | .fcvtws cp _ => decide (cp < 72)
  | .fcvtwus cp _ => decide (cp < 72)
  | .fabs cp _ => decide (cp < 72)
  | .fneg cp _ => decide (cp < 72)
  | .fclass cp _ => decide (cp < 72)
  | .mfs cp _ => decide (cp < 72)
  | .mts cp _ => decide (cp < 72)
  | .ldw cp _ => decide (cp < 72)
  | .ldh cp _ => decide (cp < 72)
  | .ldhu cp _ => decide (cp < 72)
  | .ldb cp _ => decide (cp < 72)
  | .ldbu cp _ => decide (cp < 72)
  | .ldd cp _ => decide (cp < 72)
  | .ldq cp _ => decide (cp < 72)
  | .stw cp _ => decide (cp < 72)
  | .sth cp _ => decide (cp < 72)
  | .stb cp _ => decide (cp < 72)
  | .std cp _ => decide (cp < 72)
  | .stq cp _ => decide (cp < 72)
  | .longLoadComplete cp _ => decide (cp < 72)
  | .postedStoreFail cp _ => decide (cp < 72)
  | .bCond cp _ _ => decide (cp < 72)
  | .bl cp _ => decide (cp < 72)
  | .jr cp _ => decide (cp < 72)
  | .blr cp _ => decide (cp < 72)
  | .ret cp _ => decide (cp < 72)
  | .cpNop cp _ => decide (cp < 72)
  | .cpWait cp _ => decide (cp < 72)
  | .eret cp _ => decide (cp < 72)
  | .cpFence cp _ => decide (cp < 72)
  | .isync cp _ => decide (cp < 72)
  | .brk cp _ => decide (cp < 72)
  | .ckpt cp _ => decide (cp < 72)
  | .ckptMirrorAck d slot => decide (d < 8) && decide (slot < 32784)
  | .svc cp _ => decide (cp < 72)
  | .normalInterruptEntry cp => decide (cp < 72)
  | .fastInterruptEntry cp => decide (cp < 72)
  | .budgetExpiry cp => decide (cp < 72)
  | .pzReserve cp sub => decide (cp < 72) && decide (sub < 262144)
  | .pzRelease cp sub => decide (cp < 72) && decide (sub < 262144)
  | .xferHost cp sub _ => decide (cp < 72) && decide (sub < 262144)
  | .xferHostComplete _ _ => true
  | .opIssue cp sub => decide (cp < 72) && decide (sub < 262144)
  | .opState cp => decide (cp < 72)
  | .srcArm cp sub => decide (cp < 72) && decide (sub < 262144)
  | .tmrArm cp sub => decide (cp < 72) && decide (sub < 262144)
  | .packTimerExpiry _ => true
  | .senseSet cp sub => decide (cp < 72) && decide (sub < 262144)
  | .apOpen cp => decide (cp < 72)
  | .alertPost cp => decide (cp < 72)
  | .semAcq cp sem => decide (cp < 72) && decide (sem < 320)
  | .semRel cp sem _ => decide (cp < 72) && decide (sem < 320)
  | .apertureDescriptorWrite cp _ _ => decide (cp < 72)
  | .heartbeatTimeout cp => decide (cp < 72)
  | .cpEccError cp => decide (cp < 72)
  | .contextBankFault d _ => decide (d < 8)
  | .districtClockFault d => decide (d < 8)
  | .bulkMemoryFailure => true
  | .spareBistComplete cp _ => decide (cp < 72)
  | .faultInject o _ => o.wf
  | .hbmScrubPass _ _ _ => true
  | .pgXkeyRead o page => o.wf && decide (page < 16384)
  | .xkeyOpen o page _ => o.wf && decide (page < 16384)
  | .xkeyClose o page _ => o.wf && decide (page < 16384)
  | .xclose o page _ => o.wf && decide (page < 16384)
  | .expertIdleClose o page => o.wf && decide (page < 16384)
  | .readClearStatus o _ _ => o.wf
  | .devtimeLowRead o => o.wf
  | .registerWrite o _ _ _ => o.wf
  | .auditWriteResume => true
  | .glXpolWrite o _ => o.wf
  | .glPlockWrite o _ => o.wf
  | .glDbgpolWrite o _ => o.wf
  | .glFnPermWrite o _ => o.wf
  | .commit o _ => o.wf
  | .release o _ => o.wf
  | .query o _ => o.wf
  | .auRdWrite o _ => o.wf
  | .auExpCtlEn o _ => o.wf
  | .auditExportWrite => true
  | .auExpConsWrite o _ => o.wf
  | .jnRdWrite o _ => o.wf
  | .jnMark o _ => o.wf
  | .journalFeedResume => true
  | .jctlWrite fn _ _ _ => fn.wf
  | .jxCtlEn fn _ => fn.wf
  | .journalExportWrite fn _ => fn.wf
  | .coldReset => true
  | .warmReset => true
  | .bootReady _ => true
  | .ownXfer _ _ _ => true
  | .rbCommit => true
  | .seNonceRead o => o.wf
  | .getChain _ _ _ _ => true
  | .getReport _ _ _ => true
  | .requestUpdate _ port => decide (port < 2)
  | .pldmTransfer _ _ _ => true
  | .verifyComplete _ _ => true
  | .applyComplete _ => true
  | .activateFirmware => true
  | .packActivationTimeout => true
  | .pldmType0Command _ _ => true
  | .getSensorReading _ _ => true
  | .setEndpointId _ _ => true
  | .regRead _ _ _ _ => true
  | .regWrite _ _ _ _ _ => true
  | .freezeNFall => true
  | .fzCtlGo o _ => o.wf
  | .jtagFreeze => true
  | .dumpSel _ => true
  | .dumpData _ => true
  | .dumpCrc => true
  | .maint _ => true
  | .regacc _ _ _ _ => true
  | .idcode => true
  | .extest _ => true
  | .samplePreload _ _ => true
  | .bypass _ => true
  | .tapReset => true
  | .dbCpctlResume o _ => o.wf
  | .dbCpregWrite o _ _ => o.wf
  | .dbSnapGo o _ => o.wf
  | .dbSwtrace o _ => o.wf
  | .trRdWrite o _ => o.wf
  | .perstAssert port _ _ => decide (port < 2)
  | .perstRelease port => decide (port < 2)
  | .functionLevelReset fn _ => fn.wf
  | .vfEnableClear port _ => decide (port < 2)
  | .linkUp port _ => decide (port < 32)
  | .presenceChange port _ _ => decide (port < 32)
  | .linkDownWaitExpiry port _ => decide (port < 32)
  | .containmentEntry port _ _ _ => decide (port < 32)
  | .dpRelease o port _ => o.wf && decide (port < 32)
  | .dpRetrain o port _ => o.wf && decide (port < 32)
  | .downstreamLaneFault avenue _ => decide (avenue < 8)
  | .dpLretryGo o port _ => o.wf && decide (port < 32)
  | .avCfgBifWrite o avenue _ => o.wf && decide (avenue < 8)
  | .downstreamRequest port _ _ _ _ _ => decide (port < 32)
  | .atsInvalidation fn _ _ => fn.wf
  | .upAtcFlush o port _ => o.wf && decide (port < 2)
  | .ptmDialog _ => true
  | .timerFiring timer => decide (timer < 256)
  | .gpioInputChange pin _ => decide (pin < 16)
  | .ppsInEdge pin => decide (pin < 16)
  | .tmGpioSet o _ => o.wf
  | .tmGpioClr o _ => o.wf
  | .thermalSample _ => true
  | .throttleStep => true
  | .powerLimitSample _ => true
  | .avsbusCommand => true
  | .avsbusTimeout => true
  | .railFailure _ => true
  | .refclkLoss _ => true
  | .districtGate d => decide (d < 8)
  | .startRingReadComplete ring _ => decide (ring < 4096)
  | .zeroLengthReadComplete port => decide (port < 2)
  | .atsTranslationComplete fn _ _ => fn.wf
  | .upstreamLinkStateChange port _ => decide (port < 2)
  | .downstreamLinkDown port => decide (port < 32)
  | .refclkValid _ => true
  | .pllFailure _ => true
  | .avsbusReport _ => true
  | .districtCanarySample d _ _ _ _ => decide (d < 8)
  | .configurationWrite fn _ => fn.wf
  | .statusWindowWrite fn => fn.wf
  | .smbusClockLowTimeout => true
  | .downstreamErrorMessage port _ _ => decide (port < 32)
  | .poweredHoursTick _ => true

end Sys2Proof
end

