-- ==== Sys2Proof/Safety.lean ====
section
/-!
DEFINITION. What holds after every step of a run: no CP sleeps on a delivered interrupt, no pack entry waits for a CP that
could serve it, and every waiting command names things that exist.
-/
namespace Sys2Proof.Machine

open Sys2Proof

/-- No CP stays in WAIT while a committed presentation of Junction stands at it (R319, R386). -/
def Awake (d : Dev) : Prop := ∀ p ∈ d.pres, p.committed = true → (cpGet d p.cp).run ≠ .wait

/-- No call of a handler-pack entry waits while its CP could take it (R325, R333). -/
def CallsMade (d : Dev) : Prop := ∀ k ∈ d.packCalls, cpFree (cpGet d k.cp) = false

/-- The device between commands. A frozen TC9640 stands still (R494); after a Fatal fault no entry is called (R436). -/
def Settled (d : Dev) : Prop := d.frozen = false → Awake d ∧ (d.fatal = false → CallsMade d)

/-- The invariant of the machine. -/
def Inv (s : State) : Prop := (∀ c ∈ s.pending, instrWf c = true) ∧ Settled s.dev

/-- A step is safe: it answers a next state. -/
def Safe (s : State) : Prop := ∃ t, step s = .next t

end Sys2Proof.Machine
end

