-- ==== Sys2Proof/Certificates/Slice0/Obligations.lean ====
section
/-!
DEFINITION. The statements for the provers. The definitions before them say in one place what a group of statements
shares: the state after a command, when a CP issues an instruction, and what an instruction leaves of its CP.
-/
namespace Sys2Proof.Machine

open Sys2Proof

/-- The machine with a new device after a command: CPs wake and waiting calls are made (settle). -/
def after (s : State) (d : Dev) : State := { s with dev := settle d }

/-- The TC9640 runs: it is not frozen (R494). -/
def Running (s : State) : Prop := s.dev.frozen = false

/-- It runs, and no Fatal fault has stopped the engine (R436). -/
def Engine (s : State) : Prop := s.dev.frozen = false ∧ s.dev.fatal = false

/-- The CP and the word of an instruction of a CP, as the tables of its encoding number it (R297 to R303, R306). -/
def cpWord : Instr → Option (Nat × Word)
  | .add i f => some (i, encRR 0x00 0x00 f)
  | .addc i f => some (i, encRR 0x00 0x01 f)
  | .sub i f => some (i, encRR 0x00 0x02 f)
  | .subc i f => some (i, encRR 0x00 0x03 f)
  | .andR i f => some (i, encRR 0x00 0x04 f)
  | .orR i f => some (i, encRR 0x00 0x05 f)
  | .xorR i f => some (i, encRR 0x00 0x06 f)
  | .andn i f => some (i, encRR 0x00 0x07 f)
  | .shl i f => some (i, encRR 0x00 0x08 f)
  | .shr i f => some (i, encRR 0x00 0x09 f)
  | .sar i f => some (i, encRR 0x00 0x0A f)
  | .cmp i f => some (i, encRR 0x00 0x0B f)
  | .tst i f => some (i, encRR 0x00 0x0C f)
  | .neg i f => some (i, encRR 0x00 0x0D f)
  | .negs i f => some (i, encRR 0x00 0x0E f)
  | .clz i f => some (i, encRR 0x00 0x0F f)
  | .movR i f => some (i, encRR 0x00 0x10 f)
  | .mflk i f => some (i, encRR 0x00 0x11 f)
  | .mtlk i f => some (i, encRR 0x00 0x12 f)
  | .addi i f => some (i, encRI 0x01 f)
  | .andi i f => some (i, encRI 0x02 f)
  | .ori i f => some (i, encRI 0x03 f)
  | .xori i f => some (i, encRI 0x04 f)
  | .cmpi i f => some (i, encRI 0x05 f)
  | .tsti i f => some (i, encRI 0x06 f)
  | .shi i f => some (i, encRI 0x07 f)
  | .movi i f => some (i, encRI 0x08 f)
  | .lui i f => some (i, encRI 0x09 f)
  | .movl i f => some (i, encRI 0x0A f)
  | .mul i f => some (i, encRR 0x0B 0x00 f)
  | .mulw i f => some (i, encRR 0x0B 0x01 f)
  | .mulwu i f => some (i, encRR 0x0B 0x02 f)
  | .divS i f => some (i, encRR 0x0B 0x03 f)
  | .divu i f => some (i, encRR 0x0B 0x04 f)
  | .remS i f => some (i, encRR 0x0B 0x05 f)
  | .remu i f => some (i, encRR 0x0B 0x06 f)
  | .divs i f => some (i, encRR 0x0B 0x07 f)
  | .qadd i f => some (i, encRR 0x0C 0x00 f)
  | .qsub i f => some (i, encRR 0x0C 0x01 f)
  | .qmul i f => some (i, encRR 0x0C 0x02 f)
  | .mac i f => some (i, encRR 0x0C 0x03 f)
  | .msu i f => some (i, encRR 0x0C 0x04 f)
  | .mula i f => some (i, encRR 0x0C 0x05 f)
  | .aclr i f => some (i, encRR 0x0C 0x06 f)
  | .extA i f => some (i, encRR 0x0C 0x07 f)
  | .fadd i f => some (i, encRR 0x0D 0x00 f)
  | .fsub i f => some (i, encRR 0x0D 0x01 f)
  | .fmul i f => some (i, encRR 0x0D 0x02 f)
  | .fdiv i f => some (i, encRR 0x0D 0x03 f)
  | .fsqrt i f => some (i, encRR 0x0D 0x04 f)
  | .fmin i f => some (i, encRR 0x0D 0x05 f)
  | .fmax i f => some (i, encRR 0x0D 0x06 f)
  | .fcmp i f => some (i, encRR 0x0D 0x07 f)
  | .fmadd i f => some (i, encRR 0x0D 0x08 f)
  | .fcvtsw i f => some (i, encRR 0x0D 0x09 f)
  | .fcvtswu i f => some (i, encRR 0x0D 0x0A f)
  | .fcvtws i f => some (i, encRR 0x0D 0x0B f)
  | .fcvtwus i f => some (i, encRR 0x0D 0x0C f)
  | .fabs i f => some (i, encRR 0x0D 0x0D f)
  | .fneg i f => some (i, encRR 0x0D 0x0E f)
  | .fclass i f => some (i, encRR 0x0D 0x0F f)
  | .mfs i f => some (i, encRI 0x0E f)
  | .mts i f => some (i, encRI 0x0F f)
  | .bCond i k off => some (i, encBC k off)
  | .bl i off => some (i, encBL off)
  | .jr i f => some (i, encRR 0x22 0x00 f)
  | .blr i f => some (i, encRR 0x22 0x01 f)
  | .ret i f => some (i, encRR 0x22 0x02 f)
  | .cpNop i f => some (i, encRR 0x30 0x00 f)
  | .cpWait i f => some (i, encRR 0x30 0x01 f)
  | .eret i f => some (i, encRR 0x30 0x02 f)
  | .cpFence i f => some (i, encRR 0x30 0x03 f)
  | .isync i f => some (i, encRR 0x30 0x04 f)
  | .brk i f => some (i, encRR 0x30 0x05 f)
  | .ckpt i f => some (i, encRR 0x30 0x06 f)
  | .svc i f => some (i, encRI 0x31 f)
  | .ldw i f => some (i, encRI 0x10 f)
  | .ldh i f => some (i, encRI 0x11 f)
  | .ldhu i f => some (i, encRI 0x12 f)
  | .ldb i f => some (i, encRI 0x13 f)
  | .ldbu i f => some (i, encRI 0x14 f)
  | .ldd i f => some (i, encRI 0x15 f)
  | .ldq i f => some (i, encRI 0x16 f)
  | .stw i f => some (i, encRI 0x18 f)
  | .sth i f => some (i, encRI 0x19 f)
  | .stb i f => some (i, encRI 0x1A f)
  | .std i f => some (i, encRI 0x1B f)
  | .stq i f => some (i, encRI 0x1C f)
  | _ => none

/-- CP i fetches the instruction x now: it runs, has no long load in progress, its pc can be fetched, and IRAM holds the word of x there
(R290, R297, R309). -/
def Fetches (s : State) (i : Nat) (x : Instr) : Prop :=
  Running s ∧ cpIssues s.dev i = true ∧ (cpGet s.dev i).loads = [] ∧ fetchOk (cpGet s.dev i) = true
    ∧ cpWord x = some (i, fetchWord (cpGet s.dev i))

/-- CP i issues x now, and the instruction behind it can be fetched too (R290). -/
def Issues (s : State) (i : Nat) (x : Instr) : Prop :=
  Fetches s i x ∧ fetchOk { cpGet s.dev i with pc := (cpGet s.dev i).pc + 4 } = true

/-- CP i issues x, which writes pc, and the target can be fetched in the CP's mode. -/
def IssuesTo (s : State) (i : Nat) (x : Instr) (pc : Word) : Prop :=
  Fetches s i x ∧ fetchOk { cpGet s.dev i with pc := pc } = true

/-- The CP as an issued instruction finds it: a short load before it has written its registers, pc names the next
instruction, and CP_PC the issued one (R298, R308, R338). -/
def issued (c : Cp) : Cp := { applySlot c with pc := c.pc + 4, lastPc := c.pc, loads := [] }

/-- The machine after an instruction of CP i that changes only that CP's record. -/
def cpDone (s : State) (i : Nat) (c : Cp) : State := after s (cpSet i c s.dev)

/-- The machine after an instruction that writes rd and the flags of `a`. -/
def aluDone (s : State) (i rd : Nat) (a : Alu) : State :=
  cpDone s i (setFlags a (gWrite rd a.r (issued (cpGet s.dev i))))

/-- The machine after an instruction that writes only the flags of `a`. -/
def flagsDone (s : State) (i : Nat) (a : Alu) : State := cpDone s i (setFlags a (issued (cpGet s.dev i)))

/-- The machine after an instruction that writes rd and no flag. -/
def regDone (s : State) (i rd : Nat) (v : Word) : State := cpDone s i (gWrite rd v (issued (cpGet s.dev i)))

/-- The operands an instruction reads: the registers before a short load just before it writes them (R308). -/
def opA (s : State) (i : Nat) (f : RR) : Word := gRead f.a (cpGet s.dev i)
def opB (s : State) (i : Nat) (f : RR) : Word := gRead f.b (cpGet s.dev i)
def opAI (s : State) (i : Nat) (f : RI) : Word := gRead f.a (cpGet s.dev i)

/-- A result r with N and Z from r (R339), and C and V as given. -/
def nzcv (r : Word) (c v : Bool) : Alu := ⟨r, r.msb, decide (r = 0), c, v, 0⟩

/-- A result r with N and Z from r, C and V, and the sticky flags set. -/
def nzcvq (r : Word) (c v : Bool) (st : Word) : Alu := ⟨r, r.msb, decide (r = 0), c, v, st⟩

/-- The exact signed value lies outside the signed 32-bit range (R343). -/
def overflows (x : Int) : Bool := decide (x < -(2 ^ 31) ∨ 2 ^ 31 ≤ x)

/-- r, C of SHL, SHR and SAR by n, row by row (R344). -/
def shlSpec (a : Word) (n : Nat) : Alu :=
  nzcv (if n < 32 then a <<< n else 0) (decide (n ≠ 0 ∧ n ≤ 32) && a.getLsbD (32 - n)) false
def shrSpec (a : Word) (n : Nat) : Alu :=
  nzcv (if n < 32 then a >>> n else 0) (decide (n ≠ 0 ∧ n ≤ 32) && a.getLsbD (n - 1)) false
def sarSpec (a : Word) (n : Nat) : Alu :=
  nzcv (a.sshiftRight (min n 32)) (decide (n ≠ 0) && a.getLsbD (min (n - 1) 31)) false

end Sys2Proof.Machine

open Sys2Proof Sys2Proof.Machine

/-! ### The register instructions of a CP -/

/-- R343: ADD, ADDC, SUB, SUBC, ADDI, CMP, CMPI complete with the stated result and flags, and change nothing else of the
machine but pc. -/
def Sys2Proof.Machine.AddSubResults : Prop :=
  ∀ (s : State) (i : Nat),
    (∀ f : RR, f.rsv = 0 →
      let a := opA s i f
      let b := opB s i f
      let k := flagC (cpGet s.dev i)
      (Issues s i (.add i f) → exec (.add i f) s = .next (aluDone s i f.d
        (nzcv (a + b) (decide (2 ^ 32 ≤ a.toNat + b.toNat)) (overflows (a.toInt + b.toInt)))))
      ∧ (Issues s i (.addc i f) → exec (.addc i f) s = .next (aluDone s i f.d
        (nzcv (a + b + (if k then 1 else 0)) (decide (2 ^ 32 ≤ a.toNat + b.toNat + k.toNat))
          (overflows (a.toInt + b.toInt + (if k then 1 else 0))))))
      ∧ (Issues s i (.sub i f) → exec (.sub i f) s = .next (aluDone s i f.d
        (nzcv (a - b) (decide (b.toNat ≤ a.toNat)) (overflows (a.toInt - b.toInt)))))
      ∧ (Issues s i (.subc i f) → exec (.subc i f) s = .next (aluDone s i f.d
        (nzcv (a - b - (if k then 0 else 1)) (decide (b.toNat + (if k then 0 else 1) ≤ a.toNat))
          (overflows (a.toInt - b.toInt - (if k then 0 else 1))))))
      ∧ (f.rd = 0 → (Issues s i (.cmp i f) → exec (.cmp i f) s = .next (flagsDone s i
          (nzcv (a - b) (decide (b.toNat ≤ a.toNat)) (overflows (a.toInt - b.toInt)))))))
    ∧ (∀ f : RI,
      let a := opAI s i f
      let m : Word := f.imm.signExtend 32
      (Issues s i (.addi i f) → exec (.addi i f) s = .next (aluDone s i f.d
        (nzcv (a + m) (decide (2 ^ 32 ≤ a.toNat + m.toNat)) (overflows (a.toInt + m.toInt)))))
      ∧ (f.rd = 0 → (Issues s i (.cmpi i f) → exec (.cmpi i f) s = .next (flagsDone s i
          (nzcv (a - m) (decide (m.toNat ≤ a.toNat)) (overflows (a.toInt - m.toInt)))))))

/-- R343: the bitwise instructions complete with N and Z from the result and C = V = 0. -/
def Sys2Proof.Machine.LogicResults : Prop :=
  ∀ (s : State) (i : Nat),
    (∀ f : RR, f.rsv = 0 →
      let a := opA s i f
      let b := opB s i f
      (Issues s i (.andR i f) → exec (.andR i f) s = .next (aluDone s i f.d (nzcv (a &&& b) false false)))
      ∧ (Issues s i (.orR i f) → exec (.orR i f) s = .next (aluDone s i f.d (nzcv (a ||| b) false false)))
      ∧ (Issues s i (.xorR i f) → exec (.xorR i f) s = .next (aluDone s i f.d (nzcv (a ^^^ b) false false)))
      ∧ (Issues s i (.andn i f) → exec (.andn i f) s = .next (aluDone s i f.d (nzcv (a &&& ~~~ b) false false)))
      ∧ (f.rd = 0 → (Issues s i (.tst i f) → exec (.tst i f) s = .next (flagsDone s i (nzcv (a &&& b) false false)))))
    ∧ (∀ f : RI,
      let a := opAI s i f
      let m : Word := f.imm.zeroExtend 32
      (Issues s i (.andi i f) → exec (.andi i f) s = .next (aluDone s i f.d (nzcv (a &&& m) false false)))
      ∧ (Issues s i (.ori i f) → exec (.ori i f) s = .next (aluDone s i f.d (nzcv (a ||| m) false false)))
      ∧ (Issues s i (.xori i f) → exec (.xori i f) s = .next (aluDone s i f.d (nzcv (a ^^^ m) false false)))
      ∧ (f.rd = 0 → (Issues s i (.tsti i f) → exec (.tsti i f) s = .next (flagsDone s i (nzcv (a &&& m) false false)))))

/-- R299, R300, R344: SHL, SHR, SAR by rb[7:0] and SHI by imm16[7:0] complete with the result and flags of R344. -/
def Sys2Proof.Machine.ShiftResults : Prop :=
  ∀ (s : State) (i : Nat),
    (∀ f : RR, f.rsv = 0 →
      let a := opA s i f
      let n := (opB s i f).toNat % 256
      (Issues s i (.shl i f) → exec (.shl i f) s = .next (aluDone s i f.d (shlSpec a n)))
      ∧ (Issues s i (.shr i f) → exec (.shr i f) s = .next (aluDone s i f.d (shrSpec a n)))
      ∧ (Issues s i (.sar i f) → exec (.sar i f) s = .next (aluDone s i f.d (sarSpec a n))))
    ∧ (∀ f : RI, ∀ n : Nat, n < 256 →
      (f.imm.toNat = n → (Issues s i (.shi i f) → exec (.shi i f) s = .next (aluDone s i f.d (shlSpec (opAI s i f) n))))
      ∧ (f.imm.toNat = 256 + n → (Issues s i (.shi i f) → exec (.shi i f) s = .next (aluDone s i f.d (shrSpec (opAI s i f) n))))
      ∧ (f.imm.toNat = 512 + n → (Issues s i (.shi i f) → exec (.shi i f) s = .next (aluDone s i f.d (sarSpec (opAI s i f) n)))))

/-- R345: NEG, NEGS and CLZ. The result of CLZ is the number k of leading zeros: bit 31 − k is the highest bit set. -/
def Sys2Proof.Machine.NegClzResults : Prop :=
  ∀ (s : State) (i : Nat) (f : RR), f.rsv = 0 → f.rb = 0 →
    let a := opA s i f
    let m := decide (a = 0x80000000#32)
    (Issues s i (.neg i f) → exec (.neg i f) s = .next (aluDone s i f.d (nzcv (0 - a) (decide (a = 0)) m)))
    ∧ (Issues s i (.negs i f) → exec (.negs i f) s = .next (aluDone s i f.d
        (nzcvq (if m then 0x7FFFFFFF#32 else 0 - a) (decide (a = 0)) m (if m then 0x100 else 0))))
    ∧ ∃ k : Nat, (k = 32 ∧ a = 0 ∨ k < 32 ∧ a.getLsbD (31 - k) = true ∧ ∀ j, 31 - k < j → a.getLsbD j = false)
      ∧ (Issues s i (.clz i f) → exec (.clz i f) s = .next (aluDone s i f.d ⟨BitVec.ofNat 32 k, false, decide (k = 0), decide (k = 32), false, 0⟩))

/-- R343, R344, R345: the integer instructions of these rules complete with the stated result and flags and change
nothing else. -/
def Obligations.IntegerArithmetic : Prop :=
  Sys2Proof.Machine.AddSubResults ∧ Sys2Proof.Machine.LogicResults ∧ Sys2Proof.Machine.ShiftResults ∧ Sys2Proof.Machine.NegClzResults

/-- R284, R298, R299, R307: MOV, MFLK, MTLK, MOVI, LUI and MOVL change no flag. -/
def Sys2Proof.Machine.MoveResults : Prop :=
  ∀ (s : State) (i : Nat),
    (∀ f : RR, f.rsv = 0 → f.rb = 0 →
      (Issues s i (.movR i f) → exec (.movR i f) s = .next (regDone s i f.d (opA s i f)))
      ∧ (f.ra = 0 → (Issues s i (.mflk i f) → exec (.mflk i f) s = .next (regDone s i f.d (lkRead (cpGet s.dev i)))))
      ∧ (f.rd = 0 → (Issues s i (.mtlk i f) → exec (.mtlk i f) s = .next (cpDone s i (lkWrite (opA s i f) (issued (cpGet s.dev i)))))))
    ∧ (∀ f : RI, f.ra = 0 →
      (Issues s i (.movi i f) → exec (.movi i f) s = .next (regDone s i f.d (f.imm.signExtend 32)))
      ∧ (Issues s i (.lui i f) → exec (.lui i f) s = .next (regDone s i f.d (f.imm.zeroExtend 32 <<< 16)))
      ∧ (Issues s i (.movl i f) → exec (.movl i f) s = .next (regDone s i f.d
          ((gRead f.d (cpGet s.dev i) &&& 0xFFFF0000#32) ||| f.imm.zeroExtend 32))))

/-- R301, R346: MUL, MULW and MULWU; an odd rd of a pair is an illegal instruction. -/
def Sys2Proof.Machine.MulResults : Prop :=
  ∀ (s : State) (i : Nat) (f : RR), f.rsv = 0 →
    let a := opA s i f
    let b := opB s i f
    let ps := BitVec.ofInt 64 (a.toInt * b.toInt)
    let pu := BitVec.ofNat 64 (a.toNat * b.toNat)
    let pair := fun (p : DWord) => cpDone s i (setFlags ⟨0, p.msb, decide (p = 0), false, false, 0⟩
      (gWrite (f.d + 1) (p.extractLsb' 32 32) (gWrite f.d (p.extractLsb' 0 32) (issued (cpGet s.dev i)))))
    (Issues s i (.mul i f) → exec (.mul i f) s = .next (aluDone s i f.d
      (nzcv (a * b) (decide (2 ^ 32 ≤ a.toNat * b.toNat)) (overflows (a.toInt * b.toInt)))))
    ∧ (f.d % 2 = 0 → (Issues s i (.mulw i f) → exec (.mulw i f) s = .next (pair ps)) ∧ (Issues s i (.mulwu i f) → exec (.mulwu i f) s = .next (pair pu)))
    ∧ (f.d % 2 = 1 → ∀ x, (x = Instr.mulw i f ∨ x = Instr.mulwu i f) →
        (Fetches s i x → exec x s = .next (after s (cpRaise i 1 (cpGet s.dev i).pc 0 (cpSet i (applySlot (cpGet s.dev i)) s.dev)))))

/-- R347, R348: DIV, DIVS, DIVU, REM and REMU, with the pairs that no quotient fits. -/
def Sys2Proof.Machine.DivResults : Prop :=
  ∀ (s : State) (i : Nat) (f : RR), f.rsv = 0 →
    let a := opA s i f
    let b := opB s i f
    let z := decide (b = 0)
    let big := decide (a = 0x80000000#32 ∧ b = 0xFFFFFFFF#32)
    let dz : Word := if b = 0 then 0x200 else 0
    let edge : Word := if a.msb then 0x80000000#32 else 0x7FFFFFFF#32
    (Issues s i (.divS i f) → exec (.divS i f) s = .next (aluDone s i f.d (nzcvq (if b = 0 then edge else a.sdiv b) z big dz)))
    ∧ (Issues s i (.divs i f) → exec (.divs i f) s = .next (aluDone s i f.d
        (nzcvq (if b = 0 then edge else if big then 0x7FFFFFFF#32 else a.sdiv b) z big (if big then 0x100 else dz))))
    ∧ (Issues s i (.divu i f) → exec (.divu i f) s = .next (aluDone s i f.d (nzcvq (if b = 0 then 0xFFFFFFFF#32 else a / b) z false dz)))
    ∧ (Issues s i (.remS i f) → exec (.remS i f) s = .next (aluDone s i f.d (nzcvq (if b = 0 then a else a.srem b) z false dz)))
    ∧ (Issues s i (.remu i f) → exec (.remu i f) s = .next (aluDone s i f.d (nzcvq (if b = 0 then a else a % b) z false dz)))

/-- R349 to R353: QADD, QSUB, QMUL and EXT saturate to a Q31 word; MAC, MSU, MULA and ACLR write the accumulator that rd
names. -/
def Sys2Proof.Machine.FixedPointResults : Prop :=
  ∀ (s : State) (i : Nat) (f : RR), f.rsv = 0 →
    let c := cpGet s.dev i
    let a := opA s i f
    let b := opB s i f
    let q := (c.sr.toNat / 2 ^ 18) % 4
    let clip := fun (x : Int) => max (-2147483648) (min 2147483647 x)
    let sat := fun (x : Int) (k : Bool) => nzcvq (BitVec.ofInt 32 (clip x)) k (decide (clip x ≠ x)) (if clip x = x then 0 else 0x100)
    let accNo := fun (n : Nat) => if n = 0 then c.a0 else c.a1
    let accSet := fun (v : BitVec 40) (x : Cp) => if f.d = 0 then { x with a0 := v } else { x with a1 := v }
    let clip40 := fun (x : Int) => max (-549755813888) (min 549755813887 x)
    let acc := fun (x : Int) (k : Bool) =>
      let v := BitVec.ofInt 40 (clip40 x)
      cpDone s i (setFlags ⟨0, v.msb, decide (v = 0), k, decide (clip40 x ≠ x), if clip40 x = x then 0 else 0x100⟩
        (accSet v (issued c)))
    let p := a.toInt * b.toInt
    let big := p.fdiv (2 ^ 27)
    let lost := decide (p.fmod (2 ^ 27) ≠ 0)
    (Issues s i (.qadd i f) → exec (.qadd i f) s = .next (aluDone s i f.d (sat (a.toInt + b.toInt) false)))
    ∧ (Issues s i (.qsub i f) → exec (.qsub i f) s = .next (aluDone s i f.d (sat (a.toInt - b.toInt) false)))
    ∧ (Issues s i (.qmul i f) → exec (.qmul i f) s = .next (aluDone s i f.d (sat (qround q p 31).1 (decide (p.fmod (2 ^ 31) ≠ 0)))))
    ∧ (f.d < 2 →
        (Issues s i (.mac i f) → exec (.mac i f) s = .next (acc ((accNo f.d).toInt + big) lost))
        ∧ (Issues s i (.msu i f) → exec (.msu i f) s = .next (acc ((accNo f.d).toInt - big) lost))
        ∧ (Issues s i (.mula i f) → exec (.mula i f) s = .next (acc big lost))
        ∧ (f.ra = 0 → f.rb = 0 → (Issues s i (.aclr i f) → exec (.aclr i f) s = .next (acc 0 false))))
    ∧ (f.a < 2 → f.rb = 0 → (Issues s i (.extA i f) → exec (.extA i f) s = .next (aluDone s i f.d
        (sat (qround q (accNo f.a).toInt 4).1 (decide ((accNo f.a).toInt.fmod 16 ≠ 0))))))

/-- R346, R347, R348 (and R349 to R353 for QADD, QSUB, QMUL, EXT and the accumulators): multiplication, division and
fixed-point arithmetic. -/
def Obligations.MultiplyAndDivide : Prop :=
  Sys2Proof.Machine.MulResults ∧ Sys2Proof.Machine.DivResults ∧ Sys2Proof.Machine.FixedPointResults

/-- R303, R354 to R362: every binary32 instruction completes with the result and flags that its operation gives, rounded
as SR.FRM says; FABS, FNEG and FCLASS change no flag. The operations are the model's (Fp.lean). -/
def Obligations.BinaryFloatComplete : Prop :=
  ∀ (s : State) (i : Nat) (f : RR), f.rsv = 0 →
    let c := cpGet s.dev i
    let a := opA s i f
    let b := opB s i f
    let m := frmOf c
    (Issues s i (.fadd i f) → exec (.fadd i f) s = .next (aluDone s i f.d (aluFadd m a b)))
    ∧ (Issues s i (.fsub i f) → exec (.fsub i f) s = .next (aluDone s i f.d (aluFsub m a b)))
    ∧ (Issues s i (.fmul i f) → exec (.fmul i f) s = .next (aluDone s i f.d (aluFmul m a b)))
    ∧ (Issues s i (.fdiv i f) → exec (.fdiv i f) s = .next (aluDone s i f.d (aluFdiv m a b)))
    ∧ (Issues s i (.fmadd i f) → exec (.fmadd i f) s = .next (aluDone s i f.d (aluFmadd m (gRead f.d c) a b)))
    ∧ (Issues s i (.fmin i f) → exec (.fmin i f) s = .next (aluDone s i f.d (aluFminmax false a b)))
    ∧ (Issues s i (.fmax i f) → exec (.fmax i f) s = .next (aluDone s i f.d (aluFminmax true a b)))
    ∧ (f.rd = 0 → (Issues s i (.fcmp i f) → exec (.fcmp i f) s = .next (flagsDone s i (aluFcmp a b))))
    ∧ (f.rb = 0 →
        (Issues s i (.fsqrt i f) → exec (.fsqrt i f) s = .next (aluDone s i f.d (aluFsqrt m a)))
        ∧ (Issues s i (.fcvtsw i f) → exec (.fcvtsw i f) s = .next (aluDone s i f.d (aluFcvtFrom m a.toInt)))
        ∧ (Issues s i (.fcvtswu i f) → exec (.fcvtswu i f) s = .next (aluDone s i f.d (aluFcvtFrom m a.toNat)))
        ∧ (Issues s i (.fcvtws i f) → exec (.fcvtws i f) s = .next (aluDone s i f.d (aluFcvtws m a)))
        ∧ (Issues s i (.fcvtwus i f) → exec (.fcvtwus i f) s = .next (aluDone s i f.d (aluFcvtwus m a)))
        ∧ (Issues s i (.fabs i f) → exec (.fabs i f) s = .next (regDone s i f.d (fpAbs a)))
        ∧ (Issues s i (.fneg i f) → exec (.fneg i f) s = .next (regDone s i f.d (fpNeg a)))
        ∧ (Issues s i (.fclass i f) → exec (.fclass i f) s = .next (regDone s i f.d (fpClass a))))

/-- R355: every NaN that an instruction writes is 0x7FC00000. A result whose exponent is 0xFF and whose fraction is not
zero is that word, whatever the operands, of every instruction that computes a binary32 value. -/
def Sys2Proof.Machine.OneNanIsWritten : Prop :=
  ∀ (m : Nat) (d a b r : Word),
    r ∈ [(aluFadd m a b).r, (aluFsub m a b).r, (aluFmul m a b).r, (aluFdiv m a b).r, (aluFsqrt m a).r, (aluFmadd m d a b).r,
      (aluFminmax false a b).r, (aluFminmax true a b).r, fpAbs a, fpNeg a] →
    r &&& 0x7F800000#32 = 0x7F800000#32 → r &&& 0x007FFFFF#32 ≠ 0 → r = 0x7FC00000#32

/-- R360: FCMP orders numbers by value, with -0 equal to +0; a NaN operand gives N Z C V = 0 0 1 1, and only a signalling
one sets FNV. -/
def Sys2Proof.Machine.CompareRelations : Prop :=
  ∀ (a b : Word),
    let nan := fun (x : Word) => x.toNat % 2 ^ 31 > 0x7F800000
    let sig := fun (x : Word) => nan x ∧ x.getLsbD 22 = false
    let key := fun (x : Word) => if x.msb then -((x.toNat % 2 ^ 31 : Nat) : Int) else ((x.toNat % 2 ^ 31 : Nat) : Int)
    let x := aluFcmp a b
    ((nan a ∨ nan b) → x.n = false ∧ x.z = false ∧ x.c = true ∧ x.v = true
        ∧ (x.sticky = 0x4000#32 ↔ (sig a ∨ sig b)) ∧ (x.sticky = 0 ↔ ¬ (sig a ∨ sig b)))
    ∧ (¬ nan a → ¬ nan b → x.sticky = 0 ∧ x.v = false
        ∧ (x.n = true ↔ key a < key b) ∧ (x.z = true ↔ key a = key b) ∧ (x.c = true ↔ key b ≤ key a))

/-- R355, R360: every NaN an instruction writes is 0x7FC00000, and FCMP orders by value. -/
def Obligations.NansAndComparisons : Prop :=
  Sys2Proof.Machine.OneNanIsWritten ∧ Sys2Proof.Machine.CompareRelations

/-- R287 to R289: MFS of every special register gives its value, and MTS of every one that is written sets it; a number
without the access, and in handler mode one of base mode, is an illegal instruction. A read of CYC_LO or DT_LO captures its high
word for CYC_HI or DT_HI of the bank context in use. -/
def Sys2Proof.Machine.SpecialRegisters : Prop :=
  ∀ (s : State) (i : Nat) (f : RI),
    let c := cpGet s.dev i
    let a := opAI s i f
    let n := f.imm.toNat
    let e := cpSet i (issued c) s.dev
    let q := cycNow i e
    let m := Issues s i (.mfs i f)
    let w := Issues s i (.mts i f)
    let bad := after s (cpRaise i 1 c.pc 0 (cpSet i (applySlot c) s.dev))
    let set := fun (x : Cp) => exec (.mts i f) s = .next (cpDone s i x)
    (m → f.ra = 0 →
      (∀ p ∈ [(0, srRead c), (0x10, cpidWord i), (0x12, hiGet true c), (0x14, hiGet false c),
          (0x20, c.a0.extractLsb' 0 32), (0x21, (c.a0.extractLsb' 32 8).signExtend 32),
          (0x22, c.a1.extractLsb' 0 32), (0x23, (c.a1.extractLsb' 32 8).signExtend 32)], n = p.1 →
        exec (.mfs i f) s = .next (regDone s i f.d p.2))
      ∧ (n = 0x11 → exec (.mfs i f) s
          = .next (after s (cpMod i (fun x => gWrite f.d (q.1.extractLsb' 0 32) (hiSet true (q.1.extractLsb' 32 32) x)) q.2)))
      ∧ (n = 0x13 → exec (.mfs i f) s = .next (cpDone s i
          (gWrite f.d (s.dev.devtime.extractLsb' 0 32) (hiSet false (s.dev.devtime.extractLsb' 32 32) (issued c)))))
      ∧ (cpBase c = true → ∀ p ∈ [(1, c.epc), (2, c.esr), (3, c.ecause), (4, c.eaddr), (5, c.npc), (6, c.nsr),
          (7, c.fpc), (8, c.fsr), (0x18, c.hdlo), (0x19, c.hdhi), (0x1A, c.holo), (0x1B, c.hohi), (0x1C, c.budget)],
          n = p.1 → exec (.mfs i f) s = .next (regDone s i f.d p.2))
      ∧ (cpBase c = false → n = 0x1C → exec (.mfs i f) s
          = .next (after s (cpMod i (gWrite f.d (cpGet (budgetRuns i e) i).budget) (budgetRuns i e)))))
    ∧ (w → f.rd = 0 →
      (n = 0 → set (srMts a (issued c)))
      ∧ (n = 0x20 → set { issued c with a0 := c.a0.extractLsb' 32 8 ++ a })
      ∧ (n = 0x21 → set { issued c with a0 := a.extractLsb' 0 8 ++ c.a0.extractLsb' 0 32 })
      ∧ (n = 0x22 → set { issued c with a1 := c.a1.extractLsb' 32 8 ++ a })
      ∧ (n = 0x23 → set { issued c with a1 := a.extractLsb' 0 8 ++ c.a1.extractLsb' 0 32 })
      ∧ (cpBase c = true →
          (n = 1 → set { issued c with epc := a }) ∧ (n = 2 → set { issued c with esr := a })
          ∧ (n = 5 → set { issued c with npc := a }) ∧ (n = 6 → set { issued c with nsr := a })
          ∧ (n = 7 → set { issued c with fpc := a }) ∧ (n = 8 → set { issued c with fsr := a })
          ∧ (n = 0x18 → set { issued c with hdlo := a }) ∧ (n = 0x19 → set { issued c with hdhi := a })
          ∧ (n = 0x1A → set { issued c with holo := a }) ∧ (n = 0x1B → set { issued c with hohi := a })
          ∧ (n = 0x1C → set { issued c with budget := a })))
    ∧ (Fetches s i (.mfs i f) → f.ra = 0 →
        (n ∉ [0, 1, 2, 3, 4, 5, 6, 7, 8, 0x10, 0x11, 0x12, 0x13, 0x14, 0x18, 0x19, 0x1A, 0x1B, 0x1C, 0x20, 0x21, 0x22, 0x23]
          ∨ cpBase c = false ∧ n ∈ [1, 2, 3, 4, 5, 6, 7, 8, 0x18, 0x19, 0x1A, 0x1B]) →
        exec (.mfs i f) s = .next bad)
    ∧ (Fetches s i (.mts i f) → f.rd = 0 →
        (n ∉ [0, 1, 2, 5, 6, 7, 8, 0x18, 0x19, 0x1A, 0x1B, 0x1C, 0x20, 0x21, 0x22, 0x23]
          ∨ cpBase c = false ∧ n ∈ [1, 2, 5, 6, 7, 8, 0x18, 0x19, 0x1A, 0x1B, 0x1C]) →
        exec (.mts i f) s = .next bad)

/-- R284, R287, R288, R289, R298, R299, R307: MOV, MFLK, MTLK, MOVI, LUI and MOVL complete with their result and
change no flag; MFS and MTS of every special register complete with its value, and are an illegal instruction where
there is no access. -/
def Obligations.MovesAndSpecials : Prop :=
  Sys2Proof.Machine.MoveResults ∧ Sys2Proof.Machine.SpecialRegisters

/-! ### Loads and stores of a CP -/

/-- R290, R304, R308, R309: an aligned load from IRAM or DRAM that the CP may make is a short load: its bytes, lowest
first, stand in its registers after the next instruction. -/
def Sys2Proof.Machine.ShortLoads : Prop :=
  ∀ (s : State) (i : Nat) (f : RI),
    let c := cpGet s.dev i
    let a := (opAI s i f + f.imm.signExtend 32).toNat
    let byte := fun (k : Nat) => memGet (if a < 0x20000 then c.iram else c.dram) (a + k)
    let may := fun (n : Nat) => cpTarget s.dev c a n false ∈ [some (CpTarget.iram a), some (CpTarget.dram a)]
    let half := byte 1 ++ byte 0
    let word := fun (k : Nat) => byte (k + 3) ++ byte (k + 2) ++ byte (k + 1) ++ byte k
    let slot := fun (l : List (Nat × Word)) => cpDone s i { issued c with slot := l }
    (may 1 → (Issues s i (.ldb i f) → exec (.ldb i f) s = .next (slot [(f.d, (byte 0).signExtend 32)]))
      ∧ (Issues s i (.ldbu i f) → exec (.ldbu i f) s = .next (slot [(f.d, (byte 0).zeroExtend 32)])))
    ∧ (may 2 → a % 2 = 0 → (Issues s i (.ldh i f) → exec (.ldh i f) s = .next (slot [(f.d, half.signExtend 32)]))
      ∧ (Issues s i (.ldhu i f) → exec (.ldhu i f) s = .next (slot [(f.d, half.zeroExtend 32)])))
    ∧ (may 4 → a % 4 = 0 → (Issues s i (.ldw i f) → exec (.ldw i f) s = .next (slot [(f.d, word 0)])))
    ∧ (may 8 → a % 8 = 0 → f.d % 2 = 0 → (Issues s i (.ldd i f) → exec (.ldd i f) s = .next (slot [(f.d, word 0), (f.d + 1, word 4)])))
    ∧ (may 16 → a % 16 = 0 → f.d % 4 = 0 → (Issues s i (.ldq i f) → exec (.ldq i f) s = .next (slot
        [(f.d, word 0), (f.d + 1, word 4), (f.d + 2, word 8), (f.d + 3, word 12)])))

/-- R308: the instruction after a load reads the old value of the load's register, later ones the loaded value; what the
instruction itself writes stays. Said of MOV rd, rk behind a load of rk. -/
def Sys2Proof.Machine.LoadSlotReadsOldValue : Prop :=
  ∀ (s t : State) (i k rd : Nat) (v : Word), Issues s i (.movR i ⟨BitVec.ofNat 5 rd, BitVec.ofNat 5 k, 0, 0⟩) → s.dev.pres = [] → s.dev.packCalls = [] →
    (cpGet s.dev i).slot = [(k, v)] → 0 < k → k < 32 → 0 < rd → rd < 32 → (cpGet s.dev i).g.length = 32 →
    (cpGet s.dev i).gFast.length = 8 →
    exec (.movR i ⟨BitVec.ofNat 5 rd, BitVec.ofNat 5 k, 0, 0⟩) s = .next t →
    gRead rd (cpGet t.dev i) = gRead k (cpGet s.dev i) ∧ (rd ≠ k → gRead k (cpGet t.dev i) = v)
      ∧ (cpGet t.dev i).slot = []

/-- R290, R296, R298, R304: an aligned store to DRAM that the CP may make writes its bytes, lowest first, at its address;
every other byte of DRAM, IRAM, the registers and the flags stay. -/
def Sys2Proof.Machine.DramStores : Prop :=
  ∀ (s : State) (i : Nat) (f : RI),
    let c := cpGet s.dev i
    let a := (opAI s i f + f.imm.signExtend 32).toNat
    let r := fun (k : Nat) => gRead (f.d + k) c
    let stored := fun (x : Instr) (n : Nat) (v : Nat) =>
      Issues s i x → cpTarget s.dev c a n true = some (CpTarget.dram a) → a % n = 0 →
      ∃ m, exec x s = .next (cpDone s i { issued c with dram := m })
        ∧ (∀ k, k < n → memGet m (a + k) = BitVec.ofNat 8 (v / 2 ^ (8 * k)))
        ∧ ∀ b, b < a ∨ a + n ≤ b → memGet m b = memGet c.dram b
    stored (.stb i f) 1 (r 0).toNat
    ∧ stored (.sth i f) 2 (r 0).toNat
    ∧ stored (.stw i f) 4 (r 0).toNat
    ∧ (f.d % 2 = 0 → stored (.std i f) 8 ((r 0).toNat + 2 ^ 32 * (r 1).toNat))
    ∧ (f.d % 4 = 0 → stored (.stq i f) 16
        ((r 0).toNat + 2 ^ 32 * (r 1).toNat + 2 ^ 64 * (r 2).toNat + 2 ^ 96 * (r 3).toNat))

/-- R290: in handler mode the CP reaches IRAM only for loads from 0x8000 on, DRAM only inside its two windows, and beyond
them only apertures 8 to 15. -/
def Sys2Proof.Machine.HandlerReach : Prop :=
  ∀ (d : Dev) (c : Cp) (a n : Nat) (store : Bool) (t : CpTarget), cpBase c = false → cpTarget d c a n store = some t →
    (t = .iram a ∧ store = false ∧ 0x8000 ≤ a ∧ a < 0x20000)
    ∨ (t = .dram a ∧ (c.hdlo.toNat ≤ a ∧ a + n ≤ c.hdhi.toNat ∨ c.holo.toNat ≤ a ∧ a + n ≤ c.hohi.toNat))
    ∨ 0xC0000000 ≤ a

/-- R304, R314, R315: a misaligned load or store, and one that the address map refuses, takes its exception and makes no
access: EPC holds the instruction, EADDR the data address. A load that the map refuses outside IRAM and DRAM is a long load: its
fault is taken behind the next instruction (R309). -/
def Sys2Proof.Machine.LoadStoreExceptions : Prop :=
  ∀ (s : State) (i : Nat) (f : RI) (x : Instr) (n : Nat) (store : Bool),
    (x, n, store) ∈ [(Instr.ldw i f, 4, false), (.ldh i f, 2, false), (.ldhu i f, 2, false), (.ldb i f, 1, false),
      (.ldbu i f, 1, false), (.ldd i f, 8, false), (.ldq i f, 16, false), (.stw i f, 4, true), (.sth i f, 2, true),
      (.stb i f, 1, true), (.std i f, 8, true), (.stq i f, 16, true)] →
    f.d % ((n + 3) / 4) = 0 →
    let c := cpGet s.dev i
    let a := opAI s i f + f.imm.signExtend 32
    let raised := fun (cause : Nat) => after s (cpRaise i cause c.pc a (cpSet i (applySlot c) s.dev))
    (a.toNat % n ≠ 0 → (Fetches s i x → exec x s = .next (raised (if store then 3 else 2))))
    ∧ (a.toNat % n = 0 → cpTarget s.dev c a.toNat n store = none → (store = true ∨ shortAddr a.toNat = true) →
        Fetches s i x → exec x s = .next (raised (if store then 5 else 4)))
    ∧ (a.toNat % n = 0 → cpTarget s.dev c a.toNat n store = none → store = false → shortAddr a.toNat = false →
        Issues s i x → ∃ l : PendLoad, exec x s = .next (cpDone s i { issued c with loads := [l] })
          ∧ l.src = .failed ∧ l.pc = c.pc ∧ l.addr = a ∧ l.slotUsed = false ∧ l.size = n)

/-- R314, R315: an exception in base mode with EX = 0 saves pc and SR, sets EX and M, and goes to 0x40; no other register
of the CP changes, and no other CP. -/
def Sys2Proof.Machine.ExceptionEntry : Prop :=
  ∀ (d : Dev) (i cause : Nat) (epc eaddr : Word),
    let c := cpGet d i
    bit c.sr 30 = false → bit c.sr 31 = true → cause < 8 →
    cpRaise i cause epc eaddr d = cpSet i { c with
      epc := epc, esr := srRead c, ecause := BitVec.ofNat 32 cause, eaddr := eaddr
      run := if c.run = CpRun.wait then .run else c.run
      sr := c.sr ||| 0xC0000000#32, pc := 0x40 } d

/-- R304, R314, R315: misaligned and refused accesses take their exception; what the entry saves and sets. -/
def Obligations.CpExceptions : Prop :=
  Sys2Proof.Machine.LoadStoreExceptions ∧ Sys2Proof.Machine.ExceptionEntry

/-- R309: a load from Plaza in base mode is a long load: it is in progress, with its bytes, and writes no register yet. -/
def Sys2Proof.Machine.LongLoadIssues : Prop :=
  ∀ (s : State) (i : Nat) (f : RI) (off : Nat),
    let c := cpGet s.dev i
    let a := opAI s i f + f.imm.signExtend 32
    Issues s i (.ldw i f) → a.toNat % 4 = 0 → cpTarget s.dev c a.toNat 4 false = some (.plaza off) →
    refilling s.dev off 4 = [] →
    exec (.ldw i f) s = .next (cpDone s i { issued c with
      loads := [⟨c.pc, [(f.d, 0)], bit c.sr 29, 4, false, a, .plaza off (memRead s.dev.plaza off 4), false⟩] })

/-- R308, R309: when the data of the oldest long load returns, its registers are written: at once when the instruction
behind it has issued, else after that instruction. An access that failed is an access fault on the load, taken when the
instruction behind it has issued (R296). -/
def Sys2Proof.Machine.LongLoadReturns : Prop :=
  ∀ (s : State) (i : Nat) (l : PendLoad) (b : List Byte) (e : BusErr), Running s → i < 72 →
    s.dev.refills = [] → (cpGet s.dev i).loads = [l] →
    let c := cpGet s.dev i
    let vals := l.dst.map (fun x => (x.1, loadWord l.size l.signed (fitBytes l.size b) x.2))
    (∃ from_, l.src = .outside from_) → (l.size = 16 → b.length ≠ 64) →
    (l.slotUsed = false → c.run = .run → fetchOk c = true →
      exec (.longLoadComplete i (.ok b)) s = .next (cpDone s i { c with loads := [], slot := vals }))
    ∧ (l.slotUsed = false →
      exec (.longLoadComplete i (.err e)) s = .next (cpDone s i { c with loads := [{ l with src := .failed }] }))
    ∧ (l.slotUsed = true →
      exec (.longLoadComplete i (.err e)) s = .next (after s (cpRaise i 4 l.pc l.addr
        (cpSet i { applySlot { c with loads := [{ l with src := .failed }] } with loads := [] } s.dev))))

/-- R290, R296, R304, R308, R309: aligned loads, when their registers change, and the loads from Plaza. -/
def Obligations.Loads : Prop :=
  Sys2Proof.Machine.ShortLoads ∧ Sys2Proof.Machine.LoadSlotReadsOldValue ∧ Sys2Proof.Machine.LongLoadIssues ∧ Sys2Proof.Machine.LongLoadReturns

/-- R296, R322, R323, R295: a failed posted store leaves STERR, CP_STADDR and the store-error source; a SEM_ACQ read gives
the free semaphore to the CP; SEM_REL by its holder frees it; a word of an aperture descriptor is written. -/
def Sys2Proof.Machine.SemaphoresAndStores : Prop :=
  ∀ (s : State) (i : Nat), Running s → i < 72 →
    (∀ a : Word, exec (.postedStoreFail i a) s = .next (after s (srcFire (0x2200 + 8 * i + 1) (pageEvent (0x100 + i) 0
      (cpSet i { cpGet s.dev i with sterr := true, staddr := a } s.dev)))))
    ∧ (∀ k, k < 256 → (semGet s.dev (256 * (i / 9) + k)).holder = none →
        let p := (semGet s.dev (256 * (i / 9) + k)).poisoned
        exec (.semAcq i k) s = .next (after s (emit
          (.cpValue i (BitVec.ofNat 32 (2 ^ 15 + 2 ^ 12 * (i / 9) + 2 ^ 8 * (i % 9) + (if p then 6 else 0))))
          (semSet (256 * (i / 9) + k) ⟨some i, p⟩ s.dev))))
    ∧ (∀ k, ∀ v : Word, k < 256 →
        let x := semGet s.dev (256 * (i / 9) + k)
        (x.holder = some i → exec (.semRel i k v) s = .next (after s (srcFire (0x2100 + 8 * (i / 9) + k / 32)
          (semSet (256 * (i / 9) + k) ⟨none, x.poisoned && !(v.getLsbD 0)⟩ s.dev))))
        ∧ (x.holder ≠ some i → exec (.semRel i k v) s = .next (cpDone s i { cpGet s.dev i with semerr := true })))
    ∧ (∀ (k w : Nat) (v : Word), k < 16 → w < 4 → (cpGet s.dev i).apert.length = 16 →
        ∃ t, exec (.apertureDescriptorWrite i (16 * k + 4 * w) v) s = .next (cpDone s i t)
          ∧ lget t.apert k 0 = setBits (lget (cpGet s.dev i).apert k 0) (32 * w + 31) (32 * w) v.toNat
              &&& 0xFFFFFFFFFFFFF00007FFFFFFF0001FFF#128
          ∧ ∀ j, j ≠ k → lget t.apert j 0 = lget (cpGet s.dev i).apert j 0)

/-- R290, R295, R296, R298, R304, R322, R323: stores write their bytes and no other; the reach of handler mode;
semaphores and aperture words. -/
def Obligations.StoresAndReach : Prop :=
  Sys2Proof.Machine.DramStores ∧ Sys2Proof.Machine.HandlerReach ∧ Sys2Proof.Machine.SemaphoresAndStores

/-! ### Branches, the SYS group, exceptions by instruction, interrupts -/

/-- R298, R305, R306: branches and jumps. A branch tests SR; BL and BLR leave the next address in lk; RET goes to lk. -/
def Sys2Proof.Machine.BranchResults : Prop :=
  ∀ (s : State) (i : Nat),
    let c := cpGet s.dev i
    (∀ (k : BitVec 4) (off : BitVec 22), k ≠ 15 →
      let tgt := c.pc + 4 * off.signExtend 32
      (bcHolds k.toNat c.sr = true → IssuesTo s i (.bCond i k off) tgt →
        exec (.bCond i k off) s = .next (cpDone s i { issued c with pc := tgt }))
      ∧ (bcHolds k.toNat c.sr = false → Issues s i (.bCond i k off) →
        exec (.bCond i k off) s = .next (cpDone s i (issued c))))
    ∧ (∀ off, Fetches s i (.bCond i 15 off) →
        exec (.bCond i 15 off) s = .next (after s (cpRaise i 1 c.pc 0 (cpSet i (applySlot c) s.dev))))
    ∧ (∀ off : BitVec 26, IssuesTo s i (.bl i off) (c.pc + 4 * off.signExtend 32) →
        exec (.bl i off) s = .next (cpDone s i (lkWrite (c.pc + 4) { issued c with pc := c.pc + 4 * off.signExtend 32 })))
    ∧ (∀ f : RR, f.rsv = 0 → f.rd = 0 → f.rb = 0 →
        (IssuesTo s i (.jr i f) (opA s i f) → exec (.jr i f) s = .next (cpDone s i { issued c with pc := opA s i f }))
        ∧ (IssuesTo s i (.blr i f) (opA s i f) → exec (.blr i f) s = .next (cpDone s i (lkWrite (c.pc + 4) { issued c with pc := opA s i f }))))
    ∧ (c.serve = none → IssuesTo s i (.ret i ⟨0, 0, 0, 0⟩) (lkRead c) →
        exec (.ret i ⟨0, 0, 0, 0⟩) s = .next (cpDone s i { issued c with pc := lkRead c }))

/-- R305: the condition codes by the flags. -/
def Sys2Proof.Machine.ConditionCodes : Prop :=
  ∀ (n z c v : Bool) (sr : Word), sr.toNat % 16 = n.toNat * 8 + z.toNat * 4 + c.toNat * 2 + v.toNat →
    bcHolds 0 sr = true ∧ bcHolds 1 sr = z ∧ bcHolds 2 sr = !z ∧ bcHolds 3 sr = c ∧ bcHolds 4 sr = !c ∧ bcHolds 5 sr = n
    ∧ bcHolds 6 sr = !n ∧ bcHolds 7 sr = v ∧ bcHolds 8 sr = !v ∧ bcHolds 9 sr = (c && !z) ∧ bcHolds 10 sr = (!c || z)
    ∧ bcHolds 11 sr = decide (n = v) ∧ bcHolds 12 sr = decide (n ≠ v) ∧ bcHolds 13 sr = (!z && decide (n = v))
    ∧ bcHolds 14 sr = (z || decide (n ≠ v))

/-- R305: what the condition codes mean after a comparison of a and b: CY, NC, UA and UBE compare unsigned, SGE, SLT, SGT and
SLE signed. -/
def Sys2Proof.Machine.ConditionsAfterCompare : Prop :=
  ∀ (a b : Word) (sr : Word), (sr.toNat % 16 = (a - b).msb.toNat * 8 + (decide (a = b)).toNat * 4
      + (decide (b.toNat ≤ a.toNat)).toNat * 2 + (overflows (a.toInt - b.toInt)).toNat) →
    bcHolds 0 sr = true ∧ bcHolds 15 sr = false
    ∧ bcHolds 1 sr = decide (a = b) ∧ bcHolds 2 sr = decide (a ≠ b)
    ∧ bcHolds 3 sr = decide (b.toNat ≤ a.toNat) ∧ bcHolds 4 sr = decide (a.toNat < b.toNat)
    ∧ bcHolds 9 sr = decide (b.toNat < a.toNat) ∧ bcHolds 10 sr = decide (a.toNat ≤ b.toNat)
    ∧ bcHolds 11 sr = decide (b.toInt ≤ a.toInt) ∧ bcHolds 12 sr = decide (a.toInt < b.toInt)
    ∧ bcHolds 13 sr = decide (b.toInt < a.toInt) ∧ bcHolds 14 sr = decide (a.toInt ≤ b.toInt)

/-- R305 (and R298, R306): the condition codes, what they mean after a comparison, and the branches that test them. -/
def Obligations.Branches : Prop :=
  Sys2Proof.Machine.BranchResults ∧ Sys2Proof.Machine.ConditionCodes ∧ Sys2Proof.Machine.ConditionsAfterCompare

/-- R306, R310, R311, R314, R316, R319: the SYS group and SVC. WAIT stops issue; ERET returns at the innermost level that
is set; BRK and SVC take their exceptions; FENCE waits for the CP's stores; a base instruction in handler mode is illegal. -/
def Sys2Proof.Machine.SysGroup : Prop :=
  ∀ (s : State) (i : Nat),
    let c := cpGet s.dev i
    let z : RR := ⟨0, 0, 0, 0⟩
    let raised := fun (cause : Nat) (epc eaddr : Word) => after s (cpRaise i cause epc eaddr (cpSet i (applySlot c) s.dev))
    ((Issues s i (.cpNop i z) → exec (.cpNop i z) s = .next (cpDone s i (issued c)))
      ∧ (storesWait s.dev i = false → Issues s i (.cpFence i z) → exec (.cpFence i z) s = .next (cpDone s i (issued c)))
      ∧ (storesWait s.dev i = true → Fetches s i (.cpFence i z) → exec (.cpFence i z) s = .next (after s s.dev))
      ∧ (Issues s i (.isync i z) → exec (.isync i z) s = .next (cpDone s i (issued c)))
      ∧ (cpBase c = true → (Issues s i (.cpWait i z) → exec (.cpWait i z) s = .next (cpDone s i { issued c with run := .wait })))
      ∧ (bkGrant s.dev i = false → (Fetches s i (.brk i z) → exec (.brk i z) s = .next (raised 7 (c.pc + 4) 0)))
      ∧ (bkGrant s.dev i = true → (Issues s i (.brk i z) → exec (.brk i z) s = .next (after s (pageEvent 12 0
          (cpSet i { issued c with run := .stopped, halted := true } s.dev)))))
      ∧ (∀ f : RI, f.rd = 0 → f.ra = 0 → (Fetches s i (.svc i f) → exec (.svc i f) s = .next (raised 8 (c.pc + 4) (f.imm.zeroExtend 32))))
      ∧ (cpBase c = false → ∀ x ∈ [Instr.cpWait i z, .eret i z, .ckpt i z], (Fetches s i x → exec x s = .next (raised 1 c.pc 0))))
    ∧ (cpBase c = true → Fetches s i (.eret i z) → fetchOk (cpEret (issued c)) = true →
        exec (.eret i z) s = .next (cpDone s i (cpEret (issued c))))

/-- R290, R298, R306, R309: what a CP does with the word at its pc when an instruction is to issue: a pc that cannot be fetched is an
access fault on itself; a word that the tables do not define is an illegal instruction; the word of another instruction leaves this one
unissued. -/
def Sys2Proof.Machine.FetchedWord : Prop :=
  ∀ (s : State) (i : Nat) (x : Instr) (w : Word), cpWord x = some (i, w) →
    let c := cpGet s.dev i
    let raised := fun (cause : Nat) (ea : Word) => after s (cpRaise i cause c.pc ea (cpSet i (applySlot c) s.dev))
    Running s → cpIssues s.dev i = true → c.loads = [] →
    (fetchOk c = false → exec x s = .next (raised 6 c.pc))
    ∧ (fetchOk c = true → fetchWord c ≠ w → cpDefined (fetchWord c) = false → exec x s = .next (raised 1 0))
    ∧ (fetchOk c = true → fetchWord c ≠ w → cpDefined (fetchWord c) = true → exec x s = .next (after s s.dev))

/-- R290, R298, R306, R310, R311, R314, R316, R319: the SYS group and SVC complete with their effect; a pc that cannot
be fetched and a word the tables do not define take their exceptions. -/
def Obligations.SystemInstructions : Prop :=
  Sys2Proof.Machine.SysGroup ∧ Sys2Proof.Machine.FetchedWord

/-- R316: ERET restores pc and SR of the innermost level that is set. -/
def Sys2Proof.Machine.ReturnLevels : Prop :=
  ∀ (c : Cp),
    (bit c.sr 30 = true → (cpEret c).pc = c.epc ∧ ((cpEret c).sr.toNat / 2 ^ 26) = c.esr.toNat / 2 ^ 26)
    ∧ (bit c.sr 30 = false → bit c.sr 29 = true → (cpEret c).pc = c.fpc ∧ ((cpEret c).sr.toNat / 2 ^ 26) = c.fsr.toNat / 2 ^ 26)
    ∧ (bit c.sr 30 = false → bit c.sr 29 = false → bit c.sr 28 = true →
        (cpEret c).pc = c.npc ∧ ((cpEret c).sr.toNat / 2 ^ 26) = c.nsr.toNat / 2 ^ 26)
    ∧ (bit c.sr 30 = false → bit c.sr 29 = false → bit c.sr 28 = false →
        (cpEret c).pc = c.epc ∧ ((cpEret c).sr.toNat / 2 ^ 26) = c.esr.toNat / 2 ^ 26)

/-- R315: the two interrupt entries in base mode: which register saves pc and SR, what SR becomes, where pc goes. -/
def Sys2Proof.Machine.InterruptEntries : Prop :=
  ∀ (s : State) (i : Nat), Running s → i < 72 →
    let c := cpGet s.dev i
    let e := applySlot c
    c.run = .run → c.loads = [] → cpBase c = true → bit c.sr 30 = false → bit c.sr 29 = false →
    (presented s.dev i false = true → bit c.sr 26 = true → bit c.sr 28 = false →
      exec (.normalInterruptEntry i) s = .next (cpDone s i { e with
        npc := c.pc, nsr := srRead e, pc := 0x80, sr := (c.sr ||| 0x90000000#32) &&& 0xFBFFFFFF#32 }))
    ∧ (presented s.dev i true = true → bit c.sr 27 = true →
      exec (.fastInterruptEntry i) s = .next (cpDone s i { e with
        fpc := c.pc, fsr := srRead e, pc := 0xC0, sr := (c.sr ||| 0xA0000000#32) &&& 0xF3FFFFFF#32 }))

/-- R316 (and R315 for the interrupt entries): what a return restores, and what an interrupt entry saves and sets. -/
def Obligations.ReturnsAndInterrupts : Prop :=
  Sys2Proof.Machine.ReturnLevels ∧ Sys2Proof.Machine.InterruptEntries

/-- R320: at the end of its budget an entry is treated as an exception in handler mode, and the CP's budget source fires. -/
def Sys2Proof.Machine.BudgetEnds : Prop :=
  ∀ (s : State) (i : Nat), Running s → i < 72 →
    let c := cpGet s.dev i
    (c.run = .run ∨ c.run = .wait) → cpBase c = false → c.budget ≠ 0 →
    exec (.budgetExpiry i) s = .next (after s (handlerFault i (srcFire (0x2200 + 8 * i) (cpSet i { c with budget := 0 } s.dev))))

/-- R312: CKPT in base mode writes the slot of the own district's bank from the DRAM image, and the mirror copy is under
way; the acknowledgement of the mirror posts what waits for it. A bad image address or slot is an access fault. -/
def Sys2Proof.Machine.Checkpoints : Prop :=
  ∀ (s : State) (i : Nat) (f : RR), cpBase (cpGet s.dev i) = true → f.rsv = 0 → f.rd = 0 →
    let c := cpGet s.dev i
    let a := (opA s i f).toNat
    let k := (opB s i f).toNat
    (a % 128 = 0 → 0x10000000 ≤ a → a + 128 ≤ 0x10020000 → k ≤ 32783 →
      (Issues s i (.ckpt i f) → exec (.ckpt i f) s = .next (after s (bankWrite (i / 9) k (BitVec.ofNat 1024 (leNat (memRead c.dram a 128)))
        (cpSet i (issued c) s.dev)))))
    ∧ ((a % 128 ≠ 0 ∨ a < 0x10000000 ∨ 0x10020000 < a + 128 ∨ 32783 < k) →
        (Fetches s i (.ckpt i f) → exec (.ckpt i f) s = .next (after s (cpRaise i 5 c.pc (opA s i f) (cpSet i (applySlot c) s.dev)))))
    ∧ (∀ d, (d, k) ∈ s.dev.mirrorWait →
        Running s → exec (.ckptMirrorAck d k) s = .next (after s (liveP (mirrorAck d k) s.dev)))

/-- R312, R320: the end of a budget is treated as an exception in handler mode; CKPT and the acknowledgement of its
mirror copy. -/
def Obligations.BudgetsAndCheckpoints : Prop :=
  Sys2Proof.Machine.BudgetEnds ∧ Sys2Proof.Machine.Checkpoints

namespace Sys2Proof.Machine

open Sys2Proof

/-! ### What the statements about accesses share -/

/-- The device as an accepted write meets it: the challenge of its origin and page is dropped (R412), and modes whose idle
time has passed are closed before a write to an expert half is judged (R413). -/
def judged (o : Origin) (page x : Nat) (d : Dev) : Dev :=
  if 0x800 ≤ x then xExpire (dropChal o page d) else dropChal o page d

/-- The value that the written words of a register showed before: OLD of the record (R423). -/
def oldShown (s : State) (o : Origin) (page x size : Nat) : DWord :=
  match regFind page x with
  | some a => BitVec.ofNat 64 ((regShown (dropChal o page s.dev) o a).toNat / 2 ^ (8 * a.byte) % 2 ^ (8 * size))
  | none => 0

/-- The value that a write of the writable bits `mask` leaves in a register, the rest as it was (R12, R405). -/
def merged (s : State) (o : Origin) (page x : Nat) (val mask : DWord) : DWord :=
  ((match regFind page x with | some a => regShown (dropChal o page s.dev) o a | none => 0) &&& ~~~mask) ||| (val &&& mask)

/-- Steps 1 to 3 of R405 pass for a write at offset x of a page: nothing makes it wait (R424), the class may write, no lock
stands against it, and expert mode is open where x lies in the expert half. -/
def Passes (s : State) (o : Origin) (page x : Nat) (classes : List Nat) : Prop :=
  Running s ∧ mustWait s.dev o (4096 * page + x) = false ∧ originClass o ∈ classes ∧ lockOk s.dev o page = true
    ∧ (0x800 ≤ x → xOpen (xExpire s.dev) o page = true)

/-- The machine after an accepted write (R405, R422, R424): its audit record, its effect `f`, the idle time of an expert
mode anew, and the answer to the BMC. -/
def wrote (s : State) (o : Origin) (page x size : Nat) (val : DWord) (f : Dev → Dev) : State :=
  let d := f (auditWords o page x size val (oldShown s o page x size) (if 0x800 ≤ x then 0x10 else 0) (judged o page x s.dev))
  after s (writeAnswer o 0 (if 0x800 ≤ x then xTouch o page d else d))

/-- The same for a write that leaves no record (R422): those of selection registers. -/
def selected (s : State) (o : Origin) (page : Nat) (r : Reg) (v : DWord) (f : Dev → Dev) : State :=
  after s (writeAnswer o 0 (f (regSet r (originKey o) v (dropChal o page s.dev))))

/-- The machine after an accepted write that leaves no record (R422). -/
def wroteQuietly (s : State) (o : Origin) (page x : Nat) (f : Dev → Dev) : State :=
  let d := f (judged o page x s.dev)
  after s (writeAnswer o 0 (if 0x800 ≤ x then xTouch o page d else d))

/-- The device with the record of a write and its flags (R423). -/
def recorded (s : State) (o : Origin) (page x size : Nat) (val : DWord) (flags : Nat) : Dev :=
  auditWords o page x size val (oldShown s o page x size) (flags + (if 0x800 ≤ x then 0x10 else 0)) (judged o page x s.dev)

/-- The machine after a write that an object rule denies (R403, R405): DENY, and the record. -/
def deniedWrite (s : State) (o : Origin) (page x size : Nat) (val : DWord) : State :=
  after s (writeAnswer o 1 (pgFlag page 31 (recorded s o page x size val 1)))

/-- The machine after a write that is ignored with CFGERR (R403, R405), and what its register says besides. -/
def ignoredWrite (s : State) (o : Origin) (page x size : Nat) (val : DWord) (f : Dev → Dev) : State :=
  let d := f (pgFlag page 29 (recorded s o page x size val 8))
  after s (writeAnswer o 0 (if 0x800 ≤ x then xTouch o page d else d))

/-- The machine after an accepted write that changes nothing (R405). -/
def idleWrite (s : State) (o : Origin) (page x size : Nat) (val : DWord) : State :=
  let d := recorded s o page x size val 8
  after s (writeAnswer o 0 (if 0x800 ≤ x then xTouch o page d else d))

/-- A read of an origin is made at once: no write of the same origin waits before it (R424). -/
def ReadsNow (s : State) (o : Origin) : Prop := Running s ∧ ∀ w ∈ s.dev.auWait, w.rd = true ∨ w.origin ≠ o

/-- A selection is taken when its origin may read the page (R408), no Fatal fault shuts its class out (R436), and nothing
makes it wait. -/
def Selects (s : State) (o : Origin) (page x : Nat) (t : PageTy) : Prop :=
  Running s ∧ mustWait s.dev o (4096 * page + x) = false ∧ mayRead s.dev o t = true
    ∧ fatalShut s.dev o = false

end Sys2Proof.Machine

open Sys2Proof Sys2Proof.Machine

/-! ### The queue, the clock, and every command -/

/-- A step takes the command at the front of the queue and runs it with the queue's rest. -/
def Obligations.StepTakesTheFront : Prop :=
  ∀ (s : State) (c : Instr) (rest : List Instr),
    step { s with pending := c :: rest } = exec c { s with pending := rest }

/-- Log entry 23 (the model's choice): with no command waiting, a step is one idle nanosecond of the time base (R531): DEVTIME
advances by 1 where no slew is under way, by 2 or by 0 where the slew takes up a nanosecond, the cycles of FBK are counted
(R507), and each feed FIFO gives one entry to its log. In a frozen TC9640 the sequence of R493 ends, with the stack in self-refresh
unless it has failed and FROZEN asserted, and then nothing happens (R494). Of an activation, a reset clear, an attestation request and
an invalidation that wait others speak. -/
def Obligations.IdleNanosecond : Prop :=
  ∀ (s : State), s.pending = [] →
    (s.dev.frozen = true → s.dev.frozenPin = true → step s = .next s)
    ∧ (s.dev.frozen = true → s.dev.frozenPin = false →
        let ok := decide (regFld s.dev .hbStat 0 31 30 ≠ 3)
        let d := regSetFld .fzStat 0 30 30 ok.toNat s.dev
        step s = .next (after s { (if ok then regSetFld .hbStat 0 31 30 1 d else d) with frozenPin := true }))
    ∧ (s.dev.frozen = false → s.dev.activ = [] → s.dev.clearing = [] → s.dev.attQ = [] → s.dev.invals = [] →
        let d := fbkPass 1 { s.dev with
          jnFeed := s.dev.jnFeed - 1, auFeed := s.dev.auFeed - 1
          feeds := (s.dev.feeds.map (fun (e : Nat × Nat) => (e.1, e.2 - 1))).filter (fun e => e.2 ≠ 0) }
        let due := decide (1000000 / regFld s.dev .tbSlew 0 9 0 ≤ s.dev.slewCnt + 1)
        (s.dev.slew = 0 → step s = .next (after s { d with devtime := s.dev.devtime + 1 }))
        ∧ (s.dev.slew ≠ 0 → due = false → step s = .next (after s { d with
            devtime := s.dev.devtime + 1, slewCnt := s.dev.slewCnt + 1 }))
        ∧ (0 < s.dev.slew → due = true → step s = .next (after s { d with
            devtime := s.dev.devtime + 2, slew := s.dev.slew - 1, slewCnt := 0 }))
        ∧ (s.dev.slew < 0 → due = true → step s = .next (after s { d with slew := s.dev.slew + 1, slewCnt := 0 })))

/-- Every command answers a next state and leaves the queue behind it as it is: no ordinary data ends a run. In a frozen
TC9640 nothing changes (R494, R497) but by a reset, a command of the test access port, an assertion of a freeze source, a
privileged source's latch or the temperature's sensors. -/
def Obligations.EveryCommandAnswers : Prop :=
  ∀ (i : Instr) (s : State), ∃ t, exec i s = .next t ∧ t.pending = s.pending
    ∧ (s.dev.frozen = true → t = s ∨ i ∈ [Instr.coldReset, .warmReset, .freezeNFall, .jtagFreeze, .dumpCrc, .idcode, .tapReset]
        ∨ (∃ n, i = .privLatchSet n) ∨ (∃ v, i = .dumpSel v) ∨ (∃ b, i = .dumpData b) ∨ (∃ b, i = .maint b)
        ∨ (∃ l, i = .extest l) ∨ (∃ a b, i = .samplePreload a b) ∨ (∃ b, i = .bypass b) ∨ (∃ l, i = .thermalSample l))

/-- Every step keeps the invariant: no CP sleeps on an interrupt that has been delivered to it (R319, R386), no call of a
handler-pack entry waits for a CP that could take it (R325, R333), and the commands that wait name things that exist. -/
def Obligations.StepKeepsInvariant : Prop :=
  ∀ (s t : State), Inv s → step s = .next t → Inv t

/-- The invariant holds right after reset. -/
def Obligations.ResetMeetsInvariant : Prop := Inv State.reset

/-- R28, R92, R165, R217, R286, R338, R530: what a reset leaves: DEVTIME 0, nothing READY, every CP off with SR M = 1 alone,
every subchannel IDLE, unowned and unbound, every channel idle and of firmware, no source pending or active, no record in a
log, the root ports disabled. The model's choices, no rule of the spec: the general registers read 0 and subchannel n is
homed in district n mod 8 (log entry 2), and Plaza lists no byte (log entry 8). -/
def Obligations.ResetState : Prop :=
  let d := State.reset.dev
  d.devtime = 0 ∧ State.reset.pending = [] ∧ isReady d = false ∧ d.journal = [] ∧ d.audit = [] ∧ d.jnHead = 0 ∧ d.auHead = 0
    ∧ d.plaza = [] ∧ Memory.wf d.plaza = true ∧ d.frozen = false ∧ d.fatal = false
    ∧ (∀ i, i < 72 → (cpGet d i).run = .off ∧ (cpGet d i).sr = 0x80000000#32 ∧ (∀ k, gRead k (cpGet d i) = 0))
    ∧ (∀ n, n < Config.subchannels → (subGet d n).st = .idle ∧ (subGet d n).ownFn = 0x7F ∧ (subGet d n).hpack = 0xFF
        ∧ (subGet d n).home = n % 8)
    ∧ (∀ c, c < 4096 → (chGet d c).st = .idle ∧ chOwner (chGet d c) = none)
    ∧ (∀ n, n < 16384 → (srcGet d n).pend = false ∧ (srcGet d n).act = false)
    ∧ (∀ p, p < 32 → regFld d .dpCtl p 31 31 = 1)

/-! ### Register accesses -/

/-- R400, R405, R422, R423: any write of a whole register that passes is recorded with its new and old value and takes effect
as the register's rules say, on the value with its writable bits written; a write to a register without a writable field, from any
class, changes nothing and is recorded as ignored. Any other write from a class that the half's set lacks, against a lock, or of a class that a Fatal fault shuts out (R436), is denied: DENY, its event and count, and the record. -/
def Obligations.RegisterWrites : Prop :=
  ∀ (s : State) (o : Origin) (page x : Nat) (val : DWord) (a : RegAt), Running s → page < 0x4000 → x < 4096 → x % 4 = 0 →
    regFind page x = some a → a.info.bytes = 4 → a.byte = 0 → isSelection a.reg = false → a.reg ≠ .pgXkey →
    ¬ (page = 0 ∧ (x = 0x80 ∨ x = 0x84)) → mustWait s.dev o (4096 * page + x) = false →
    let old := oldShown s o page x 4
    let fl := if 0x800 ≤ x then 0x10 else 0
    let word : DWord := BitVec.ofNat 64 (val.toNat % 2 ^ 32)
    let put := fun (flags : Nat) => auditWords o page x 4 word old (flags + fl) (judged o page x s.dev)
    let touch := fun (d : Dev) => if 0x800 ≤ x then xTouch o page d else d
    (writeMask a.info = 0 → exec (.registerWrite o (4096 * page + x) 4 val) s = .next (after s (writeAnswer o 0 (touch (put 8)))))
    ∧ (writeMask a.info ≠ 0 → (inSet (writers a x) (originClass o) = false ∨ lockOk s.dev o page = false
        ∨ (0x800 ≤ x ∧ xOpen (xExpire s.dev) o page = false)) →
      exec (.registerWrite o (4096 * page + x) 4 val) s = .next (after s (writeAnswer o 1 (pgFlag page 31 (put 1)))))
    ∧ (inSet (writers a x) (originClass o) = true → lockOk s.dev o page = true →
        (0x800 ≤ x → xOpen (xExpire s.dev) o page = true) →
      (writeMask a.info ≠ 0 → ∀ f, regEffect (judged o page x s.dev) o a (merged s o page x word (writeMask a.info)) = .ok f →
          unaudited (judged o page x s.dev) o a = false →
        exec (.registerWrite o (4096 * page + x) 4 val) s = .next (after s (writeAnswer o 0 (touch (f (put 0)))))))

/-- R400, R409, R424: a read goes to its origin with the register's value, and clears the status it shows: page header
flags, ring and CP sticky bits. A read behind a waiting write of its origin waits; one of the wrong size is not supported. -/
def Sys2Proof.Machine.ReadsOfBar0 : Prop :=
  ∀ (s : State) (o : Origin) (page : Nat), ReadsNow s o → page < 0x4000 →
    (∀ t i, pageOf page = some (t, i) → mayRead s.dev o t = true → t ≠ .tim →
      exec (.readClearStatus o (4096 * page + 0x14) 4) s = .next (after s (readAnswer o
        (regGet s.dev .pgStat page &&& 0xFFFFFFFF#64) (regSet .pgStat page 0 s.dev))))
    ∧ (∀ t i, pageOf page = some (t, i) → mayRead s.dev o t = false → t ≠ .tim →
      exec (.readClearStatus o (4096 * page + 0x14) 4) s = .next (after s (readAnswer o 0 s.dev)))
    ∧ (pageOf page = none → exec (.readClearStatus o (4096 * page + 0x14) 4) s = .next (after s (readAnswer o 0 s.dev)))
    ∧ (∀ off size, size ≠ 4 → size ≠ 8 → off < 0x4000000 → (∀ p, o ≠ .bmc p) →
      exec (.readClearStatus o off size) s = .next (after s (emit (.unsupported o) s.dev)))

/-- R2, R137, R164, R518: reads of a function's other address spaces, numbered behind BAR 0 as log entry 92 says. Configuration space
shows the vendor and the device, the revision and the class code; BAR 2 shows a status-window entry, zeros to a function that does not
own its subchannel; function k of the CXL.mem range shows what BAR 2 shows, and the rest reads as zeros. -/
def Sys2Proof.Machine.OtherSpaces : Prop :=
  ∀ (s : State) (o : Origin) (f : FnId), Running s → originFn o = some f →
    let answer := fun (b : List Byte) => Host.Outcome.next (after s (emit (.window f b) s.dev))
    exec (.readClearStatus o 0x40000008 4) s = answer (leBytes 4 0x120000B1)
    ∧ exec (.readClearStatus o 0x40000000 4) s
      = answer (leBytes 4 (0x1F4B + 0x10000 * (if f.fn = 0 then 0x9640 else 0x9641)))
    ∧ (∀ n, n < Config.subchannels →
      let off := 0x200000 + 8 * n
      (exec (.readClearStatus o (0x8000000 + off) 8) s = answer (leBytes 8 (swWord s.dev f n)))
      ∧ (subOwner (subGet s.dev n) ≠ some f → f.fn ≠ 0 → swWord s.dev f n = 0)
      ∧ (∀ k, k ≤ 64 → exec (.readClearStatus o (0x10000000 + 0x400000 * k + off) 8) s = .next (after s (emit
          (.window ⟨f.port, k⟩ (leBytes 8 (swWord s.dev ⟨f.port, k⟩ n))) s.dev))))
    ∧ (∀ off size, 0x10400000 ≤ off → off < 0x20000000 → exec (.readClearStatus o (0x10000000 + off) size) s
        = .next (after s (emit (.window ⟨f.port, 0⟩ (List.replicate size 0)) s.dev)))

/-- R27: a read of TB_TIME's low word answers DEVTIME [31:0] and holds [63:32] for the origin's next read of the high word. -/
def Sys2Proof.Machine.TimeReads : Prop :=
  ∀ (s : State) (o : Origin), ReadsNow s o → mayRead s.dev o .tim = true →
    exec (.devtimeLowRead o) s = .next (after s (readAnswer o (BitVec.ofNat 64 (s.dev.devtime.toNat % 2 ^ 32))
      (regSet .tbTime (1 + originKey o) (BitVec.ofNat 64 (2 ^ 32 + s.dev.devtime.toNat / 2 ^ 32)) s.dev)))

/-- R402, R411, R412, R413: the read of PG_XKEY makes the challenge; the write that answers it opens the half, and is
recorded with XOPEN; writing 0x5A, XCLOSE, and the idle time close it. -/
def Obligations.ExpertMode : Prop :=
  ∀ (s : State) (o : Origin) (page : Nat) (t : PageTy) (i : Nat), Running s → pageOf page = some (t, i) →
    (ReadsNow s o → mayRead s.dev o t = true →
      let v := (Config.freeValue s.dev.freeCtr).extractLsb' 0 16
      let d := { s.dev with freeCtr := s.dev.freeCtr + 1 }
      exec (.pgXkeyRead o page) s = .next (after s (readAnswer o
        ((if xOpen s.dev o page then 0x80000000#64 else 0) ||| v.zeroExtend 64)
        { (if t = .tim then timHold o 0 d else d) with
          chals := s.dev.chals.filter (fun y => !(decide (y.origin = o) && decide (y.page = page)))
            ++ [⟨o, page, v, s.dev.devtime⟩] })))
    ∧ (∀ v : Word, mustWait s.dev o (4096 * page + 0xC) = false → inSet (pageXw t) (originClass o) = true →
        lockOk s.dev o page = true → xOpen (xExpire s.dev) o page = false → bits v 31 24 = 0xA5 →
        xAllowed (xExpire s.dev) o t = true → xProcedure (xExpire s.dev) o t page v = true →
      let d := auditPut o page 3 15 v 0 0x20 (dropChal o page (xExpire s.dev))
      exec (.xkeyOpen o page v) s = .next (after s (writeAnswer o 0 { d with xmodes := d.xmodes ++ [⟨o, page, s.dev.devtime⟩] })))
    ∧ (∀ v : Word, mustWait s.dev o (4096 * page + 0xC) = false → inSet (pageXw t) (originClass o) = true →
        lockOk s.dev o page = true → xOpen (xExpire s.dev) o page = true → bits v 31 24 = 0x5A →
      let d := auditPut o page 3 15 v 0 0x20 (dropChal o page (xExpire s.dev))
      exec (.xkeyClose o page v) s = .next (after s (writeAnswer o 0 { d with
        xmodes := d.xmodes.filter (fun m => !(decide (m.origin = o) && decide (m.page = page))) })))
    ∧ (∀ v : Word, Passes s o page 0x10 [4, 1] →
      let w : DWord := v.zeroExtend 64
      let close := fun (d : Dev) => if bit v 1 then xClose (fun m => m.page = page) d else d
      (originClass o = 4 → exec (.xclose o page v) s = .next (wrote s o page 0x10 4 w (fun d =>
          close (regSet .pgCtl page (BitVec.ofNat 64 (bits v 0 0)) d))))
      ∧ (originClass o = 1 → bit v 1 = true → (∃ m ∈ s.dev.xmodes, m.page = page) →
          exec (.xclose o page v) s = .next (wrote s o page 0x10 4 w close))
      ∧ (originClass o = 1 → (bit v 1 = false ∨ ∀ m ∈ s.dev.xmodes, m.page ≠ page) →
          exec (.xclose o page v) s = .next (idleWrite s o page 0x10 4 w)))
    ∧ (∀ m, s.dev.xmodes = [m] → m.origin = o → m.page = page → regFld s.dev .glXtmo 0 15 0 ≠ 0 →
        m.at_.toNat + regFld s.dev .glXtmo 0 15 0 * 1000000 < 2 ^ 64 →
        s.dev.devtime.toNat ≤ m.at_.toNat + regFld s.dev .glXtmo 0 15 0 * 1000000 →
      exec (.expertIdleClose o page) s = .next (after s (xClose (fun _ => true)
        (advanceTo (m.at_ + BitVec.ofNat 64 (regFld s.dev .glXtmo 0 15 0 * 1000000)) s.dev))))

/-- R424: when the feed has room again the accesses that wait are made in their order. Said of one that waits. -/
def Sys2Proof.Machine.WaitingAccesses : Prop :=
  ∀ (s : State) (o : Origin) (page x : Nat) (v : Word), Running s → page < 0x4000 → x < 4096 → x % 4 = 0 →
    needsRecord (4096 * page + x) = true →
    (feedCap s.dev 4177 ≤ s.dev.auFeed →
      exec (.registerWrite o (4096 * page + x) 4 (v.zeroExtend 64)) s = .next (after s
        { regSetFld .auStat 0 29 29 1 s.dev with
          auWait := s.dev.auWait ++ [⟨false, o, 4096 * page + x, 4, v.zeroExtend 64⟩] }))
    ∧ (s.dev.auWait = [⟨false, o, 4096 * page + x, 4, v.zeroExtend 64⟩] →
        exec .auditWriteResume s
          = exec (.registerWrite o (4096 * page + x) 4 (v.zeroExtend 64)) { s with dev := { s.dev with auFeed := 0, auWait := [] } })

/-- R2, R27, R137, R164, R400, R409, R424, R518: what a read answers and clears in BAR 0 and shows elsewhere, the
holding register of the high word of DEVTIME, and accesses that wait for the audit feed. -/
def Obligations.RegisterReads : Prop :=
  Sys2Proof.Machine.ReadsOfBar0 ∧ Sys2Proof.Machine.OtherSpaces ∧ Sys2Proof.Machine.TimeReads ∧ Sys2Proof.Machine.WaitingAccesses

namespace Sys2Proof.Machine

open Sys2Proof

/-! ### What the statements about the engine share -/

/-- The machine after a command of the engine: entries of HALT and CLEAR whose program is over (R100), and held attention
(R115), follow the new device. -/
def swept (s : State) (d : Dev) : State := after s (attnSweep (fnSweep d))

/-- The same, where CCWs read ahead may go on first (R40). -/
def sweptC (s : State) (d : Dev) : State := swept s (ccwSweep d)

/-- The same, after the sequencers of the mover have dispatched what they may (R202). -/
def sweptM (s : State) (d : Dev) : State := sweptC s (dispatchAll d)

/-- The same, where completions whose data waited end, and what waits for operation slots may go on: rows of sets, OP_ISSUEs and STARTs
(R35, R79), and operations of a CP that has left service (R442). -/
def sweptP (s : State) (d : Dev) : State :=
  let d := replaySweep (rowSweep (opHeldGo d))
  let d := admitOps d.opWait { d with opWait := [] }
  sweptC s (admitStarts d.startWait { d with startWait := [] })

/-- A command answers this next state. -/
def answers (t : State) : Host.Outcome State Fault Refusal := .next t

/-- The function taken in under `jseq` has this code, is the earliest of its subchannel, its pack is not being activated, no BIND entry
of its subchannel is being served, and fewer than 16 entries of the subchannel wait (R148, R157, R489). -/
def Stands (s : State) (jseq code : Nat) (t : TakeIn) : Prop :=
  Engine s ∧ fnFind s.dev jseq code = some t ∧ activating s.dev (seSub t.entry) = false
    ∧ binding s.dev (seSub t.entry) = false
    ∧ (s.dev.stalled.filter (fun e => e.item.sub = seSub t.entry)).length < 16

/-- The device a function finds: a lease whose time has passed has ended (R111). -/
def found (s : State) (t : TakeIn) : Dev := leaseLapse (seSub t.entry) s.dev

/-- It stands, and passes checks 2 to 6 of R97. -/
def Accepted (s : State) (jseq code : Nat) (t : TakeIn) : Prop := Stands s jseq code t ∧ fnCheck (found s t) t = 0

/-- The responses of R102, row by row: the states from IDLE to NOT_OPERATIONAL; the functions from START to BIND. -/
def responseTable : List (List Nat) :=
  [[0, 0xA, 0, 0, 0, 0, 0, 0], [1, 0, 0, 0, 1, 0, 0, 1], [1, 0, 0, 0, 1, 0, 0, 1], [1, 0, 0, 0, 1, 0, 0, 1],
   [1, 1, 1, 0, 1, 0, 0, 1], [1, 1, 1, 1, 1, 0, 0, 1], [2, 0xA, 0, 0, 0, 0, 0, 1], [3, 3, 3, 0, 0, 0, 3, 0]]

end Sys2Proof.Machine

open Sys2Proof Sys2Proof.Machine

/-! ### Rings and host windows -/

/-- R135, R142 to R147, R172: a poll reads the head of the next entry, or its line in CXL mode; a head with the expected phase
is followed by the rest, one with the other phase is stale; a whole entry is taken in and SR_CONS advances; a failed read
sets RDERR and clears EN; SR_CONS goes to the shadow address. -/
def Obligations.StartRings : Prop :=
  ∀ (s : State) (n : Nat) (f : FnId), Engine s → ownOf (srGet s.dev n).own = some f →
    let d := s.dev
    let r := srGet d n
    let here : DWord := r.base + BitVec.ofNat 64 (64 * (r.cons.toNat % ringSize r.ctl))
    (isReady d = true → bit r.ctl 31 = true → (fnGet d f).d3hot = false → d.paused = false → r.rd = .idle → r.pref = [] →
      (regFld d .upStat (ringPort d r.port) 18 18 = 0 →
        exec (.startRingPoll n) s = .next (after s (hostOut (.kept r.port) f (.read here 16) (srSet n { r with rd := .head } d)))
        ∧ exec (.cxlLineInvalidate n) s = .next (after s d))
      ∧ (regFld d .upStat (ringPort d r.port) 18 18 = 1 →
        exec (.startRingPoll n) s = .next (after s (hostOut (.kept r.port) f (.read here 64) (srSet n { r with rd := .line } d)))
        ∧ exec (.cxlLineInvalidate n) s = exec (.startRingPoll n) s))
    ∧ (∀ e, r.rd ≠ .idle →
      exec (.startRingReadComplete n (.err e)) s = .next (after s (ringError n
        (auditHw 4 (0x200 + n / 16) (0x110 + 0x20 * (n % 16)) (setBit r.ctl 31 false) r.ctl
          (srSet n { r with rderr := true, ctl := setBit r.ctl 31 false, rd := .idle, pref := [] } d)))))
    ∧ (∀ b : List Byte, b.length = 16 → r.rd = .head → r.pref = [] →
      (bit (BitVec.ofNat 128 (leNat b)) 7 = r.phase →
        exec (.startRingReadComplete n (.ok b)) s = .next (after s (hostOut (.kept r.port) f (.read (here + 16) 48)
          (srSet n { r with rd := .body b } d))))
      ∧ (bit (BitVec.ofNat 128 (leNat b)) 7 = !r.phase →
        exec (.startRingReadComplete n (.ok b)) s = .next (after s
          (srSet n { r with rd := .idle, stale := min 0xFFFF (r.stale + 1) } d))))
    ∧ (∀ h b : List Byte, h.length + b.length = 64 → r.pref = [] →
        (r.rd = .body h ∧ h.length = 16) ∨ (r.rd = .line ∧ h = [] ∧ bit (BitVec.ofNat 512 (leNat b)) 7 = r.phase) →
        takeAllowed d (BitVec.ofNat 512 (leNat (h ++ b))) = true →
      exec (.startRingReadComplete n (.ok b)) s = .next (after s (takeIn f (BitVec.ofNat 512 (leNat (h ++ b))) n false
        (srSet n { r with rd := .idle, pref := [], cons := r.cons + 1, stale := 0, dirty := r.dirty || decide (r.shadow ≠ 0)
                          phase := if (r.cons + 1).toNat % ringSize r.ctl = 0 then !r.phase else r.phase } d))))
    ∧ (r.dirty = true → r.shadow ≠ 0 → (fnGet d f).d3hot = false →
      exec (.shadowWrite n) s = .next (after s (hostOut .any f (.write r.shadow (leBytes 8 r.cons.toNat))
        (srSet n { r with dirty := false } d))))

/-- R137, R148, R159 to R161, R164, R166: a direct-start write occupies its slot and is taken in, is dropped and journaled on
an occupied slot, or counts as malformed; writes to the status window count in WIN_ERR; take-in gives a function the next
sequence number and shows it; and waiting slots go on when take-in resumes. R518: the CXL.mem range shows the same layouts, 4 MiB to
a function; writes beyond them are dropped and counted for the PF. -/
def Obligations.TakingIn : Prop :=
  ∀ (s : State) (f : FnId), Running s →
    let d := s.dev
    let x := fnGet d f
    (∀ (off : Nat) (one : Bool) (b : List Byte), off < hdmBase →
      let e : BitVec 512 := BitVec.ofNat 512 (leNat b)
      (¬ (one = true ∧ b.length = 64 ∧ off % 64 = 0 ∧ off < 0x4000) →
        exec (.directStartWrite f off one b) s = .next (after s (pageEvent (0x10 + f.port) 1
          (fnSet f { x with dsMalf := min 0xFFFFFFFF (x.dsMalf + 1) } d))))
      ∧ (one = true → b.length = 64 → off % 64 = 0 → off < 0x4000 → isReady d = true →
        (x.slots.any (fun p => p.1 = off / 64) = true →
          exec (.directStartWrite f off one b) s = .next (after s
            (jput { jblank 0x06 f with tag := seTag e, ring := off / 64, ds := true } (pageEvent (0x10 + f.port) 0
              (fnSet f { x with dsDrop := min 0xFFFFFFFF (x.dsDrop + 1) } d)))))
        ∧ (x.slots.any (fun p => p.1 = off / 64) = false → d.fatal = false → takeAllowed d e = true → d.paused = false →
          exec (.directStartWrite f off one b) s = .next (after s
            (takeIn f e (off / 64) true (fnSet f { x with slots := x.slots ++ [(off / 64, d.jnHead)] } d))))))
    ∧ (∀ (off : Nat) (one : Bool) (b : List Byte),
      let g : FnId := ⟨f.port, off / 0x400000⟩
      let o := off % 0x400000
      let through := exec (.directStartWrite f (hdmBase + off) one b) s
      (64 < off / 0x400000 → through = exec (.statusWindowWrite ⟨f.port, 0⟩) s)
      ∧ (off / 0x400000 ≤ 64 →
        (o < 0x4000 → through = exec (.directStartWrite g o one b) s)
        ∧ (0x4000 ≤ o → o < 0x8000 →
          through = exec (.crDoorbell g ((o - 0x4000) / 4) b.length (BitVec.ofNat 32 (leNat b))) s)
        ∧ (0x8000 ≤ o → through = exec (.statusWindowWrite g) s)))
    ∧ exec (.statusWindowWrite f) s = .next (after s (fnSet f { x with winErr := min 0xFFFFFFFF (x.winErr + 1) } d))
    ∧ (∀ (e : BitVec 512) (j : Nat) (ds : Bool), 1 ≤ seFcode e → seFcode e ≤ 8 → seSub e < 0x40000 →
        (namedRing d f e).2 = false →
      let t := takeIn f e j ds d
      t.waiting = d.waiting ++ [⟨d.jnHead, f, e, j, ds, (namedRing d f e).1⟩] ∧ t.jnHead = d.jnHead + 1
        ∧ (fnGet t f).jseqLast = BitVec.ofNat 64 d.jnHead ∧ (subGet t (seSub e)).swLastFn = seFcode e)
    ∧ (∀ u : TakeIn, d.fatal = false → d.waiting.length < 65536 → d.dsWait = [u] → takeAllowed d u.entry = true →
        (∀ n, (srGet d n).pref = []) →
      let y := fnGet d u.fn
      exec .takeInResume s = .next (after s (takeIn u.fn u.entry u.srcIx true
        (fnSet u.fn { y with slots := y.slots.map (fun p => if p.1 = u.srcIx then (p.1, d.jnHead) else p) }
          { d with paused := false, dsWait := [] }))))

/-- R153, R154, R158, R248, R249, R453, R515: a valid doorbell is journaled and frees the ring's places, a wrong one sets DBERR;
a granted translation lets the ring that waits for it go on, a denied one sets WRERR and clears EN; the middle of a deep
FIFO refills its head; and the feeds of the logs drain (log entry 10). R21: an entry that waited for a zero-length read is posted after it. -/
def Sys2Proof.Machine.CompletionRingEvents : Prop :=
  ∀ (s : State) (f : FnId) (n : Nat), Engine s →
    let d := s.dev
    let r := crGet d n
    (∀ v : Word, ownOf r.own = some f → (v - r.cons).toNat ≤ (r.prod - r.cons).toNat →
      exec (.crDoorbell f n 4 v) s = .next (after s (ringProgress n (crSet n { r with cons := v }
        (jput { jblank 0x08 f with ring := n, arg := v } d)))))
    ∧ (∀ (v : Word) (size : Nat), size ≠ 4 ∨ ownOf r.own ≠ some f ∨ (r.prod - r.cons).toNat < (v - r.cons).toNat →
      exec (.crDoorbell f n size v) s = .next (after s (ringError n (crSet n { r with dberr := true } d))))
    ∧ (∀ a x : DWord,
      let pg := a.toNat / 4096
      let asked := { d with xasked := d.xasked.filter (· ≠ (fnKey f, pg)) }
      let kept := d.xlate.filter (fun y => !(decide (y.1 = fnKey f) && decide (y.2.1 = pg)))
      let yes := hostResume { asked with xlate := kept ++ [(fnKey f, pg, x.toNat / 4096)] }
      let no := hostResume (moverDenied f pg { asked with
        outHeld := d.outHeld.filter (fun x => !(decide (x.1 = f) && (outPages asked f x.2.2).contains pg)) })
      (ringsOf yes f = [n] → (crGet yes n).xwait.map (fun x => x.toNat / 4096) = some pg →
        exec (.atsTranslationComplete f a (some x)) s
          = .next (sweptP s (ringProgress n (crSet n { crGet yes n with xwait := none } yes))))
      ∧ (ringsOf no f = [n] → (crGet no n).xwait.map (fun x => x.toNat / 4096) = some pg →
        exec (.atsTranslationComplete f a none) s
          = .next (sweptP s (ringWriteError n (crSet n { crGet no n with xwait := none } no)))))
    ∧ (let e := { r with wrerr := true, ctl := setBit r.ctl 31 false, xwait := none }
       ringWriteError n d = ringError n
        (auditHw 4 (0x200 + n / 16) (0x308 + 0x40 * (n % 16)) (setBit r.ctl 31 false) r.ctl (crSet n e d)))
    ∧ (∀ x : FifoItem, n < 4096 → bit r.ctl 31 = true → (r.prod - r.cons).toNat ≠ ringSize r.ctl → r.xwait = none →
        ownOf r.own = some f → (fnGet d f).d3hot = false → (fnGet d f).ats = false →
        r.fifo = ⟨[x], 1, 0⟩ → r.zlr = none → x.ports = [] → x.arms = false → x.status = false → bit r.ctl 30 = false → d.stalled = [] →
        (∀ k, (subGet d k).heldAttn = false) → d.fnHeld = [] →
      ∃ t, exec (.deepFifoMiddleMove n false) s = .next t
        ∧ (crGet t.dev n).prod = r.prod + 1 ∧ (crGet t.dev n).fifo.items = []
        ∧ (crGet t.dev n).phase = (if (r.prod + 1).toNat % ringSize r.ctl = 0 then !r.phase else r.phase)
        ∧ Out.hostWrite f (ringPort d r.port) (r.base + BitVec.ofNat 64 (32 * (r.prod.toNat % ringSize r.ctl)))
            (leBytes 32 (setBit (setBit x.word 7 r.phase) 0 true).toNat) ∈ t.dev.out)
    ∧ exec (.deepFifoMiddleMove 4177 false) s = .next (after s { d with auFeed := 0 })
    ∧ exec (.deepFifoMiddleMove 4178 false) s = .next (after s { d with jnFeed := 0 })
    ∧ exec (.deepFifoMiddleMove 4177 true) s
        = .next (after s { pageEvent 5 1 (regSetFld .ffStat 0 30 30 1 d) with auFeed := 0 })
    ∧ exec .journalFeedResume s = .next (after s { d with jnFeed := 0 })
    ∧ (∀ k, 4096 ≤ k → k ≠ 4177 → k ≠ 4178 →
      exec (.deepFifoMiddleMove k false) s = .next (after s { d with feeds := tdel d.feeds k }))
    ∧ (∀ (p : Nat) (e : Ent), d.stalled = [e] → e.zlr = some p → (∀ k, (subGet d k).swHold = none) →
        (∀ q ∈ d.progs, q.2.sync ≠ some p) → (∀ k, (crGet d k).zlr ≠ some p) →
      exec (.zeroLengthReadComplete p) s
        = .next (sweptP s (opHeldGo (moverPort p (retryStalled { d with stalled := [{ e with zlr := none }] })))))

/-- R167, R168, R170: the hold-off of an armed ring ends in its message, which a mask turns into a pending bit; unmasking the
vector sends it, or in D3hot requests the power state where PME_En is set; in D3hot entries and messages wait for the return to D0. -/
def Sys2Proof.Machine.Messages : Prop :=
  ∀ (s : State) (f : FnId) (n : Nat), Running s →
    let d := s.dev
    let r := crGet d n
    let x := fnGet d f
    let v := bits r.ctl 10 0
    let off := crSet n { r with armed := false, armCnt := 0 } (advanceTo r.due d)
    (r.armed = false → exec (.msixHoldoffExpiry n) s = .next (after s d))
    ∧ (r.armed = true → ownOf r.own = some f → v < msixSize d f → x.d3hot = false →
      (x.msixMask = false → v ∉ x.vecMask → exec (.msixHoldoffExpiry n) s = .next (after s (emit (.msix f v) off)))
      ∧ (x.msixMask = true ∨ v ∈ x.vecMask → v ∉ x.pba →
        exec (.msixHoldoffExpiry n) s = .next (after s (fnSet f { x with pba := x.pba ++ [v] } off))))
    ∧ (∀ k : Nat, (k ∈ x.pba → x.msixMask = false → x.d3hot = false →
        exec (.msixUnmask f k) s = .next (after s (emit (.msix f k)
          (fnSet f { x with vecMask := x.vecMask.filter (· ≠ k), pba := x.pba.filter (· ≠ k) } d))))
      ∧ (k ∈ x.pba → x.msixMask = false → x.d3hot = true → x.pmeEn = true →
        exec (.msixUnmask f k) s = .next (after s (emit (.pme f)
          (fnSet f { x with vecMask := x.vecMask.filter (· ≠ k), pmeStatus := true } d))))
      ∧ (k ∉ x.pba ∨ x.msixMask = true ∨ x.d3hot = true ∧ x.pmeEn = false → exec (.msixUnmask f k) s
        = .next (after s (fnSet f { x with vecMask := x.vecMask.filter (· ≠ k) } d))))
    ∧ exec (.d3hotEntry f) s = .next (after s (fnSet f { x with d3hot := true } d))
    ∧ (let back := hostResume (fnSet f { x with d3hot := false, dueMsgs := [] } d)
       let sent := x.dueMsgs.foldl (fun d k => sendMessage k d) (ringProgress n back)
       d.fatal = false → ringsOf back f = [n] → exec (.d0Return f) s
        = .next (sweptP s ((unmasked sent f).foldl (fun d v => vecOut f v d) sent)))

/-- R43, R170, R271, R515: a request of a function to host memory leaves at once by its port, behind the function's PASID where one is
set; it waits in D3hot, and while the function has ATS on and lacks a translation, for which it asks once. Those that wait leave in
order. -/
def Sys2Proof.Machine.HostAccesses : Prop :=
  ∀ (d : Dev) (v : Via) (f : FnId) (a : DWord) (len : Nat),
    let x := fnGet d f
    let o := HostReq.read a len
    let wait := { d with outHeld := d.outHeld ++ [(f, v, o)] }
    let pg := a.toNat / 4096
    let q := takePort v f a.toNat d
    (q.1 = portOf d v f a.toNat)
    ∧ (x.d3hot = true → hostOut v f o d = wait)
    ∧ (x.pasid = true → regFld d .upFnpasid (fnKey f) 31 31 = 1 →
      sendHost v f o d = emit (.hostRead f q.1 a len) (emit (.pasid f (regFld d .upFnpasid (fnKey f) 19 0)) q.2))
    ∧ (x.pasid = false ∨ regFld d .upFnpasid (fnKey f) 31 31 = 0 → sendHost v f o d = emit (.hostRead f q.1 a len) q.2)
    ∧ (x.d3hot = false → x.ats = false → hostOut v f o d = sendHost v f o d)
    ∧ (x.d3hot = false → x.ats = true → 0 < len → a.toNat % 4096 + len ≤ 4096 →
      (hasXlate d f pg = true → hostOut v f o d = sendHost v f o d)
      ∧ (hasXlate d f pg = false → (fnKey f, pg) ∈ d.xasked → hostOut v f o d = wait)
      ∧ (hasXlate d f pg = false → (fnKey f, pg) ∉ d.xasked →
        hostOut v f o d = emit (.xlate f pg) { wait with xasked := d.xasked ++ [(fnKey f, pg)] }))
    ∧ (d.outHeld = [(f, v, o)] → x.d3hot = false → x.ats = false →
      releaseOut d = sendHost v f o { d with outHeld := [] })

/-- R43, R153, R154, R158, R167, R168, R170, R248, R249, R453, R515: doorbells, translations, refills, the messages of
armed rings, and requests that wait for D0 or a translation. -/
def Obligations.CompletionRings : Prop :=
  Sys2Proof.Machine.CompletionRingEvents ∧ Sys2Proof.Machine.Messages ∧ Sys2Proof.Machine.HostAccesses

/-! ### Functions -/

/-- R89, R95 to R97, R102: every function is answered by the first check it fails, in the order of R97, with the
responses of R102's table; a refused one is recorded and gets its entry and does nothing else. R111: a lease whose time has passed
refuses no one. -/
def Obligations.FunctionResponses : Prop :=
  (∀ (d : Dev) (t : TakeIn) (c : Nat), seFcode t.entry = c → 1 ≤ c → c ≤ 8 →
    let n := seSub t.entry
    let s := subGet d n
    let r := (responseTable.getD s.st.code []).getD (c - 1) 0
    (0x40000 ≤ n → fnCheck d t = 5)
    ∧ (n < 0x40000 → c = 8 → t.fn.fn ≠ 0 → fnCheck d t = 7 ∨ fnCheck d t = 5)
    ∧ (n < 0x40000 → permitted t.fn s c = false → c ≠ 8 ∨ t.fn.fn = 0 → fnCheck d t = 5)
    ∧ (n < 0x40000 → permitted t.fn s c = true → r ≠ 0 → fnCheck d t = r)
    ∧ (n < 0x40000 → permitted t.fn s c = true → r = 0 →
      ((c = 5 ∨ c = 8) → (∃ g, s.lease = some g ∧ g ≠ t.fn) → fnCheck d t = 8)
      ∧ (c = 1 → s.key ≠ 0 → s.key ≠ seKey t.entry → fnCheck d t = 6)
      ∧ (¬ ((c = 5 ∨ c = 8) ∧ ∃ g, s.lease = some g ∧ g ≠ t.fn) → ¬ (c = 1 ∧ s.key ≠ 0 ∧ s.key ≠ seKey t.entry) →
        fnCheck d t = 0)))
  ∧ (∀ (s : State) (jseq : Nat) (t : TakeIn) (a : Bool) (h : HostRead) (w : WriteRes) (e : BindEnv),
    fnCheck (found s t) t ≠ 0 →
    let out := answers (sweptP s (fnRefuse t (fnCheck (found s t) t) (found s t)))
    (Stands s jseq 1 t → exec (.start jseq) s = out) ∧ (Stands s jseq 2 t → exec (.resume jseq) s = out)
    ∧ (Stands s jseq 3 t → exec (.halt jseq) s = out) ∧ (Stands s jseq 4 t → exec (.clear jseq a) s = out)
    ∧ (Stands s jseq 5 t → exec (.modify jseq h) s = out) ∧ (Stands s jseq 6 t → exec (.store jseq w) s = out)
    ∧ (Stands s jseq 7 t → exec (.test jseq) s = out) ∧ (Stands s jseq 8 t → exec (.bind jseq h e) s = out))
  ∧ (∀ (s : State) (t : TakeIn) (f : FnId),
    let n := seSub t.entry
    let x := subGet s.dev n
    x.lease = some f →
    (x.leaseEnd ≤ s.dev.devtime → (subGet (found s t) n).lease = none)
    ∧ (s.dev.devtime < x.leaseEnd → found s t = s.dev))

/-- R93, R102, R103, R104, R113: what an accepted START, RESUME, HALT, CLEAR and TEST do to the subchannel; R83, R93: the suspending
CCW is read again when the entry of a RESUME, or one that finds RP set, is placed. -/
def Sys2Proof.Machine.FunctionsAccepted : Prop :=
  ∀ (s : State) (jseq : Nat) (t : TakeIn) (a : Bool),
    let n := seSub t.entry
    let d := fnAccept t (found s t)
    let x := subGet d n
    (Accepted s jseq 1 t →
      exec (.start jseq) s = .next (sweptP s (subSet n
        { (x.enter .startPending) with fcStart := true, tag := seTag t.entry, scPri := false, scSec := false }
        { d with workq := tset d.workq x.home (workQueue d x.home ++ [⟨t, n⟩]) [] })))
    ∧ (Accepted s jseq 2 t →
      (x.st ≠ .suspended → exec (.resume jseq) s = .next (sweptP s (fnEntry t 0 0 0 .none [] (subSet n { x with rp := true } d))))
      ∧ (x.st = .suspended → exec (.resume jseq) s = .next (sweptP s (fnEntry t 0 0 0 .resume [] d))))
    ∧ (Accepted s jseq 3 t →
      (x.st = .idle ∨ x.st = .statusPending → exec (.halt jseq) s = .next (sweptP s (fnEntry t 0 0 0 .none [] d)))
      ∧ (x.st = .startPending → exec (.halt jseq) s = .next (sweptP s (withdrawStart n 0 none none
          { subSet n (x.enter .haltPending) d with fnHeld := d.fnHeld ++ [⟨n, t, false⟩] })))
      ∧ (x.st = .active ∨ x.st = .suspended → exec (.halt jseq) s = .next (sweptP s (stopProg n 0
          { subSet n (x.enter .haltPending) d with fnHeld := d.fnHeld ++ [⟨n, t, false⟩] }))))
    ∧ (Accepted s jseq 4 t →
      (x.st = .idle ∨ x.st = .statusPending → exec (.clear jseq a) s = .next (sweptP s (clearDone false t d)))
      ∧ (x.st = .startPending → exec (.clear jseq a) s = .next (sweptP s (withdrawStart n 0 none none
          { subSet n (x.enter .clearPending) d with fnHeld := d.fnHeld ++ [⟨n, t, true⟩] })))
      ∧ (x.st = .notOperational →
        exec (.clear jseq true) s = .next (sweptP s (fnEntry t 0 0 0 (.toState .idle) [] (clearActions n d)))
        ∧ exec (.clear jseq false) s = .next (sweptP s (clearDone false t d)))
      ∧ (x.st = .active ∨ x.st = .suspended ∨ x.st = .haltPending → exec (.clear jseq a) s = .next (sweptP s (stopProg n 1
          { subSet n (x.enter .clearPending) d with fnHeld := d.fnHeld ++ [⟨n, t, true⟩] }))))
    ∧ (Accepted s jseq 7 t →
      (x.st = .statusPending → exec (.test jseq) s = .next (sweptP s (fnEntry t 0 x.cstat x.dstat (.toState .idle) []
          (subSet n { x with scAlert := false } d))))
      ∧ (x.st ≠ .statusPending → exec (.test jseq) s = .next (sweptP s (fnEntry t 0 0 0 .none [] d))))
    ∧ (∀ (e : Dev) (p : Prog) (k : Nat) (at_ : DWord),
      e.progs.find? (fun q => q.1 = k) = some (k, p) → p.stage = .atSuspend at_ →
      let again := fun (e : Dev) =>
        ccwRead k at_ { e with progs := e.progs.map (fun q => if q.1 = k then (k, { p with stage := .refetch at_ }) else q) }
      ((subGet e k).st = .suspended → applyChange k .resume e = again (subSet k { subGet e k with st := .active } e))
      ∧ ((subGet e k).st = .active →
        let y := { subGet e k with cstat := 0, dstat := 3 }
        ((subGet e k).rp = true → applyChange k .suspend e = again (subSet k { y with rp := false } e))
        ∧ ((subGet e k).rp = false → applyChange k .suspend e = subSet k (y.enter .suspended) e)))

/-- R90, R107 to R112, R333, R384: an accepted MODIFY applies the groups its block names, STORE writes the record to the issuer's
memory, BIND sets the record and its handler (said of the NVMe and window handlers), asks the code of an owner pack, or unbinds; a bad block is
refused; a function whose issuer's host memory cannot be reached yet waits and asks (R170, R515); and the read of WORK_7 takes the head
of a CP's hand-off FIFO. -/
def Sys2Proof.Machine.FunctionBlocks : Prop :=
  ∀ (s : State) (jseq : Nat) (t : TakeIn),
    let n := seSub t.entry
    let at_ := seAddr t.entry
    let issuer := t.fn
    let d0 := found s t
    (Accepted s jseq 5 t → bits at_ 3 0 ≠ 0 → ∀ h,
      exec (.modify jseq h) s = .next (sweptP s (fnRefuse t 9 d0)))
    ∧ (Accepted s jseq 5 t → bits at_ 3 0 = 0 →
      (∀ e, hostWaits d0 issuer [(at_, 32, false)] = false →
        exec (.modify jseq (.err e)) s = .next (sweptP s (fnRefuse t 9 (hostOut .any issuer (.read at_ 32) d0))))
      ∧ (∀ h, hostWaits d0 issuer [(at_, 32, readOk h)] = true →
        exec (.modify jseq h) s = .next (sweptP s (hostAsk issuer [(at_, 32, readOk h)] d0)))
      ∧ (∀ b : List Byte, b.length = 32 → hostWaits d0 issuer [(at_, 32, true)] = false →
        let v : BitVec 256 := BitVec.ofNat 256 (leNat b)
        let d := hostOut .any issuer (.read at_ 32) d0
        let o := subOwner (subGet d n)
        let good := bits v 7 0 = 0x11 ∧ bits v 15 8 = 0x20 ∧ bits v 111 24 = 0 ∧ bits v 159 128 = 0 ∧ bits v 255 192 = 0
          ∧ bits v 191 160 ≤ 60000 ∧ (bit v 23 = true → o.isSome = true ∧ crOwner d (bits v 127 116) = o)
        (¬ good → exec (.modify jseq (.ok b)) s = .next (sweptP s (fnRefuse t 9 d)))
        ∧ (good →
          let d := fnAccept t d
          let x := subGet d n
          let y : Sub := { x with
            cring := if bit v 23 then bits v 127 116 else x.cring
            key := if bit v 22 then bits v 115 112 else x.key
            imm := if bit v 21 then bit v 19 else x.imm
            isup := if bit v 21 then bit v 18 else x.isup
            unordDef := if bit v 20 then bit v 17 else x.unordDef
            idemDef := if bit v 20 then bit v 16 else x.idemDef }
          exec (.modify jseq (.ok b)) s
            = .next (sweptP s (fnEntry t 0 0 0 .none [] (subSet n (setLease (bits v 191 160) issuer d.devtime y) d))))))
    ∧ (Accepted s jseq 6 t →
      (bits at_ 3 0 ≠ 0 → exec (.store jseq .ok) s = .next (sweptP s (fnRefuse t 9 d0)))
      ∧ (bits at_ 3 0 = 0 → hostWaits d0 issuer [(at_, 128, true)] = false →
        let d := fnAccept t d0
        let (r, d) := recordBits n d
        exec (.store jseq .ok) s = .next (sweptP s (fnEntry t 0 0 0 .none [portOf d .any issuer at_.toNat]
          (sendHost .any issuer (.write at_ (leBytes 128 r)) d)))
        ∧ exec (.store jseq (.fail [])) s = .next (sweptP s (fnEntry t 9 0 0 .none [(takePort .any issuer at_.toNat d).1]
          (takePort .any issuer at_.toNat d).2))))
    ∧ (Accepted s jseq 8 t → bits at_ 3 0 = 0 →
      ∀ (b : List Byte) (env : BindEnv), b.length = 64 → hostWaits d0 issuer (bindTouch (.ok b) env t d0) = false →
      let v : BitVec 512 := BitVec.ofNat 512 (leNat b)
      let d := hostOut .any issuer (.read at_ 64) d0
      let first := (roleIn d (subGet d n).home .inService).headD 0
      (bits v 7 0 = 0x10 → bits v 15 8 = 0x40 → bit v 23 = true →
        let d := unbindCall n first (fnAccept t d)
        let c := if (subGet d n).st = .idle then Change.none else .toState .idle
        exec (.bind jseq (.ok b) env) s = .next (sweptP s (fnEntry t 0 0 0 c [] (subSet n
          { subGet d n with
            ownPort := 0, ownFn := 0x7F, hpack := 0xFF, hpriv := HPriv.none, bindPriv := HPriv.none
            sense := Sense.none, position := 0, heldAttn := false, scAlert := false } d))))
      ∧ (∀ own : FnId, own = ⟨bits v 103 103, bits v 102 96⟩ → bits v 7 0 = 0x10 → bits v 15 8 = 0x40 → bit v 23 = false →
          bits v 63 24 = 0 → bits v 18 16 = 0 → bits v 255 192 = 0 → bits v 191 160 ≤ 60000 → own.port = issuer.port →
          (own.fn ≠ 0 → (fnGet d ⟨own.port, 0⟩).vfEnable = true ∧ own.fn ≤ (fnGet d ⟨own.port, 0⟩).numVfs) →
          d.packs.any (fun e => e.1 = bits v 111 104) = true → env.accepts = true →
          crOwner d (bits v 127 116) = some own → env.enumerated = true → bits v 135 128 ≤ 31 →
        let d1 := d
        let d := unbindCall n first (fnAccept t d)
        let c := if (subGet d n).st = .idle then Change.none else .toState .idle
        let y : Sub := { subGet d n with
          devId := BitVec.ofNat 16 (bits v 159 144), queue := bits v 143 136, dport := bits v 135 128
          cring := bits v 127 116, key := bits v 115 112, hpack := bits v 111 104, ownPort := own.port, ownFn := own.fn
          bindArg := BitVec.ofNat 32 (bits v 95 64), imm := bit v 22, isup := bit v 21, unordDef := bit v 20
          idemDef := bit v 19, position := 0, sense := Sense.none, heldAttn := false, scAlert := false }
        let put := fun (y : Sub) => answers (sweptP s (fnEntry t 0 0 0 c []
          (placeAtBind n (subSet n (setLease (bits v 191 160) issuer d.devtime y) d))))
        (bits v 111 104 = 0 → bits v 511 256 = 0 → bits v 143 136 ≠ 0 → bits v 95 64 = 0 →
          exec (.bind jseq (.ok b) env) s = put { y with hpriv := HPriv.none, bindPriv := HPriv.none, altPort := env.alt })
        ∧ (bits v 111 104 = 1 → bits v 511 384 = 0 → bits v 143 136 ≤ 5 → bits v 95 64 = 0 → bits v 383 320 ≠ 0 →
            bits v 383 320 % 4 = 0 → bits v 319 256 + bits v 383 320 ≤ env.barSize →
          let h : HPriv := { HPriv.none with base := bits v 319 256, size := bits v 383 320 }
          exec (.bind jseq (.ok b) env) s = put { y with hpriv := h, bindPriv := h, altPort := none })
        ∧ (3 ≤ bits v 111 104 → bits v 255 192 = 0 →
          let h : HPriv := { HPriv.none with raw := (freeNext d1).1 ++ (freeNext (freeNext d1).2).1 }
          let e := (freeNext (freeNext d1).2).2
          let hm := (subGet e n).home
          exec (.bind jseq (.ok b) env) s = .next (sweptP s { e with
            binds := e.binds ++ [⟨t, v, h, none, none, 0⟩]
            workq := tset e.workq hm (workQueue e hm ++ [⟨t, n⟩]) [] }))))
    ∧ (Running s → ∀ i,
      let c := cpGet s.dev i
      (c.handoff = [] → exec (.workClaim i) s = .next (after s (emit (.cpValue i 0) s.dev)))
      ∧ (∀ w rest, c.handoff = w :: rest → exec (.workClaim i) s = .next (after s
        (emit (.cpValue i (BitVec.ofNat 32 (w.take.jseq % 2 ^ 64 / 2 ^ 32))) (cpSet i { c with handoff := rest } s.dev)))))

/-- R90, R93, R102 to R104, R107 to R113, R384: what each accepted function does to its subchannel, and the hand-off
FIFO. -/
def Obligations.FunctionEffects : Prop :=
  Sys2Proof.Machine.FunctionsAccepted ∧ Sys2Proof.Machine.FunctionBlocks

namespace Sys2Proof.Machine

open Sys2Proof

/-- Subchannel n executes the command of one CCW w, fetched from a, that no group holds (R40, R77): it waits at no entry (R156), no read
of the engine is held (R228), and no intermediate entry and no write of an earlier stream is outstanding (R76, R272). -/
def InHand (s : State) (n : Nat) (x : Sub) (h : Handler) (p : Prog) (a : DWord) (w : QWord) : Prop :=
  Engine s ∧ subGet s.dev n = x ∧ x.st = .active ∧ progOf s.dev n = some p ∧ handlerOf s.dev x = some h ∧ p.stage = .ready
    ∧ p.chain = [(a, w)] ∧ p.stopAt = none ∧ p.grp = [] ∧ groupMember x h p = false ∧ p.marks = [] ∧ p.lastPort = none
    ∧ waits156 s.dev n = false ∧ readHeld s.dev (.engine n) = false

/-- Its data area is host memory at the CCW's address: ASEL 0 without IDA and SKIP (R37, R72). -/
def HostArea (w : QWord) : Prop := ccwAsel w = 0 ∧ ccwIda w = false ∧ ccwSkip w = false ∧ 0 < ccwCount w

/-- The machine after the command of one CCW ends (R69). -/
def ended (s : State) (n : Nat) (p : Prog) (e : Ended) (pos : Option DWord) (d : Dev) : State :=
  sweptC s (commandEnd n p p.chain e pos d)

/-- For the command in hand k operation slots, the slices of `bytes` bytes between `ends` and `ch` mover channels are there; `d` is the
device that holds them (R79, R225, R226, R274). -/
def Room (s : State) (n : Nat) (p : Prog) (k bytes ch : Nat) (ends : List Nat) (d : Dev) : Prop :=
  slotsFree s.dev p.cp k = true ∧ (streamHold n 1 (min 64 ((bytes + 4095) / 4096)) ends s.dev).1 = true
    ∧ chanHold n ch (streamHold n 1 (min 64 ((bytes + 4095) / 4096)) ends s.dev).2 = (true, d)

/-- The machine after the command of one CCW has issued its one operation. -/
def started (s : State) (n : Nat) (x : Sub) (h : Handler) (p : Prog) (segs : List Seg) (total devLen : Nat) (endPos : DWord)
    (imm : Bool) (kind : OpKind) (d : Dev) : State :=
  sweptC s (runOne n x h p (newRun p segs total devLen endPos none) imm kind d)

/-- The device of a subchannel after its command has ended (R69, R177, R222, R437): SC_PRI and SC_SEC, a checkpoint, its
mover channel and slices free, and no call of its pack waits. -/
def commandOver (n : Nat) (x : Sub) (last : DWord) (resid : Nat) (d : Dev) : Dev :=
  dropCalls n (releaseSlices n (releaseChans n (checkpoint n last (BitVec.ofNat 32 resid)
    (subSet n { x with scPri := true, scSec := true, scAlert := false } d))))

/-- Operation t is in flight, for the command of one CCW in execution of subchannel n, which has no other operation. -/
def InFlight (s : State) (t n : Nat) (o : Op) (x : Sub) (p : Prog) (r : Run) (a : DWord) (w : QWord) : Prop :=
  Engine s ∧ s.dev.ops.find? (fun e => e.1 = t) = some (t, o) ∧ o.sub = n ∧ o.detached = false ∧ subGet s.dev n = x
    ∧ x.st = .active ∧ progOf s.dev n = some p ∧ p.own = none ∧ p.grp = [] ∧ p.run = some r ∧ r.ops = [t] ∧ r.isSet = false
    ∧ r.ccws = [(a, w)] ∧ r.stop = none ∧ r.fails = [] ∧ r.todo = [] ∧ r.total = ccwCount w ∧ o.from_ = 0 ∧ o.kind ≠ .pack
    ∧ o.cond ≠ .complete ∧ p.lastPort = none ∧ waits156 s.dev n = false ∧ opRefills s.dev t = false

/-- The timeout of a memory-window operation is the completion timeout of its root port, which counts it and latches its event. -/
def timedOut (s : State) (o : Op) : State :=
  let seen := after s (pageEvent (0x40 + o.dport) 4 (regBump .dpCtocnt o.dport s.dev))
  match o.kind with
  | .winRead _ _ _ => seen
  | .winWrite _ _ _ _ => seen
  | .winFence => seen
  | _ => s

/-- The machine after the last operation t of a run has ended and the run ends with e: its slices are free and its command is over. -/
def opOver (s : State) (t n : Nat) (p : Prog) (r : Run) (e : Ended) (pos : DWord) : State :=
  let q : Prog := { p with run := some { r with ops := [] } }
  sweptP s (commandEnd n q r.ccws e (some pos) (releaseRun n r.id (progSet n q (opFree t s.dev))))

/-- The same, where the operation keeps its slot while a final entry it led to waits at a full deep FIFO (R156). -/
def opDone (s : State) (t n : Nat) (p : Prog) (r : Run) (e : Ended) (pos : DWord) : State :=
  let q : Prog := { p with run := some { r with ops := [] } }
  sweptP s (keepSlot t s.dev (commandEnd n q r.ccws e (some pos) (releaseRun n r.id (progSet n q (opFree t s.dev)))))

end Sys2Proof.Machine

open Sys2Proof Sys2Proof.Machine

/-! ### Channel programs -/

/-- R38, R40, R42, R46, R68, R71, R74, R76, R81, R83: a fetched CCW is checked and taken, goes on with its data chain, or ends the
program; its command is in hand, rejected, or ended at once with COUNT 0; a CCW read ahead is kept until it is next; the re-fetch of
a suspending CCW uses S and CC alone. In CXL mode the CCW lies in its 64-byte line. -/
def Sys2Proof.Machine.CcwFetches : Prop :=
  (∀ (a : DWord) (b : List Byte),
    (b.length = 16 → ccwOfRead a b = BitVec.ofNat 128 (leNat b))
    ∧ (b.length = 64 → bits a 3 0 = 0 → ccwOfRead a b = BitVec.ofNat 128 (leNat ((b.drop (a.toNat % 64)).take 16))))
  ∧ ∀ (s : State) (n : Nat) (p : Prog) (a : DWord), Engine s → progOf s.dev n = some p → p.marks = [] → waits156 s.dev n = false →
    let d := s.dev
    (∀ how tic, p.stage = .fetch a how tic → p.pref = [] → p.chain = [] → p.grp = [] →
      let p0 : Prog := { p with prefAt := none }
      (∀ e, exec (.ccwFetchComplete n (.err e)) s = .next (sweptC s (postFinal n p0 (endC csCcc a 0) none d)))
      ∧ (∀ (b : List Byte) (h : Handler), handlerOf d (subGet d n) = some h → how ≠ .byData →
        let w := ccwOfRead a b
        let k := ccwCount w
        (ccwCode w = 8 → tic = false → exec (.ccwFetchComplete n (.ok b)) s
          = .next (sweptC s (progSet n { p0 with chain := [(a, w)], stage := .ready, how := how } d)))
        ∧ (ccwCode w = 8 → tic = true → exec (.ccwFetchComplete n (.ok b)) s
          = .next (sweptC s (postFinal n p0 (endC csChn p.ticAt.1 p.ticAt.2) none d)))
        ∧ (∀ c, ccwCode w ≠ 8 → ccwCheck d n h p0 (ccwCode w) false w = some c →
          exec (.ccwFetchComplete n (.ok b)) s = .next (sweptC s (postFinal n p0 (endC c a k) none d)))
        ∧ (ccwCode w ≠ 8 → ccwCheck d n h p0 (ccwCode w) false w = none →
          let q : Prog := { p0 with how := how, chain := [(a, w)] }
          let r : Prog := { q with stage := .ready }
          let d1 := checkpoint n a (BitVec.ofNat 32 k) d
          let d2 := subSet n { subGet d1 n with scPri := false, scSec := false } d1
          let d3 := if ccwMark w then postMark n r a k (progSet n r d2) else progSet n r d2
          (ccwCD w = true → exec (.ccwFetchComplete n (.ok b)) s
            = .next (sweptC s (fetchCcw n q (a + 16) .byData false d1)))
          ∧ (ccwCD w = false → k ≠ 0 → engineCode (ccwCode w) = true ∨ (implements h (ccwCode w) = true ∧ ∀ o, h ≠ .owner o) →
            exec (.ccwFetchComplete n (.ok b)) s = .next (sweptC s (progSet n r d3)))
          ∧ (ccwCD w = false → engineCode (ccwCode w) = false → implements h (ccwCode w) = false →
              groupMember (subGet d3 n) h r = false →
            exec (.ccwFetchComplete n (.ok b)) s
              = .next (sweptC s (commandEnd n r r.chain (endUc a k 1 (ccwCode w) p.pos.toNat) none d3)))
          ∧ (ccwCD w = false → k = 0 → engineCode (ccwCode w) = true ∨ implements h (ccwCode w) = true →
              endsEmpty h (ccwCode w) = true → groupMember (subGet d3 n) h r = false →
            exec (.ccwFetchComplete n (.ok b)) s = .next (sweptC s (commandEnd n r r.chain (endC 0 a 0) none d3))))))
    ∧ (∀ b res, p.stage = .running → p.prefAt = some b → exec (.ccwFetchComplete n res) s
        = .next (sweptC s (progSet n { p with pref := p.pref ++ [(b, res)], prefAt := none } d)))
    ∧ (p.stage = .refetch a → ∀ b : List Byte,
      let w := ccwOfRead a b
      (ccwS w = true → exec (.ccwFetchComplete n (.ok b)) s = .next (sweptC s (postSuspend n p a d)))
      ∧ (ccwS w = false → ccwCC w = true →
        exec (.ccwFetchComplete n (.ok b)) s = .next (sweptC s (fetchCcw n p (a + 16) .byCmd false d)))
      ∧ (ccwS w = false → ccwCC w = false →
        exec (.ccwFetchComplete n (.ok b)) s = .next (sweptC s (postFinal n p p.lastEnd none d))))

/-- R71: a TIC fetches from its address, reached as the TIC was; as the first CCW, with a reserved field set, or with an
unaligned target it is a program check. -/
def Sys2Proof.Machine.Tics : Prop :=
  ∀ (s : State) (n : Nat) (p : Prog) (a : DWord) (w : QWord), Engine s → progOf s.dev n = some p →
    (subGet s.dev n).st = .active → p.stage = .ready → p.chain = [(a, w)] → p.grp = [] → ccwCode w = 8 →
    let good := bits w 27 24 = 0 ∧ bits w 23 18 = 0 ∧ ccwAsel w = 0 ∧ p.how ≠ .first ∧ bits (ccwAddr w) 3 0 = 0
    (good → exec (.tic n) s = .next (sweptC s (fetchCcw n { p with
        chain := [], ticAt := (a, ccwCount w)
        lastEnd := { p.lastEnd with last := a, resid := BitVec.ofNat 32 (ccwCount w) } } (ccwAddr w) p.how true s.dev)))
    ∧ (¬ good → exec (.tic n) s
      = .next (sweptC s (postFinal n { p with chain := [] } (endC csPgm a (ccwCount w)) none s.dev)))

/-- R38, R40, R42, R46, R68, R71, R74, R76, R81, R83: a fetched CCW is checked and taken, and a TIC goes to its
target. -/
def Obligations.FetchedCcws : Prop :=
  Sys2Proof.Machine.CcwFetches ∧ Sys2Proof.Machine.Tics

/-- R61, R69, R70, R82: a NOP transfers nothing and ends with CE and DE; a command that ends so chains to the next CCW, comes
to the suspend decision, or ends the program. -/
def Sys2Proof.Machine.NopAndChaining : Prop :=
  ∀ (s : State) (n : Nat) (x : Sub) (h : Handler) (p : Prog) (a : DWord) (w : QWord), InHand s n x h p a w → ccwCode w = 3 →
    let past := commandOver n x a (ccwCount w) s.dev
    let d := releaseLedger n past
    let q : Prog := { p with chain := [], stopAt := none, run := none, own := none, pos := x.position
                             lastEnd := endC 0 a (ccwCount w) }
    (ccwS w = false → ccwCC w = true → exec (.nop n) s = .next (sweptC s (fetchCcw n q (a + 16) .byCmd false d)))
    ∧ (ccwS w = true → x.rp = false → exec (.nop n) s = .next (sweptC s (postSuspend n q a d)))
    ∧ (ccwS w = true → x.rp = true → exec (.nop n) s = .next (sweptC s (ccwRead n a
        (progSet n { q with stage := .refetch a } (subSet n { subGet d n with rp := false } d)))))
    ∧ (ccwS w = false → ccwCC w = false → exec (.nop n) s
        = .next (sweptC s (postFinal n q (endC 0 a (ccwCount w)) none past)))

/-- R62 to R65: SENSE transfers and clears the sense data; COPY reads COUNT bytes as its descriptor says and writes them in bursts (log
entry 84); SIGNAL-EVENT adds a
count or releases the longest waiter; WAIT-EVENT takes a count, tests, or waits until it is signaled or times out. -/
def Sys2Proof.Machine.EngineOwnCommands : Prop :=
  ∀ (s : State) (n : Nat) (x : Sub) (h : Handler) (p : Prog) (a : DWord) (w : QWord), InHand s n x h p a w →
    let d := s.dev
    let f := ownerOf x
    let c := ccwCount w
    let k := bits (ccwAddr w) 7 0
    (ccwCode w = 4 →
      (c = 0 → ∀ io, exec (.sense n io .ok) s
        = .next (ended s n p (endC csIl a 0) none (subSet n { x with sense := Sense.none } d)))
      ∧ (HostArea w → hostWaits d f [(ccwAddr w, min c 32, true)] = false → exec (.sense n ⟨[], []⟩ .ok) s
          = .next (sweptC s (commandEnd n (wrotePort p (some (portFor d n (ccwAddr w)))) [(a, w)]
            ⟨if c = 32 then 0 else csIl, dsEnd, a, BitVec.ofNat 32 (c - min 32 c), false, none⟩ none
            (let d1 := hostOut (.kept (portFor d n (ccwAddr w))) f (.write (ccwAddr w) ((leBytes 32 (senseWord x.sense)).take (min 32 c)))
              (takeStream n [⟨0, ccwAddr w, c⟩] (progSet n p d)).2
             subSet n { subGet d1 n with sense := Sense.none } d1)))))
    ∧ (ccwCode w = 9 → ccwAsel w = 0 → 0 < c →
      let ask := hostOut (.sub n) f (.read (ccwAddr w) 32)
      (∀ e r, hostWaits d f [(ccwAddr w, 32, false)] = false →
        exec (.copy n (.err e) r .ok) s = .next (ended s n p (endC csCcc a c) none (ask d)))
      ∧ (∀ b v : List Byte, b.length = 32 → v.length = c →
        let e : BitVec 256 := BitVec.ofNat 256 (leNat b)
        let src : DWord := BitVec.ofNat 64 (bits e 63 0)
        let dst : DWord := BitVec.ofNat 64 (bits e 127 64)
        (hostWaits d f [(ccwAddr w, 32, true)] = false →
            bits e 255 194 ≠ 0 ∨ bits e 191 130 ≠ 0 ∨ 2 ≤ bits e 193 192 ∨ 2 ≤ bits e 129 128 →
          exec (.copy n (.ok b) (.ok v) .ok) s = .next (ended s n p (endC csPgm a c) none (ask d)))
        ∧ (bits e 255 128 = 0 → ∀ d', Room s n p 0 c 1 (rowEnds d n [⟨0, src, c⟩, ⟨0, dst, c⟩] []) d' →
          let k := copyBurst ⟨0, dst, c⟩ c 0
          let d1 := emitReads n [⟨0, src, c⟩] (ask d')
          (∀ r, hostWaits d' f [(ccwAddr w, 32, true), (src, c, false)] = false →
            exec (.copy n (.ok b) (.err r) .ok) s = .next (ended s n p (endC csCdc a c) none d1))
          ∧ (hostWaits d' f [(ccwAddr w, 32, true), (src, c, true), (dst, k, true)] = false →
            let g : Seg := ⟨0, dst, c⟩
            let (port, d2) := takeStream n [g] d1
            let q : Prog := { p with stage := .copying g v 0 (port.getD 0) }
            let d3 := progSet n q d2
            let d4 := hostOut (.kept (port.getD 0)) f (.write dst (v.take k)) d3
            let r := wrotePort q (some (port.getD 0))
            hostWaits d3 f [(dst, k, true)] = false →
            (c ≤ k → exec (.copy n (.ok b) (.ok v) .ok) s = .next (ended s n r (endC 0 a 0) none d4))
            ∧ (k < c → exec (.copy n (.ok b) (.ok v) .ok) s
              = .next (sweptC s (progSet n { r with stage := .copying g v k (port.getD 0) } d4)))))))
    ∧ (ccwCode w = 0xC → (evtWaiter d f k = none →
        exec (.signalEvent n) s = .next (ended s n p (endC 0 a 0) none (evtSet f k (min 65535 (evtValue d f k + 1)) d)))
      ∧ (∀ m, evtWaiter d f k = some m → exec (.signalEvent n) s = .next (ended s n p (endC 0 a 0) none (endWait m dsEnd d))))
    ∧ (ccwCode w = 0xB →
      (0 < evtValue d f k → exec (.waitEvent n) s
        = .next (ended s n p (endC 0 a c) none (evtSet f k (evtValue d f k - 1) d)))
      ∧ (evtValue d f k = 0 → c = 0 → exec (.waitEvent n) s = .next (ended s n p ⟨0, 0x43, a, 0, false, none⟩ none d))
      ∧ (evtValue d f k = 0 → c ≠ 0 → exec (.waitEvent n) s = .next (sweptC s
          (progSet n { p with stage := .waitEvent k (some (d.devtime + BitVec.ofNat 64 (1000 * c))) }
            { d with evtWait := d.evtWait ++ [n] }))))

/-- R63, R103, R272: a COPY that runs writes its next burst at each event, by its port, and ends with the last one. -/
def Sys2Proof.Machine.CopyBursts : Prop :=
  ∀ (s : State) (n : Nat) (x : Sub) (h : Handler) (p : Prog) (a : DWord) (w : QWord) (dst : Seg) (v : List Byte) (done port : Nat),
    Engine s → subGet s.dev n = x → x.st = .active → progOf s.dev n = some p → handlerOf s.dev x = some h →
    p.stage = .copying dst v done port → p.chain = [(a, w)] → groupMember x h p = false → waits156 s.dev n = false →
    portWaits p (some port) = false → dst.space = 0 → done < v.length →
    let d := s.dev
    let f := ownerOf x
    let at_ := dst.addr + BitVec.ofNat 64 done
    let k := copyBurst dst v.length done
    let e := hostOut (.kept port) f (.write at_ ((v.drop done).take k)) d
    let q := wrotePort p (some port)
    hostWaits d f [(at_, k, true)] = false → ∀ y z,
    (v.length ≤ done + k → exec (.copy n y z .ok) s = .next (sweptC s (commandEnd n q [(a, w)] (endC 0 a 0) none e)))
    ∧ (done + k < v.length → exec (.copy n y z .ok) s
      = .next (sweptC s (progSet n { q with stage := .copying dst v (done + k) port } e)))

/-- R65: a WAIT-EVENT that no count ends within COUNT microseconds ends with CE, DE and UX at that time. -/
def Sys2Proof.Machine.WaitEventTimesOut : Prop :=
  ∀ (s : State) (n k : Nat) (due : DWord) (p : Prog) (a : DWord) (w : QWord), Engine s → progOf s.dev n = some p →
    p.stage = .waitEvent k (some due) → p.chain = [(a, w)] → s.dev.devtime < due →
    exec (.waitEventTimeout n) s = .next (sweptC s (commandEnd n p [(a, w)]
      ⟨0, 0x43, a, BitVec.ofNat 32 (ccwCount w), false, none⟩ none
      { advanceTo due s.dev with evtWait := s.dev.evtWait.filter (· ≠ n) }))

/-- R61 to R65, R69, R70, R82: NOP, SENSE, COPY, SIGNAL-EVENT and WAIT-EVENT, and what follows the end of a command.
-/
def Obligations.EngineCommands : Prop :=
  Sys2Proof.Machine.NopAndChaining ∧ Sys2Proof.Machine.EngineOwnCommands ∧ Sys2Proof.Machine.CopyBursts ∧ Sys2Proof.Machine.WaitEventTimesOut

/-! ### The vendor handlers -/

/-- R47 to R52, R70: WRITE, READ, FLUSH, DEALLOCATE, WRITE-ZEROES, IDENTIFY, COMPARE and CONTROL of an NVMe subchannel: with
operation slots and slices there (R79, R225) and host memory within reach (R170, R515), each issues its operation on whole
blocks from the position on, or ends with UC where the namespace does not allow it; without a slot it waits. -/
def Obligations.NvmeCommands : Prop :=
  ∀ (s : State) (n : Nat) (x : Sub) (p : Prog) (a : DWord) (w : QWord), InHand s n x .nvme p a w →
    let d := s.dev
    let f := ownerOf x
    let c := ccwCount w
    let bs := 2 ^ x.hpriv.bsLog
    let pos := p.pos.toNat
    let seg : Seg := ⟨0, ccwAddr w, c⟩
    let id := x.hpriv.nsid
    let uc := fun (code qual : Nat) => ended s n p (endUc a c code qual pos) none d
    (id = 0 → ∀ io, (ccwCode w = 1 → exec (.write n io) s = .next (uc 4 0)) ∧ (ccwCode w = 2 → exec (.read n io) s = .next (uc 4 0))
      ∧ (ccwCode w = 0x11 → exec (.deallocate n) s = .next (uc 4 0)) ∧ (ccwCode w = 0x12 → exec (.writeZeroes n) s = .next (uc 4 0))
      ∧ (ccwCode w = 0x14 → exec (.compare n io) s = .next (uc 4 0)))
    ∧ (id ≠ 0 → ∀ k, HostArea w → c = k * bs →
      (x.hpriv.blocks < pos + k → (ccwCode w = 1 → exec (.write n ⟨[], []⟩) s = .next (uc 3 id))
        ∧ (ccwCode w = 2 → exec (.read n ⟨[], []⟩) s = .next (uc 3 id)) ∧ (ccwCode w = 0x11 → exec (.deallocate n) s = .next (uc 3 id))
        ∧ (ccwCode w = 0x12 → exec (.writeZeroes n) s = .next (uc 3 id))
        ∧ (ccwCode w = 0x14 → exec (.compare n ⟨[], []⟩) s = .next (uc 3 id)))
      ∧ (pos + k ≤ x.hpriv.blocks →
        let on := p.pos + BitVec.ofNat 64 k
        let own : Run := { newRun p [] c c on none with ownResid := some c }
        (∀ d', Room s n p 1 c 1 (rowEnds d n [seg] [n]) d' →
          let got := emitReads n [seg] (progSet n p d')
          (hostWaits d' f [(ccwAddr w, c, true)] = false → ∀ b : List Byte, b.length = c →
            (ccwCode w = 1 → exec (.write n ⟨[], [.ok b]⟩) s
              = .next (started s n x .nvme p [seg] c c on false (.nvmeWrite id pos k x.hpriv.fua b) got))
            ∧ (ccwCode w = 0x14 → exec (.compare n ⟨[], [.ok b]⟩) s
              = .next (started s n x .nvme p [seg] c c on false (.nvmeCompare id pos k b) got)))
          ∧ (∀ e, hostWaits d' f [(ccwAddr w, c, false)] = false → ccwCode w = 1 →
            exec (.write n ⟨[], [.err e]⟩) s = .next (ended s n p (endC csCdc a c) none got))
          ∧ (ccwCode w = 2 →
            exec (.read n ⟨[], []⟩) s = .next (started s n x .nvme p [seg] c c on false (.nvmeRead id pos k) (progSet n p d'))))
        ∧ (slotsFree d p.cp 1 = true →
          (ccwCode w = 0x11 → exec (.deallocate n) s = .next (sweptC s (runOne n x .nvme p own false (.nvmeDealloc id pos k) d)))
          ∧ (ccwCode w = 0x12 → exec (.writeZeroes n) s = .next (sweptC s (runOne n x .nvme p own false (.nvmeZero id pos k) d))))
        ∧ (slotsFree d p.cp 1 = false →
          (ccwCode w = 2 → exec (.read n ⟨[], []⟩) s = .next (sweptC s d))
          ∧ (ccwCode w = 0x11 → exec (.deallocate n) s = .next (sweptC s d)))))
    ∧ (id ≠ 0 → c % bs ≠ 0 → (ccwCode w = 0x11 → exec (.deallocate n) s = .next (uc 2 0xFFFFFFFF))
      ∧ (ccwCode w = 0x12 → exec (.writeZeroes n) s = .next (uc 2 0xFFFFFFFF)))
    ∧ (ccwCode w = 0x10 → c = 0 → (id = 0 → exec (.flush n) s = .next (uc 4 0))
      ∧ (id ≠ 0 → slotsFree d p.cp 1 = true →
        exec (.flush n) s = .next (started s n x .nvme p [] 0 0 p.pos false (.nvmeFlush id) d)))
    ∧ (ccwCode w = 0x13 → HostArea w → ∀ d', Room s n p 1 4096 1 (rowEnds d n [seg] [n]) d' → exec (.identify n) s
        = .next (started s n x .nvme p [seg] c 4096 p.pos false (.nvmeIdentify (if id = 0 then 1 else 0) id) d'))
    ∧ (ccwCode w = 7 → HostArea w → c = 32 → hostWaits d f [(ccwAddr w, 32, true)] = false →
      ∀ (b : List Byte) (ns : NsInfo), b.length = 32 →
      let v : BitVec 256 := BitVec.ofNat 256 (leNat b)
      bits v 7 0 = 1 → bits v 15 8 = 0x20 → bits v 31 19 = 0 → bits v 255 128 = 0 → bit v 16 = true → bits v 63 32 ≠ 0 →
      let d1 := hostOut (.sub n) f (.read (ccwAddr w) 32) d
      (ns.active = false → exec (.control n (.ok b) ns) s
        = .next (ended s n p (endUc a c 4 (bits v 63 32) pos) none d1))
      ∧ (ns.active = true → bit v 17 = true → ns.blocks < bits v 127 64 → exec (.control n (.ok b) ns) s
        = .next (ended s n p (endUc a c 3 (bits v 63 32) pos) none d1))
      ∧ (ns.active = true → (bit v 17 = true → bits v 127 64 ≤ ns.blocks) →
        exec (.control n (.ok b) ns) s = .next (ended s n p (endC 0 a 0)
          (some (if bit v 17 then BitVec.ofNat 64 (bits v 127 64) else p.pos)) (subSet n { x with hpriv := { x.hpriv with
            nsid := bits v 63 32, blocks := ns.blocks, fua := bit v 18, bsLog := ns.bsLog } } d1))))

/-- R54, R55, R57 to R60, R67: WRITE, READ, FENCE, WRITE-IMM and CONTROL of the memory window, PEER between two devices, and
STRIPE and READ of a set: with slots and slices there (R79, R225) and host memory within reach, each issues its operations. -/
def Obligations.WindowPeerAndSetCommands : Prop :=
  ∀ (s : State) (n : Nat) (x : Sub) (h : Handler) (p : Prog) (a : DWord) (w : QWord), InHand s n x h p a w →
    let d := s.dev
    let f := ownerOf x
    let c := ccwCount w
    let pos := p.pos.toNat
    let seg : Seg := ⟨0, ccwAddr w, c⟩
    let hp := x.hpriv
    let u := if hp.width = 1 then 4 else if hp.width = 2 then 8 else 1
    (h = .window →
      (pos % u = 0 → c % u = 0 →
        (HostArea w → pos + c ≤ hp.size → ∀ d', Room s n p 1 c 1 (rowEnds d n [seg] [n]) d' →
          (hostWaits d' f [(ccwAddr w, c, true)] = false → ∀ b : List Byte, b.length = c → ccwCode w = 1 →
            exec (.write n ⟨[], [.ok b]⟩) s
            = .next (started s n x h p [seg] c c (p.pos + BitVec.ofNat 64 c) false (.winWrite (hp.base + pos) hp.width hp.rlx b)
              (emitReads n [seg] (progSet n p d'))))
          ∧ (ccwCode w = 2 → exec (.read n ⟨[], []⟩) s = .next
            (started s n x h p [seg] c c (p.pos + BitVec.ofNat 64 c) false (.winRead (hp.base + pos) c hp.width) (progSet n p d'))))
        ∧ (ccwCode w = 0x11 → pos + c ≤ hp.size → slotsFree d p.cp 1 = true → exec (.writeImm n) s = .next (started s n x h p [] c c
            p.pos true (.winWrite (hp.base + pos) hp.width hp.rlx (leBytes c (ccwAddr w).toNat)) d)))
      ∧ (pos % u ≠ 0 ∨ c % u ≠ 0 → HostArea w → ∀ io, (ccwCode w = 1 → exec (.write n io) s
            = .next (ended s n p (endUc a c 2 0xFFFFFFFF pos) none d))
          ∧ (ccwCode w = 2 → exec (.read n io) s = .next (ended s n p (endUc a c 2 0xFFFFFFFF pos) none d)))
      ∧ (ccwCode w = 0x11 → hp.size < pos + c → exec (.writeImm n) s = .next (ended s n p (endUc a c 2 0xFFFFFFFF pos) none d))
      ∧ (ccwCode w = 0x10 → slotsFree d p.cp 1 = true →
        exec (.fence n) s = .next (started s n x h p [] 0 0 p.pos false .winFence d))
      ∧ (ccwCode w = 7 → HostArea w → c = 32 → hostWaits d f [(ccwAddr w, 32, true)] = false →
        ∀ (b : List Byte) (ns : NsInfo), b.length = 32 →
        let v : BitVec 256 := BitVec.ofNat 256 (leNat b)
        let y : Sub := { x with hpriv := { hp with width := bits v 18 17, rlx := bit v 19 } }
        bits v 7 0 = 2 → bits v 15 8 = 0x20 → bits v 18 17 ≠ 3 → bits v 63 20 = 0 → bits v 255 128 = 0 →
        (bit v 16 = true → bits v 127 64 < hp.size) →
        exec (.control n (.ok b) ns) s = .next (ended s n p (endC 0 a 0)
          (some (if bit v 16 then BitVec.ofNat 64 (bits v 127 64) else p.pos))
          (subSet n y (hostOut (.sub n) f (.read (ccwAddr w) 32) d)))))
    ∧ (ccwCode w = 0xA → 0 < c → (h = .nvme ∨ h = .window) →
      let t := bits (ccwAddr w) 63 46
      let y := subGet d t
      let off := bits (ccwAddr w) 45 0
      let uy := if y.hpriv.width = 1 then 4 else if y.hpriv.width = 2 then 8 else 1
      (handlerOf d y = none ∨ y.st = .notOperational ∨ handlerOf d y = some .peer →
        exec (.peer n) s = .next (ended s n p (endUc a c 6 t pos) none d))
      ∧ (∀ d', Room s n p 1 c (if handlerOf d y = some .window then 2 else 1) (rowEnds d n [] [n, t]) d' →
        (∀ k, h = .nvme → hp.nsid ≠ 0 → c = k * 2 ^ hp.bsLog → pos + k ≤ hp.blocks → handlerOf d y = some .window →
            y.st ≠ .notOperational → off % uy = 0 → c % uy = 0 → off + c ≤ y.hpriv.size →
          exec (.peer n) s = .next (sweptC s (runOne n x h p { newRun p [] c c (p.pos + BitVec.ofNat 64 k) none with
            ownResid := some 0 } false (.nvmeRead hp.nsid pos k) d')))
        ∧ (∀ k, h = .window → pos % u = 0 → c % u = 0 → pos + c ≤ hp.size → handlerOf d y = some .nvme → y.st ≠ .notOperational →
            y.hpriv.nsid ≠ 0 → c = k * 2 ^ y.hpriv.bsLog → off % 2 ^ y.hpriv.bsLog = 0 →
            off / 2 ^ y.hpriv.bsLog + k ≤ y.hpriv.blocks →
          exec (.peer n) s = .next (sweptC s (runOne n x h p { newRun p [] c c (p.pos + BitVec.ofNat 64 c) none with
            ownResid := some 0 } false (.winRead (hp.base + pos) c hp.width) d')))))
    ∧ (h = .peer → HostArea w → ∀ k uu, hp.members.length = k + 2 → uu = 2 ^ hp.uLog → 0 < k → c = k * uu →
      (∀ (b : List Byte) (d' : Dev), b.length = c → ccwCode w = 0xF →
          Room s n p (k + 2) ((k + 2) * uu) 2 (rowEnds d n [seg] (hp.members.map (·.1))) d' →
          hostWaits d' f [(ccwAddr w, c, true)] = false →
        let strips := (List.range k).map (fun i => (b.drop (i * uu)).take uu)
        let row := (strips.zipIdx).map (fun y => (y.2, y.1)) ++ [(k, parityP uu strips), (k + 1, parityQ uu strips)]
        exec (.stripe n ⟨[], [.ok b]⟩) s = .next (sweptC s (startSet n x h p (newRun p [seg] c c (p.pos + 1) none) [row]
          (emitReads n [seg] (progSet n p d')))))
      ∧ (ccwCode w = 2 → ∀ d', Room s n p k c 1 (rowEnds d n [seg] ((hp.members.take k).map (·.1))) d' →
        exec (.read n ⟨[], []⟩) s = .next (sweptC s (startSet n x h p (newRun p [seg] c c (p.pos + 1) none)
          [(List.range k).map (fun i => (i, []))] (progSet n p d')))))

/-! ### Events of operations, attention and leases -/

/-- R60, R69, R120, R122, R124 to R129, R132, R586: an operation's completion ends its command, with its data delivered, with IL,
or with a device's error; an idempotent operation in doubt is issued anew once, to the same device; one that may not be ends with
IFCC, and with OU where it was begun and not idempotent; IL stands beside both where the lengths differ. -/
def Obligations.OperationEvents : Prop :=
  ∀ (s : State) (t n : Nat) (o : Op) (x : Sub) (p : Prog) (r : Run) (a : DWord) (w : QWord), InFlight s t n o x p r a w →
    let c := ccwCount w
    let il : Byte := if r.devLen ≠ c ∧ noIl r.code = false then 2 else 0
    let fits : Ended := ⟨if r.devLen = c then 0 else csIl, dsEnd, a, BitVec.ofNat 32 (c - min r.devLen c), false, none⟩
    let failed := fun (s : State) (kind code qual : Nat) (ou : Bool) =>
      opOver s t n p { r with fails := [⟨o.member, kind, qual, ou, 0, o.info, o.dport⟩] }
        ⟨0x80 ||| il, dsEnd, a, BitVec.ofNat 32 c, ou, some ⟨code, qual, o.info, 0, false, some o.dport⟩⟩ r.endPos
    ((∃ ns lba k fua b, o.kind = .nvmeWrite ns lba k fua b) → r.sm = false → r.ownResid = none → r.code = 1 →
      exec (.downstreamOpComplete t (.ok []) .ok) s = .next (opDone s t n p r fits r.endPos))
    ∧ ((∃ ns lba k, o.kind = .nvmeRead ns lba k) → r.sm = false → r.ownResid = none → r.code = 2 → r.got = [] →
        r.segs = [⟨0, ccwAddr w, c⟩] → 0 < c → hostWaits s.dev (ownerOf x) [(ccwAddr w, c, true)] = false →
        ∀ (b : List Byte) (u : Nat), b.length = r.devLen → r.devLen = c → r.port = some u →
      let q : Prog := { p with run := some { r with ops := [], got := [(o.member, b)] } }
      let d := hostOut (.kept u) (ownerOf x) (.write (ccwAddr w) b) (progSet n q (opFree t s.dev))
      let q' := wrotePort q (some u)
      exec (.downstreamOpComplete t (.ok b) .ok) s = .next (sweptP s
        (keepSlot t s.dev (commandEnd n q' r.ccws fits (some r.endPos) (releaseRun n r.id (progSet n q' d))))))
    ∧ (∀ st : Word, exec (.downstreamOpComplete t (.error st) .ok) s = .next (opDone s t n p
        { r with fails := [⟨o.member, 0, st.toNat, !o.idem, 0, o.info, o.dport⟩] }
        ⟨il, 0x83, a, BitVec.ofNat 32 c, false, some ⟨7, st.toNat, o.info, 0, false, some o.dport⟩⟩ r.endPos))
    ∧ (o.idem = true → o.reissued = false →
      let o' : Op := { o with reissued := true, dport := livePath s.dev (subGet s.dev o.dev) o.dport }
      let again := emit (.devOp o'.dport o.dev t o.kind) { s.dev with ops := tins (tdel s.dev.ops t) t o' }
      let late := timedOut s o
      exec (.handlerTimeout t .uncertain) s
          = .next (sweptP s (emit (.devOp o'.dport o.dev t o.kind) { late.dev with ops := tins (tdel s.dev.ops t) t o' }))
      ∧ ∀ v, exec (.downstreamLinkError t .uncertain v) s = .next (sweptP s again))
    ∧ (exec (.handlerTimeout t .complete) s = .next (sweptP s s.dev))
    ∧ (o.idem = false → exec (.handlerTimeout t .uncertain) s = .next (failed (timedOut s o) 1 9 1 true)
      ∧ ∀ v : Word, exec (.downstreamLinkError t .uncertain v) s = .next (failed s 2 0xA v.toNat true))
    ∧ (exec (.handlerTimeout t .notIssued) s = .next (failed (timedOut s o) 1 9 1 false)
      ∧ ∀ v : Word, exec (.downstreamLinkError t .notIssued v) s = .next (failed s 2 0xA v.toNat false))

/-- R111, R114 to R116, R132, R585: a detached operation gives up its slot; a lost device makes its subchannel NOT_OPERATIONAL
with an alert or its program's final entry; attention is posted or held; a lease ends at its time. -/
def Obligations.LossAttentionLease : Prop :=
  ∀ (s : State) (n : Nat), Engine s →
    let d := s.dev
    let x := subGet d n
    (∀ t o, d.ops.find? (fun e => e.1 = t) = some (t, o) → o.detached = true → o.sub = n → o.cond ≠ .complete →
      exec (.downstreamOpComplete t (.ok []) .ok) s = .next (sweptP s (detachedDone n o.jseq (opFree t d)))
      ∧ exec (.handlerTimeout t .uncertain) s = .next (sweptP s (detachedDone n o.jseq (opFree t (timedOut s o).dev))))
    ∧ (∀ q, let sense : SenseSet := ⟨8, q, x.position.toNat, 0, false, none⟩
      (x.st = .notOperational → exec (.deviceOrHandlerLost (.sub n) q []) s = .next (sweptP s d))
      ∧ (x.st = .idle ∨ x.st = .statusPending → exec (.deviceOrHandlerLost (.sub n) q []) s
          = .next (sweptP s (postAlert n 0x80 .notOperational (setSense n sense false d))))
      ∧ (x.st = .startPending → exec (.deviceOrHandlerLost (.sub n) q []) s
          = .next (sweptP s (withdrawStart n 0x80 (some sense) (some .notOperational) d)))
      ∧ (∀ p a w, x.st = .active → progOf d n = some p → p.stage = .ready → p.chain = [(a, w)] → p.run = none → p.grp = [] →
          p.own = none → progOps d n = [] → exec (.deviceOrHandlerLost (.sub n) q []) s = .next (sweptP s (postFinal n p
            ⟨0, 0x83, a, BitVec.ofNat 32 (ccwCount w), false, some sense⟩ (some .notOperational) (detachOps n d)))))
    ∧ (x.hpack = 0xFF → exec (.attention n) s = .next (swept s d))
    ∧ (x.hpack ≠ 0xFF →
      (x.st = .idle ∨ x.st = .statusPending → exec (.attention n) s = .next (swept s (postAlert n 0x10 .statusPending d)))
      ∧ (x.st = .startPending ∨ x.st = .active ∨ x.st = .suspended ∨ x.st = .haltPending → exec (.attention n) s
          = .next (swept s (subSet n { x with heldAttn := true } d)))
      ∧ (x.st = .clearPending ∨ x.st = .notOperational → exec (.attention n) s = .next (swept s d)))
    ∧ (x.lease = none → exec (.leaseExpiry n) s = .next (after s d))
    ∧ (∀ g, x.lease = some g →
      let gone := fun (d : Dev) => subSet n { x with lease := none, leaseEnd := 0 } (jput { jblank 0x07 g with sub := n } d)
      (d.devtime < x.leaseEnd → exec (.leaseExpiry n) s = .next (after s (gone (advanceTo x.leaseEnd d))))
      ∧ (x.leaseEnd ≤ d.devtime → exec (.leaseExpiry n) s = .next (after s (gone d))))

namespace Sys2Proof.Machine

open Sys2Proof

/-! ### What the statements about rows of BAR 0 share -/

/-- The page and the offset of the block of start ring, completion ring and mover channel n (R171 to R173, R217). -/
def ringPage (n : Nat) : Nat := 0x200 + n / 16
def startRegs (n : Nat) : Nat := 0x100 + 0x20 * (n % 16)
def complRegs (n : Nat) : Nat := 0x300 + 0x40 * (n % 16)
def chanPage (c : Nat) : Nat := 0xC0 + c / 64
def chanRegs (c : Nat) : Nat := 0x800 + 0x20 * (c % 64)

/-- A channel whose next instruction may begin (R185, R228) holds or fetches the line with CH_PC (R182), and the instruction there is w; a
MOVE, MOVEX or PARITY has its turn and its slices (R202, R225, R226). d is the device it finds. -/
def ChanFetches (s : State) (c : Nat) (w : QWord) (io : MovIo) (d : Dev) : Prop :=
  Engine s ∧ chBegins s.dev c (chGet s.dev c) = true ∧ (chGet s.dev c).needHdr = false
    ∧ (let e := lineFetch c io s.dev
       (chGet e c).st = .run ∧ (chGet e c).again = false ∧ chWord (chGet e c) = some w
        ∧ (dataOp w = false → d = e)
        ∧ (dataOp w = true → seqTurn c e = true ∧ ∃ h, chanRoom c (chSlices (chGet e c) w) (chEnds e (chGet e c) w) e = (true, h)
            ∧ d = { h with movServed := tset h.movServed (bits (chGet h c).cfg 31 29) c 4095 }))

/-- The device after an instruction of a channel that changes only the channel, and goes on behind itself. -/
def chDone (c : Nat) (x : Chan) (d : Dev) : Dev := chSet c { x with pc := x.pc + 16, got := [], retry := none, retries := 0 } d

end Sys2Proof.Machine

open Sys2Proof Sys2Proof.Machine

/-! ### The registers of rings -/

/-- R153, R158, R172 to R174: setting EN of a start ring sets SR_CONS to 0 and the expected phase to 1; setting EN of a
completion ring resets its counts and places what its deep FIFO holds, and class P may set it alone for an owner; clearing EN
stops either; an owner is named while the ring is disabled and empty; a write that changes a field fixed under EN is
ignored with CFGERR, and one from an origin that is not the ring's is denied. -/
def Obligations.RingRegisters : Prop :=
  ∀ (s : State) (o : Origin) (n : Nat) (v : Word), n < 4096 →
    let page := ringPage n
    let w := v.zeroExtend 64
    let r := srGet s.dev n
    let q := crGet s.dev n
    (let x := startRegs n + 0x10
     let z := clampSize (v &&& 0xCF00FFFF#32)
     Passes s o page x [4, 3, 2] →
      (mayRing o r.own = false → exec (.srCtlEnSet o n v) s = .next (deniedWrite s o page x 4 w))
      ∧ (mayRing o r.own = true →
        (bit r.ctl 31 = true → bits z 27 24 ≠ bits r.ctl 27 24 →
          exec (.srCtlEnSet o n v) s = .next (ignoredWrite s o page x 4 w (srCfgErr n)))
        ∧ (bit r.ctl 31 = false → bit v 31 = true →
          exec (.srCtlEnSet o n v) s = .next (wrote s o page x 4 w (fun d => srSet n
            { srGet d n with ctl := z, cons := 0, phase := true, pref := [], rd := .idle, stale := 0
                             dirty := r.dirty || (decide (r.shadow ≠ 0) && decide (r.cons ≠ 0))
                             port := ringChoice d r.own r.base } d)))
        ∧ (bit r.ctl 31 = true → bits z 27 24 = bits r.ctl 27 24 → bit v 31 = true →
          exec (.srCtlEnSet o n v) s = .next (wrote s o page x 4 w (fun d => srSet n { srGet d n with ctl := z } d)))
        ∧ (bit r.ctl 31 = false ∨ bits z 27 24 = bits r.ctl 27 24 → bit v 31 = false →
          exec (.srCtlEnSet o n v) s
            = .next (wrote s o page x 4 w (fun d => srSet n { srGet d n with ctl := z, pref := [], rd := .idle } d)))))
    ∧ (let x := complRegs n + 8
       let z := clampSize (v &&& 0xEF0007FF#32)
       let only := originClass o = 4 ∧ ownOf q.own ≠ none ∧ bit v 31 = true
         ∧ clampSize (q.ctl &&& 0x10FFF800#32 ||| v &&& 0xEF0007FF#32) = setBit q.ctl 31 true
       Passes s o page x [4, 3, 2] →
        (mayRing o q.own = false → ¬ only → exec (.crCtlEnWrite o n v) s = .next (deniedWrite s o page x 4 w))
        ∧ (mayRing o q.own = true → bit q.ctl 31 = true → bits z 27 24 ≠ bits q.ctl 27 24 →
          exec (.crCtlEnWrite o n v) s = .next (ignoredWrite s o page x 4 w (crCfgErr n)))
        ∧ (mayRing o q.own = true ∨ only → bit q.ctl 31 = false → bit v 31 = true →
          exec (.crCtlEnWrite o n v) s = .next (wrote s o page x 4 w (fun d => ringProgress n (crSet n
            { crGet d n with ctl := z, prod := 0, cons := 0, phase := true, port := ringChoice d q.own q.base } d))))
        ∧ (mayRing o q.own = true ∧ bit q.ctl 31 = true ∧ bits z 27 24 = bits q.ctl 27 24 ∨ only ∧ bit q.ctl 31 = true
              ∨ mayRing o q.own = true ∧ bit q.ctl 31 = false ∧ bit v 31 = false →
          exec (.crCtlEnWrite o n v) s = .next (wrote s o page x 4 w (fun d => crSet n { crGet d n with ctl := z } d))))
    ∧ (let x := complRegs n + 0xC
       let z := q.own &&& 0xFFFFFF00#32 ||| v &&& 0xFF#32
       let empty := q.fifo.items = [] ∧ stalledCount s.dev n = 0
       Passes s o page x [4, 3, 2] →
        (originClass o ≠ 4 → o ≠ .hostPf (bits v 7 7) → exec (.crOwnWrite o n v) s = .next (deniedWrite s o page x 4 w))
        ∧ (originClass o = 4 ∨ o = .hostPf (bits v 7 7) →
          (bit q.ctl 31 = false ∨ bits q.ctl 27 24 ≤ 12 ∧ z = q.own → empty →
            exec (.crOwnWrite o n v) s = .next (wrote s o page x 4 w (fun d => crSet n { crGet d n with own := z } d)))
          ∧ (bit q.ctl 31 = true ∧ z ≠ q.own ∨ ¬ empty →
            exec (.crOwnWrite o n v) s = .next (ignoredWrite s o page x 4 w (crCfgErr n)))))

/-! ### The mover -/

/-- R66, R178, R179, R181, R201, R207, R211 to R217, R274: GO, DISABLE, CLR_ERR and CH_PROG of a channel its writer holds;
MOVER takes a free channel or waits for one; a burst becomes visible, is retried, or fails the channel. -/
def Sys2Proof.Machine.MoverControl : Prop :=
  ∀ (s : State) (c : Nat), c < 4096 →
    let x := chGet s.dev c
    let image := x.prog &&& 0xFFFFFFFFFFFFFFC0#64
    (∀ (o : Origin) (v : Word) (h : HostRead), Passes s o (chanPage c) (chanRegs c) [3, 2, 1, 0] →
      (mayChan s.dev o c = false →
        exec (.moverDisable o c v) s = .next (deniedWrite s o (chanPage c) (chanRegs c) 4 (v.zeroExtend 64))
        ∧ exec (.moverClrErr o c v) s = exec (.moverDisable o c v) s)
      ∧ (mayChan s.dev o c = true → ((commitOf s.dev 3 c).map (·.holder)) ≠ some .signpost →
        let put := fun (f : Dev → Dev) => wrote s o (chanPage c) (chanRegs c) 4 (v.zeroExtend 64) f
        (x.st = .idle → bits v 31 29 = 2 → chSpace x = 1 → image.toNat + 64 ≤ plazaSize s.dev x →
            plazaHeld s.dev x image.toNat 64 = [] →
          exec (.moverGo o c v h) s = .next (put (fun d => takeHeader c (plazaRead d x image.toNat 64) (chSet c { x with
            st := .run, lc := List.replicate 4 0, xf := 0, bytes := if bit x.cfg 14 then x.bytes else 0
            pc := image + 64, ar2 := List.replicate 8 false, needHdr := true, line := none, wait := none, got := [], retry := none
            again := false, retries := 0, stop := false, port := none } d))))
        ∧ (x.st = .run ∨ x.st = .wait → bits v 31 29 = 2 → x.needHdr = false →
          exec (.moverGo o c v h) s = .next (put (fun d => if x.spend then startLost c d else chSet c { x with spend := true } d)))
        ∧ (x.st = .halted → bits v 31 29 = 2 →
          exec (.moverGo o c v h) s = .next (put (startLost c)))
        ∧ (x.st ≠ .disabled → bits v 31 29 = 4 → exec (.moverDisable o c v) s
          = .next (put (fun d => let d := dropWork c d; chSet c { chGet d c with st := .disabled, err := 9 } d)))
        ∧ (x.st = .disabled → bits v 31 29 = 0 → exec (.moverDisable o c v) s
          = .next (put (chSet c { x with st := .idle })))
        ∧ (x.st = .halted → bits v 31 29 = 1 → exec (.moverClrErr o c v) s
          = .next (put (chSet c { x with st := .idle, err := 0 })))))
    ∧ (∀ (o : Origin) (v : DWord), Passes s o (chanPage c) (chanRegs c + 8) [3, 2, 1, 0] → mayChan s.dev o c = true →
        ((commitOf s.dev 3 c).map (·.holder)) ≠ some .signpost →
      (x.st ≠ .run → x.st ≠ .wait → exec (.chProgWrite o c v) s = .next (wrote s o (chanPage c) (chanRegs c + 8) 8 v
        (chSet c { x with prog := x.prog &&& 0xF#64 ||| v &&& 0xFFFFFFFFFFFFFFF0#64, sig := 0 })))
      ∧ (x.st = .run ∨ x.st = .wait → exec (.chProgWrite o c v) s
        = .next (ignoredWrite s o (chanPage c) (chanRegs c + 8) 8 v id)))
    ∧ (∀ n y h p a w hdr, InHand s n y h p a w → ccwCode w = 0xE → bits (ccwAddr w) 5 0 = 0 →
      (freeChannel s.dev = none ∨ s.dev.movWait ≠ [] → exec (.mover n hdr) s = .next (sweptM s
        (progSet n { p with stage := .waitMover Config.moverChannels } { s.dev with movWait := s.dev.movWait ++ [(n, 1)] })))
      ∧ (s.dev.movWait = [] → freeChannel s.dev = some c → exec (.mover n hdr) s
          = .next (sweptM s (hostHeader c hdr (moverRun n c p s.dev)))))
    ∧ (∀ n y h p a w hdr, InHand s n y h p a w → ccwCode w = 0xE → bits (ccwAddr w) 5 0 ≠ 0 →
        exec (.mover n hdr) s = .next (sweptM s (commandEnd n p p.chain (endC csPgm a (ccwCount w)) none s.dev)))
    ∧ (∀ n k p rest, Engine s → s.dev.movWait = (n, k) :: rest → progOf s.dev n = some p →
      (∀ m, p.stage = .waitMover m → freeChannel s.dev = some c →
        exec (.moverChannelAssign n) s = .next (sweptM s (moverRun n c p { s.dev with movWait := rest })))
      ∧ (∀ d', (∀ m, p.stage ≠ .waitMover m) → takeChans n k { s.dev with movWait := rest } = some d' →
        exec (.moverChannelAssign n) s = .next (sweptM s d')))
    ∧ (Engine s →
      let d := s.dev
      ((∀ b ∈ x.bursts, b.sent = false ∨ b.zlr ≠ none) → ∀ r, exec (.moverBurstComplete c r) s = .next (sweptM s d))
      ∧ ∀ b rest, x.bursts = b :: rest → b.sent = true → b.zlr = none →
        let gone := chSet c { x with bursts := rest } d
        let failed := if x.st = .run ∨ x.st = .wait then chHalt c 5 (some b.addr) (chSet c { x with bursts := rest, pc := b.pc } gone)
          else stopCheck c gone
        (b.space ≠ 0 ∨ upUp d (1 - b.port) = false →
          exec (.moverBurstComplete c .ok) s = .next (sweptM s (stopCheck c (addBytes c b.data.length gone))))
        ∧ (b.space = 0 → upUp d (1 - b.port) = true → exec (.moverBurstComplete c .ok) s = .next (sweptM s
            (zeroOut (chFn x) b.port (chSet c { x with bursts := { b with zlr := some b.port } :: rest } d))))
        ∧ (b.retries < bits x.cfg 23 20 → exec (.moverBurstComplete c .notSent) s = .next (sweptM s
            (chSet c { x with bursts := { b with sent := false, hold := true, retries := b.retries + 1 } :: rest } d)))
        ∧ (bits x.cfg 23 20 ≤ b.retries → exec (.moverBurstComplete c .notSent) s = .next (sweptM s failed))
        ∧ (∀ l, exec (.moverBurstComplete c (.partly l)) s = .next (sweptM s failed)))
    ∧ (Engine s → ∀ io,
      let ready := chSet c { x with again := false, retry := none } s.dev
      (x.again = false → exec (.moverBurstRetry c io) s
        = .next (sweptM s (hostAsk (chFn x)
            ((x.bursts.filter (fun b => b.hold && decide (b.space = 0))).map (fun b => (b.addr, b.data.length, true)))
            (chSet c { x with bursts := x.bursts.map (fun b => { b with hold := false }) } s.dev))))
      ∧ (x.again = true → x.st = .run → x.stop = false →
        (x.needHdr = true → exec (.moverBurstRetry c io) s = .next (sweptM s
          (hostHeader c io.hdr (hostOut (chVia x) (chFn x) (.read image 64) ready))))
        ∧ (x.needHdr = false → x.retry = none → exec (.moverBurstRetry c io) s = .next (sweptM s (lineFetch c io ready)))
        ∧ (∀ w, x.needHdr = false → x.retry = some w → exec (.moverBurstRetry c io) s = .next (sweptM s (doInstr c w io ready)))))
    ∧ (Engine s → ∀ t, x.wait = some (.delay t) → s.dev.devtime < t → exec (.moverWaitDelayExpiry c) s = .next (sweptM s
        (chSet c { x with st := .run, wait := none, pc := x.pc + 16 } (advanceTo t s.dev))))

/-- R201 to R203: the sequencer serves, of the channels with a burst or a data instruction that may go, one of the lowest PRIO, in rotation
behind the one of that PRIO served last; at most 8 bursts of a channel are in flight, those of one space leave in order, and each carries the PRIO and
CLASS that CH_CFG holds as it leaves. R182: the line of instructions comes from Plaza at once, or from the read's answer. -/
def Sys2Proof.Machine.MoverDispatch : Prop :=
  ∀ (d : Dev) (c : Nat),
    let x := chGet d c
    let prio := fun (y : Chan) => bits y.cfg 31 29
    let line := x.pc &&& 0xFFFFFFFFFFFFFFC0#64
    (dispatchPick d = some c → ∃ y, (c, y) ∈ d.chans ∧ (nextBurst d y).isSome = true
      ∧ (∀ e ∈ d.chans, (nextBurst d e.2).isSome = true → prio y ≤ prio e.2)
      ∧ (∀ e ∈ d.chans, (nextBurst d e.2).isSome = true → prio e.2 = prio y → c ≤ tget d.movServed (prio y) 4095 →
          e.1 ≤ tget d.movServed (prio y) 4095))
    ∧ (seqTurn c d = true → ∃ y, (c, y) ∈ d.chans ∧ chReady d c y = true
      ∧ (∀ e ∈ d.chans, chReady d e.1 e.2 = true → prio y ≤ prio e.2)
      ∧ (∀ e ∈ d.chans, chReady d e.1 e.2 = true → prio e.2 = prio y → c ≤ tget d.movServed (prio y) 4095 →
          e.1 ≤ tget d.movServed (prio y) 4095))
    ∧ (∀ i, nextBurst d x = some i → (x.bursts.filter (·.sent)).length < 8
      ∧ ∃ b, x.bursts[i]? = some b ∧ b.sent = false ∧ b.hold = false
        ∧ (∀ j y, j < i → x.bursts[j]? = some y → y.space = b.space → y.sent = true)
        ∧ (let t := if b.space = 0 then chTake c b.addr d else (0, d)
           let y := chGet t.2 c
           (∀ p, b.space = 0 → x.port = some p → t = (ringPort d p, d))
            ∧ sendBurst c d = emitBurst y t.1 b.space b.addr b.data (chSet c
              { y with bursts := y.bursts.set i { b with sent := true, prio := prio y, cls := bits y.cfg 28 27, port := t.1 } }
              { t.2 with movServed := tset t.2.movServed (prio y) c 4095 })))
    ∧ ((x.line.map (·.1)) = some line → ∀ io, lineFetch c io d = d)
    ∧ ((x.line.map (·.1)) ≠ some line →
      (chSpace x = 1 → line.toNat + 64 ≤ plazaSize d x → plazaHeld d x line.toNat 64 = [] → ∀ io,
        lineFetch c io d = chSet c { x with line := some (line, plazaRead d x line.toNat 64) } d)
      ∧ (chSpace x ≠ 1 → ∀ io b, io.line = .ok b → b.length = 64 → hostWaits d (chFn x) [(line, 64, true)] = false →
        let d1 := sendHost (chVia x) (chFn x) (.read line 64) d
        lineFetch c io d = chSet c { chGet d1 c with line := some (line, b), again := false, retries := 0 } d1))

/-- R66, R178, R179, R181, R182, R201 to R203, R207, R211 to R217, R274: the control of channels, MOVER, the end and
the retry of bursts, and which burst the sequencer dispatches. -/
def Obligations.MoverCommands : Prop :=
  Sys2Proof.Machine.MoverControl ∧ Sys2Proof.Machine.MoverDispatch

/-- R182 to R200, R212: each instruction of a mover program, with its reserved fields 0, does what its rule says and goes on
behind itself; with one of them set it halts the channel with ERR 1. MOVE, MOVEX and PARITY are said for the data that their reads
gave (R204, R213). -/
def Obligations.MoverInstructions : Prop :=
  ∀ (s : State) (c : Nat) (w : QWord) (io : MovIo) (d : Dev), ChanFetches s c w io d →
    let x := chGet d c
    let op := bits w 7 0
    let bad := answers (sweptM s (chHalt c 1 none d))
    let ar := fun (i : Nat) => lget x.ar i 0
    let sd := fun (lo : Nat) => (BitVec.ofNat 32 (bits w (lo + 31) lo)).toInt
    let free := bit w 16 = true → x.bursts = []
    (op = 0 → exec (.moverNop c w io) s = if bits w 127 8 ≠ 0 then bad else .next (sweptM s (chDone c x d)))
    ∧ (op = 1 →
      (bits w 21 20 ≠ 0 ∨ bits w 15 8 ≠ 0 ∨ bits w 23 22 = 3 ∨ bits w 25 24 = 3 → exec (.move c w io) s = bad)
      ∧ (∀ sp dp len sar dar, bits w 21 20 = 0 → bits w 15 8 = 0 → sp = bits w 23 22 → dp = bits w 25 24 → sp ≠ 3 → dp ≠ 3 →
          len = bits w 127 96 → sar = bits w 28 26 → dar = bits w 31 29 → free →
        let src := addrAdd sp (ar sar) (sd 32)
        let dst := addrAdd dp (ar dar) (sd 64)
        let xf := bit w 19 && decide (xfKind x.xf ≠ 0)
        let lap := overlaps sp src len dp dst len
        let rl := chCut x (if xf then [src] else [src, dst]) len
        let wl := if xf then chCut x [dst] len else rl
        let reads := place sp src 0 rl
        let writes := place dp dst 0 wl
        let down := lap && decide (src.toNat < dst.toNat)
        (xf = true → xfLength x.xf len = false → exec (.move c w io) s = .next (sweptM s (chHalt c 3 none d)))
        ∧ (xf = true → xfLength x.xf len = true → lap = true →
          exec (.move c w io) s = .next (sweptM s (chHalt c 2 none d)))
        ∧ ((xf = true → xfLength x.xf len = true ∧ lap = false) →
          (∀ e a, firstErr d x (reads ++ writes) = some (e, a) →
            exec (.move c w io) s = .next (sweptM s (chHalt c e (some a) d)))
          ∧ (∀ l rest e, firstErr d x (reads ++ writes) = none →
              readAll c w (if down then reads.reverse else reads) io.reads d = (some (l, rest), e) →
            let b := (if down then l.reverse else l).flatten
            let out := writes.zip (pieces (if xf then xfApply x.xf b else b) wl)
            let d1 := writeParts c (if down then out.reverse else out) (arUse c [(sar, sp), (dar, dp)] e)
            let d2 := if bit w 17 then arAdd c sar sp len d1 else d1
            let d3 := if bit w 18 && !(bit w 17 && decide (sar = dar)) then arAdd c dar dp len d2 else d2
            exec (.move c w io) s = .next (sweptM s (chNext c d3))))))
    ∧ (op = 2 →
      (bits w 83 64 ≠ 0 ∨ bits w 48 20 ≠ 0 ∨ bits w 15 8 ≠ 0 ∨ 2 ≤ bits w 60 59 ∨ bits w 55 54 = 3 ∨ bits w 50 49 = 3 →
        exec (.movex c w io) s = bad)
      ∧ (∀ k es tsp xsp lsp, bits w 83 64 = 0 → bits w 48 20 = 0 → bits w 15 8 = 0 → tsp = bits w 60 59 → xsp = bits w 55 54 →
          lsp = bits w 50 49 → tsp < 2 → xsp ≠ 3 → lsp ≠ 3 → k = bits w 127 96 → es = bits w 95 84 + 1 → free →
        let tab := ar (bits w 63 61)
        let lin := ar (bits w 53 51)
        let fin := fun (d : Dev) =>
          let d := if bit w 19 then arAdd c (bits w 63 61) tsp (4 * k) d else d
          chNext c (if bit w 17 then arAdd c (bits w 53 51) lsp (k * es) d else d)
        let tabs := place tsp tab 0 (chCut x [tab] (4 * k))
        (k = 0 → exec (.movex c w io) s = .next (sweptM s (fin d)))
        ∧ (∀ tb r1 d1, 0 < k → firstErr d x tabs = none → readAll c w tabs io.reads d = (some (tb, r1), d1) →
          let offs := (List.range k).map (fun j => leNat ((tb.flatten.drop (4 * j)).take 4))
          let ixs := offs.map (fun (i : Nat) => addrAdd xsp (ar (bits w 58 56)) i)
          let lns := (List.range k).map (fun (j : Nat) => addrAdd lsp lin ((j * es : Nat) : Int))
          let cuts := (ixs.zip lns).map (fun q => chCut x [q.1, q.2] es)
          let side := fun (sp : Nat) (l : List DWord) => (l.zip cuts).map (fun q => place sp q.1 0 q.2)
          let from_ := if bit w 18 then side lsp lns else side xsp ixs
          (∀ e a, firstErr d1 x ((side xsp ixs).flatten ++ (side lsp lns).flatten) = some (e, a) →
            exec (.movex c w io) s = .next (sweptM s (chHalt c e (some a) d1)))
          ∧ (∀ l r2 d2, firstErr d1 x ((side xsp ixs).flatten ++ (side lsp lns).flatten) = none →
              readAll c w (tabs ++ from_.flatten) r1 d1 = (some (l, r2), d2) →
              (∀ a ∈ ixs, overlaps xsp a es lsp lin (k * es) = false) →
            let elems := (if bit w 18 then ixs else lns).zip (pieces (l.drop tabs.length).flatten (List.replicate k es))
            exec (.movex c w io) s = .next (sweptM s (fin (writeElems c (if bit w 18 then xsp else lsp) (elems.zip cuts)
              (arUse c [(bits w 63 61, tsp), (bits w 58 56, xsp), (bits w 53 51, lsp)] d2))))))))
    ∧ (op = 3 →
      let k := bits w 127 96
      let back := bits w 79 64
      let i := bits w 25 24
      let good := k ≠ 0 ∧ back ≠ 0 ∧ bits w 95 80 = 0 ∧ bits w 27 26 = 0 ∧ bits w 23 8 = 0
      let l : Word := (if lget x.lc i 0 = 0 then BitVec.ofNat 32 k else lget x.lc i 0) - 1
      (¬ good → exec (.loop c w io) s = bad)
      ∧ (good → l = 0 → exec (.loop c w io) s
        = .next (sweptM s (chNext c (chSet c { x with lc := lset x.lc i 0 } d))))
      ∧ (good → l ≠ 0 → x.pc.toNat < (chImage x).toNat + 64 + 16 * back → exec (.loop c w io) s = bad)
      ∧ (good → l ≠ 0 → (chImage x).toNat + 64 + 16 * back ≤ x.pc.toNat →
        let a := bits w 31 29
        exec (.loop c w io) s = .next (sweptM s (chSet c { x with
          lc := lset x.lc i l, pc := x.pc - BitVec.ofNat 64 (16 * back)
          ar := if bit w 28 then lset x.ar a (addrAdd (if lget x.ar2 a false then 2 else 0) (ar a) (sd 32)) else x.ar } d))))
    ∧ (op = 4 →
      let v := bits w 127 96
      let t := bits w 17 16
      let good := bits w 95 18 = 0 ∧ bits w 15 8 = 0
      (¬ good ∨ t = 3 ∨ (t = 0 ∧ 256 ≤ v) ∨ (t = 1 ∧ v ≠ 0) → exec (.moverWait c w io) s = bad)
      ∧ (good → t = 0 → v < 256 → exec (.moverWait c w io) s
        = .next (sweptM s (chSet c { x with st := .wait, wait := some (.timer v) } d)))
      ∧ (good → t = 1 → v = 0 → x.sig = 0 → exec (.moverWait c w io) s
        = .next (sweptM s (chSet c { x with st := .wait, wait := some .signal } d)))
      ∧ (good → t = 1 → v = 0 → x.sig ≠ 0 → exec (.moverWait c w io) s
        = .next (sweptM s (chNext c (chSet c { x with sig := x.sig - 1 } d))))
      ∧ (good → t = 2 → exec (.moverWait c w io) s = .next (sweptM s (chSet c { x with
          st := .wait, wait := some (.delay (d.devtime + BitVec.ofNat 64 v)) } d))))
    ∧ (op = 5 →
      let k := bits w 75 64
      let t := bits w 17 16
      let good := bits w 127 76 = 0 ∧ bits w 63 18 = 0 ∧ bits w 15 8 = 0 ∧ t ≠ 3 ∧ (t = 1 → k < 256 ∧ chOwner x ≠ none)
      (¬ good → exec (.signal c w io) s = bad)
      ∧ (good → x.bursts ≠ [] → exec (.signal c w io) s = .next (sweptM s d))
      ∧ (good → x.bursts = [] → t = 0 → chOwner (chGet d k) ≠ chOwner x → exec (.signal c w io) s
        = .next (sweptM s (chHalt c 6 none d)))
      ∧ (good → x.bursts = [] → t = 0 → chOwner (chGet d k) = chOwner x → exec (.signal c w io) s
        = .next (sweptM s (chEvent c .signal (sigAdd k (chDone c x d)))))
      ∧ (good → x.bursts = [] → t = 1 → exec (.signal c w io) s
        = .next (sweptM s (chEvent c .signal (signalEvent (chFn x) k (chDone c x d)))))
      ∧ (good → x.bursts = [] → t = 2 → exec (.signal c w io) s
        = .next (sweptM s (chEvent c .signal (srcFire (0x1000 + c) (chDone c x d))))))
    ∧ (op = 6 → exec (.xform c w io) s = if xformOk w = true
        then .next (sweptM s (chNext c (chSet c { x with xf := if bits w 9 8 = 0 then 0 else w } d))) else bad)
    ∧ (op = 7 →
      let len := bits w 127 96
      let k := bits w 63 59 + 1
      let sp := bits w 49 48
      let dp := bits w 47 46
      let genp := bit w 18
      let genq := bit w 19
      (bits w 45 20 ≠ 0 ∨ bits w 15 8 ≠ 0 ∨ sp = 3 ∨ dp = 3 ∨ (genp = false ∧ genq = false) → exec (.parity c w io) s = bad)
      ∧ (bits w 45 20 = 0 → bits w 15 8 = 0 → (genp = true ∨ genq = true) → sp ≠ 3 → dp ≠ 3 → free →
        let srcs := (List.range k).map (fun (i : Nat) => addrAdd sp (ar (bits w 58 56)) ((i * bits w 95 64 : Nat) : Int))
        let outs := (if genp then [ar (bits w 55 53)] else []) ++ (if genq then [ar (bits w 52 50)] else [])
        let all := srcs.map (fun a => (sp, a, len)) ++ outs.map (fun a => (dp, a, len))
        let cut := chCut x (srcs ++ outs) len
        let reads := (srcs.map (fun a => place sp a 0 cut)).flatten
        let writes := outs.map (fun a => place dp a 0 cut)
        let regs := [(bits w 58 56, sp), (bits w 55 53, dp), (bits w 52 50, dp)]
        (anyOverlap all = true → exec (.parity c w io) s = .next (sweptM s (chHalt c 2 none d)))
        ∧ (anyOverlap all = false →
          (∀ e a, firstErr d x (reads ++ writes.flatten) = some (e, a) →
            exec (.parity c w io) s = .next (sweptM s (chHalt c e (some a) d)))
          ∧ (∀ l rest e, firstErr d x (reads ++ writes.flatten) = none → readAll c w reads io.reads d = (some (l, rest), e) →
            let data := pieces l.flatten (List.replicate k len)
            let sums := (if genp then [parityP len data] else []) ++ (if genq then [parityQ len data] else [])
            let d1 := (writes.zip sums).foldl (fun d y => writeParts c (y.1.zip (pieces y.2 cut)) d) (arUse c regs e)
            let bumped := (regs.foldl (fun (s : Dev × List Nat) r =>
              if s.2.contains r.1 then s else (arAdd c r.1 r.2 len s.1, r.1 :: s.2)) (d1, [])).1
            exec (.parity c w io) s = .next (sweptM s (chNext c (if bit w 17 then bumped else d1)))))))
    ∧ (op = 0xF →
      (bits w 127 8 ≠ 0 → exec (.progEnd c w io) s = bad)
      ∧ (bits w 127 8 = 0 → x.bursts ≠ [] → exec (.progEnd c w io) s = .next (sweptM s d))
      ∧ (bits w 127 8 = 0 → x.bursts = [] →
        let d1 := chSet c { x with st := .idle, spend := false, retries := 0 } d
        exec (.progEnd c w io) s
          = .next (sweptM s (moverRest c (chEvent c .ended (if x.spend then chBegin c d1 else d1))))))

/-- R186, R201, R207, R220: a MOVE from Plaza to Plaza on a firmware channel without event thresholds, while no channel program runs,
writes its destination bytes, and every other byte of Plaza reads as before. -/
def Obligations.MoveWritesItsRange : Prop :=
  ∀ (s : State) (c : Nat) (w : QWord) (io : MovIo) (d : Dev), ChanFetches s c w io d → bits w 7 0 = 1 → bits w 25 8 = 0x14000 →
    s.dev.progs = [] → s.dev.fnHeld = [] → (∀ n, (subGet s.dev n).heldAttn = false) →
    let x := chGet d c
    let src := addrAdd 1 (lget x.ar (bits w 28 26) 0) (BitVec.ofNat 32 (bits w 63 32)).toInt
    let dst := addrAdd 1 (lget x.ar (bits w 31 29) 0) (BitVec.ofNat 32 (bits w 95 64)).toInt
    let len := bits w 127 96
    chOwner x = none → bits x.buf 31 1 = 0 → inRefill s.dev (blocksOf src.toNat len) = [] → src.toNat + len ≤ Config.plazaBytes → dst.toNat + len ≤ Config.plazaBytes →
    ∃ t, exec (.move c w io) s = .next t ∧ (Memory.wf s.dev.plaza = true → Memory.wf t.dev.plaza = true)
      ∧ ∀ a, memGet t.dev.plaza a =
        if dst.toNat ≤ a ∧ a < dst.toNat + len then memGet s.dev.plaza (src.toNat + (a - dst.toNat)) else memGet s.dev.plaza a

namespace Sys2Proof.Machine

open Sys2Proof

/-! ### What the statements about Plaza share -/

/-- A check block has failed at its egress check in a read by r (R228, R242): the reader's burst leaves the bank's Roundabout; the bank's
count and event, the performance event and the trace record follow. -/
def crcRaised (b : Nat) (r : BlockUser) (d : Dev) : Dev :=
  dbEvent 4 (traceEvent 5 none b (b / 4096) (pageEvent (0x80 + b / 4096) 0 (regBump .crcErr (b / 4096)
    (rbtHeld (b / 4096) (readerOwns d r) d))))

/-- A refill asks for the block's bytes again, where the origin has them (R228). -/
def askAgain (g : BlockSrc) (d : Dev) : Dev :=
  match g with
  | .host f a => sendHost .any f (.read a 256) d
  | .nvme n ns lba k _ =>
      emit (.devOp (pathNow d (subGet d n)) n d.nextTok (.nvmeRead ns lba k)) { d with nextTok := d.nextTok + 1 }
  | .window n off => emit (.devRead (pathNow d (subGet d n)) (BitVec.ofNat 64 ((subGet d n).hpriv.base + off)) 256) d
  | .windowFixed => d
  | .plaza _ => d
  | .scratch => d

/-- The machine after the read of block b by `r` has failed under R230: the bank's count and event, the Contained fault with the ports
of its function, and what its reader gets; all it waits for is forgotten. -/
def readLost (s : State) (b : Nat) (r : BlockUser) (d0 : Dev) : State :=
  let k := b / 4096
  let e := pageEvent (0x80 + k) 1 (regBump .resendFail k { d0 with refills := d0.refills.filter (fun y => y.reader ≠ r) })
  let d := reportFault 3 3 k (readerPorts e r) e
  after s (match r with
    | .chan c a => if (chGet d c).st = .run then liveM (chHalt c 8 (some a)) d else d
    | .cmd o => liveP (cmdFails o) d
    | .device p o off len => liveP (cmdFails o) (emit (.devAnswer p 2 (memRead d.plaza off len)) d)
    | .xfer t => liveP (xferFails t b) d
    | .cpLoad i a => failLoad i a b d
    | .engine n => liveP (engineFails n) d
    | .copy _ => d)

/-- The machine after a bank fault that no spare mends (R234): retired while fewer than four banks are, else fenced with the
slices `l`. -/
def bankLost (s : State) (b : Nat) (l : List Nat) : State :=
  if banksRetired s.dev < 4 then after s (deviceFault 1 3 b (repairUse 2 (bankSet b 1 s.dev)))
  else after s (deviceFault 2 3 b (l.foldl (fun d x => fence x d) (if bankState s.dev b = 3 then s.dev else bankSet b 3 s.dev)))

end Sys2Proof.Machine

open Sys2Proof Sys2Proof.Machine

/-! ### Plaza, Boulevard and Roundabout -/

/-- R228 to R231: a mismatch holds the read and asks for the block anew, where its origin has a refill and the limit is not
0; another read of a block in refill joins it; otherwise the read fails. A refill writes its block alone, from its origin or computed
again; one that passes lets the read go on, reported Corrected; at the limit, or at the end of a device's hold, the read fails. -/
def Obligations.PlazaReads : Prop :=
  ∀ (s : State) (b : Nat) (r : BlockUser), Running s → b < 0x40000 →
    let k := b / 4096
    let raised := crcRaised b r s.dev
    let lim := fun (d : Dev) => regFld d .pzResend 0 2 0
    let hold := match s.dev.refills.find? (fun y => y.reader = r) with
      | some y => y.due
      | none => raised.devtime + BitVec.ofNat 64 (regFld raised .pzResend 0 31 16 * 100000)
    (∀ (g : BlockSrc), (∀ x ∈ s.dev.refills, x.blk ≠ b) →
      (g ≠ .windowFixed → g ≠ .scratch → lim raised ≠ 0 → exec (.plazaCrcMismatch b g r) s = .next (after s (askAgain g
        { raised with refills := raised.refills ++ [⟨b, g, r, 0, hold⟩] })))
      ∧ (g = .windowFixed ∨ g = .scratch ∨ lim raised = 0 →
        exec (.plazaCrcMismatch b g r) s = .next (readLost s b r raised)))
    ∧ (∀ g x, s.dev.refills.find? (fun y => y.blk = b) = some x →
      ((∀ y ∈ s.dev.refills, y.blk = b → y.reader ≠ r) → exec (.plazaCrcMismatch b g r) s = .next (after s
        { raised with refills := raised.refills ++ [⟨b, x.origin, r, 0, hold⟩] }))
      ∧ ((∃ y ∈ s.dev.refills, y.blk = b ∧ y.reader = r) → exec (.plazaCrcMismatch b g r) s = .next (after s s.dev)))
    ∧ (∀ x, s.dev.refills.filter (fun y => y.blk = b) = [x] →
      let d := { s.dev with refills := s.dev.refills.filter (fun y => y.blk ≠ b) }
      let again := fun (d : Dev) => after s (askAgain x.origin { d with refills := d.refills ++ [{ x with tries := x.tries + 1 }] })
      (∀ e ps, (x.tries + 1 < lim s.dev → exec (.plazaRefillComplete b (.err e) ps) s = .next (again d))
        ∧ (lim s.dev ≤ x.tries + 1 → exec (.plazaRefillComplete b (.err e) ps) s = .next (readLost s b x.reader d)))
      ∧ (∀ (l bytes : List Byte), (l.length = 256 ∧ bytes = l ∧ (∀ q, x.origin ≠ .plaza q) ∧ ∀ n ns lba k o, x.origin ≠ .nvme n ns lba k o)
            ∨ (∃ n ns lba k o, x.origin = .nvme n ns lba k o ∧ o + 256 ≤ l.length ∧ bytes = (l.drop o).take 256)
            ∨ (∃ q, x.origin = .plaza q ∧ bytes = fitBytes 256 (produced d q)) →
          let w := { d with plaza := memWrite d.plaza (256 * b) bytes }
          let good := deviceFault 0 3 k (regBump .resendOk k w)
          let bad := crcRaised b x.reader w
          (∀ c a o, x.reader = .chan c a ∨ x.reader = .cmd o ∨ x.reader = .xfer o ∨ x.reader = .engine o ∨ x.reader = .copy o →
            exec (.plazaRefillComplete b (.ok l) true) s = .next (after s good))
          ∧ (∀ p o off len, x.reader = .device p o off len → (∀ y ∈ d.refills, y.reader ≠ x.reader) →
            exec (.plazaRefillComplete b (.ok l) true) s = .next (after s (emit (.devAnswer p 0 (memRead good.plaza off len)) good)))
          ∧ (∀ i a, x.reader = .cpLoad i a →
            exec (.plazaRefillComplete b (.ok l) true) s = .next (after s (refreshLoad i a b good)))
          ∧ (x.tries + 1 < lim bad → exec (.plazaRefillComplete b (.ok l) false) s = .next (again bad))
          ∧ (lim bad ≤ x.tries + 1 →
            exec (.plazaRefillComplete b (.ok l) false) s = .next (readLost s b x.reader bad))))
    ∧ (∀ x, s.dev.refills.find? (fun y => decide (y.blk = b) && y.held) = some x →
      exec (.plazaHoldExpiry b) s = .next (readLost s b x.reader (advanceTo x.due s.dev)))

/-- R222, R225, R233, R234, R269: what a bank fault, the end of a retirement, the copy of a scratch slice and the grant of a
waiting reservation do; a grant takes free slices, for its own class and stream. -/
def Obligations.PlazaSlices : Prop :=
  ∀ (s : State), Running s →
    (∀ b i, b < 64 → bankState s.dev b = 0 ∨ bankState s.dev b = 3 →
      let rows := regFld s.dev .bkStat b 12 8
      let cols := regFld s.dev .bkStat b 2 0
      (rows < 16 → exec (.plazaBankFault b (.row i)) s
        = .next (after s (deviceFault 0 3 b (repairUse 3 (regSetFld .bkStat b 12 8 (rows + 1) s.dev)))))
      ∧ (16 ≤ rows → exec (.plazaBankFault b (.row i)) s = .next (bankLost s b [256 * b + i % 256]))
      ∧ (cols < 4 → exec (.plazaBankFault b (.column i)) s
        = .next (after s (deviceFault 0 3 b (repairUse 4 (regSetFld .bkStat b 2 0 (cols + 1) s.dev)))))
      ∧ (4 ≤ cols → exec (.plazaBankFault b (.column i)) s
        = .next (bankLost s b (List.range' (256 * b + 16 * (i % 16)) 16)))
      ∧ exec (.plazaBankFault b .bank) s = .next (bankLost s b []))
    ∧ (∀ b k, bankState s.dev b = 1 ∨ bankState s.dev b = 2 ∨ 64 ≤ b → exec (.plazaBankFault b k) s = .next (after s s.dev))
    ∧ (∀ b, b < 64 → bankState s.dev b = 1 → (∀ e ∈ s.dev.slices, e.1 / 256 = b → e.2 = .fenced) →
      let d := bankSet b 2 (regSetFld .pzSlices 0 14 0 (pzSlices s.dev - (256 - regFld s.dev .bkFenced b 8 0)) s.dev)
      exec (.bankRetired b) s = .next (after s (qshortCheck (regSetFld .pzStat 0 2 0 (regFld d .pzStat 0 2 0 + 1) d))))
    ∧ (∀ x y a, sliceGet s.dev x = .scratch a → bankState s.dev (x / 256) = 1 → y / 256 ≠ x / 256 → y < Config.plazaSlices →
        bankState s.dev (y / 256) = 0 → sliceGet s.dev y = .free → s.dev.fenceWait = [] → refilling s.dev (4096 * x) 4096 = [] →
        (∀ z ∈ s.dev.refills, z.reader ≠ .copy x) → x ∈ scratchOf s.dev a →
      ∃ t, exec (.scratchSliceCopy x y) s = .next t
        ∧ sliceGet t.dev x = .free ∧ sliceGet t.dev y = .scratch a
        ∧ scratchOf t.dev a = (scratchOf s.dev a).map (fun z => if z = x then y else z)
        ∧ ∀ i, i < 4096 → memGet t.dev.plaza (4096 * y + i) = memGet s.dev.plaza (4096 * x + i))
    ∧ (∀ c r, s.dev.fatal = false → s.dev.resv.find? (fun q => q.cls = c) = some r →
      let grant := pzGrant r.sub c r.n r.ends
        { s.dev with resv := s.dev.resv.filter (fun q => q.id ≠ r.id) }
      let out := fun (d : Dev) => answers (swept s (fenceSweep d))
      ((∃ k, k < c ∧ pzNext k s.dev ≠ none) → exec (.pzReservationGrant c) s = out s.dev)
      ∧ ((∀ k, k < c → pzNext k s.dev = none) →
        (grant = none → exec (.pzReservationGrant c) s = out s.dev)
        ∧ (∀ l d, grant = some (l, d) →
          (((progOf s.dev r.sub).bind (·.own)).isSome = true →
            exec (.pzReservationGrant c) s = out (callEv r.sub 4 3 (pzPages r.sub l d).1 (pzPages r.sub l d).2))
          ∧ (((progOf s.dev r.sub).bind (·.own)).isSome = false → exec (.pzReservationGrant c) s = out d))))
    ∧ (∀ n c k ends l d, pzGrant n c k ends s.dev = some (l, d) → l.length = k
        ∧ pzHeld s.dev c + k ≤ regFld s.dev .pzQuota c 30 16
        ∧ ∀ x ∈ l, sliceGet s.dev x = .free ∧ sliceGet d x = .stream c n .hand
            ∧ (bankState s.dev (x / 256) = 0 ∨ bankState s.dev (x / 256) = 3))

/-- R16, R17, R236 to R238, R247: a flit passes when its CRC-16 fits, and one with an inverted payload bit does not; a flit's replays
are counted, Corrected, and fail their port at the limit, and a hop keeps its last 32 flits; the receiver
takes in what passes, with the flits replayed behind it; a failed port's block moves to port 38, else 39, else the fault is Fatal; the
bursts of a failed lane group go on by another; the starvation watch. The model's choices: the fault of an idle spare port and a
repeated one (log entry 89), that of ML5 standing by (log entry 91). -/
def Sys2Proof.Machine.BoulevardFaults : Prop :=
  (∀ (f : Flit) (i : Nat), flitGood f = true → f.payload.length = 128 → i < 1024 →
    flitGood { f with payload := f.payload.modify (i / 8) (fun b => b ^^^ (1#8 <<< (i % 8))) } = false)
  ∧ ∀ (s : State), Running s →
    (∀ p out sent tries, p < 40 →
      let n := flitFails tries
      let row := exec (.boulevardFlitError ⟨p, out⟩ ⟨sent, tries⟩) s
      let d0 := hopSend ⟨p, out⟩ sent s.dev
      let d := pageEvent 2 4 ((List.range n).foldl (fun d _ => deviceFault 0 4 p (dbEvent 8 (regBump .rplCnt p d))) d0)
      let kept := hopGet s.dev ⟨p, out⟩ ++ sent
      let taken := fun (d : Dev) => match tries.drop n with
        | [] => d
        | g :: _ => hopTake ⟨p, out⟩ (g :: (hopReplay d ⟨p, out⟩ sent.length).drop 1) d
      hopGet d0 ⟨p, out⟩ = kept.drop (kept.length - 32)
      ∧ (n = 0 → row = .next (after s (taken d0)))
      ∧ (0 < n → n < max 1 (regFld d .rplLim 0 3 0) → row = .next (after s (taken d)))
      ∧ (0 < n → max 1 (regFld d .rplLim 0 3 0) ≤ n → row = .next (after s (boulevardFail p d))))
    ∧ (∀ p, p < 40 → p ∈ s.dev.blvBad → exec (.boulevardPortFault p) s = .next (after s (injectReal 4 p s.dev)))
    ∧ (∀ p, p < 40 → p ∉ s.dev.blvBad →
      let u38 := regFld s.dev .blvSteer 0 15 15 = 1
      let u39 := regFld s.dev .blvSteer 0 31 31 = 1
      let free38 := ¬ u38 ∧ 38 ∉ s.dev.blvBad ∧ p ≠ 38
      let free39 := ¬ u39 ∧ 39 ∉ s.dev.blvBad ∧ p ≠ 39
      let d := { s.dev with blvBad := s.dev.blvBad ++ [p] }
      let src := if p = 38 then regFld s.dev .blvSteer 0 13 8 else if p = 39 then regFld s.dev .blvSteer 0 29 24 else p
      (p = 38 ∧ ¬ u38 ∨ p = 39 ∧ ¬ u39 → exec (.boulevardPortFault p) s = .next (after s (deviceFault 2 4 p d)))
      ∧ (p < 38 ∨ p = 38 ∧ u38 ∨ p = 39 ∧ u39 →
        (free38 → exec (.boulevardPortFault p) s = .next (after s (deviceFault 1 4 p (repairUse 5
          (regSetFld .blvSteer 0 15 15 1 (regSetFld .blvSteer 0 13 8 src d))))))
        ∧ (¬ free38 → free39 → exec (.boulevardPortFault p) s = .next (after s (deviceFault 1 4 p (repairUse 5
          (regSetFld .blvSteer 0 31 31 1 (regSetFld .blvSteer 0 29 24 src d))))))
        ∧ (¬ free38 → ¬ free39 → exec (.boulevardPortFault p) s = .next (after s (deviceFault 4 4 p d)))))
    ∧ (∀ g, g < 6 → g ∉ s.dev.laneBad →
      let d := { s.dev with laneBad := s.dev.laneBad ++ [g] }
      let left := s.dev.lanes.filter (· ≠ g)
      (g ∈ s.dev.lanes → 5 ∉ s.dev.lanes → 5 ∉ s.dev.laneBad → exec (.moverLaneGroupFault g) s
        = .next (after s (deviceFault 1 5 g (repairUse 6 (laneReplay g (left ++ [5]) { d with lanes := left ++ [5] })))))
      ∧ (g ∈ s.dev.lanes → 5 ∈ s.dev.lanes ∨ 5 ∈ s.dev.laneBad → exec (.moverLaneGroupFault g) s
        = .next (after s (deviceFault (if left = [] then 4 else 2) 5 g (laneReplay g left { d with lanes := left }))))
      ∧ (g ∉ s.dev.lanes → exec (.moverLaneGroupFault g) s = .next (after s (deviceFault 2 5 g d))))
    ∧ (∀ g, g < 6 → g ∈ s.dev.laneBad → exec (.moverLaneGroupFault g) s = .next (after s (injectReal 5 g s.dev)))
    ∧ (∀ (o : Bool) i c src, c < 4 → i < (if o then 40 else 64) →
      let r := if o then 64 + i else i
      let x := rbtGet s.dev r
      let thr := regFld s.dev (if o then .blvWatchThr else .plzWatchThr) (4 * i + c) 31 0
      let due := fun (q : RReq) => decide (q.cls = c) && !q.counted && decide (thr ≠ 0) && decide (thr ≤ q.age)
        && decide (q.src = src)
      (x.reqs.any due = false → exec (.watchThreshold o i c src) s = .next (after s s.dev))
      ∧ (x.reqs.any due = true → exec (.watchThreshold o i c src) s = .next (after s
          (pageEvent (if o then 2 else 0x80 + i) (if o then c else 4 + c) (rbtSet r
            { x with reqs := x.reqs.map (fun q => if due q then { q with counted := true } else q) }
            (regBump (if o then .blvWatchOvr else .plzWatchOvr) (4 * i + c) s.dev))))))

/-- R239 to R244, R247: a new request takes the lowest rank; the lowest class wins and in it the highest rank; a grant
moves a unit in its cycle; a decision for class 0 preempts a holder of class 1 to 3 where PRE_EN says so, and the preempted
request restarts at the highest rank; a decision whose request has gone is a null grant, which still stops a holder it preempts; a change
of class is first seen by the second decision behind it (R244), and the requests that wait grow older each cycle. -/
def Sys2Proof.Machine.RoundaboutCycles : Prop :=
  (∀ (l : List RReq) q, rbtBest l = some q → ∃ a b, l = a ++ q :: b ∧ (∀ y ∈ a, q.cls < y.cls) ∧ ∀ y ∈ b, q.cls ≤ y.cls)
  ∧ ∀ (s : State) (o : Bool) (i : Nat), Running s → i < (if o then 40 else 64) →
    let r := if o then 64 + i else i
    let x := rbtGet s.dev r
    let cap := if o then 32 else 64
    let older := fun (l : List RReq) => l.map (fun q => { q with age := q.age + 1 })
    let seen := fun (l : List RReq) (d : Dev) => watchMax r (older l) d
    let cycle := exec (.roundaboutDecision o i [] []) s
    (∀ c new q, x.late = [(c, new)] → x.decision = none → x.holder = none → x.reqs = [q] → q.chan = some c → q.cls ≠ new →
      let z := { q with cls := new }
      cycle = .next (after s (rbtSet r
        { x with decision := some z, preempt := false, late := x.chg, chg := [], reqs := older [z] } (seen [z] s.dev))))
    ∧ (x.late = [] →
      let y : Rbt := { x with late := x.chg, chg := [] }
      (∀ n t k m, x.decision = none → x.holder = none → 0 < k → trafficSource r n t = some m →
          (∀ y ∈ x.reqs, ¬ (y.src = m ∧ y.cls = trafficCls t)) →
        exec (.roundaboutDecision o i [(n, t, k)] []) s = .next (after s (rbtSet r
          { y with decision := rbtBest x.reqs, preempt := false
                   reqs := older x.reqs ++ [⟨m, trafficCls t, min cap k, none, 0, false⟩] } (seen x.reqs s.dev))))
      ∧ (∀ n c k, x.decision = none → x.holder = none → 0 < k → (∃ g ∈ s.dev.lanes, groupPort s.dev g = n) →
        let cls := bits (chGet s.dev c).cfg 28 27
        (∀ y ∈ x.reqs, ¬ (y.src = n ∧ y.cls = cls)) →
        exec (.roundaboutDecision o i [] [(n, c, k)]) s = .next (after s (rbtSet r
          { y with decision := rbtBest x.reqs, preempt := false
                   reqs := older x.reqs ++ [⟨n, cls, min cap k, some c, 0, false⟩] } (seen x.reqs s.dev))))
      ∧ (∀ p q, x.decision = some p → x.preempt = false → x.holder = none → 1 < q.units → preEn s.dev r = false →
          x.reqs.find? (fun z => decide (p.src = z.src) && decide (p.cls = z.cls)) = some q →
        let rest := x.reqs.filter (fun z => z ≠ q)
        cycle = .next (after s (rbtSet r
          { y with decision := none, preempt := false, holder := some { q with units := q.units - 1 }, moved := 1
                   reqs := older rest } (seen rest s.dev))))
      ∧ (∀ p, x.decision = some p → (∀ z ∈ x.reqs, ¬ (p.src = z.src ∧ p.cls = z.cls)) →
        (x.holder = none → x.preempt = false → cycle = .next (after s (rbtSet r
          { y with decision := rbtBest x.reqs, preempt := false, reqs := older x.reqs } (seen x.reqs (dbEvent 5 s.dev)))))
        ∧ (∀ h, x.holder = some h → x.preempt = true →
          let back := { h with units := h.units + x.moved } :: x.reqs
          cycle = .next (after s (rbtSet r
            { y with decision := rbtBest back, preempt := false, holder := none, moved := 0, reqs := older back }
            (seen back (dbEvent 5 s.dev))))))
      ∧ (∀ p q h, x.decision = some p → x.preempt = true → x.holder = some h → q.cls = 0 → 1 < q.units →
          x.reqs.find? (fun z => decide (p.src = z.src) && decide (p.cls = z.cls)) = some q →
        let rest := { h with units := h.units + x.moved } :: x.reqs.filter (fun z => z ≠ q)
        cycle = .next (after s (rbtSet r
          { y with decision := none, preempt := false, holder := some { q with units := q.units - 1 }, moved := 1
                   reqs := older rest } (seen rest (dbEvent 6 (traceEvent 4 none r h.cls s.dev))))))
      ∧ (∀ h, x.decision = none → x.holder = some h →
        (h.units ≤ 1 → cycle = .next (after s (rbtSet r
          { y with decision := rbtBest x.reqs, preempt := false, holder := none, moved := 0, reqs := older x.reqs } (seen x.reqs s.dev))))
        ∧ (1 < h.units → preEn s.dev r = false → cycle = .next (after s (rbtSet r
          { y with preempt := false, holder := some { h with units := h.units - 1 }, moved := x.moved + 1, reqs := older x.reqs }
          (seen x.reqs s.dev))))
        ∧ (∀ q, 1 < h.units → preEn s.dev r = true → h.cls ≠ 0 → rbtBest x.reqs = some q → q.cls = 0 →
          cycle = .next (after s (rbtSet r
            { y with decision := some q, preempt := true, holder := some { h with units := h.units - 1 }, moved := x.moved + 1
                     reqs := older x.reqs } (seen x.reqs s.dev))))))
    ∧ (∀ c, (rbtGet (rbtDrop c s.dev) r).reqs = x.reqs.filter (fun q => q.chan ≠ some c))

/-- R16, R17, R237 to R239, R241 to R244, R247: replays and port faults, lane groups, and the arbitration of a cycle.
-/
def Obligations.BoulevardAndRoundabout : Prop :=
  Sys2Proof.Machine.BoulevardFaults ∧ Sys2Proof.Machine.RoundaboutCycles

open Sys2Proof Sys2Proof.Machine

/-! ### Signpost -/

/-- R258 to R261: a sample moves each average by ((x << 16) - a) >> ALPHA, the shift arithmetic; a latency without an event
leaves its average; the operations and bound subchannels of a district and the use of a bank are the samples Signpost takes
itself, and queue lengths and loads are scaled as R259 says. -/
def Sys2Proof.Machine.SignpostSamples : Prop :=
  ∀ (s : State) (k i : Nat) (lat : Option Nat) (q : SampleSum) (load : SampleLoad), Running s →
    (k = 0 ∧ i < 8) ∨ (k = 1 ∧ i < 64) ∨ (k = 2 ∧ i < 2) ∨ (k = 3 ∧ i < 32) →
    let alpha := regFld s.dev .sgW k 3 0
    let moved := fun (a : Word) (x : Nat) => BitVec.ofInt 32 (a.toNat + ((((min x 65535) <<< 16 : Nat) : Int) - a.toNat) >>> alpha)
    let xq := if k = 0 then (if cpsIn s.dev i = 0 then 65535 else opsIn s.dev i * 65535 / (256 * cpsIn s.dev i))
      else q.sum * (if k = 1 then 256 else 64) / max 1 q.n
    let xl := if k = 0 then 2 * boundIn s.dev i else if k = 1 then 256 * bankUsed s.dev i else load.bytes * 65535 / max 1 load.cap
    let a := avgGet s.dev k i
    let b : Avg := ⟨lat.elim a.lat (moved a.lat), moved a.q xq, moved a.load xl⟩
    let d := { s.dev with sgAvg := tset s.dev.sgAvg (sgKey k i) b ⟨0, 0, 0⟩ }
    exec (.signpostSample k i lat q load) s = .next (after s d)

/-- R263, R264, R266, R276, R281: a swap exchanges the homes of two subchannels and no other, counts each and the whole, and
is logged; its partner is homed in the other district, IDLE with no function queued, unowned and unbound, or for a pin, where there is none,
bound and unpinned; without a partner nothing moves. REBALANCE_PERIOD examines the bound, unpinned subchannels from the cursor on, and moves
each IDLE one whose home scores more than H above the best district, up to MIG_MAX of them; PIN_MOVE moves one whose pin waits. Both wait
while the log's deep FIFO is full. -/
def Obligations.Migrations : Prop :=
  (∀ (d : Dev) (n m r x : Nat), n < Config.subchannels → m < Config.subchannels → n ≠ m → (subGet d n).home ≠ (subGet d m).home →
      (subGet d n).home < 8 → (subGet d m).home < 8 → r < 256 → x < 2 ^ 32 →
    let e := swapHomes n m r x d
    (subGet e n).home = (subGet d m).home ∧ (subGet e m).home = (subGet d n).home
      ∧ (subGet e n).migCnt = min 65535 ((subGet d n).migCnt + 1) ∧ (subGet e m).migCnt = min 65535 ((subGet d m).migCnt + 1)
      ∧ regGet e .sgMigcnt 0 = regGet (regBump .sgMigcnt 0 d) .sgMigcnt 0
      ∧ (∀ k, k ≠ n → k ≠ m → subGet e k = subGet d k)
      ∧ (∃ w, e.sgLog = d.sgLog ++ [w] ∧ bits w 15 8 = 1 ∧ bits w 23 16 = r ∧ bits w 63 32 = x ∧ bits w 127 96 = n
          ∧ bits w 179 160 = m ∧ bits w 138 136 = (subGet d n).home ∧ bits w 130 128 = (subGet d m).home)
      ∧ e.plaza = d.plaza ∧ e.srings = d.srings ∧ e.crings = d.crings ∧ e.cps = d.cps)
  ∧ (∀ (d : Dev) (n e : Nat), (d.subs.map (·.1)).Nodup → (∀ x ∈ d.subs, x.1 < Config.subchannels) → e < 8 →
      let ok := fun (m : Nat) => m < Config.subchannels ∧ m ≠ n ∧ movable d m = true ∧ (subGet d m).home = e
      let loose := fun (m : Nat) => (subGet d m).ownFn = 0x7F ∧ (subGet d m).hpack = 0xFF
      let bound := fun (m : Nat) => (subGet d m).pinned = false ∧ (subGet d m).hpack ≠ 0xFF
      (∀ m, freePartner d e n = some m → ok m ∧ loose m)
      ∧ (freePartner d e n = none → ∀ m, ok m → ¬ loose m)
      ∧ (∀ m, freePartner d e n = some m → pinPartner d e n = some m)
      ∧ (∀ m, freePartner d e n = none → pinPartner d e n = some m → ok m ∧ bound m)
      ∧ (pinPartner d e n = none → ∀ m, ok m → ¬ loose m ∧ ¬ bound m))
  ∧ (∀ (d : Dev) (t : List Nat) (k n e : Nat), bestOf d 0 (districts d) = some e →
      let x := subGet d n
      let diff := score d 0 x.home - score d 0 e
      let past := fun (d : Dev) => { d with sgCursor := (n + 1) % Config.subchannels }
      let off := e ≠ x.home ∧ ((regGet d .sgH 0).toNat < diff ∨ cpsIn d x.home = 0)
      rebalance [] k d = d ∧ rebalance t 0 d = d
      ∧ (movable d n = false → rebalance (n :: t) (k + 1) d = rebalance t (k + 1) (past d))
      ∧ (movable d n = true → ¬ off →
        rebalance (n :: t) (k + 1) d = rebalance t (k + 1) (past { d with sgLast := tset d.sgLast 0 x.home 63 }))
      ∧ (movable d n = true → off → freePartner d e n = none → rebalance (n :: t) (k + 1) d = rebalance t (k + 1) (past d))
      ∧ (∀ m, movable d n = true → off → freePartner d e n = some m → m ≠ n → (subGet d m).home = e →
        rebalance (n :: t) (k + 1) d = rebalance t k (past (swapHomes n m 1 diff { d with sgLast := tset d.sgLast 0 e 63 }))))
  ∧ (∀ (d : Dev) (n : Nat), n ∈ rebalanceList d ↔ ∃ x, (n, x) ∈ d.subs ∧ x.hpack ≠ 0xFF ∧ x.pinned = false)
  ∧ ∀ (s : State), Engine s →
    (sgWaits s.dev = true → ∀ n, exec (.pinMove n) s = .next (after s s.dev) ∧ exec .rebalancePeriod s = .next (after s s.dev))
    ∧ (sgWaits s.dev = false →
      (∀ n e, (subGet s.dev n).mpend = some e →
        ((subGet s.dev n).home = e → exec (.pinMove n) s = .next (after s (subSet n { subGet s.dev n with mpend := none } s.dev)))
        ∧ ((subGet s.dev n).home ≠ e → movable s.dev n = true → cpsIn s.dev e ≠ 0 →
          (pinPartner s.dev e n = none → exec (.pinMove n) s = .next (after s s.dev))
          ∧ (∀ m, pinPartner s.dev e n = some m → exec (.pinMove n) s
            = .next (after s (swapHomes n m 2 0 (subSet n { subGet s.dev n with mpend := none } s.dev)))))
        ∧ ((subGet s.dev n).home ≠ e → movable s.dev n = false ∨ cpsIn s.dev e = 0 → exec (.pinMove n) s = .next (after s s.dev)))
      ∧ (∀ n, (subGet s.dev n).mpend = none → exec (.pinMove n) s = .next (after s s.dev))
      ∧ (let d := evacuateSweep s.dev
         (regFld d .sgRebal 0 15 0 = 0 ∨ regFld d .sgCtl 0 31 31 = 1 → exec .rebalancePeriod s = .next (after s d))
         ∧ (regFld d .sgRebal 0 15 0 ≠ 0 → regFld d .sgCtl 0 31 31 ≠ 1 →
          exec .rebalancePeriod s = .next (after s (rebalance (rebalanceList d) (regFld d .sgRebal 0 31 16) d))))
      ∧ ((∀ x ∈ s.dev.subs, settledIn x.2 = true → cpsIn s.dev x.2.home ≠ 0) → evacuateSweep s.dev = s.dev))

/-- R249, R250, R255, R276, R277, R280 to R282: the writes of FF_CFG, FF_HWM, SG_PIN_CTL, SG_EXCL, SG_EXCL_ALL, SG_REC_SEL
and SG_LOG_RD. -/
def Sys2Proof.Machine.SignpostRegisters : Prop :=
  ∀ (s : State) (o : Origin) (v : Word) (w : DWord),
    (Passes s o 5 0x044 [4, 3, 1] →
      let n := selOf s.dev o .ffSel
      let m := bits v 4 0
      let pf := n < 4096 ∧ ∃ f, ownOf (crGet s.dev n).own = some f ∧ o = .hostPf f.port
      let room := middleCap m ≤ poolFree s.dev + middleCap (regFld s.dev .ffCfg n 4 0)
      (originClass o ≠ 1 → ¬ pf → exec (.ffCfgWrite o v) s = .next (deniedWrite s o 5 0x044 4 (v.zeroExtend 64)))
      ∧ (originClass o = 1 ∨ pf →
        ((m ≠ 0 ∧ ¬ (4 ≤ m ∧ m ≤ 20)) ∨ (fifoParts s.dev n).1 ≠ 0 →
          exec (.ffCfgWrite o v) s = .next (ignoredWrite s o 5 0x044 4 (v.zeroExtend 64) id))
        ∧ ((m = 0 ∨ (4 ≤ m ∧ m ≤ 20)) → (fifoParts s.dev n).1 = 0 → ¬ room →
          exec (.ffCfgWrite o v) s = .next (ignoredWrite s o 5 0x044 4 (v.zeroExtend 64)
            (fun d => pageEvent 5 0 (regSetFld .ffStat 0 31 31 1 d))))
        ∧ ((m = 0 ∨ (4 ≤ m ∧ m ≤ 20)) → (fifoParts s.dev n).1 = 0 → room →
          exec (.ffCfgWrite o v) s = .next (wrote s o 5 0x044 4 (v.zeroExtend 64)
            (regSet .ffCfg n (merged s o 5 0x044 (v.zeroExtend 64) 0x1F))))))
    ∧ (Passes s o 5 0x054 [4, 3, 1] → exec (.ffHwmWrite o v) s = .next (wrote s o 5 0x054 4 (v.zeroExtend 64)
        (regSet .ffHwm (selOf s.dev o .ffSel) (BitVec.ofNat 64 (fifoParts s.dev (selOf s.dev o .ffSel)).1))))
    ∧ (Passes s o 3 0x804 [4, 3, 1] →
      let n := selOf (judged o 3 0x804 s.dev) o .sgPinSub
      let z := merged s o 3 0x804 (v.zeroExtend 64) 0x80000F03
      let put := regSet .sgPinCtl 0 (z &&& ~~~0x80000000#64)
      (bit v 31 = false → exec (.sgPinApply o v) s = .next (wrote s o 3 0x804 4 (v.zeroExtend 64) put))
      ∧ (bit v 31 = true → (∀ p, o = .hostPf p → ∃ f, subOwner (subGet s.dev n) = some f ∧ f.port = p) → n < Config.subchannels →
        exec (.sgPinApply o v) s = .next (wrote s o 3 0x804 4 (v.zeroExtend 64) (fun d =>
          let e := bits v 10 8
          let x := subGet d n
          sgLogPut 2 2 (z.toNat % 2 ^ 32) n 0 (subSet n { x with
            pinned := bit v 11, pbrk := false, mpend := if bit v 11 = true ∧ x.home ≠ e then some e else none
            portPin := if bit v 1 then some (bits v 0 0) else none } (put d)))))
      ∧ (∀ p, bit v 31 = true → o = .hostPf p → (∀ f, subOwner (subGet s.dev n) = some f → f.port ≠ p) →
        exec (.sgPinApply o v) s = .next (deniedWrite s o 3 0x804 4 (v.zeroExtend 64))))
    ∧ (Passes s o 3 0x810 [4, 3, 1] →
      let f := selFn (judged o 3 0x810 s.dev) o .sgFnSel
      let may := originClass o = 4 ∨ originClass o = 1 ∨ o = .hostPf f.port
      let keeps := ∃ b, b < 64 ∧ (bankState s.dev b = 0 ∨ bankState s.dev b = 3) ∧ bit w b = false ∧ bit (regGet s.dev .sgExclAll 0) b = false
      (¬ may → exec (.sgExclWrite o false w) s = .next (deniedWrite s o 3 0x810 8 w))
      ∧ (may → ¬ keeps → exec (.sgExclWrite o false w) s = .next (ignoredWrite s o 3 0x810 8 w id))
      ∧ (may → keeps → exec (.sgExclWrite o false w) s = .next (wrote s o 3 0x810 8 w (fun d =>
          exclRestore d (sgLogPut 3 4 w.toNat (fnCode f) 0 (regSet .sgExcl (fnCode f) w d))))))
    ∧ (Passes s o 3 0x818 [4, 3, 1] →
      let keeps := ∀ f : FnId, f.port < 2 → f.fn ≤ 64 → ∃ b, b < 64 ∧ (bankState s.dev b = 0 ∨ bankState s.dev b = 3)
        ∧ bit (regGet s.dev .sgExcl (fnCode f)) b = false ∧ bit w b = false
      (¬ keeps → exec (.sgExclWrite o true w) s = .next (ignoredWrite s o 3 0x818 8 w id))
      ∧ (keeps → exec (.sgExclWrite o true w) s = .next (wrote s o 3 0x818 8 w (fun d =>
          exclRestore d (sgLogPut 3 4 w.toNat 0xFFFFFFFF 0 (regSet .sgExclAll 0 w d))))))
    ∧ (Selects s o 3 0x048 .sgn → exec (.sgRecSelWrite o v) s = .next (selected s o 3 .sgRecSel
        (merged s o 3 0x048 (v.zeroExtend 64) 0xFFFFF) (sgSnapshot o (bits v 19 0))))
    ∧ (Selects s o 3 0x088 .sgn → exec (.sgLogRdWrite o w) s = .next (selected s o 3 .sgLogRd w (fun d =>
        let found := if s.dev.sgLog.length ≤ w.toNat + 1048576 then s.dev.sgLog[w.toNat]? else none
        regSetFld .sgStat (1000 + originKey o) 28 28 (if found = none then 1 else 0)
          (loadWords o .sgLogData 8 (found.getD 0).toNat d))))

/-- R249, R250, R255, R258 to R261, R276, R277, R280 to R282: a sample of the averages, and the writes of Signpost and
deep-FIFO registers. -/
def Obligations.SignpostRows : Prop :=
  Sys2Proof.Machine.SignpostSamples ∧ Sys2Proof.Machine.SignpostRegisters

open Sys2Proof Sys2Proof.Machine

/-! ### Junction -/

/-- R366, R367, R369, R383, R387: fires, levels, latches and messages: an edge source becomes pending or coalesces, a level
source follows its input, a latch stays set with no clock running, and what names a source it may not is counted. -/
def Sys2Proof.Machine.JunctionInputs : Prop :=
  ∀ (s : State) (n : Nat),
    let x := srcGet s.dev n
    let fired := if x.pend = true then regBump .jcCoal 0 s.dev else srcSet n { x with pend := true } s.dev
    let bad := after s (pageEvent 4 2 (regBump .jcBadw 0 s.dev))
    (srcKind n = .privileged → exec (.privLatchSet n) s = .next (after s (srcSet n { x with pend := true }
        { s.dev with latches := s.dev.latches ||| (1#18 <<< (n - 0x3F80)) })))
    ∧ (Running s →
      (srcKind n = .edge → exec (.junctionSourceFire n) s = .next (after s fired))
      ∧ (srcKind n ≠ .edge → exec (.junctionSourceFire n) s = .next (after s s.dev))
      ∧ (∀ l, srcKind n = .level →
        (x.level = l → exec (.levelSourceChange n l) s = .next (after s s.dev))
        ∧ (x.level = false → l = true →
          exec (.levelSourceChange n l) s = .next (after s (srcSet n { x with level := true, pend := true } s.dev)))
        ∧ (x.level = true → l = false → x.act = true → exec (.levelSourceChange n l) s
          = .next (after s (srcSet n { x with level := false, pend := false, orph := false } s.dev)))
        ∧ (x.level = true → l = false → x.act = false → exec (.levelSourceChange n l) s = .next (after s
            (dropPres (fun p => decide (p.src = n)) (srcSet n { x with level := false, pend := false, orph := false } s.dev)))))
      ∧ (∀ p (v : Word), p < 32 →
        (bits v 31 12 ≠ 0 → exec (.downstreamMsi p v) s = .next (after s (pageEvent 4 3 (regBump .jcBadmsg 0 s.dev))))
        ∧ (v.toNat = n → n < 0x1000 → exec (.downstreamMsi p v) s = .next (after s fired)))
      ∧ (∀ i (v : Word), bits v 13 0 = n →
        ((0x3000 ≤ n ∧ n ≤ 0x3DFF) ∨ (0x2200 ≤ n ∧ n ≤ 0x243F ∧ (n % 8 = 2 ∨ n % 8 = 3)) →
          exec (.setSrc i v) s = .next (after s fired))
        ∧ (¬ ((0x3000 ≤ n ∧ n ≤ 0x3DFF) ∨ (0x2200 ≤ n ∧ n ≤ 0x243F ∧ (n % 8 = 2 ∨ n % 8 = 3))) →
          exec (.setSrc i v) s = .next bad)))

/-- R366, R373 to R376, R378, R381, R382, R384, R386, R388: a decision presents a candidate to the CP chosen, and wakes it; the next cycle
commits it, or cancels it and the CP's next claim counts as spurious; a claim hands over a committed presentation, makes its source
active and restarts the hold-off, or moves a queue's oldest item into the CP's hand-off FIFO, also after a Fatal fault, where nothing
follows; EOI ends what its CP holds; a hold-off ends at its time. -/
def Obligations.JunctionCore : Prop :=
  ∀ (s : State), Running s →
    (∀ n i, s.dev.pres = [] → (∀ f, f = true ∨ f = false → (srcNumbers s.dev).eraseDups.filter (candidate s.dev f)
          = if f = (srcGet s.dev n).fast then [n] else []) → chooseCp s.dev n = some i →
      let f := (srcGet s.dev n).fast
      exec .junctionPresentation s = .next (after s (orphanSweep (wakeCp i (srcSet n { srcGet s.dev n with lastCp := some i } { s.dev with
        pres := [⟨n, i, f, false⟩], lastGrp := lset s.dev.lastGrp f.toNat (n / 64)
        lastSrc := tset s.dev.lastSrc (256 * f.toNat + n / 64) n 16383, lastCp := lset s.dev.lastCp f.toNat (cpOrder s.dev i) })))))
    ∧ (∀ p d, s.dev.pres = [p] → p.committed = false →
      (d = if commits s.dev p = true
        then { s.dev with pres := [{ p with committed := true }] }
        else dropPres (fun q => decide (q = p)) s.dev) → (∀ f n, candidate d f n = false) →
      exec .junctionPresentation s = .next (after s (orphanSweep d)))
    ∧ (∀ i (v : Word) n, bits v 13 0 = n →
      let x := srcGet s.dev n
      (n = 0x3FFF ∨ srcKind n = .queue → exec (.eoi i v) s = .next (after s s.dev))
      ∧ (n ≠ 0x3FFF → srcKind n = .reserved → exec (.eoi i v) s
        = .next (after s (pageEvent 4 2 (regBump .jcBadw 0 s.dev))))
      ∧ (n ≠ 0x3FFF → srcKind n ≠ .queue → srcKind n ≠ .reserved → x.act = true → x.holder = some i →
        exec (.eoi i v) s = .next (after s (srcSet n { x with act := false, holder := none } s.dev)))
      ∧ (n ≠ 0x3FFF → srcKind n ≠ .queue → srcKind n ≠ .reserved → x.act = false ∨ x.holder ≠ some i →
        exec (.eoi i v) s = .next (after s (pageEvent 4 1 (regBump .jcEoierr 0 s.dev)))))
    ∧ (∀ g, (grpGet s.dev g).run = false → exec (.holdoffExpiry g) s = .next (after s s.dev))
    ∧ (∀ g, (grpGet s.dev g).run = true → exec (.holdoffExpiry g) s
        = .next (after s (grpSet g { grpGet s.dev g with run := false } (advanceTo (grpGet s.dev g).until_ s.dev))))
    ∧ (∀ i (f : Bool),
      let row := if f then exec (.claimF i) s else exec (.claimN i) s
      let out := fun (d : Dev) => answers (if s.dev.fatal = true then after s d else sweptP s d)
      let follows := fun (g : Dev → Dev) (d : Dev) => if s.dev.fatal = true then d else g d
      let d0 := (s.dev.pres.filter (fun p => decide (p.cp = i) && decide (p.fast = f))).foldl (fun d p => commitPres p d) s.dev
      let taken := fun (p : Pres) => restartHoldoff (p.src / 64) (traceEvent 2 (some ((i / 9) * 16 + i % 9)) 0 p.src
        (claimServed f i { d0 with pres := d0.pres.filter (fun q => q ≠ p) }))
      ((∀ p ∈ d0.pres, ¬ (p.cp = i ∧ p.fast = f ∧ p.committed = true)) →
        let d := if (if f then (cpGet d0 i).spurF else (cpGet d0 i).spurN) = true
          then regBump .jcSpur 0 (cpSet i (if f then { cpGet d0 i with spurF := false } else { cpGet d0 i with spurN := false }) d0)
          else d0
        row = out (emit (.cpValue i 0x3FFF) (dbEvent 7 d)))
      ∧ (∀ p, d0.pres.find? (fun p => p.cp = i && decide (p.fast = f) && p.committed) = some p →
        (srcKind p.src ≠ .queue → p.src ≠ 0x3FFF →
          let d := taken p
          row = out (emit (.cpValue i (BitVec.ofNat 32 p.src)) (follows (armedSource p.src) (srcSet p.src
            { srcGet d p.src with act := true, pend := decide (srcKind p.src = .level) && (srcGet d p.src).level
                                  holder := some i, lastCp := some i, orph := false, actFast := f }
            (if srcKind p.src = .privileged then { d with latches := d.latches &&& ~~~ (1#18 <<< (p.src - 0x3F80)) } else d)))))
        ∧ (∀ w t, srcKind p.src = .queue → workQueue (taken p) (p.src - 0x2480) = w :: t →
          let d : Dev := { taken p with workq := tset (taken p).workq (p.src - 0x2480) t [] }
          let fifo := (cpGet d i).handoff ++ [w]
          row = out (emit (.cpValue i (BitVec.ofNat 32 p.src)) (follows (claimStart w i)
            (trimQueue p.src (noteHwm (4096 + i) fifo.length (cpSet i { cpGet d i with handoff := fifo } d))))))))

/-- R370 to R372, R377, R389, R392, R407: the writes of SET_PEND, CLR_PEND, SET_EN, CLR_EN, SRC_TGT, SRC_CTL and
EVT_PENDING. A write that names a source it may not is ignored and counted, here with CFGERR (the model's choice, in the
assumption log). -/
def Sys2Proof.Machine.JunctionRegisters : Prop :=
  ∀ (s : State) (o : Origin) (v : Word) (w : DWord) (page : Nat),
    let n := bits v 13 0
    let put := fun (x : Nat) => wrote s o 4 x 4 (v.zeroExtend 64)
    let bad := fun (x : Nat) => ignoredWrite s o 4 x 4 (v.zeroExtend 64) (fun d => pageEvent 4 2 (regBump .jcBadw 0 d))
    (Passes s o 4 0x070 [4, 1] →
      (srcKind n = .edge → exec (.setPend o v) s = .next (put 0x070 (srcFire n)))
      ∧ (srcKind n ≠ .edge → exec (.setPend o v) s = .next (bad 0x070)))
    ∧ (Passes s o 4 0x074 [4, 1] →
      (srcKind n = .edge → exec (.clrPend o v) s = .next (put 0x074 (srcWithdraw n)))
      ∧ (srcKind n = .privileged → exec (.clrPend o v) s = .next (put 0x074 (fun d =>
          srcWithdraw n { d with latches := d.latches &&& ~~~ (1#18 <<< (n - 0x3F80)) })))
      ∧ (srcKind n ≠ .edge → srcKind n ≠ .privileged → exec (.clrPend o v) s = .next (bad 0x074)))
    ∧ (Passes s o 4 0x078 [4, 1] →
      (srcKind n ≠ .reserved → exec (.setEn o v) s = .next (put 0x078 (fun d => srcSet n { srcGet d n with en := true } d)))
      ∧ (srcKind n = .reserved → exec (.setEn o v) s = .next (bad 0x078)))
    ∧ (Passes s o 4 0x07C [4, 1] →
      (srcKind n ≠ .reserved → srcKind n ≠ .privileged →
        exec (.clrEn o v) s = .next (put 0x07C (fun d => srcSet n { srcGet d n with en := false } d)))
      ∧ (srcKind n = .reserved ∨ srcKind n = .privileged → exec (.clrEn o v) s = .next (bad 0x07C)))
    ∧ (Passes s o 4 0x800 [1, 0] →
      let k := selOf (judged o 4 0x800 s.dev) o .srcSel
      (srcKind k ≠ .reserved → (k < 0x2200 ∨ 0x243F < k) → exec (.srcTgtWrite o w) s = .next (wrote s o 4 0x800 8 w (fun d =>
        let d := srcSet k { srcGet d k with tgt := w } d
        dropPres (fun p => decide (p.src = k) && !(srcTargetsCp d k p.cp)) d)))
      ∧ (srcKind k ≠ .reserved → 0x2200 ≤ k → k ≤ 0x243F →
        exec (.srcTgtWrite o w) s = .next (ignoredWrite s o 4 0x800 8 w id))
      ∧ (srcKind k = .reserved → exec (.srcTgtWrite o w) s
        = .next (ignoredWrite s o 4 0x800 8 w (fun d => pageEvent 4 2 (regBump .jcBadw 0 d)))))
    ∧ (Passes s o 4 0x808 [1, 0] →
      let k := selOf (judged o 4 0x808 s.dev) o .srcSel
      (srcKind k ≠ .reserved → srcKind k ≠ .privileged → (k < 0x2200 ∨ 0x243F < k) →
        exec (.srcCtlWrite o v) s = .next (put 0x808 (fun d =>
          let e := srcSet k { srcGet d k with fast := bit v 0 } d
          if (srcGet d k).fast = bit v 0 then e else dropPres (fun p => decide (p.src = k)) e)))
      ∧ (srcKind k ≠ .reserved → srcKind k = .privileged ∨ (0x2200 ≤ k ∧ k ≤ 0x243F) →
        exec (.srcCtlWrite o v) s = .next (ignoredWrite s o 4 0x808 4 (v.zeroExtend 64) id))
      ∧ (srcKind k = .reserved → exec (.srcCtlWrite o v) s
        = .next (ignoredWrite s o 4 0x808 4 (v.zeroExtend 64) (fun d => pageEvent 4 2 (regBump .jcBadw 0 d)))))
    ∧ (∀ t i, pageOf page = some (t, i) → Passes s o page 0x018 (if t = .dbg then [4, 1, 0] else [4, 1]) →
        exec (.evtPendingWrite o page v) s = .next (wroteQuietly s o page 0x018 (fun d =>
          let p := regSet .evtPending page (v.zeroExtend 64 &&& BitVec.ofNat 64 (evtMask t i)) d
          srcLevel (0x2800 + page) (decide (regGet p .evtPending page &&& regGet p .evtEnable page ≠ 0)) p)))

/-- R366, R367, R369 to R372, R377, R383, R387, R389, R392, R407: fires, levels, latches, messages, and the writes of
JCT. -/
def Obligations.JunctionRows : Prop :=
  Sys2Proof.Machine.JunctionInputs ∧ Sys2Proof.Machine.JunctionRegisters

namespace Sys2Proof.Machine

open Sys2Proof

/-- A CP that has failed, with nothing of it in progress (R431, R441). -/
def failedCp (c : Cp) (spare : Bool) : Cp := { c with slot := [], loads := [], serve := none, halted := false, role := .bist spare, run := .bist }

/-- The spare stops and runs BIST; its semaphores are poisoned (R324, R588). -/
def spareStops (i : Nat) (d : Dev) : Dev :=
  let h := semPoison i (cpSet i { cpGet d i with slot := [], loads := [], serve := none, halted := false } d)
  cpSet i { cpGet h i with role := .bist true, run := .bist } h

/-- A CP is retired: latch, repair store, Degraded, NOSPARE (R387, R462, R588). -/
def retires (i : Nat) (d : Dev) : Dev :=
  pageEvent (0x20 + i / 9) 1 (deviceFault 2 1 i (repairUse 0 (latchSet (0x3F80 + i / 9)
    (cpSet i { cpGet d i with role := .retired, run := .off } d))))

end Sys2Proof.Machine

open Sys2Proof Sys2Proof.Machine

/-! ### Faults, failover and repair -/

/-- R324, R387, R394, R395, R431, R441, R442, R460, R462, R588: an in-service CP that misses its heartbeat or reports an error is
replaced by its district's spare, which takes its logical slot and all it was doing; with no spare its slot stays absent and the other CPs
in service take up the work, from one of them on; a district left with none gives up its subchannels. A failed spare and a failed CP run
BIST, after which they are the spare or are retired. A rotation swaps the spare in once the CP is idle. -/
def Obligations.FailoverAndRotation : Prop :=
  ∀ (s : State), Running s →
    (∀ i (wdog : Bool), i < 72 →
      let row := if wdog then exec (.heartbeatTimeout i) s else exec (.cpEccError i) s
      let c := cpGet s.dev i
      let e := i / 9
      let d0 := feedIn (4168 + e) (latchSet (if wdog then 0x3F88 + e else 0x3F80 + e) s.dev)
      let go := fun (d : Dev) => if d.fatal = true then after s d else sweptP s d
      let d1 := if wdog then regBump .dsHbmiss e d0 else d0
      (wdog = true → c.halted = true → row = .next (after s s.dev))
      ∧ (c.run = .off ∨ (∃ b, c.role = .bist b) ∨ c.role = .retired → (wdog = true → c.halted = false) →
          row = .next (go s.dev))
      ∧ ((wdog = true → c.halted = false) → c.run ≠ .off → c.role = .spare → row = .next (go (spareStops i d1)))
      ∧ ((wdog = true → c.halted = false) → c.run ≠ .off → c.role = .inService →
        let d2 := pageEvent (0x20 + e) 0 (regBump .dsFailov e d1)
        let d3 := cpSet i { failedCp (cpGet d2 i) false with failedAt := some d2.devtime } d2
        let d4 := xClose (fun m => decide (m.origin = .cp i)) (semPoison i (junctionFailover i d3))
        let slot := fun (p : Nat) (d : Dev) => match lslotOf d i with
          | some k => regSetFld .cpMap e (4 * k + 3) (4 * k) p d
          | none => d
        let taken := fun (l : List Nat) (d : Dev) => takeOver i l { d with rotWait := d.rotWait.filter (fun w => w.2 / 8 ≠ i) }
        let left := fun (d : Dev) => if cpsIn d e ≠ 0 then d
          else ((d.subs.filter (fun x => decide (x.2.home = e) && settledIn x.2)).map (·.1)).foldl (fun d n => liveC (evacuate i n) d) d
        let ends := fun (d : Dev) => go (if secondFail d2 i then retires i (left d) else left d)
        (∀ j, spareOf d4 e = some j →
          let d6 := slot (j % 9) (deviceFault 1 1 i d4)
          row = .next (ends (taken [j] (cpSet j { cpGet d6 j with
            role := .inService, run := if (cpGet d6 j).run = .wait then .wait else .run } d6))))
        ∧ (spareOf d4 e = none →
          let d6 := slot 15 (deviceFault 2 1 i d4)
          ∃ k, let l := roleIn d6 e .inService
            row = .next (ends (taken (l.drop k ++ l.take k) { d6 with freeCtr := d6.freeCtr + 1 })))))
    ∧ (∀ i (pass : Bool), i < 72 →
      let c := cpGet s.dev i
      let row := exec (.spareBistComplete i pass) s
      let fit := initCalls i (cpSet i { c with role := .spare, run := .run, pc := 0, sr := 0x80000000#32 } s.dev)
      (c.role = .spare → row = .next (after s (if pass then s.dev else spareStops i s.dev)))
      ∧ (c.role = .bist false → pass = true → row = .next (after s fit))
      ∧ (c.role = .bist true → pass = true → row = .next (after s (deviceFault 1 1 i (latchSet (0x3F80 + i / 9) fit))))
      ∧ (∀ b, c.role = .bist b → pass = false → row = .next (after s (retires i (pageEvent (0x20 + i / 9) 4 s.dev))))
      ∧ (c.role = .inService ∨ c.role = .retired → row = .next (after s s.dev)))
    ∧ (∀ e, 8 ≤ e ∨ regFld s.dev .dsRotCtl e 7 0 = 0 ∨ spareOf s.dev e = none → exec (.spareRotation e) s = .next (after s s.dev))
    ∧ (∀ e, e < 8 → regFld s.dev .dsRotCtl e 7 0 ≠ 0 → exec (.spareRotation e) s = .next (after s (rotate e s.dev)))
    ∧ (∀ e j i k, e < 8 → regFld s.dev .dsRotCtl e 7 0 ≠ 0 → spareOf s.dev e = some j →
        ((∀ w ∈ s.dev.rotWait, w.1 ≠ e) ∧ rotPick s.dev e j = some i ∧ lslotOf s.dev i = some k)
          ∨ (k < 8 ∧ s.dev.rotWait.find? (fun w => w.1 = e) = some (e, 8 * i + k)) →
      let others := s.dev.rotWait.filter (fun w => w.1 ≠ e)
      (rotReady s.dev i = false → exec (.spareRotation e) s
        = .next (after s { s.dev with rotWait := others ++ [(e, 8 * i + k)] }))
      ∧ (rotReady s.dev i = true →
        let d := regSetFld .cpMap e (4 * k + 3) (4 * k) (j % 9)
          { s.dev with rotWait := others, scWait := s.dev.scWait.filter (· ≠ (0, e)) }
        let d := cpSet j { cpGet d j with role := .inService } d
        let d := cpSet i { cpGet d i with role := .spare } d
        let d := rotMove i j (xClose (fun m => decide (m.origin = .cp i)) d)
        let d := regSet .dsRotLast e d.devtime d
        exec (.spareRotation e) s = .next (after s (d.injected.foldl (fun d u => injectEnd u d) { d with injected := [] }))))
    ∧ (∀ o e (v : Word), e < 8 → Passes s o (0x20 + e) 0x800 [1, 0] →
      let z := merged s o (0x20 + e) 0x800 (v.zeroExtend 64) 0x800000FF &&& ~~~0x80000000#64
      exec (.dsRotNow o e v) s = .next (wrote s o (0x20 + e) 0x800 4 (v.zeroExtend 64) (fun d =>
        let r := rotate e (regSet .dsRotCtl e z d)
        if bit v 31 = false then regSet .dsRotCtl e z d
        else if r.rotWait.any (fun w => decide (w.1 = e)) = true then { r with scWait := r.scWait.filter (· ≠ (0, e)) ++ [(0, e)] }
        else r)))

/-- R431, R432, R440, R463, R464, R466: a context-bank fault takes a spare segment or the mirror mode, a district clock its
fallback of 1.6 GHz; R433: a second fault within 12 µs that leaves a record in neither place ends its program with CCC,
Contained; the failure of the bulk memory is Fatal; a scrub pass counts, repairs rows and loses records; an
injected fault follows the rules of a real one, and is ignored with CFGERR unless RP_POL allows it. -/
def Obligations.BankClockAndMemoryFaults : Prop :=
  ∀ (s : State), Running s →
    (∀ e (logic : Bool), e < 8 →
      let f := feedIn (4168 + e) (latchSet (0x3F80 + e) s.dev)
      let d := bankReload e f
      let used := regFld d .dsSeg e 1 0
      (Engine s → secondFault s.dev = false ∨ s.dev.mirrorWait.all (fun x => decide (x.1 ≠ e)) = true →
        (regFld s.dev .dsStat e 25 25 = 1 → exec (.contextBankFault e logic) s = .next (sweptP s (deviceFault 0 2 e s.dev)))
        ∧ (regFld s.dev .dsStat e 25 25 ≠ 1 → logic = false → used < 2 → exec (.contextBankFault e logic) s
          = .next (sweptP s (deviceFault 1 2 e (repairUse 1 (regSetFld .dsSeg e 1 0 (used + 1) d)))))
        ∧ (regFld s.dev .dsStat e 25 25 ≠ 1 → logic = true ∨ 2 ≤ used → exec (.contextBankFault e logic) s
          = .next (sweptP s (deviceFault 2 2 e (pageEvent (0x20 + e) 3 (regSetFld .dsStat e 25 25 1 d))))))
      ∧ (∀ t k n x p a w, Engine s → s.dev.faultAt = some t → s.dev.devtime.toNat < t.toNat + 12000 →
        regFld s.dev .dsStat e 25 25 ≠ 1 → s.dev.mirrorWait.filter (fun x => x.1 = e) = [(e, k)] → subAt s.dev e k = some n →
        subGet s.dev n = x → x.st = .active → progOf s.dev n = some p → p.stage = .ready → p.chain = [(a, w)] → p.run = none →
        p.grp = [] → p.own = none → progOps s.dev n = [] →
        let g := bankReload e (feedIn (4168 + e) (latchSet (0x3F80 + e) (freeNext s.dev).2))
        let h := reportFault 3 2 e [x.ownPort] (deviceFault 2 2 e (pageEvent (0x20 + e) 3 (regSetFld .dsStat e 25 25 1 g)))
        exec (.contextBankFault e true) s = .next (sweptP s (postFinal n { p with recov := true }
          ⟨csCcc, 0x03, a, BitVec.ofNat 32 (ccwCount w), false, none⟩ (some .statusPending) (detachOps n h))))
      ∧ (s.dev.mirrorWait.all (fun x => decide (x.1 ≠ e)) = true → d = f)
      ∧ (∀ k, f.mirrorWait.filter (fun x => x.1 = e) = [(e, k)] → d = retryStalled { f with
          mirrorWait := f.mirrorWait.filter (· ≠ (e, k)), mirrorOld := tdel f.mirrorOld (65536 * e + k) })
      ∧ (regFld s.dev .dsStat e 26 26 = 1 → exec (.districtClockFault e) s = .next (after s s.dev))
      ∧ (regFld s.dev .dsStat e 26 26 ≠ 1 → exec (.districtClockFault e) s = .next (after s (deviceFault 2 7 e
          (pageEvent (0x20 + e) 5 (pageEvent (0x20 + e) 2 (regSetFld .dsFreq e 15 0 1600 (regSetFld .dsStat e 26 26 1 f))))))))
    ∧ exec .bulkMemoryFailure s = .next (after s (deviceFault 4 8 0 (regSetFld .hbStat 0 31 30 3 s.dev)))
    ∧ (∀ n,
      let d := regAdd .hbCe 0 n (regBump .hbScrub 0 s.dev)
      let noted := fun (a : DWord) (d : Dev) => pageEvent 9 0 (regSet .hbUeaddr 0 a (regBump .hbUe 0 d))
      exec (.hbmScrubPass n 0 []) s = .next (after s d)
      ∧ (regFld d .rpUsed 8 15 0 < 2048 →
        let d' := repairUse 8 d
        exec (.hbmScrubPass n 1 []) s
          = .next (after s (deviceFault 0 8 0 (pageEvent 9 1 (regSetFld .hbPpr 0 15 0 (regFld d' .hbPpr 0 15 0 + 1) d')))))
      ∧ (2048 ≤ regFld d .rpUsed 8 15 0 →
        exec (.hbmScrubPass n 1 []) s = .next (after s (deviceFault 4 8 0 (regSetFld .hbStat 0 31 30 3 d))))
      ∧ (∀ a k, exec (.hbmScrubPass n 0 [.journal a k]) s = .next (after s (deviceFault 2 8 0 (noted a { d with
          journal := d.journal.map (fun r => if r.seq = k then { jblank 0xFE ⟨0, 0x7F⟩ with seq := k } else r) }))))
      ∧ (∀ a k, exec (.hbmScrubPass n 0 [.audit a k]) s = .next (after s (deviceFault 2 8 0 (noted a { d with
          audit := d.audit.map (fun w => if bits w 127 80 = k then 0 else w) }))))
      ∧ (∀ a, exec (.hbmScrubPass n 0 [.oneCopy a]) s = .next (after s (pageEvent 5 1 (regSetFld .ffStat 0 30 30 1 (noted a d))))
          ∧ (∀ e, ¬(e < 8 ∧ regFld d .dsStat e 25 25 = 1) →
            exec (.hbmScrubPass n 0 [.mirror a e]) s = .next (after s (deviceFault 0 8 0 (noted a d))))
          ∧ (∀ e, e < 8 → regFld d .dsStat e 25 25 = 1 → exec (.hbmScrubPass n 0 [.mirror a e]) s
            = .next (after s (deviceFault 4 8 0 (regSetFld .hbStat 0 31 30 3 (noted a d)))))
          ∧ exec (.hbmScrubPass n 0 [.bothCopies a]) s
            = .next (after s (deviceFault 4 8 0 (regSetFld .hbStat 0 31 30 3 (noted a d))))))
    ∧ (∀ o (v : Word), Passes s o 11 0x804 [4, 1, 0] →
      let u := bits v 27 20
      let z := merged s o 11 0x804 (v.zeroExtend 64) 0x8FFFFFFF &&& ~~~0x80000000#64
      let put := regSet .rpInj 0 z
      let w64 := v.zeroExtend 64
      (u = 0 ∨ 7 < u ∨ (bit v 31 = true ∧ regFld s.dev .rpPol 0 1 1 = 0) →
        exec (.faultInject o v) s = .next (ignoredWrite s o 11 0x804 4 w64 id))
      ∧ (u ≠ 0 → u ≤ 7 → bit v 31 = false → exec (.faultInject o v) s = .next (wrote s o 11 0x804 4 w64 put))
      ∧ (u ≠ 0 → u ≤ 7 → bit v 31 = true → regFld s.dev .rpPol 0 1 1 ≠ 0 →
          exec (.faultInject o v) s = .next (wrote s o 11 0x804 4 w64 (fun d => injectFault u (bits v 19 0) (put d)))))
    ∧ (∀ u n d, [0, 72, 8, 64, 40, 6, 128, 8][u]?.getD 0 ≤ n → injectFault u n d = d)
    ∧ (∀ n (d : Dev), n < 40 →
      let e := boulevardFail n { d with injecting := true }
      injectFault 4 n d = { e with injected := if d.blvBad.contains n then e.injected else e.injected ++ [(4, n)], injecting := false })

namespace Sys2Proof.Machine

open Sys2Proof

/-! ### What the statements about owner packs share -/

/-- CP i has taken SVC imm in an entry of an owner pack that serves subchannel n, whose command is o of program p (R314,
R333, R336). -/
def Serves (s : State) (i n imm : Nat) (p : Prog) (o : OwnCmd) (v : Serve) : Prop :=
  Running s ∧ i < 72 ∧ (cpGet s.dev i).run = .run ∧ bit (cpGet s.dev i).sr 30 = true ∧ (cpGet s.dev i).ecause = 8
    ∧ (cpGet s.dev i).eaddr.toNat = imm ∧ (cpGet s.dev i).serve = some v ∧ v.sub = n
    ∧ progOf s.dev n = some p ∧ p.own = some o

/-- The handler goes on behind its SVC with a result in g1; g2 to g4 keep their values (R314, R336). -/
def served (s : State) (i : Nat) (g1 : Word) (d : Dev) : State :=
  let c := cpGet s.dev i
  after s (cpAfter i (cpMod i (fun x => gWrite 4 (gRead 4 c) (gWrite 3 (gRead 3 c) (gWrite 2 (gRead 2 c) (gWrite 1 g1 (cpEret x))))) d))

/-- The handler's call is bad: it is handled as R318 says. -/
def badCall (s : State) (i : Nat) : State := after s (handlerFault i s.dev)

/-- An argument of the service in hand. -/
def svcArg (s : State) (i k : Nat) : Nat := (gRead k (cpGet s.dev i)).toNat

end Sys2Proof.Machine

open Sys2Proof Sys2Proof.Machine

/-! ### Services for handler packs -/

/-- R225, R294, R318, R333, R336, R337: what each service does, and the events that resume a pack: an argument outside its
range is handled as a handler fault; a reservation that must wait leaves the entry. -/
def Obligations.PackServices : Prop :=
  ∀ (s : State) (i n : Nat) (p : Prog) (o : OwnCmd) (v : Serve),
    let d := s.dev
    let a := svcArg s i
    let tok := BitVec.ofNat 32 d.nextTok
    let upd := fun (f : OwnCmd → OwnCmd) (d : Dev) => ownMod n f d
    (Serves s i n 1 p o v → o.replay = none →
      let ends := streamEnds d n
      let d1 := if tget d.bankSets n [] = [] then beginBanks n ends d else d
      let wait := after s (packLeave i { d1 with resv := d1.resv ++ [⟨d1.resvNext, 1, a 1, n, ends⟩], resvNext := d1.resvNext + 1 })
      (a 1 = 0 ∨ 64 < a 1 → exec (.pzReserve i n) s = .next (badCall s i))
      ∧ (a 1 ≠ 0 → a 1 ≤ 64 → (∃ r ∈ d.resv, r.cls = 1) ∨ pzGrant n 1 (a 1) ends d1 = none → exec (.pzReserve i n) s = .next wait)
      ∧ (∀ l e, a 1 ≠ 0 → a 1 ≤ 64 → (∀ r ∈ d.resv, r.cls ≠ 1) → pzGrant n 1 (a 1) ends d1 = some (l, e) →
          exec (.pzReserve i n) s = .next (served s i (BitVec.ofNat 32 (pzPages n l e).1) (pzPages n l e).2)))
    ∧ (Serves s i n 2 p o v →
      let pages := List.range' (a 1 / 4096) (a 2)
      let good := a 1 % 4096 = 0 ∧ a 2 ≠ 0 ∧ ∀ q ∈ pages, ∃ r ∈ o.res, r.1 = q
      (¬ good → exec (.pzRelease i n) s = .next (badCall s i))
      ∧ (good → exec (.pzRelease i n) s = .next (served s i 0 (fenceSweep (upd (fun o => { o with
            res := o.res.filter (fun r => !(pages.contains r.1)), held := o.held.filter (fun h => h.1 ≠ a 1) })
          (((o.res.filter (fun r => pages.contains r.1)).map (·.2)).foldl (fun d x => sliceSet x .free d) d))))))
    ∧ (∀ io, Serves s i n 3 p o v →
      let f := ownerOf (subGet d n)
      let b := buildSegs d f p.chain io.ida
      let ida := idaReads d f p.chain io.ida
      let touch := ida ++ (if a 1 = 0 then gatherTouch b.1 io.data else [])
      let total := segLen b.1
      let room := total = 0 ∨ ∀ q ∈ List.range' (a 2 / 4096) ((a 2 % 4096 + total + 4095) / 4096), ∃ r ∈ o.res, r.1 = q
      let d0 := (chanHold n 1 d).2
      let d1 := progSet n { p with stopAt := b.2.orElse (fun _ => p.stopAt) } (emitIda n ida { d0 with nextTok := d0.nextTok + 1 })
      let fin := fun (miss : Option Nat) (e : Dev) => served s i (BitVec.ofNat 32 d0.nextTok) (upd (fun o => { o with
        xfers := o.xfers ++ [(d0.nextTok, decide (a 1 = 1), a 2)], segs := b.1, cdc := miss.orElse (fun _ => o.cdc) }) e)
      (1 < a 1 ∨ ¬ room → exec (.xferHost i n io) s = .next (badCall s i))
      ∧ (a 1 ≤ 1 → room → hostWaits d f touch = true → exec (.xferHost i n io) s = .next (after s (hostAsk f touch d)))
      ∧ (a 1 = 0 → room → hostWaits d f touch = false → inRefill d (segBlocks d f b.1) ≠ [] →
        exec (.xferHost i n io) s = .next (after s (joinAll (inRefill d (segBlocks d f b.1)) (.engine n) d)))
      ∧ (a 1 ≤ 1 → room → hostWaits d f touch = false → (a 1 = 0 → inRefill d (segBlocks d f b.1) = []) → (chanHold n 1 d).1 = false → exec (.xferHost i n io) s = .next (after s d0))
      ∧ (a 1 = 0 → room → hostWaits d f touch = false → inRefill d (segBlocks d f b.1) = [] → (chanHold n 1 d).1 = true →
        exec (.xferHost i n io) s = .next (fin (gather d1 f b.1 io.data 0).2
          (resWrite o (a 2) (gather d1 f b.1 io.data 0).1 (emitReads n b.1 d1))))
      ∧ (a 1 = 1 → room → hostWaits d f touch = false → (chanHold n 1 d).1 = true → exec (.xferHost i n io) s = .next (fin none d1)))
    ∧ (Serves s i n 4 p o v → o.replay = none →
      let c := cpGet d i
      let d1 := cpSet i { c with serve := some { v with issued := true } } d
      let e : Op := { sub := n, jseq := p.jseq, dev := n, dport := pathNow d1 (subGet d1 n), member := 0, cls := a 1
                      idem := a 1 = 0 || (a 1 = 1 && effDefault (subGet d1 n) p), kind := .pack, from_ := 0
                      info := p.pos.toNat, cond := .notIssued, reissued := false, detached := false, cp := p.cp }
      (2 < a 1 → exec (.opIssue i n) s = .next (badCall s i))
      ∧ (a 1 ≤ 2 → slotsFree d p.cp 1 = false → exec (.opIssue i n) s
        = .next (after s (packLeave i { d1 with opWait := d.opWait ++ [(n, a 1)] })))
      ∧ (a 1 ≤ 2 → slotsFree d p.cp 1 = true → exec (.opIssue i n) s = .next (after s (cpAfter i (cpMod i
          (fun x => gWrite 4 (gRead 4 c) (gWrite 3 (gRead 3 c) (gWrite 2 0 (gWrite 1 tok (cpEret x)))))
          (upd (fun o => { o with toks := o.toks ++ [s.dev.nextTok] })
            { d1 with nextTok := d.nextTok + 1, ops := tins (tdel d.ops d.nextTok) d.nextTok e }))))))
    ∧ (∀ e, Serves s i n 5 p o v → d.ops.find? (fun x => x.1 = a 1) = some (a 1, e) →
      (a 1 ∉ o.toks ∨ a 2 = 0 ∨ 3 < a 2 → exec (.opState i) s = .next (badCall s i))
      ∧ (∀ c : OpCond, a 1 ∈ o.toks → (a 2 = 1 ∧ c = .uncertain) ∨ (a 2 = 2 ∧ c = .complete) ∨ (a 2 = 3 ∧ c = .notIssued) →
          exec (.opState i) s = .next (served s i 0 { d with ops := tins (tdel d.ops (a 1)) (a 1) { e with cond := c } })))
    ∧ (Serves s i n 6 p o v →
      (0x3FFF ≤ a 1 ∨ srcKind (a 1) = .reserved → exec (.srcArm i n) s = .next (badCall s i))
      ∧ (a 1 < 0x3FFF → srcKind (a 1) ≠ .reserved → a 2 = 0 → exec (.srcArm i n) s
        = .next (served s i 0 { d with alertSrcs := d.alertSrcs.filter (fun x => x.1 ≠ a 1) ++ [(a 1, n)] }))
      ∧ (a 1 < 0x3FFF → srcKind (a 1) ≠ .reserved → a 2 ≠ 0 → a 2 ∉ o.toks → exec (.srcArm i n) s = .next (badCall s i))
      ∧ (a 1 < 0x3FFF → srcKind (a 1) ≠ .reserved → a 2 ≠ 0 → a 2 ∈ o.toks → exec (.srcArm i n) s
        = .next (served s i 0 (upd (fun o => { o with srcs := o.srcs.filter (fun x => x.1 ≠ a 1) ++ [(a 1, a 2)] }) d))))
    ∧ (Serves s i n 7 p o v →
      (a 1 = 0 ∨ 60000 < a 1 ∨ a 2 ∉ o.toks → exec (.tmrArm i n) s = .next (badCall s i))
      ∧ (a 1 ≠ 0 → a 1 ≤ 60000 → a 2 ∈ o.toks → exec (.tmrArm i n) s = .next (served s i tok (upd (fun o => { o with
          timers := o.timers ++ [(s.dev.nextTok, a 2, s.dev.devtime + BitVec.ofNat 64 (a 1 * 1000000))] })
          { d with nextTok := d.nextTok + 1 }))))
    ∧ (∀ h pk, Serves s i n 8 p o v → d.packs.find? (fun e => e.1 = (subGet d n).hpack) = some (h, pk) →
      let declared := a 1 < 0x80 ∨ (a 1 ≤ 255 ∧ bit pk.senseDecl (a 1 - 0x80) = true)
      (¬ declared → exec (.senseSet i n) s = .next (badCall s i))
      ∧ (declared → exec (.senseSet i n) s = .next (served s i 0 (upd (fun o => { o with
          sense := some ⟨a 1, a 2, a 3 + 2 ^ 32 * a 4, 0, false, none⟩ }) d))))
    ∧ (Serves s i n 9 p o v →
      let t := a 3 + 2 ^ 32 * a 4
      let range := apRange (cpGet d i) (some o) (a 2) t
      (a 1 < 12 ∨ 15 < a 1 ∨ t % 4096 ≠ 0 ∨ range = none → exec (.apOpen i) s = .next (badCall s i))
      ∧ (∀ x left, 12 ≤ a 1 → a 1 ≤ 15 → t % 4096 = 0 → range = some (x, left) → exec (.apOpen i) s
        = .next (served s i 0 (cpMod i (fun c => { c with
            apert := lset c.apert (a 1) (setBits (setBits (setBits x 127 64 t) 58 32 (min left 0x7FFFFFF)) 31 31 1) }) d))))
    ∧ (Serves s i n 10 p o v →
      let mine := a 1 < Config.subchannels ∧ (subGet d (a 1)).hpack = (subGet d n).hpack
      (¬ mine ∨ (a 2 ≠ 0x10 ∧ a 2 ≠ 0x80) → exec (.alertPost i) s = .next (badCall s i))
      ∧ (mine → a 2 = 0x10 → exec (.alertPost i) s = .next (served s i 0 (liveA (attention (a 1)) d)))
      ∧ (mine → a 2 = 0x80 → exec (.alertPost i) s = .next (served s i 0 (liveP (loseSub 0
          (((progOps d (a 1)).filter (fun e => decide (e.2.cond = .uncertain))).map (·.1)) (a 1)) d))))
    ∧ (Running s → ∀ t off (toHost : Bool) res, ownerOfToken d (fun o => o.xfers.any (fun x => x.1 = t)) = some (n, p, o) →
        o.xfers.find? (fun x => x.1 = t) = some (t, toHost, off) →
      let f := ownerOf (subGet d n)
      let touch := if toHost then writeTouch o.segs res else []
      let held := d.refills.any (fun x => decide (x.reader = .xfer t))
      let by_ := if toHost then takeStream n o.segs d else (none, d)
      let out := if toHost then scatter (by_.1.getD 0) f res o.segs (resRead o off (segLen o.segs) by_.2) 0 by_.2 else (none, by_.2)
      (held = true → exec (.xferHostComplete t res) s = .next (after s d))
      ∧ (held = false → hostWaits d f touch = true → exec (.xferHostComplete t res) s = .next (after s (hostAsk f touch d)))
      ∧ (held = false → hostWaits d f touch = false → portWaits p by_.1 = true →
        exec (.xferHostComplete t res) s = .next (after s (portSync n p by_.2)))
      ∧ (held = false → hostWaits d f touch = false → portWaits p by_.1 = false → exec (.xferHostComplete t res) s = .next (after s (callEv n 4 3 t (upd (fun o => { o with
        xfers := o.xfers.filter (fun x => x.1 ≠ t), cdc := o.cdc.orElse (fun _ => out.1) })
        (progSet n (wrotePort p by_.1) out.2))))))
    ∧ (Running s → ∀ t u due, ownerOfToken d (fun o => o.timers.any (fun x => x.1 = t)) = some (n, p, o) →
        o.timers.find? (fun x => x.1 = t) = some (t, u, due) →
      exec (.packTimerExpiry t) s = .next (after s (callEv n 5 4 t (upd (fun o => { o with
        timers := o.timers.filter (fun x => x.1 ≠ t) }) (advanceTo due d)))))

/-! ### Page GLB -/

/-- R406, R413, R415 to R417: who may write GL_XPOL, GL_PLOCK, GL_DBGPOL and GL_FN_PERM, and what each write closes. -/
def Sys2Proof.Machine.GlobalRegisters : Prop :=
  ∀ (s : State) (o : Origin) (v : Word),
    let w := v.zeroExtend 64
    let locked := regFld s.dev .glPlock 0 0 0 = 1
    let every := [4, 3, 2, 1, 0]
    (Passes s o 0 0x048 every →
      let z := merged s o 0 0x048 w 0x1F
      ((locked → o = .elfort) → originClass o = 4 → exec (.glXpolWrite o v) s = .next (wrote s o 0 0x048 4 w (fun d =>
        xClose (fun m => !(inSet (bits v 4 0) (originClass m.origin))) (regSet .glXpol 0 z d))))
      ∧ ((locked ∧ o ≠ .elfort) ∨ originClass o ≠ 4 → exec (.glXpolWrite o v) s = .next (deniedWrite s o 0 0x048 4 w)))
    ∧ (Passes s o 0 0x050 every →
      (originClass o ≠ 4 → exec (.glPlockWrite o v) s = .next (deniedWrite s o 0 0x050 4 w))
      ∧ (originClass o = 4 → locked → bit v 0 = false → exec (.glPlockWrite o v) s = .next (ignoredWrite s o 0 0x050 4 w id))
      ∧ (originClass o = 4 → ¬ locked ∨ bit v 0 = true →
        exec (.glPlockWrite o v) s = .next (wrote s o 0 0x050 4 w (regSet .glPlock 0 (merged s o 0 0x050 w 1)))))
    ∧ (Passes s o 0 0x054 every →
      (o ≠ .elfort → exec (.glDbgpolWrite o v) s = .next (deniedWrite s o 0 0x054 4 w))
      ∧ (o = .elfort → exec (.glDbgpolWrite o v) s
        = .next (wrote s o 0 0x054 4 w (regSet .glDbgpol 0 (merged s o 0 0x054 w 3 &&& regGet s.dev .glDbgpol 0)))))
    ∧ (Passes s o 0 0x05C every →
      let f := selFn s.dev o .glFnSel
      let k := fnKey f
      let z := merged s o 0 0x05C w 3
      let may := if locked then o = .elfort else (originClass o = 4 ∨ (o = .hostPf f.port ∧ f.fn ≠ 0))
      (f.fn ≤ 64 → ¬ may → exec (.glFnPermWrite o v) s = .next (deniedWrite s o 0 0x05C 4 w))
      ∧ (64 < f.fn → may → exec (.glFnPermWrite o v) s = .next (ignoredWrite s o 0 0x05C 4 w id))
      ∧ (64 < f.fn → ¬ may → exec (.glFnPermWrite o v) s = .next (deniedWrite s o 0 0x05C 4 w))
      ∧ (f.fn ≤ 64 → may → exec (.glFnPermWrite o v) s = .next (wrote s o 0 0x05C 4 w (fun d =>
        let e := regSet .glFnPerm k z d
        if regFld d .glFnPerm k 1 1 = 1 ∧ bit v 1 = false then xClose (fun m => decide (originFn m.origin = some f)) e else e))))

/-- R418, R419: a resource is free or has one holder: what COMMIT, RELEASE and QUERY answer and do; a denied command changes
nothing but the response. -/
def Sys2Proof.Machine.SharedResources : Prop :=
  (∀ (s : State) (o : Origin) (w : DWord), Passes s o 0 0x080 [4, 3, 2, 1, 0] →
    let z := merged s o 0 0x080 w 0x3FFFFCF00FFFF
    let j := judged o 0 0x080 s.dev
    let row := if (resWriteCmd o z j).1 = 4
      then after s (writeAnswer o 1 { pgFlag 0 31 (recorded s o 0 0x080 8 w 1) with resRsp := (resWriteCmd o z j).2.resRsp })
      else wrote s o 0 0x080 8 w (fun d => (resWriteCmd o z d).2)
    exec (.commit o w) s = .next row ∧ exec (.release o w) s = .next row ∧ exec (.query o w) s = .next row)
  ∧ ∀ (o : Origin) (v : DWord) (d : Dev),
    let k := bits v 27 24
    let i := bits v 15 0
    let a := bits v 49 32
    let op := bits v 31 30
    let h := holderOf o
    let answered := fun (r : Nat) (e : Dev) => { e with resRsp := tins (tdel e.resRsp (originKey o)) (originKey o) (resRspWord e o k i r) }
    (op = 3 ∨ resIndexOk k i = false ∨ (op = 0 ∧ resArgOk k a = false) → resWriteCmd o v d = (3, answered 3 d))
    ∧ (op = 2 → resIndexOk k i = true → resWriteCmd o v d = (0, answered 0 d))
    ∧ (op = 0 → resIndexOk k i = true → resArgOk k a = true →
      (mayCommit d o k i = false → resWriteCmd o v d = (4, answered 4 d))
      ∧ (mayCommit d o k i = true → commitOf d k i = some ⟨h, a⟩ → resWriteCmd o v d = (0, answered 0 d))
      ∧ (∀ c, mayCommit d o k i = true → commitOf d k i = some c → c ≠ ⟨h, a⟩ →
          resWriteCmd o v d = (1, pageEvent 0 3 (answered 1 d)))
      ∧ (mayCommit d o k i = true → commitOf d k i = none → k = 1 ∨ k = 3 ∨ k = 4 → resWriteCmd o v d
          = (0, answered 0 { d with commits := tins (tdel d.commits (resKey k i)) (resKey k i) ⟨h, a⟩ }))
      ∧ (mayCommit d o k i = true → commitOf d k i = none → k = 2 →
        (scratchCommit i a d = none → resWriteCmd o v d = (1, pageEvent 0 3 (answered 1 d)))
        ∧ (∀ e, scratchCommit i a d = some e → resWriteCmd o v d
          = (0, answered 0 { e with commits := tins (tdel e.commits (resKey k i)) (resKey k i) ⟨h, a⟩ }))))
    ∧ (op = 1 → resIndexOk k i = true →
      (commitOf d k i = none → resWriteCmd o v d = (2, answered 2 d))
      ∧ (∀ c, commitOf d k i = some c → c.holder ≠ h → mayRelease o c.holder = false → resWriteCmd o v d = (4, answered 4 d))
      ∧ (∀ c, commitOf d k i = some c → c.holder = h ∨ mayRelease o c.holder = true →
        (k = 4 → (fifoParts d i).1 ≠ 0 → resWriteCmd o v d = (5, answered 5 d))
        ∧ (k = 4 → (fifoParts d i).1 = 0 → resWriteCmd o v d = (0, answered 0 { d with commits := tdel d.commits (resKey k i) }))
        ∧ (k = 2 → resWriteCmd o v d
          = (0, answered 0 { scratchRelease i d with commits := tdel (scratchRelease i d).commits (resKey k i) }))
        ∧ (k = 3 → resWriteCmd o v d = (0, answered 0 { chSet i chReset (chDisable i d) with
            commits := tdel (chSet i chReset (chDisable i d)).commits (resKey k i) }))))

/-- R406, R413, R415 to R419: who writes the policy registers and what that closes; COMMIT, RELEASE and QUERY. -/
def Obligations.ResourcesAndPolicy : Prop :=
  Sys2Proof.Machine.GlobalRegisters ∧ Sys2Proof.Machine.SharedResources

open Sys2Proof Sys2Proof.Machine

/-! ### The logs and their exports -/

/-- R427, R428, R430, R452, R458: record selection in the audit log and the journal; AU_EXP_CTL, whose EN starts an export;
AU_EXP_CONS; and JN_MARK. -/
def Sys2Proof.Machine.LogRegisters : Prop :=
  ∀ (s : State) (o : Origin) (v : Word) (q : DWord),
    let w := v.zeroExtend 64
    let n := q.toNat
    (Selects s o 7 0x050 .aud → exec (.auRdWrite o q) s = .next (selected s o 7 .auRd q (fun d =>
        let found := if n < d.auHead ∧ d.auHead - 8388608 ≤ n then d.audit.find? (fun w => bits w 127 80 = n) else none
        regSetFld .auStat (1000 + originKey o) 31 31 (if found = none then 1 else 0)
          (loadWords o .auData 8 (found.getD 0).toNat d))))
    ∧ (Selects s o 6 0x050 .jnl → exec (.jnRdWrite o q) s = .next (selected s o 6 .jnRd q (fun d =>
        let shown := jshow (match o with | .hostPf p => some ⟨p, 0⟩ | _ => none) d n
        let e := regSetFld .jnStat (1000 + originKey o) 31 31 (if jfind d n = none then 1 else 0) (loadWords o .jnData 16 shown.toNat d)
        if bits shown 135 128 = 0xFE then regBump .jnLost 0 e else e)))
    ∧ (Passes s o 6 0x800 [4, 1] → exec (.jnMark o v) s = .next (wrote s o 6 0x800 4 w (fun d =>
        jput { jblank 0x0C ⟨0, 0x7F⟩ with arg := v } d)))
    ∧ (Passes s o 7 0x0C0 [4, 3, 1] →
      let en := regFld s.dev .auExpCtl 0 31 31 = 1
      (∀ p, o = .hostPf p → en → regFld s.dev .auExpCtl 0 7 7 ≠ p →
        exec (.auExpConsWrite o v) s = .next (deniedWrite s o 7 0x0C0 4 w))
      ∧ ((∀ p, o = .hostPf p → en → regFld s.dev .auExpCtl 0 7 7 = p) → exec (.auExpConsWrite o v) s
        = .next (wroteQuietly s o 7 0x0C0 (regSet .auExpCons 0 (merged s o 7 0x0C0 w 0xFFFFFFFF)))))
    ∧ (Passes s o 7 0x0A8 [4, 3, 1] →
      let en := regFld s.dev .auExpCtl 0 31 31 = 1
      let may := ∀ p, o = .hostPf p → (en → regFld s.dev .auExpCtl 0 7 7 = p) ∧ bits v 7 7 = p
      let m := merged s o 7 0x0A8 w 0x8F0000FF
      let z := if 11 < bits v 27 24 then setBits m 27 24 11 else m
      (¬ may → exec (.auExpCtlEn o v) s = .next (deniedWrite s o 7 0x0A8 4 w))
      ∧ (may → bits v 6 0 ≠ 0 → exec (.auExpCtlEn o v) s = .next (ignoredWrite s o 7 0x0A8 4 w id))
      ∧ (may → bits v 6 0 = 0 → (en ∨ bit v 31 = false) →
        exec (.auExpCtlEn o v) s = .next (wrote s o 7 0x0A8 4 w (regSet .auExpCtl 0 z)))
      ∧ (may → bits v 6 0 = 0 → ¬ en → bit v 31 = true → exec (.auExpCtlEn o v) s = .next (wrote s o 7 0x0A8 4 w (fun d =>
          let d := regSet .auExpCtl 0 z d
          { regSet .auExpNext 0 (regGet d .auExpStart 0) d with auPhase := true }))))

/-- R170, R424, R428, R452, R455, R456: an export writes the next record with its lap's phase, waits for room and for D0, and
skips what has left the ring; a write of BAR 4 leaves its record and does what its register says. -/
def Sys2Proof.Machine.LogExports : Prop :=
  ∀ (s : State), Running s →
    let partly := fun (f : FnId) (a : DWord) (b : List Byte) (w : List Nat) (d : Dev) => (List.range b.length).foldl (fun d i =>
      if w.contains i then sendHost .any f (.write (a + BitVec.ofNat 64 i) ((b.drop i).take 1)) d else d) d
    (let d := s.dev
     let f : FnId := ⟨regFld d .auExpCtl 0 7 7, 0⟩
     let size := 2 ^ (regFld d .auExpCtl 0 27 24 + 12)
     let prod : Word := (regGet d .auExpProd 0).truncate 32
     let cons : Word := (regGet d .auExpCons 0).truncate 32
     let next := (regGet d .auExpNext 0).toNat
     let a := regGet d .auExpBase 0 + BitVec.ofNat 64 (32 * (prod.toNat % size))
     let ready := regFld d .auExpCtl 0 31 31 ≠ 0 ∧ (fnGet d f).d3hot = false ∧ (prod - cons).toNat < size ∧ next < d.auHead
     (¬ ready → exec .auditExportWrite s = .next (after s d))
     ∧ (ready →
        let old := d.auHead - 8388608
        let n := max old next
        let d1 := if next < old then pageEvent 7 1 (regSetFld .auStat 0 30 30 1 (regAdd .auXlost 0 (old - next) d)) else d
        let rec_ := setBit ((auditFind d1 n).getD 0) 16 d1.auPhase
        let d2 := { d1 with auPhase := if (prod + 1).toNat % size = 0 then !d1.auPhase else d1.auPhase }
        let b := leBytes 32 rec_.toNat
        let d3 := regSet .auExpProd 0 ((prod + 1).zeroExtend 64) (regSet .auExpNext 0 (BitVec.ofNat 64 (n + 1)) d2)
        (untranslated d3 f a 32 = [] → exec .auditExportWrite s = .next (after s (sendHost .any f (.write a b) d3)))
        ∧ (untranslated d3 f a 32 ≠ [] → exec .auditExportWrite s = .next (after s (askXlate f (untranslated d3 f a 32)
            { d3 with outHeld := d3.outHeld ++ [(f, Via.any, HostReq.write a b)] })))))
    ∧ (∀ f,
      let d := s.dev
      let x := fnGet d f
      let size := 2 ^ (bits x.jxCtl 27 24 + 10)
      let next := x.jxNext.toNat
      (bit x.jxCtl 31 = false ∨ x.d3hot = true ∨ size ≤ (x.jxProd - x.jxCons).toNat ∨ d.jnHead ≤ next →
        ∀ r, exec (.journalExportWrite f r) s = .next (after s d))
      ∧ (bit x.jxCtl 31 = true → x.d3hot = false → (x.jxProd - x.jxCons).toNat < size → next < d.jnHead → jOldest d ≤ next →
        (jNext d f next = none → ∀ r, exec (.journalExportWrite f r) s
          = .next (after s (fnSet f { x with jxNext := BitVec.ofNat 64 d.jnHead } d)))
        ∧ (∀ r, jNext d f next = some r →
          let a := x.jxBase + BitVec.ofNat 64 (64 * (x.jxProd.toNat % size))
          let b := leBytes 64 (setBit r.word 0 x.jxPhase).toNat
          (untranslated d f a 64 ≠ [] → exec (.journalExportWrite f .ok) s
            = .next (after s (askXlate f (untranslated d f a 64) d)))
          ∧ (untranslated d f a 64 = [] → exec (.journalExportWrite f .ok) s = .next (after s (sendHost .any f (.write a b)
              (fnSet f { x with jxProd := x.jxProd + 1, jxNext := BitVec.ofNat 64 (r.seq + 1)
                                jxPhase := if (x.jxProd + 1).toNat % size = 0 then !x.jxPhase else x.jxPhase } d))))
          ∧ ∀ l, exec (.journalExportWrite f (.fail l)) s
            = .next (after s (partly f a b l (fnSet f { x with jxWrerr := true, jxCtl := setBit x.jxCtl 31 false } d)))))
      ∧ (bit x.jxCtl 31 = true → x.d3hot = false → (x.jxProd - x.jxCons).toNat < size → next < jOldest d →
          jNext d f (jOldest d % 2 ^ 64) = none → ∀ r, exec (.journalExportWrite f r) s = .next (after s (fnSet f { x with
            jxNext := BitVec.ofNat 64 d.jnHead, jxLostBit := true
            jxLost := BitVec.ofNat 32 (min 0xFFFFFFFF (x.jxLost.toNat + (jOldest d - next))) } d)))
      ∧ (∀ off size' v, (size' ≠ 4 ∧ size' ≠ 8) ∨ off % size' ≠ 0 ∨ 0x4C ≤ off →
          exec (.jctlWrite f off size' v) s = .next (after s d))
      ∧ (∀ v : Word,
        let c := v &&& 0x8F000000#32
        let z := if bits c 27 24 = 15 then setBits c 27 24 14 else c
        let d1 := jput { jblank 0x09 f with arg := 0x28, ccw := v.zeroExtend 64 } d
        let x1 := fnGet d1 f
        exec (.jctlWrite f 0x28 4 (v.zeroExtend 64)) s = exec (.jxCtlEn f v) s
        ∧ exec (.jxCtlEn f v) s = .next (after s (fnSet f
            (if bit x1.jxCtl 31 = true ∧ bits z 27 24 ≠ bits x1.jxCtl 27 24 then { x1 with jxCfgerr := true }
             else if bit x1.jxCtl 31 = false ∧ bit v 31 = true
               then { x1 with jxCtl := z, jxNext := x1.jxStart, jxProd := 0, jxPhase := true }
             else { x1 with jxCtl := z }) d1)))
      ∧ (∀ v : DWord,
        let put := fun (off : Nat) => jput { jblank 0x09 f with arg := BitVec.ofNat 32 off, ccw := v } d
        let upd := fun (off : Nat) (g : Fn → Fn) => after s (fnSet f (g (fnGet (put off) f)) (put off))
        exec (.jctlWrite f 0x10 8 v) s = .next (upd 0x10 (fun y => { y with jwWin := setBits v 8 0 0 }))
        ∧ exec (.jctlWrite f 0x38 8 v) s = .next (upd 0x38 (fun y => { y with jxStart := v }))
        ∧ exec (.jctlWrite f 0x20 8 v) s = .next (upd 0x20 (fun y =>
            if bit y.jxCtl 31 = true ∧ setBits v 11 0 0 ≠ y.jxBase then { y with jxCfgerr := true } else { y with jxBase := setBits v 11 0 0 }))
        ∧ (∀ r, r = 0 ∨ r = 8 ∨ r = 0x18 ∨ r = 0x40 → exec (.jctlWrite f r 8 v) s = .next (after s (put r))))
      ∧ (∀ v : Word,
        let d1 := jput { jblank 0x09 f with arg := 0x2C, ccw := v.zeroExtend 64 } d
        exec (.jctlWrite f 0x2C 4 (v.zeroExtend 64)) s = .next (after s (fnSet f { fnGet d1 f with jxCons := v } d1))))

/-- R170, R424, R427, R428, R430, R452, R455, R456, R458: record selection, exports and the writes of BAR 4. -/
def Obligations.Logs : Prop :=
  Sys2Proof.Machine.LogRegisters ∧ Sys2Proof.Machine.LogExports

namespace Sys2Proof.Machine

/-- What a device reset leaves in copy i of a register: the bits `keep` names as they were, the others at reset (R550). -/
def keptValue (keep : List (Reg × DWord)) (was : Dev) (r : Reg) (i : Nat) : DWord :=
  let m := ((keep.find? (fun p => p.1.ctorIdx = r.ctorIdx)).map (·.2)).getD 0
  (regGet was r i &&& m) ||| (r.resetValue i &&& ~~~m)

/-- What no device reset leaves of a machine: subchannels, programs, rings, windows, slots, channels, commitments, expert
modes, interrupts under way, scratch areas and updates. -/
def Cleared (d : Dev) : Prop :=
  d.subs = [] ∧ d.progs = [] ∧ d.ops = [] ∧ d.packs = [] ∧ d.srings = [] ∧ d.crings = [] ∧ d.stalled = [] ∧ d.outHeld = [] ∧ d.opHeld = [] ∧ d.opWait = [] ∧ d.clearing = []
  ∧ d.fns = [] ∧ d.waiting = [] ∧ d.dsWait = [] ∧ d.workq = [] ∧ d.chans = [] ∧ d.commits = [] ∧ d.xmodes = [] ∧ d.pres = []
  ∧ d.grps = [] ∧ d.latches = 0 ∧ d.sems = [] ∧ d.scratch = [] ∧ d.plaza = [] ∧ d.upd = none ∧ d.frozen = false ∧ d.frozenPin = false
  ∧ d.fatal = false ∧ isReady d = false
  ∧ d.resv = [] ∧ d.fenceWait = [] ∧ d.refills = [] ∧ d.mirrorWait = [] ∧ d.mirrorOld = [] ∧ d.scWait = [] ∧ d.feeds = []
  ∧ d.xlate = [] ∧ d.xasked = [] ∧ d.rbts = [] ∧ d.attQ = [] ∧ d.invals = []

/-- The registers that the events and records of a device reset itself change, and those it sets anew. -/
def resetTouched : List Reg :=
  [.evtPending, .evtCnt, .pgAuditSeq, .pzSlices, .pzStat, .bkStat, .upCfg, .dsFreq, .cpMap, .fzStat, .ffHwm]

end Sys2Proof.Machine

open Sys2Proof Sys2Proof.Machine

/-! ### Resets, boot and trust -/

/-- R429, R457, R473, R550, R588: a cold reset clears the block, starts DEVTIME and the logs anew with a reset record,
samples the straps, and puts up to eight CPs of each district that are not retired in service and the next as its spare. -/
def Sys2Proof.Machine.ColdReset : Prop :=
  ∀ s : State, ∃ d, exec .coldReset s = .next (after s d)
    ∧ (let was := endInjected s.dev
       Cleared d ∧ d.devtime = 0 ∧ d.jnHead = 1 ∧ d.journal = [{ jblank 0x0A ⟨0, 0x7F⟩ with arg := 1 }]
       ∧ d.auHead = 1 ∧ d.audit = [auditWord 0 0x7F 0 0 0 0 0 6 1 0x80] ∧ d.trHead = 0 ∧ d.trace = []
       ∧ d.straps = BitVec.ofNat 6 (regFld was .tmGpioIn 0 5 0) ∧ d.owners = was.owners ∧ d.boots = was.boots
       ∧ (∀ i, i < 72 → (cpGet d i).run = .off ∧ (cpGet d i).role =
          (if (cpGet was i).role = .retired then .retired
           else if ((span (9 * (i / 9)) (i % 9)).filter (fun j => (cpGet was j).role ≠ .retired)).length < 8 then .inService
           else .spare))
       ∧ (∀ r i, i < 1048576 → r ∉ resetTouched → regGet d r i = keptValue keptCold was r i))

/-- R457, R429, R498, R506, R550, R588: a warm reset clears the block too, but DEVTIME, the logs and the trace run on, their
first new records are those of the reset, each CP keeps its role, and FZ_STAT.WASFZ shows a freeze that it ended. -/
def Sys2Proof.Machine.WarmReset : Prop :=
  ∀ s : State, ∃ d, exec .warmReset s = .next (after s d)
    ∧ (let was := endInjected s.dev
       Cleared d ∧ d.devtime = was.devtime ∧ d.jnHead = was.jnHead + 1
       ∧ d.journal = was.journal ++ [{ jblank 0x0A ⟨0, 0x7F⟩ with arg := 2, seq := was.jnHead, time := was.devtime }]
       ∧ (∃ l, l.length = was.xmodes.length ∧ d.auHead = was.auHead + 1 + l.length
          ∧ d.audit = was.audit ++ auditWord was.devtime 0x7F 0 was.auHead 0 0 0 6 2 0x80 :: l)
       ∧ d.trHead = was.trHead ∧ d.trace = was.trace ∧ d.straps = was.straps ∧ d.owners = was.owners
       ∧ (∀ i, (cpGet d i).role = (cpGet was i).role ∧ (cpGet d i).run = .off)
       ∧ regFld d .fzStat 0 31 31 = (if was.frozenPin = true ∨ regFld was .fzStat 0 31 31 = 1 then 1 else 0)
       ∧ (∀ r i, i < 1048576 → r ∉ resetTouched → regGet d r i = keptValue keptWarm was r i))

/-- R429, R457, R473, R498, R506, R550, R588: what a cold reset and a warm reset clear, keep and record. -/
def Obligations.DeviceResets : Prop :=
  Sys2Proof.Machine.ColdReset ∧ Sys2Proof.Machine.WarmReset

/-- R130, R422, R452, R453, R549: a port reset, a function-level reset and the clearing of VF Enable act on the functions they
affect and leave their RESET record behind those of the programs they ended; the first two leave an audit record too; while the port is in reset, a further reset does nothing. PERST ends when the pin is released. -/
def Obligations.PortAndFunctionResets : Prop :=
  ∀ (s : State) (u : Nat) (how : PortResetBy) (v : Nat) (begun : List Nat), Running s → u < 2 →
    (regFld s.dev .upStat u 15 15 = 1 → v ≤ 64 →
      exec (.perstAssert u how begun) s = .next (after s s.dev)
      ∧ exec (.functionLevelReset ⟨u, v⟩ begun) s = .next (after s s.dev))
    ∧ (regFld s.dev .upStat u 15 15 = 0 →
      (let d := resetAudit 3 ⟨u, 0x7F⟩ s.dev
       let w := upStatWord { linkDetect with ltssm := if how = .hotReset then 8 else 0 } (if how = .perst then 1 else 0)
       let d1 := regSet .upStat u w d
       let d2 := if bits w 31 20 ≠ regFld d .upStat u 31 20 then pageEvent (0x10 + u) 2 d1 else d1
       exec (.perstAssert u how begun) s = .next (after s (resetNote 3 ⟨u, 0x7F⟩ (resetFns (portFns u) begun (upPortIs u false d2)))))
      ∧ exec (.functionLevelReset ⟨u, 0⟩ begun) s
          = .next (after s (resetNote 4 ⟨u, 0⟩ (resetFns (portFns u) begun (resetAudit 4 ⟨u, 0⟩ s.dev))))
      ∧ (1 ≤ v → v ≤ 64 → exec (.functionLevelReset ⟨u, v⟩ begun) s
          = .next (after s (resetNote 4 ⟨u, v⟩ (resetFns [⟨u, v⟩] begun (resetAudit 4 ⟨u, v⟩ s.dev)))))
      ∧ ((fnGet s.dev ⟨u, 0⟩).vfEnable = true →
         let d := resetNote 5 ⟨u, 0⟩ (resetFns ((portFns u).drop 1) begun s.dev)
         exec (.vfEnableClear u begun) s
           = .next (after s (fnSet ⟨u, 0⟩ { fnGet d ⟨u, 0⟩ with vfEnable := false, numVfs := 0 } d))))
    ∧ exec (.perstRelease u) s = .next (after s (regSetFld .upStat u 15 15 0 s.dev))

/-- R131, R175, R413, R550: what a reset leaves of the functions `fs` it affects. Their slots are free and their
configuration space is at its reset values, their expert modes are closed and their translations gone; a ring one of them
owns, as the reset clears leave it, is disabled and empty with phase 1; and a reset clear of a subchannel discards what it
had to do and leaves it IDLE with RP clear, or NOT_OPERATIONAL, or CLEAR_PENDING until it completes. -/
def Obligations.ResetClears : Prop :=
  ∀ (fs : List FnId) (begun : List Nat) (d : Dev), (∀ f ∈ fs, f.port < 2 ∧ f.fn ≤ 64) →
    (let t := resetFns fs begun d
     let gone := d.dsWait.filter (fun t => fs.contains t.fn)
     let d1 := resetClears fs begun { d with dsWait := d.dsWait.filter (fun t => !(gone.contains t)) }
     (∀ f ∈ fs, (fnGet t f).slots = [] ∧ (fnGet t f).vfEnable = false ∧ (fnGet t f).busMaster = false
        ∧ (fnGet t f).ats = false ∧ (fnGet t f).pasid = false ∧ bit (fnGet t f).jxCtl 31 = false ∧ (fnGet t f).events = [])
     ∧ (∀ m ∈ t.xmodes, ∀ f ∈ fs, originFn m.origin ≠ some f)
     ∧ (∀ f ∈ fs, (∀ x ∈ t.xlate, fnKey f ≠ x.1) ∧ (∀ x ∈ t.xasked, fnKey f ≠ x.1) ∧ ∀ x ∈ t.outHeld, x.1 ≠ f)
     ∧ (∀ n f, f ∈ fs → ownOf (srGet d1 n).own = some f →
        bit (srGet t n).ctl 31 = false ∧ (srGet t n).cons = 0 ∧ (srGet t n).phase = true ∧ (srGet t n).own = (srGet d1 n).own)
     ∧ (∀ n f, f ∈ fs → ownOf (crGet d1 n).own = some f →
        bit (crGet t n).ctl 31 = false ∧ (crGet t n).prod = 0 ∧ (crGet t n).cons = 0 ∧ (crGet t n).phase = true
        ∧ (crGet t n).own = (crGet d1 n).own
        ∧ ((∀ e ∈ d1.stalled, e.ring ≠ n) → (crGet t n).fifo.items = [] ∧ ∀ e ∈ t.stalled, e.ring ≠ n)))
    ∧ (∀ n, n < Config.subchannels →
       let t := resetClear begun n d
       progOf t n = none ∧ (subGet t n).lease = none
       ∧ (subGet t n).rp = false ∧ (subGet t n).heldAttn = false
       ∧ ((subGet t n).st = .notOperational ∨ (subGet t n).st = .idle ∨ ((subGet t n).st = .clearPending ∧ n ∈ t.clearing))
       ∧ ((subGet (resetClearsDone t) n).st = .notOperational ∨ (subGet (resetClearsDone t) n).st = .idle)
       ∧ (∀ x ∈ t.waiting ++ t.dsWait, seSub x.entry ≠ n) ∧ (∀ e ∈ t.stalled, e.item.sub ≠ n))

/-- R471, R472, R473, R475, R483, R541, R590: BOOT_READY loads the images in order and READY rises when ELFORT_FW and CP_BASE_FW are
loaded, else the TC9640 stops with FATAL_N; every CP that is not retired starts, and the keys of R483 are formed. Of each image the active copy is taken, as the directory
copy in force names it (copy A of every image where none is valid, with FALLBACK), else the other copy, which sets FALLBACK; a refused image is kept with its reason, and one that is accepted passed every
check. A BOOT_READY of a TC9640 that is ready changes nothing. -/
def Obligations.BootReady : Prop :=
  ∀ (s : State) (b : BootIn), Running s →
    (isReady s.dev = true → exec (.bootReady b) s = .next (after s s.dev))
    ∧ (isReady s.dev = false → ∃ d, exec (.bootReady b) s = .next (after s d)
        ∧ d.boots = s.dev.boots + 1 ∧ d.owners = finishRevoke s.dev.owners ∧ d.ownersNow = finishRevoke s.dev.owners
        ∧ d.devtime = s.dev.devtime ∧ d.dirActive = bootActive b
        ∧ (dirValid b.dir0 = false → dirValid b.dir1 = false → regFld d .seStat 0 30 30 = 1)
        ∧ (isReady d = true ↔ (imgLoaded d 0).isSome = true ∧ (imgLoaded d 2).isSome = true)
        ∧ (isReady d = false → d.fatal = true)
        ∧ ((imgLoaded d 0).isSome = false → regFld d .seStat 0 31 31 = 1)
        ∧ (isReady d = true →
            let m := fun (i : Nat) => BitVec.ofNat 384 (((imgLoaded d i).map (·.digest)).getD 0)
            d.keys.uds = Config.uds ∧ d.keys.cdi0 = Config.hmac384 d.keys.uds (m 0)
            ∧ d.keys.cdi1 = Config.hmac384 d.keys.cdi0 (Config.sha384 [m 1, m 2, m 3])
            ∧ d.keys.aliasPrivate = Config.derivedPrivate d.keys.cdi1 ∧ d.keys.aliasPublic = Config.derivedPublic d.keys.cdi1
            ∧ d.keys.aliasCert = Config.certificate d.keys.devicePrivate d.keys.aliasPublic [m 0, m 1, m 2, m 3])
        ∧ (isReady d = true → ∀ i, i < 72 → (cpGet d i).role = (cpGet s.dev i).role
            ∧ (cpGet d i).run = (match (cpGet s.dev i).role with
                | .bist _ => .bist
                | .retired => (cpGet s.dev i).run
                | _ => .run)))
    ∧ (∀ i d, i < 20 →
        let a := lget (bootActive b) i 0 % 2
        let find := fun (c : Nat) => (b.imgs.find? (fun e => decide (e.1 = i) && decide (e.2.1 = c))).map (·.2.2)
        let t := bootLoad b i d
        (∀ x, find a = some x → imgReason false i x d = 0 → imgGet t i = ⟨if untested d i x then 3 else 0, 0, a, some x⟩)
        ∧ (∀ x y, find a = some x → imgReason false i x d ≠ 0 → find (1 - a) = some y → imgReason false i y d = 0 →
            (imgGet t i).copy = 1 - a ∧ (imgGet t i).img = some y ∧ regFld t .seStat 0 30 30 = 1)
        ∧ (∀ y, find a = none → find (1 - a) = some y → imgReason false i y d = 0 →
            imgGet t i = ⟨if untested d i y then 3 else 0, 0, 1 - a, some y⟩ ∧ regFld t .seStat 0 30 30 = 1)
        ∧ (∀ x, find a = some x → imgReason false i x d ≠ 0 → (∀ y, find (1 - a) = some y → imgReason false i y d ≠ 0) →
            imgGet t i = ⟨1, imgReason false i x d, a, some x⟩)
        ∧ (∀ y, find a = none → find (1 - a) = some y → imgReason false i y d ≠ 0 → imgGet t i = ⟨1, 1, a, none⟩)
        ∧ (find a = none → find (1 - a) = none → t = imgSet i ⟨if i = 3 then 1 else 2, 1, a, none⟩ d))
    ∧ (let dir := fun (c : Nat) => fitBytes 64 (if c = 0 then b.dir0 else b.dir1)
       let gen := fun (c : Nat) => leNat (((dir c).drop 4).take 4)
       let ok := fun (c : Nat) => leNat ((dir c).take 4) = 0x52494456 ∧ leNat ((dir c).drop 60) = (crc32c ((dir c).take 60)).toNat
       (∀ c, c < 2 → ok c → (ok (1 - c) → gen (1 - c) < gen c) → bootActive b = (((dir c).drop 8).take 20).map (·.toNat))
       ∧ (¬ok 0 → ¬ok 1 → bootActive b = List.replicate 20 0))
    ∧ (∀ update i x d, imgReason update i x d = 0 →
        imgForm i x = true ∧ x.sigOk = true ∧ x.hashOk = true ∧ regFld d .seRb (imgType i - 1) 6 0 ≤ x.svn
        ∧ levelsOk update i x d = true
        ∧ (x.keysel = 0 → x.keyHash = Config.rootKeyHash)
        ∧ (x.keysel ≠ 0 → x.keysel ≤ 4 ∧ 4 ≤ imgType i
            ∧ ownerState (lget d.ownersNow (x.keysel - 1) ⟨false, false, 0⟩) = 1
            ∧ x.keyHash = (lget d.ownersNow (x.keysel - 1) ⟨false, false, 0⟩).hash))

/-- R477, R479, R482, R490: OWN_XFER at the front of the mailbox takes effect exactly when the rule's conditions hold,
consumes the nonce, is recorded with OTYPE 3 and answered; RB_COMMIT raises a rollback counter to its target and never
lowers it; a read of SE_NONCE_0 makes a nonce for its origin. With no such command in front nothing happens. -/
def Sys2Proof.Machine.OwnershipAndCommits : Prop :=
  ∀ (s : State) (o : Origin) (cur new : Nat) (sig : Bool) (rest : List (Origin × Nat)), Running s →
    let slot := fun (i : Nat) => lget s.dev.owners i ⟨false, false, 0⟩
    (s.dev.mbQueue = (o, 1) :: rest →
      let blk := mbBlock s.dev o
      let act := activeSlot s.dev.owners
      let good := regFld s.dev .seUpdpol 0 1 1 = 1 ∧ (originClass o = 4 ∨ originClass o = 3 ∧ act ≠ 0)
        ∧ (∃ i, i < 4 ∧ ownerState (slot i) = 0) ∧ bits blk 31 0 = 1 ∧ bits blk 3327 1824 = 0
        ∧ (s.dev.nonces.find? (fun e => e.1 = originKey o)).map (·.2) = some (bits blk 287 32)
        ∧ (act = 0 → bits blk 4095 3328 = 0 ∧ bits blk 1823 1056 = 0)
        ∧ (act ≠ 0 → cur = (slot (act - 1)).hash ∧ sig = true)
      let r := ownCheck o cur sig s.dev
      let ended := fun (d : Dev) =>
        let d := mbAnswer o r (auditPut .elfort 1 0x1A 15 (BitVec.ofNat 32 (ownWord d)) (BitVec.ofNat 32 (ownWord s.dev)) 0 d)
        mbBad d.mbQueue d
      let spent := { s.dev with nonces := tdel s.dev.nonces (originKey o) }
      (r = 0 ↔ good)
      ∧ (r ≠ 0 → exec (.ownXfer cur new sig) s = .next (after s (ended spent)))
      ∧ (∀ e, r = 0 → e < 4 → ownerState (slot e) = 0 → (∀ i, i < e → ownerState (slot i) ≠ 0) →
          let l := lset s.dev.owners e ⟨true, false, new⟩
          exec (.ownXfer cur new sig) s = .next (after s (ended (pageEvent 1 3 { spent with
            owners := if act = 0 then l else lset l (act - 1) { lget l (act - 1) ⟨false, false, 0⟩ with revk := true } })))))
    ∧ (s.dev.mbQueue = (o, 2) :: rest →
      let t := bits (mbBlock s.dev o) 7 0
      (rbTarget s.dev t = none →
        let d := mbAnswer o 2 s.dev
        exec .rbCommit s = .next (after s (mbBad d.mbQueue d)))
      ∧ (∀ v, rbTarget s.dev t = some v →
        let old := regFld s.dev .seRb (t - 1) 6 0
        let up := max old (min v 64)
        let d := mbAnswer o 0 (auditPut .elfort 1 ((0x50 + 4 * t) / 4) 15 (BitVec.ofNat 32 up) (BitVec.ofNat 32 old) 0
          (regSet .seRb (t - 1) (BitVec.ofNat 64 up) s.dev))
        exec .rbCommit s = .next (after s (mbBad d.mbQueue d))))
    ∧ ((∀ p r, s.dev.mbQueue ≠ (p, 1) :: r) → exec (.ownXfer cur new sig) s = .next (after s s.dev))
    ∧ ((∀ p r, s.dev.mbQueue ≠ (p, 2) :: r) → exec .rbCommit s = .next (after s s.dev))
    ∧ (ReadsNow s o → mayRead s.dev o .sec = true →
        let n := (Config.freeValue s.dev.freeCtr).toNat + 2 ^ 128 * (Config.freeValue (s.dev.freeCtr + 1)).toNat
        exec (.seNonceRead o) s = .next (after s (readAnswer o (BitVec.ofNat 64 (n % 2 ^ 32)) { s.dev with
          freeCtr := s.dev.freeCtr + 2, nonces := tins (tdel s.dev.nonces (originKey o)) (originKey o) n })))

/-- R485, R486: a request waits its turn behind at most eight others, else it is answered busy; the one in front is served by an idle step
(log entry 120). GET_CHAIN answers the bytes asked for, at most 1,024, of the DER chain; GET_REPORT answers 1,504 bytes of one
snapshot, whose fields stand where the rule's tables put them, image i at 64 + 64 i, and which the alias key signs. The number a
signature draws is a free value (log entry 95). -/
def Sys2Proof.Machine.Attestation : Prop :=
  ∀ (s : State) (path port : Nat), Running s →
    let p := attPath path port
    (∀ off len,
      let chain := s.dev.keys.deviceChain ++ s.dev.keys.aliasCert
      (s.dev.attQ.length < 9 → exec (.getChain path port off len) s
        = .next (after s { s.dev with attQ := s.dev.attQ ++ [.chain p off len] }))
      ∧ (9 ≤ s.dev.attQ.length → exec (.getChain path port off len) s
        = .next (after s (emit (.sideband p [1, 0x81, 2]) s.dev)))
      ∧ (∀ rest, s.dev.attQ = .chain p off len :: rest → attServe s.dev = emit (.sideband p
        (if 1024 < len then [1, 0x81, 1]
         else [1, 0x81, 0, 0] ++ leBytes 4 chain.length ++ (chain.drop off).take len)) { s.dev with attQ := rest }))
    ∧ (s.pending = [] → s.dev.frozen = false → s.dev.slew = 0 → s.dev.activ = [] → s.dev.clearing = [] → s.dev.invals = [] →
        step s = .next (after s (attServe { fbkPass 1 { s.dev with
          jnFeed := s.dev.jnFeed - 1, auFeed := s.dev.auFeed - 1
          feeds := (s.dev.feeds.map (fun (e : Nat × Nat) => (e.1, e.2 - 1))).filter (fun e => e.2 ≠ 0) }
          with devtime := s.dev.devtime + 1 })))
    ∧ (∀ nonce,
      (s.dev.attQ.length < 9 → exec (.getReport path port nonce) s
        = .next (after s { s.dev with attQ := s.dev.attQ ++ [.report p nonce] }))
      ∧ (9 ≤ s.dev.attQ.length → exec (.getReport path port nonce) s
        = .next (after s (emit (.sideband p [1, 0x82, 2]) s.dev)))
      ∧ ∀ rest, s.dev.attQ = .report p nonce :: rest →
        ∃ l, attServe s.dev = emit (.sideband p ([1, 0x82, 0, 0] ++ l))
          { s.dev with attQ := rest, freeCtr := s.dev.freeCtr + 1 }
        ∧ l.length = 1504 ∧ l.take 1 = leBytes 1 1
        ∧ (l.drop 1).take 1 = leBytes 1 (
            (if (List.range 20).all (fun i => decide ((imgGet s.dev i).status ≠ 3)) then 0 else 1) + 2 * regFld s.dev .seStat 0 30 30
            + (if regFld s.dev .glDbgpol 0 1 0 ≠ 0 then 4 else 0) + 8 * regFld s.dev .glStat 0 29 29)
        ∧ (l.drop 2).take 2 = [21, 0] ∧ (l.drop 4).take 4 = leBytes 4 s.dev.boots
        ∧ (l.drop 8).take 8 = leBytes 8 s.dev.devtime.toNat ∧ (l.drop 16).take 32 = leBytes 32 nonce
        ∧ (∀ i, i < 20 →
            let e := l.drop (64 + 64 * i)
            let x := imgLoaded s.dev i
            e.take 1 = leBytes 1 i ∧ (e.drop 1).take 1 = leBytes 1 (min (i + 1) 5) ∧ (e.drop 2).take 1 = leBytes 1 (i - 4)
            ∧ (e.drop 3).take 1 = leBytes 1 ((x.map (·.svn)).getD 0) ∧ (e.drop 4).take 4 = leBytes 4 ((x.map (·.version)).getD 0)
            ∧ (e.drop 8).take 1 = leBytes 1 ((x.map (·.keysel)).getD 0) ∧ (e.drop 9).take 1 = leBytes 1 (imgGet s.dev i).status
            ∧ (e.drop 10).take 1 = leBytes 1 (regFld s.dev .seRb (min (i + 1) 5 - 1) 6 0)
            ∧ (e.drop 16).take 48 = beBytes 48 ((x.map (·.digest)).getD 0))
        ∧ (l.drop 1344).take 3 = [20, 0xF0, BitVec.ofNat 8 (activeSlot s.dev.owners)]
        ∧ (l.drop 1360).take 48 = beBytes 48 (if activeSlot s.dev.owners = 0 then 0
            else (lget s.dev.owners (activeSlot s.dev.owners - 1) ⟨false, false, 0⟩).hash)
        ∧ l.drop 1408 = fitBytes 96 (Config.signature s.dev.keys.aliasPrivate (l.take 1408) (Config.freeValue s.dev.freeCtr)))

/-- R487, R488, R489, R540, R541: an update runs one at a time; its data goes to the inactive copy's place in the flash, its verification answers the reason
of R470, the directory is written to the copy not in force, with GEN + 1, only after a good one; ActivateFirmware loads a policy at once, makes a pack's activation
at rest or lets it wait for at most 1 s, and reports the others as pending. -/
def Sys2Proof.Machine.FirmwareUpdate : Prop :=
  ∀ (s : State), Running s →
    (∀ path port,
      let barred := path = 2 ∧ regFld s.dev .seUpdpol 0 0 0 = 0
      let takes := if regFld s.dev .seStat 0 31 31 = 1 then path < 2
        else isReady s.dev = true ∨ ∃ e ∈ s.dev.imgs, e.1 = 2 ∧ (e.2.status = 1 ∨ e.2.status = 2)
      (barred → exec (.requestUpdate path port) s = .next (after s (emit (.pldm (attPath path port) "RequestUpdate not accepted") s.dev)))
      ∧ (¬ barred → s.dev.upd ≠ none →
          exec (.requestUpdate path port) s = .next (after s (emit (.pldm (attPath path port) "ALREADY_IN_UPDATE_MODE") s.dev)))
      ∧ (¬ barred → s.dev.upd = none → ¬ takes →
          exec (.requestUpdate path port) s = .next (after s (emit (.pldm (attPath path port) "RETRY_REQUEST_UPDATE") s.dev)))
      ∧ (¬ barred → s.dev.upd = none → takes →
          exec (.requestUpdate path port) s = .next (after s (emit (.pldm (attPath path port) "RequestUpdate accepted")
            { s.dev with upd := some ⟨path, attPath path port, none, none, false, []⟩ }))))
    ∧ (s.dev.upd = none → ∀ comp off b x ok,
        exec (.pldmTransfer comp off b) s = .next (after s s.dev) ∧ exec (.verifyComplete comp x) s = .next (after s s.dev)
        ∧ exec (.applyComplete ok) s = .next (after s s.dev) ∧ exec .activateFirmware s = .next (after s s.dev))
    ∧ (∀ u, s.dev.upd = some u →
      (∀ comp i off b, compIndex comp = some i →
        let c := 1 - lget s.dev.dirActive i 0 % 2
        let size := [0x100000, 0x200000, 0x20000, 0x20000][i]?.getD 0x40000
        let start := [0x80000, 0x280000, 0x680000, 0x6C0000][i]?.getD (0x700000 + 0x80000 * (i - 4))
        (b.length ≤ (if u.path = 2 then 4096 else 1024) → off + b.length ≤ size → exec (.pldmTransfer comp off b) s
          = .next (after s (emit (.flash (start + size * c + off) b)
              { s.dev with upd := some { u with comp := some comp, img := none, ok := false } })))
        ∧ ((if u.path = 2 then 4096 else 1024) < b.length ∨ size < off + b.length → exec (.pldmTransfer comp off b) s = .next (after s s.dev)))
      ∧ (∀ comp i x, compIndex comp = some i →
        (u.comp ≠ some comp → exec (.verifyComplete comp x) s = .next (after s s.dev))
        ∧ (u.comp = some comp →
          let r := imgReason true i x s.dev
          let d := if r = 0 then s.dev else pageEvent 1 1 s.dev
          exec (.verifyComplete comp x) s = .next (after s (emit (.sideband u.via [BitVec.ofNat 8 r])
            { d with upd := some { u with img := some (i, x), ok := decide (r = 0) } }))))
      ∧ (∀ comp off b x, compIndex comp = none → exec (.pldmTransfer comp off b) s = .next (after s s.dev)
          ∧ exec (.verifyComplete comp x) s = .next (after s s.dev))
      ∧ (u.img = none → ∀ ok, exec (.applyComplete ok) s = .next (after s s.dev))
      ∧ (∀ i x, u.img = some (i, x) →
        (∀ ok, (ok && u.ok) = false →
          exec (.applyComplete ok) s = .next (after s { s.dev with upd := some { u with img := none, ok := false } }))
        ∧ (u.ok = true →
          let c := 1 - lget s.dev.dirActive i 0 % 2
          let dir := lset (s.dev.dirActive ++ List.replicate (20 - s.dev.dirActive.length) 0) i c
          exec (.applyComplete true) s = .next (after s (emit (.flash (0x10000 * (1 - s.dev.dirCopy)) (dirBytes (s.dev.dirGen + 1) dir))
            { s.dev with dirActive := dir, dirGen := s.dev.dirGen + 1, dirCopy := 1 - s.dev.dirCopy
                         upd := some { u with img := none, ok := false, applied := u.applied ++ [(i, x)] } }))))
      ∧ (∀ i x, u.applied = [(i, x)] → s.dev.activ = [] →
        let c := lget s.dev.dirActive i 0 % 2
        let d := { s.dev with upd := none }
        (i < 3 → exec .activateFirmware s = .next (after s (emit (.pldm u.via "ActivateFirmware pending activation") d)))
        ∧ (i = 3 → exec .activateFirmware s = .next (after s (untestedNote (untested d 3 x)
            (imgEffect 3 x (imgSet 3 ⟨if untested d 3 x then 3 else 0, 0, c, some x⟩ d)))))
        ∧ (4 ≤ i →
          let a : Activ := ⟨i - 4, u.via, x, c, s.dev.devtime + 1000000000⟩
          (slotBusy s.dev (i - 4) = true → exec .activateFirmware s = .next (after s { d with activ := [a] }))
          ∧ (slotBusy s.dev (i - 4) = false → exec .activateFirmware s = .next (after s (activInstall a { d with activ := [a] }))))))
    ∧ (∀ a t, s.dev.activ = a :: t → exec .packActivationTimeout s = .next (after s (liveP (fun d =>
        emit (.pldm a.via "ActivateFirmware failed") (advanceTo a.due { d with activ := t })) s.dev)))
    ∧ (s.dev.activ = [] → exec .packActivationTimeout s = .next (after s (liveP (fun d => d) s.dev)))
    ∧ (∀ slot x p d,
        let t := packInstall slot x p d
        let k := packOfImg d slot x p
        (t.packs.find? (fun e => e.1 = slot)).map (·.2) = some k
        ∧ (∀ n, n ≠ slot → (t.packs.find? (fun e => e.1 = n)) = (d.packs.find? (fun e => e.1 = n)))
        ∧ (∀ i, i < 72 → (cpGet t i).iram = memWrite (cpGet d i).iram k.text (packText p)
            ∧ (cpGet t i).dram = memWrite (cpGet d i).dram k.data (packData p ++ List.replicate k.bssSize 0)
            ∧ (cpGet t i).run = (cpGet d i).run)
        ∧ (slot < 3 → t.packCalls = d.packCalls)
        ∧ (3 ≤ slot → ∀ i, i < 72 →
          ((cpGet d i).role = .inService ∨ (cpGet d i).role = .spare →
            (⟨i, Config.subchannels, slot, 1, lget k.ev 0 0, 0, 0, 0⟩ : PackCall) ∈ t.packCalls)
          ∧ (∀ b, (cpGet d i).role = .bist b → (i, slot) ∈ t.initDue)))

/-- R470, R477, R479, R482, R483, R485 to R490: OWN_XFER, RB_COMMIT, nonces, GET_CHAIN and GET_REPORT; FW_BEGIN to
FW_ROLLBACK and activation. -/
def Obligations.TrustAndFirmware : Prop :=
  Sys2Proof.Machine.OwnershipAndCommits ∧ Sys2Proof.Machine.Attestation ∧ Sys2Proof.Machine.FirmwareUpdate

/-- R535, R536, R537, R538, R567: the answers of PLDM types 0 and 2, the endpoint ID of each binding, register accesses of
the BMC over the sideband, or over a port whose MCTP is enabled, and the clock-low timeout of the SMBus binding. -/
def Obligations.SidebandCommands : Prop :=
  ∀ (s : State) (path port : Nat), Running s →
    (let d := s.dev
     let x := Config.freeValue d.freeCtr
     let d1 := { d with freeCtr := d.freeCtr + 1 }
     exec (.pldmType0Command path .getTid) s = .next (after s (emit (.sideband path [x.extractLsb' 0 8]) d1))
     ∧ exec (.pldmType0Command path .getVersion) s = .next (after s (emit (.sideband path (leBytes 4 x.toNat)) d1))
     ∧ exec (.pldmType0Command path .getTypes) s = .next (after s (emit (.sideband path [0, 2, 5]) d))
     ∧ exec (.pldmType0Command path .getCommands) s
         = .next (after s (emit (.message path "GetTID, GetPLDMVersion, GetPLDMTypes, GetPLDMCommands") d)))
    ∧ (let d := s.dev
       let reads := fun (n v : Nat) => exec (.getSensorReading path n) s = .next (after s (emit (.sideband path (leBytes 4 v)) d))
       reads 1 (regFld d .thStat 0 15 0) ∧ reads 2 (regFld d .thPwr 0 15 0 / 8) ∧ reads 3 (regFld d .thVreq 0 15 0)
       ∧ (d.fatal = true → reads 4 3)
       ∧ (d.fatal = false → isReady d = false → reads 4 0)
       ∧ (d.fatal = false → isReady d = true → reads 4 (1 + regFld d .glStat 0 29 29))
       ∧ (∀ m, (∀ k, k < 11 → 100 * regFld d .rpUsed k 15 0 / regFld d .rpBudget k 15 0 ≤ m) →
            (∃ k, k < 11 ∧ 100 * regFld d .rpUsed k 15 0 / regFld d .rpBudget k 15 0 = m) → reads 5 m)
       ∧ (∀ u, u < 2 →
            let full := if regFld d .upCfg u 30 30 = 1 then 8 else 16
            (upAnswers d u = false → reads (16 + u) 0)
            ∧ (upAnswers d u = true → full ≤ regFld d .upStat u 24 20 → 6 ≤ regFld d .upStat u 27 25 → reads (16 + u) 1)
            ∧ (upAnswers d u = true → regFld d .upStat u 24 20 < full ∨ regFld d .upStat u 27 25 < 6 → reads (16 + u) 2))
       ∧ (∀ p, p < 32 →
            (dpAbsent d p = true → reads (32 + p) 0)
            ∧ (dpAbsent d p = false → regFld d .dpStat p 16 16 = 1 → reads (32 + p) 4)
            ∧ (dpAbsent d p = false → regFld d .dpStat p 16 16 = 0 → regFld d .dpStat p 18 18 = 0 → reads (32 + p) 1)
            ∧ (dpAbsent d p = false → regFld d .dpStat p 16 16 = 0 → regFld d .dpStat p 18 18 = 1 →
                reads (32 + p) (if regFld d .dpStat p 24 20 < (dpLanes d p).2 then 3 else 2)))
       ∧ (∀ n, n = 0 ∨ 6 ≤ n ∧ n < 16 ∨ 18 ≤ n ∧ n < 32 ∨ 64 ≤ n →
            exec (.getSensorReading path n) s = .next (after s (emit (.message path "invalid sensor ID") d))))
    ∧ (∀ eid, exec (.setEndpointId 0 eid) s = .next (after s { s.dev with sbEid := eid % 256 })
        ∧ (∀ u, u < 2 → exec (.setEndpointId (1 + u) eid) s = .next (after s (regSetFld .upMctp u 7 0 eid s.dev)))
        ∧ (∀ b, 2 < b → exec (.setEndpointId b eid) s = .next (after s s.dev)))
    ∧ (∀ off size v,
        (path = 2 ∧ regFld s.dev .upMctp port 31 31 = 0 →
          exec (.regRead path port off size) s = .next (after s (emit (.sideband path [1, 0x90, 3]) s.dev))
          ∧ exec (.regWrite path port off size v) s = .next (after s (emit (.sideband path [1, 0x91, 3]) s.dev)))
        ∧ (path ≠ 2 ∨ regFld s.dev .upMctp port 31 31 = 1 →
          ((off < 0x4000000 → exec (.regRead path port off size) s = exec (.readClearStatus (.bmc path) off size) s)
            ∧ ∃ d, exec (.regRead path port off size) s = .next (after s d))
          ∧ exec (.regWrite path port off size v) s = exec (.registerWrite (.bmc path) off size v) s
          ∧ ∃ d, exec (.regWrite path port off size v) s = .next (after s d)))
    ∧ (path ≠ 2 ∨ regFld s.dev .upMctp port 31 31 = 1 → ReadsNow s (.bmc path) → ∀ page t i,
        page < 0x4000 → pageOf page = some (t, i) → t ≠ .tim →
        exec (.regRead path port (4096 * page + 0x14) 4) s = .next (after s (emit
          (.sideband path ([1, 0x90, 0, 0] ++ leBytes 8 (regGet s.dev .pgStat page &&& 0xFFFFFFFF#64).toNat))
          (regSet .pgStat page 0 s.dev))))
    ∧ exec .smbusClockLowTimeout s = .next (after s (if bit s.dev.straps 4 then emit .sidebandRelease s.dev else s.dev))

/-- R436, R491, R492, R496: a freeze source stops the TC9640 when its condition holds, with its SRC bit and DEVTIME held; without
its condition it sets its MASKED bit. Either way it sets the freeze-request latch. A source that comes before the sequence has ended
is recorded, and one behind FROZEN changes nothing. (The sequence ends with the next idle step: Obligations.IdleNanosecond.) -/
def Sys2Proof.Machine.FreezeSources : Prop :=
  ∀ (s : State) (v : Word),
    let freezes := fun (src : Nat) (d : Dev) =>
      let d := latchSet 0x3F90 d
      let d := regSetFld .fzStat 0 src src 1 d
      { regSet .fzTime 0 d.devtime d with frozen := true }
    let masked := fun (src : Nat) (d : Dev) => regSetFld .fzStat 0 (src + 4) (src + 4) 1 (latchSet 0x3F90 d)
    let tap := { s.dev with tapIr := 0x10 }
    let noted := fun (src : Nat) (ok : Bool) (d : Dev) => if ok then regSetFld .fzStat 0 src src 1 d
      else regSetFld .fzStat 0 (src + 4) (src + 4) 1 d
    (s.dev.frozen = true → s.dev.frozenPin = true →
      exec .freezeNFall s = .next s ∧ exec .jtagFreeze s = .next { s with dev := tap })
    ∧ (s.dev.frozen = true → s.dev.frozenPin = false →
      exec .freezeNFall s = .next { s with dev := noted 0 (decide (regFld s.dev .fzPol 0 0 0 = 1)) s.dev }
      ∧ exec .jtagFreeze s = .next { s with dev := noted 1 (decide (regFld s.dev .glDbgpol 0 1 1 = 1)) tap })
    ∧ (s.dev.frozen = false →
      (regFld s.dev .fzPol 0 0 0 = 1 → exec .freezeNFall s = .next { s with dev := freezes 0 s.dev })
      ∧ (regFld s.dev .fzPol 0 0 0 = 0 → exec .freezeNFall s = .next (after s (masked 0 s.dev)))
      ∧ (regFld s.dev .glDbgpol 0 1 1 = 1 → exec .jtagFreeze s = .next { s with dev := freezes 1 tap })
      ∧ (regFld s.dev .glDbgpol 0 1 1 = 0 → exec .jtagFreeze s = .next (after s (masked 1 tap))))
    ∧ (∀ o, Passes s o 12 0x800 [4, 0] →
      (bit v 31 = true → exec (.fzCtlGo o v) s = .next (wrote s o 12 0x800 4 (v.zeroExtend 64) (freezes 2)))
      ∧ (bit v 31 = false → exec (.fzCtlGo o v) s = .next (idleWrite s o 12 0x800 4 (v.zeroExtend 64))))

/-- R499, R500, R501, R502, R503, R504, R565: what each instruction of the test access port shifts out and changes. A dump
reads zeros outside a freeze, past the end of a region, for one that is absent, where it would show keys (R484; which words
are free, log entry 95), and, but for the header, when JRD is 0; else the bytes that stand there, and DUMP_CRC follows them. -/
def Sys2Proof.Machine.TestAccessPort : Prop :=
  ∀ s : State,
    let d := s.dev
    (exec .idcode s = .next (after s (emit (.tdo 32 (BitVec.ofNat 128
        (0x10000000 + 0x9640 * 4096 + 2 * (Config.idManufacturer.toNat % 2048) + 1))) { d with tapIr := 0x01 }))
     ∧ exec .tapReset s = .next (after s { d with tapIr := 0x01 })
     ∧ (∀ l, exec (.extest l) s = .next (after s (emit (.boundary l) { d with tapIr := 0x00, bsr := l })))
     ∧ (∀ p l, exec (.samplePreload p l) s = .next (after s (emit (.scan p) { d with tapIr := 0x02, bsr := l })))
     ∧ (∀ b, exec (.bypass b) s = .next (after s (emit (.tdo 2 (if b then 2 else 0)) { d with tapIr := 0xFF }))))
    ∧ (∀ v, exec (.dumpSel v) s = .next (after s { d with
        tapIr := 0x11, dumpSel := v, dumpOff := bits v 47 0, dumpCrc := 0, dumpUe := 0 }))
    ∧ exec .dumpCrc s = .next (after s (emit (.tdo 64 (BitVec.ofNat 128 (d.dumpUe % 2 ^ 32 * 2 ^ 32 + d.dumpCrc.toNat)))
        { d with tapIr := 0x13 }))
    ∧ (∀ on, exec (.maint on) s = .next (after s (if d.frozenPin then
        regSetFld .hbStat 0 31 30 (if on then 2 else 1) { d with tapIr := 0x14, maint := on } else { d with tapIr := 0x14 })))
    ∧ (∀ ue,
        let (w, e) := dumpWord (bits d.dumpSel 63 56) (bits d.dumpSel 55 48) d.dumpOff d
        exec (.dumpData ue) s = .next (after s (emit (.tdo 64 (BitVec.ofNat 128 w)) { e with
          tapIr := 0x12, dumpOff := d.dumpOff + 8, dumpCrc := crcMore d.dumpCrc (leBytes 8 w)
          dumpUe := d.dumpUe + (if ue then 1 else 0) })))
    ∧ (∀ i off,
        (d.frozenPin = false → ∀ r, dumpWord r i off d = (0, d))
        ∧ (regFld d .glDbgpol 0 0 0 = 0 → ∀ r, r ≠ 0 → dumpWord r i off d = (0, d))
        ∧ (∀ r, r = 0x02 ∨ r = 0x0D → Config.showsKeys r off = true → dumpWord r i off d = (0, d))
        ∧ (∀ r, r = 0x0E ∨ r = 0x0F ∨ 0x11 ≤ r → dumpWord r i off d = (0, d))
        ∧ (72 ≤ i ∨ 0x20000 ≤ off → dumpWord 0x03 i off d = (0, d) ∧ dumpWord 0x04 i off d = (0, d))
        ∧ (64 ≤ i ∨ 0x100000 ≤ off → dumpWord 0x07 i off d = (0, d))
        ∧ (d.frozenPin = true → regFld d .glDbgpol 0 0 0 = 1 →
          (i < 72 → off < 0x20000 → dumpWord 0x03 i off d = (leNat (memRead (cpGet d i).iram off 8), d)
            ∧ dumpWord 0x04 i off d = (leNat (memRead (cpGet d i).dram off 8), d))
          ∧ (i < 64 → off < 0x100000 → dumpWord 0x07 i off d = (leNat (memRead d.plaza (0x100000 * i + off) 8), d)))
        ∧ (d.frozenPin = true → dumpWord 0 0 0x10 d = ((regGet d .fzTime 0).toNat, d) ∧ dumpWord 0 0 0x20 d = (d.jnHead, d)
            ∧ (dumpWord 0 0 0 d).1 % 2 ^ 40 = 0x01_4D44_4354))
    ∧ (d.frozen = true → ∀ wr w64 off v, exec (.regacc wr w64 off v) s = .next s)
    ∧ (d.frozen = false → ∀ w64 off v,
        let e := { d with tapIr := 0x15 }
        let size := if w64 then 8 else 4
        let behind := d.auWait.any (fun x => !x.rd && decide (x.origin = .jtag)) = true
        exec (.regacc true w64 off v) s = .next (after s (emit (.tdo 96 (v.zeroExtend 128)) (barWrite .jtag off size v e)))
        ∧ (sizeOk off size = true → ¬ behind → exec (.regacc false w64 off v) s = .next (after s
            (emit (.tdo 96 ((barRead .jtag off size e).1.zeroExtend 128)) (barRead .jtag off size e).2)))
        ∧ (sizeOk off size = true → behind → exec (.regacc false w64 off v) s
          = .next (after s { e with auWait := d.auWait ++ [⟨true, .jtag, off, size, 0⟩] }))
        ∧ (sizeOk off size = false → exec (.regacc false w64 off v) s = .next (after s (emit
            (.tdo 96 (BitVec.ofNat 128 ((Config.freeValue d.freeCtr).toNat % 2 ^ 64))) { e with freeCtr := d.freeCtr + 1 }))))

/-- R436, R491, R492, R496, R499 to R504, R565: what freezes the TC9640, and what the test access port shifts out and
changes. -/
def Obligations.FreezeAndTap : Prop :=
  Sys2Proof.Machine.FreezeSources ∧ Sys2Proof.Machine.TestAccessPort

/-- R506, R507, R508, R509: DB_CPCTL.RESUME lets a stopped CP go on; DB_CPREG writes a register of a stopped CP for class
D; DB_SNAP copies the counters; DB_SWTRACE traces the value a CP writes; TR_RD loads a record. -/
def Obligations.DebugRegisters : Prop :=
  ∀ (s : State) (o : Origin) (v : Word) (q : DWord),
    let w := v.zeroExtend 64
    let cp := selOf (judged o 12 0x81C s.dev) o .dbCpsel
    let held := (cpGet s.dev cp).halted
    (Passes s o 12 0x81C [4, 0] →
      (bit v 31 = true → held = true → exec (.dbCpctlResume o v) s
        = .next (wrote s o 12 0x81C 4 w (cpMod cp (fun c => { c with run := .run, halted := false }))))
      ∧ (bit v 31 = false ∨ held = false → exec (.dbCpctlResume o v) s = .next (idleWrite s o 12 0x81C 4 w)))
    ∧ (∀ i, i < 35 → Passes s o 12 (0x820 + 4 * i) [4, 0] →
      (originClass o = 4 → exec (.dbCpregWrite o i v) s = .next (deniedWrite s o 12 (0x820 + 4 * i) 4 w))
      ∧ (originClass o = 0 → held = false → exec (.dbCpregWrite o i v) s = .next (ignoredWrite s o 12 (0x820 + 4 * i) 4 w id))
      ∧ (originClass o = 0 → held = true → exec (.dbCpregWrite o i v) s
        = .next (wrote s o 12 (0x820 + 4 * i) 4 w (cpMod cp (fun c =>
            if i < 32 then gWrite i v c else if i = 32 then lkWrite v c else if i = 33 then { c with pc := v }
            else srRestore v c)))))
    ∧ (Passes s o 12 0x100 [4, 1, 0] →
      (bit v 0 = false → exec (.dbSnapGo o v) s = .next (idleWrite s o 12 0x100 4 w))
      ∧ (bit v 0 = true → exec (.dbSnapGo o v) s = .next (wrote s o 12 0x100 4 w (fun d =>
          (List.range 8).foldl (fun d i => regSet .dbSnapCnt i (regGet d .dbCnt i) d) d))))
    ∧ (Passes s o 12 0x088 [4, 1, 0] →
      ((∀ k, o ≠ .cp k) → exec (.dbSwtrace o q) s = .next (deniedWrite s o 12 0x088 8 q))
      ∧ (∀ k, o = .cp k →
        exec (.dbSwtrace o q) s = .next (wrote s o 12 0x088 8 q (fun d =>
          if regFld d .trCtl 0 31 31 = 1 ∧ regFld d .trCtl 0 6 6 = 1 then
            let r : BitVec 256 := BitVec.ofNat 256 (d.devtime.toNat * 2 ^ 192 + q.toNat * 2 ^ 128
              + (cpidWord k).toNat * 2 ^ 96 + d.trHead % 2 ^ 32 * 2 ^ 64 + originId o % 2 ^ 16 * 2 ^ 48 + 6 * 2 ^ 40)
            let d := feedIn 4179 { d with trace := d.trace ++ [r], trHead := d.trHead + 1 }
            if d.trHead % 1048576 = 0 then pageEvent 12 1 d else d
          else d))))
    ∧ (Selects s o 12 0x060 .dbg → exec (.trRdWrite o q) s = .next (selected s o 12 .trRd q (fun d =>
        loadWords o .trData 8
          (((if q.toNat < d.trHead ∧ d.trHead - 16777216 ≤ q.toNat then d.trace[q.toNat - (d.trHead - d.trace.length)]?
             else none).getD 0).toNat) d)))

/-- R520, R522 to R528: a root port's link comes up, goes down, and loses or gains its device; containment; a lane fault
retires the lane and the port keeps the width its good lanes form. -/
def Sys2Proof.Machine.RootPortEvents : Prop :=
  ∀ (s : State) (p : Nat) (begun : List Nat), Running s → p < 32 →
    let d := s.dev
    let waits := d.ldAt.filter (fun e => e.1 ≠ p)
    let down := fun (ltssm : Nat) (d : Dev) =>
      let e := dpLink p ⟨ltssm, 0, 0, false, false, 0⟩ false d
      if regFld d .dpStat p 18 18 = 0 then e
      else sgLogPut 6 5 0 (0x100 + p) 0 { e with ldAt := e.ldAt.filter (fun x => x.1 ≠ p) ++ [(p, e.devtime)] }
    let lost := fun (qual : Nat) (d : Dev) => (lostSubs d (.dport p)).foldl (fun d n => loseSub qual begun n d) d
    (∀ st,
      let shut := dpAbsent d p = true ∨ regFld d .dpCtl p 31 31 = 1 ∨ regFld d .dpStat p 16 16 = 1 ∨ regFld d .thClk 0 2 2 = 0
      (shut → exec (.linkUp p st) s = .next (after s d))
      ∧ (¬ shut →
        let e := if d.lretry.contains p then regSetFld .avStat (p / 4) ((dpLanes d p).1 + (dpLanes d p).2 - 1) (dpLanes d p).1 0
            { d with lretry := d.lretry.filter (· ≠ p) } else d
        (dpMaxw e p = 0 → exec (.linkUp p st) s = .next (after s e))
        ∧ (dpMaxw e p ≠ 0 →
          let f := dpLink p { st with ltssm := 3 } true { e with ldAt := waits }
          let f := if pinsWith f 2 p = [] then regSetFld .dpStat p 17 17 1 f else f
          exec (.linkUp p st) s = .next (after s (pageEvent (0x40 + p) 0
            (if regFld d .dpStat p 18 18 = 1 then f else portLog (0x100 + p) true f))))))
    ∧ exec (.downstreamLinkDown p) s = .next (after s (down 0 d))
    ∧ (dpAbsent d p = true ∨ regFld d .dpStat p 17 17 = 1 →
        exec (.presenceChange p true begun) s = .next (after s (liveP (fun d => d) d)))
    ∧ (dpAbsent d p = true ∨ regFld d .dpStat p 17 17 = 0 →
        exec (.presenceChange p false begun) s = .next (after s (liveP (fun d => d) d)))
    ∧ (dpAbsent d p = false → regFld d .dpStat p 17 17 = 0 → exec (.presenceChange p true begun) s
        = .next (after s (liveP (fun d => slotPerst p false (slotPower p true (regSetFld .dpStat p 17 17 1 d))) d)))
    ∧ (dpAbsent d p = false → regFld d .dpStat p 17 17 = 1 → exec (.presenceChange p false begun) s
        = .next (after s (liveP (fun d =>
          let e := pageEvent (0x40 + p) 1 (down 0 (regSetFld .dpStat p 17 17 0 d))
          slotPerst p true (slotPower p false (lost 1 { e with ldAt := e.ldAt.filter (fun x => x.1 ≠ p) }))) d)))
    ∧ (d.ldAt.find? (fun e => e.1 = p) = none →
        exec (.linkDownWaitExpiry p begun) s = .next (after s (liveP (fun d => d) d)))
    ∧ (∀ t, d.ldAt.find? (fun e => e.1 = p) = some (p, t) → exec (.linkDownWaitExpiry p begun) s
        = .next (after s (liveP (fun d =>
          let e := advanceTo (t + BitVec.ofNat 64 (regFld d .dpLdwait p 15 0 * 1000000)) d
          lost 3 { e with ldAt := e.ldAt.filter (fun x => x.1 ≠ p) }) d)))
    ∧ (∀ why status,
      let barred := dpAbsent d p = true ∨ regFld d .dpStat p 16 16 = 1 ∨ why = .nonfatalMsg ∧ regFld d .dpCtl p 24 24 = 0
      (barred → exec (.containmentEntry p why status begun) s = .next (after s (liveP (fun d => d) d)))
      ∧ (¬ barred → exec (.containmentEntry p why status begun) s = .next (after s (liveP (fun d =>
          let e := emit (.link p "disabled") (pageEvent (0x40 + p) 2 (regSetFld .dpStat p 16 16 1
            (down 7 (regSet .dpAerunc p (status.zeroExtend 64) d))))
          let e := slotPerst p true (lost 2 { e with ldAt := e.ldAt.filter (fun x => x.1 ≠ p) })
          (e.ops.filter (fun x => decide (x.2.dport = p))).foldl (fun d x =>
            opTrouble x.1 2 (if begun.contains x.1 then .uncertain else .notIssued) status.toNat d) e) d))))
    ∧ (∀ st, exec (.downstreamErrorMessage p .cor st) s = .next (after s (regBump .dpAercor p d)))
    ∧ (∀ m st, m ≠ .cor →
        exec (.downstreamErrorMessage p m st) s = .next (after s (regSet .dpAerunc p (st.zeroExtend 64) d)))
    ∧ (∀ lane, lane < 16 → p % 4 = 0 →
      let a := p / 4
      (regFld d .avStat a lane lane = 1 → exec (.downstreamLaneFault a lane) s = .next (after s d))
      ∧ (regFld d .avStat a lane lane = 0 →
        let e := pageEvent (0x18 + a) 0 (repairUse 9 (regSetFld .avStat a lane lane 1 d))
        let q := p + (if regFld d .avStat a 31 30 = 0 then 0 else if regFld d .avStat a 31 30 = 1 then lane / 8 * 2 else lane / 4)
        let f := deviceFault 2 6 (16 * a + lane) (pageEvent (0x40 + q) 3 e)
        exec (.downstreamLaneFault a lane) s = .next (after s
          (if regFld f .dpStat q 18 18 = 0 then f
           else if dpMaxw f q = 0 then dpDown q 0 f
           else regSetFld .dpStat q 24 20 (min (dpMaxw f q) (regFld f .dpStat q 24 20)) f))))

/-- R522, R523, R367: a request from below a root port reaches the message window with a 4-byte write, and Plaza through an
open window; any other is refused, counted and recorded, a read with Unsupported Request. -/
def Sys2Proof.Machine.DownstreamRequests : Prop :=
  ∀ (s : State) (p : Nat) (a : DWord) (len : Nat) (b : List Byte) (opened : Bool), Running s → p < 32 →
    let d := s.dev
    let refused := pageEvent (0x40 + p) 5 (regSet .dpBadaddr p a (regBump .dpBadreq p d))
    let off := a.toNat - 0x10000000000
    let window := 0xFFFFF00000 ≤ a.toNat ∧ a.toNat < 0xFFFFF01000
    let reach := fun (m : Nat) => 0x10000000000 ≤ a.toNat ∧ 0 < m ∧ off + m ≤ 0x4000000 ∧ opened = true
      ∧ ∀ x, off / 4096 ≤ x → x ≤ (off + m - 1) / 4096 → windowOpen d p x = true
    (window → b.length = 4 → a.toNat % 4 = 0 →
      (leNat b < 4096 → exec (.downstreamRequest p true a len b opened) s = .next (after s (srcFire (leNat b) d)))
      ∧ (4096 ≤ leNat b → exec (.downstreamRequest p true a len b opened) s
          = .next (after s (pageEvent 4 3 (regBump .jcBadmsg 0 d)))))
    ∧ (window → (b.length ≠ 4 ∨ a.toNat % 4 ≠ 0) →
        exec (.downstreamRequest p true a len b opened) s = .next (after s refused))
    ∧ (window → exec (.downstreamRequest p false a len b opened) s = .next (after s (emit (.devAnswer p 1 []) refused)))
    ∧ (reach b.length →
        exec (.downstreamRequest p true a len b opened) s = .next (after s { d with plaza := memWrite d.plaza off b }))
    ∧ (reach len →
      (refilling d off len = [] → exec (.downstreamRequest p false a len b opened) s
        = .next (after s (emit (.devAnswer p 0 (memRead d.plaza off len)) d)))
      ∧ (∀ k, refilling d off len = [k] → exec (.downstreamRequest p false a len b opened) s
        = .next (after s (joinRefill k (.device p (windowOp d p (off / 4096)) off len) d))))
    ∧ (¬ window → ¬ reach b.length → exec (.downstreamRequest p true a len b opened) s = .next (after s refused))
    ∧ (¬ window → ¬ reach len →
        exec (.downstreamRequest p false a len b opened) s = .next (after s (emit (.devAnswer p 1 []) refused)))

/-- R367, R520, R522 to R528: links, presence, containment and lane faults of a root port, and what a request from
below it reaches. -/
def Obligations.RootPorts : Prop :=
  Sys2Proof.Machine.RootPortEvents ∧ Sys2Proof.Machine.DownstreamRequests

/-- R512 to R515, R519, R130, R168: an upstream port's link state, invalidations, and the configuration space of its
functions. -/
def Sys2Proof.Machine.UpstreamPorts : Prop :=
  ∀ (s : State) (u v : Nat), Running s → u < 2 → v ≤ 64 →
    let d := s.dev
    let f : FnId := ⟨u, v⟩
    let x := fnGet d f
    (∀ st,
      (8 < st.ltssm ∨ regFld d .upStat u 15 15 = 1 → exec (.upstreamLinkStateChange u st) s = .next (after s d))
      ∧ (st.ltssm ≤ 8 → regFld d .upStat u 15 15 = 0 →
        let now := regFld d .upStat u 31 28
        let st2 := if regFld d .thClk 0 u u = 0 ∧ (st.ltssm = 6 ∨ ¬ (3 ≤ now ∧ now ≤ 6)) then linkDetect else st
        let w := upStatWord st2 0
        let e := regSet .upStat u w d
        let e := if bits w 31 20 ≠ regFld d .upStat u 31 20 then pageEvent (0x10 + u) 2 e else e
        let e := if st2.ltssm = 6 ∧ now ≠ 6 then pageEvent (0x10 + u) 3 (regBump .upRecov u e) else e
        exec (.upstreamLinkStateChange u st) s
          = .next (after s (upPortIs u (decide (3 ≤ st2.ltssm ∧ st2.ltssm ≤ 6)) e))))
    ∧ (∀ a pages,
        let e := regBump .upAtsinv u { d with xlate := d.xlate.filter (fun e =>
          !(decide (e.1 = fnKey f) && decide (a.toNat / 4096 ≤ e.2.1) && decide (e.2.1 < a.toNat / 4096 + pages))) }
        let under := (hostReads d).filter (fun r => decide (r.1 = f) && x.ats
          && decide (r.2.1.toNat / 4096 < a.toNat / 4096 + pages) && decide (a.toNat / 4096 ≤ (r.2.1.toNat + r.2.2 - 1) / 4096))
        (under = [] → exec (.atsInvalidation f a pages) s = .next (after s (emit (.message u "ATS Invalidate Completion") e)))
        ∧ (under ≠ [] → exec (.atsInvalidation f a pages) s
            = .next (after s { e with invals := d.invals ++ [⟨u, false, under⟩] })))
    ∧ (∀ i, d.invals = [i] →
        ((∀ r ∈ i.reads, r ∉ hostReads d) → invalSweep d = (if i.flush then { d with invals := [] }
            else emit (.message i.port "ATS Invalidate Completion") { d with invals := [] }))
        ∧ (i.reads ≠ [] → (∀ r ∈ i.reads, r ∈ hostReads d) → invalSweep d = d))
    ∧ (∀ n, exec (.configurationWrite ⟨u, 0⟩ (.vfEnable n)) s = .next (after s
          (fnSet ⟨u, 0⟩ { fnGet d ⟨u, 0⟩ with vfEnable := true, numVfs := min n 64 } d))
        ∧ (0 < v → exec (.configurationWrite f (.vfEnable n)) s = .next (after s d)))
    ∧ exec (.configurationWrite f (.ats true)) s = .next (after s (fnSet f { x with ats := true } d))
    ∧ exec (.configurationWrite f (.ats false)) s = .next (after s (fnSet f { x with ats := false }
        { d with xlate := d.xlate.filter (fun e => e.1 ≠ fnKey f) }))
    ∧ (∀ on, exec (.configurationWrite f (.pasid on)) s = .next (after s (fnSet f { x with pasid := on } d))
        ∧ exec (.configurationWrite f (.ptm on)) s
          = .next (after s (if v = 0 then fnSet f { x with ptm := on } d else d))
        ∧ exec (.configurationWrite f (.busMaster on)) s = .next (after s (fnSet f { x with busMaster := on } d))
        ∧ exec (.configurationWrite f (.pmeEn on)) s = .next (after s (fnSet f { x with pmeEn := on } d)))
    ∧ exec (.configurationWrite f .pmeClear) s = .next (after s (fnSet f { x with pmeStatus := false } d))
    ∧ exec (.configurationWrite f (.msixMask true)) s = .next (after s (fnSet f { x with msixMask := true } d))
    ∧ (let sent := x.pba.filter (fun v => !(x.vecMask.contains v))
       exec (.configurationWrite f (.msixMask false)) s = .next (after s (sent.foldl (fun d v =>
         if x.d3hot = false then emit (.msix f v) (fnSet f { fnGet d f with pba := (fnGet d f).pba.filter (· ≠ v) } d)
         else if x.pmeEn = true then emit (.pme f) (fnSet f { fnGet d f with pmeStatus := true } d) else d)
           (fnSet f { x with msixMask := false } d))))
    ∧ (∀ n, (n ∈ x.vecMask → exec (.configurationWrite f (.vecMask n)) s = .next (after s d))
        ∧ (n ∉ x.vecMask → exec (.configurationWrite f (.vecMask n)) s
          = .next (after s (fnSet f { x with vecMask := x.vecMask ++ [n] } d))))

/-- R515, R519, R520, R527 to R530: writes of DP_CTL, whose RELEASE ends containment, whose RETRAIN retrains, and whose LDIS
and PWRON act when they change, with the avenue's REFCLKOUT (R548); DP_LRETRY; AV_CFG, ignored while a port of the avenue is enabled; and UP_ATC.FLUSH, which reads 1 until
the reads sent under the dropped translations have been answered. -/
def Sys2Proof.Machine.LinkRegisters : Prop :=
  ∀ (s : State) (o : Origin) (v : Word),
    let w := v.zeroExtend 64
    (∀ p, p < 32 → Passes s o (0x40 + p) 0x060 [4, 1] →
      let m := merged s o (0x40 + p) 0x060 w 0xFFC00000
      let z := if bits v 29 27 = 0 ∨ bits v 29 27 = 7 then setBits m 29 27 6 else m
      let t := wrote s o (0x40 + p) 0x060 4 w (fun d =>
        let was := regGet d .dpCtl p
        let before := d
        let d := regSet .dpCtl p (z &&& ~~~0x40400000#64) d
        let d := if bit v 31 = bit was 31 then d
          else if bit v 31 = true then emit (.link p "disabled") (dpDown p 7 d)
          else emit (.link p "train") (dpLink p linkDetect false
            (regSetFld .avStat (p / 4) 31 30 (regFld d .avCfg (p / 4) 31 30) d))
        let d := if bit v 23 = bit was 23 then d else slotPower p (bit v 23) d
        let d := if bit v 22 = true ∧ regFld d .dpStat p 16 16 = 1 then
            emit (.link p "retrain") (slotPerst p false (regSetFld .dpStat p 16 16 0 (dpLink p linkDetect false d)))
          else d
        let d := if bit v 30 = true then
            (let d := emit (.link p "retrain") { d with scWait := d.scWait.filter (· ≠ (1, p)) ++ [(1, p)] }
             if regFld d .dpStat p 18 18 = 1 then regSetFld .dpStat p 31 28 6 d else d)
          else d
        (List.range 8).foldl (fun (t : Dev) a => if refclkOut before a = refclkOut t a then t
          else emit (.link (32 + a) (if refclkOut t a then "REFCLKOUT running" else "REFCLKOUT stopped")) t) d)
      exec (.dpRelease o p v) s = .next t ∧ exec (.dpRetrain o p v) s = .next t)
    ∧ (∀ p, p < 32 → Passes s o (0x40 + p) 0x800 [4, 1, 0] →
      (bit v 0 = true → exec (.dpLretryGo o p v) s = .next (wrote s o (0x40 + p) 0x800 4 w (fun d =>
        { d with lretry := d.lretry.filter (· ≠ p) ++ [p] })))
      ∧ (bit v 0 = false → exec (.dpLretryGo o p v) s = .next (idleWrite s o (0x40 + p) 0x800 4 w)))
    ∧ (∀ a, a < 8 → Passes s o (0x18 + a) 0x800 [4, 1, 0] →
      let bad := bits v 31 30 = 3 ∨ bits v 31 30 ≠ regFld s.dev .avCfg a 31 30
        ∧ ∃ p, 4 * a ≤ p ∧ p < 4 * a + 4 ∧ bifAbsent (regFld s.dev .avStat a 31 30) p = false ∧ regFld s.dev .dpCtl p 31 31 = 0
      (bad → exec (.avCfgBifWrite o a v) s = .next (ignoredWrite s o (0x18 + a) 0x800 4 w id))
      ∧ (¬ bad → exec (.avCfgBifWrite o a v) s = .next (wrote s o (0x18 + a) 0x800 4 w
          (regSet .avCfg a (merged s o (0x18 + a) 0x800 w 0xC0000000)))))
    ∧ (∀ u, u < 2 → Passes s o (0x10 + u) 0x804 [4, 1, 0] →
      (bit v 31 = true → exec (.upAtcFlush o u v) s = .next (wrote s o (0x10 + u) 0x804 4 w (fun d =>
        let under := (hostReads d).filter (fun r => decide (r.1.port = u) && (fnGet d r.1).ats
          && decide (r.2.1.toNat / 4096 < 2 ^ 52) && decide (0 ≤ (r.2.1.toNat + r.2.2 - 1) / 4096))
        let e := { d with xlate := d.xlate.filter (fun x => x.1 / 65 ≠ u) }
        if under = [] then e else { e with invals := d.invals ++ [⟨u, true, under⟩] })))
      ∧ (bit v 31 = false → exec (.upAtcFlush o u v) s = .next (idleWrite s o (0x10 + u) 0x804 4 w)))

/-- R130, R168, R512 to R515, R519, R520, R527 to R530: link states, invalidations, configuration writes, and the
writes of DP_CTL, DP_LRETRY, AV_CFG and UP_ATC. -/
def Obligations.PortRegisters : Prop :=
  Sys2Proof.Machine.UpstreamPorts ∧ Sys2Proof.Machine.LinkRegisters

/-- R531, R532, R533, R534, R566: a PTM dialog steps DEVTIME forward or starts a slew; an event timer fires, once, and is
set to its next time after DEVTIME or stops; the pins in functions IN, OUT, PPS_IN and TMR_OUT. -/
def Obligations.TimersAndPins : Prop :=
  ∀ (s : State), Running s →
    let d := s.dev
    (∀ o : DWord,
      let src := regFld d .tbCtl 0 31 30
      let asks := src < 2 ∧ (fnGet d ⟨src, 0⟩).ptm = true ∧ (regFld d .upStat src 31 28 = 3 ∨ regFld d .upStat src 31 28 = 4)
      let e := regSet .tbOffset 0 o d
      (¬ asks → exec (.ptmDialog o) s = .next (after s d))
      ∧ (asks → o.toInt ≤ (regFld d .tbStep 0 31 0 * 1000 : Nat) → exec (.ptmDialog o) s
          = .next (after s { e with ptmAt := some d.devtime, slew := o.toInt, slewCnt := 0 }))
      ∧ (asks → (regFld d .tbStep 0 31 0 * 1000 : Nat) < o.toInt →
          let f := pageEvent 8 16 (regBump .tbSteps 0 { e with devtime := d.devtime + o, slew := 0, slewCnt := 0 })
          exec (.ptmDialog o) s = .next (after s { f with ptmAt := some (d.devtime + o) })))
    ∧ (∀ t, (256 ≤ t ∨ regFld d .tmCtl t 31 31 = 0 → exec (.timerFiring t) s = .next (after s d))
      ∧ (t < 256 → regFld d .tmCtl t 31 31 = 1 →
        let cmp := regGet d .tmCmp t
        let e := moverTimer t (srcFire (0x2000 + t) (regBump .tmFires t (advanceTo cmp d)))
        let f := (pinsWith e 8 t).foldl (fun d n => emit (.gpioPulse n) d) e
        let per := (regGet f .tmPeriod t).toNat
        (per = 0 → exec (.timerFiring t) s = .next (after s (regSetFld .tmCtl t 31 31 0 f)))
        ∧ (∀ k, per ≠ 0 → 1 ≤ k → cmp.toNat + (k - 1) * per ≤ f.devtime.toNat → f.devtime.toNat < cmp.toNat + k * per →
            let g := regSet .tmCmp t (BitVec.ofNat 64 (cmp.toNat + k * per)) f
            exec (.timerFiring t) s = .next (after s (if k = 1 then g else pageEvent 8 18 (regAdd .tmMiss t (k - 1) g))))))
    ∧ (∀ n level,
      let l := if level then 1 else 0
      (16 ≤ n ∨ regFld d .tmGpioIn 0 n n = l → exec (.gpioInputChange n level) s = .next (after s d))
      ∧ (n < 16 → regFld d .tmGpioIn 0 n n ≠ l →
        let e := regSetFld .tmGpioIn 0 n n l d
        exec (.gpioInputChange n level) s = .next (after s (if (pinFn d n).1 = 0 then pageEvent 8 n e else e))))
    ∧ (∀ n, (16 ≤ n ∨ (pinFn d n).1 ≠ 7 → exec (.ppsInEdge n) s = .next (after s d))
        ∧ (n < 16 → (pinFn d n).1 = 7 → exec (.ppsInEdge n) s
          = .next (after s (pageEvent 8 17 (regSet .tbCap 0 d.devtime (regSetFld .tmGpioIn 0 n n 1 d))))))
    ∧ (∀ o (v : Word), Passes s o 8 0x0C8 [4, 3, 2, 1] →
        exec (.tmGpioSet o v) s = .next (wrote s o 8 0x0C8 4 (v.zeroExtend 64) (fun d =>
          ((List.range 16).filter (fun n => bit v n && holds s.dev o 0 n && decide ((pinFn d n).1 = 1))).foldl
            (fun d n => emit (.gpio n true) (regSetFld .tmGpioOut 0 n n 1 d)) d)))
    ∧ (∀ o (v : Word), Passes s o 8 0x0CC [4, 3, 2, 1] →
        exec (.tmGpioClr o v) s = .next (wrote s o 8 0x0CC 4 (v.zeroExtend 64) (fun d =>
          ((List.range 16).filter (fun n => bit v n && holds s.dev o 0 n && decide ((pinFn d n).1 = 1))).foldl
            (fun d n => emit (.gpio n false) (regSetFld .tmGpioOut 0 n n 0 d)) d)))

/-- R555, R556, R557, R558: the sensors and the power estimate are read, WARN and the throttle follow the hottest sensor,
the third sample in a row of a sensor at 120 °C or more trips, in a frozen TC9640 too; and each step takes the next stage
down, or undoes the last one. -/
def Sys2Proof.Machine.ThermalControl : Prop :=
  ∀ (s : State),
    (∀ (tj : List (BitVec 16)),
      let d := s.dev
      let t := fun (i : Nat) => lget tj i 0#16
      let count := (List.range 12).map (fun i => if (t i).toInt < 1920 then 0 else lget d.hot i 0 + 1)
      let trips := d.thermtrip = false ∧ ∃ i, i < 12 ∧ 3 ≤ lget count i 0
      let latch := fun (d : Dev) => latchSet 0x3F91 { d with thermtrip := true }
      (d.frozen = true → ¬ trips → exec (.thermalSample tj) s = .next { s with dev := { d with hot := count } })
      ∧ (d.frozen = true → trips → exec (.thermalSample tj) s = .next { s with dev := latch { d with hot := count } })
      ∧ (∀ top, d.frozen = false → (∃ i, i < 12 ∧ t i = top) → (∀ i, i < 12 → (t i).toInt ≤ top.toInt) →
        let was := tjOf (regFld d .thStat 0 15 0)
        let warn := tjOf (regFld d .thWarn 0 15 0)
        let thr := tjOf (regFld d .thThrot 0 15 0)
        let e := regSetFld .thStat 0 15 0 top.toNat
          ((List.range 12).foldl (fun d i => regSetFld .thTj i 15 0 (t i).toNat d) { d with hot := count })
        let e := if warn ≤ top.toInt ∧ was < warn then pageEvent 10 0 e else e
        let e := if thr ≤ top.toInt then throttleOn 30 e
          else if top.toInt ≤ thr - 48 ∧ regFld e .thStat 0 30 30 = 1 then throttleOff 30 e else e
        (¬ trips → exec (.thermalSample tj) s = .next (after s e))
        ∧ (trips →
          let f := fatalFault (regSetFld .thStat 0 31 31 1 (latch e))
          exec (.thermalSample tj) s = .next (after s (if f.frozen then f
            else (List.range 8).foldl (fun d e => regSetFld .dsStat e 24 24 1 d) { f with thrDuty := 0 })))))
    ∧ (Running s → ∀ w8 : BitVec 16,
      let d := regSetFld .thPwr 0 15 0 w8.toNat s.dev
      let lim := 8 * regFld d .thPlim 0 15 0
      (lim < w8.toNat → exec (.powerLimitSample w8) s = .next (after s (throttleOn 29 d)))
      ∧ (w8.toNat ≤ lim → 100 * w8.toNat ≤ 95 * lim → regFld d .thStat 0 29 29 = 1 →
          exec (.powerLimitSample w8) s = .next (after s (throttleOff 29 d)))
      ∧ (w8.toNat ≤ lim → (95 * lim < 100 * w8.toNat ∨ regFld d .thStat 0 29 29 = 0) →
          exec (.powerLimitSample w8) s = .next (after s d)))
    ∧ (Running s →
      let d := s.dev
      let on := regFld d .thStat 0 30 29 ≠ 0
      let ends := fun (e : Dev) => exec .throttleStep s = .next (after s (regSetFld .thStat 0 28 27
        (if e.thrDuty < 8 then 2 else if e.thrCap < Config.ceilingMHz ∨ on then 1 else 0) e))
      (on → 2800 < d.thrCap → ends { d with thrCap := max 2800 (d.thrCap - 100), thrWait := 0 })
      ∧ (on → d.thrCap ≤ 2800 → d.thrWait < 10 → ends { d with thrWait := d.thrWait + 1 })
      ∧ (on → d.thrCap ≤ 2800 → 10 ≤ d.thrWait → ends { d with thrDuty := max 4 (d.thrDuty - 1) })
      ∧ (¬ on → d.thrDuty < 8 → ends { d with thrDuty := d.thrDuty + 1 })
      ∧ (¬ on → 8 ≤ d.thrDuty → d.thrCap < Config.ceilingMHz → ends { d with thrCap := min Config.ceilingMHz (d.thrCap + 100) })
      ∧ (¬ on → 8 ≤ d.thrDuty → Config.ceilingMHz ≤ d.thrCap → ends d))
    ∧ (∀ (b : Nat) (d : Dev), b = 29 ∨ b = 30 →
        (regFld d .thStat 0 b b = 1 → throttleOn b d = d)
        ∧ (regFld d .thStat 0 b b = 0 →
          let e := if regFld d .thStat 0 28 27 = 0 then regBump .thThrcnt 0 d else d
          throttleOn b d = stageNote (pageEvent 10 (if b = 30 then 1 else 2) (regSetFld .thStat 0 b b 1 e)))
        ∧ throttleOff b d = stageNote (regSetFld .thStat 0 b b 0 { d with thrWait := 0 }))

/-- R432, R461, R463, R543, R545, R547, R554: commands and reports of the VDD_CP regulator, failures of rails, clocks and
PLLs, the canaries and the frequency of a district, its clock gate, and another powered hour. -/
def Sys2Proof.Machine.PowerAndClocks : Prop :=
  ∀ (s : State), Running s →
    let d := s.dev
    let clocks := fun (was d : Dev) => (List.range 8).foldl (fun (t : Dev) a => if refclkOut was a = refclkOut t a then t
      else emit (.link (32 + a) (if refclkOut t a then "REFCLKOUT running" else "REFCLKOUT stopped")) t) d
    (∀ want now : Nat, now = regFld d .thVreq 0 15 0 →
        (∀ e, e < 8 → regFld d .dsVneed e 15 0 ≤ want ∨ 900 ≤ want) → want ≤ 900 → 650 ≤ want → want % 5 = 0 →
        (want = 650 ∨ ∃ e, e < 8 ∧ want < regFld d .dsVneed e 15 0 + 5) →
        let v := if now < want then min want (now + 25) else max want (now - 25)
        let e := advanceTo 200000000 d
        (d.avsPend = none → v ≠ now → exec .avsbusCommand s = .next (after s (emit (.avs v) (regSetFld .thVreq 0 15 0 v
          { e with avsPend := some (v, e.devtime + 200000) }))))
        ∧ (d.avsPend ≠ none ∨ v = now → exec .avsbusCommand s = .next (after s e)))
    ∧ (d.avsPend = none → exec .avsbusTimeout s = .next (after s d) ∧ exec (.avsbusReport false) s = .next (after s d)
        ∧ exec (.avsbusReport true) s = .next (after s (fatalFault d)))
    ∧ (∀ v due, d.avsPend = some (v, due) →
        exec .avsbusTimeout s = .next (after s (fatalFault (advanceTo due { d with avsPend := none })))
        ∧ exec (.avsbusReport false) s = .next (after s { d with avsPend := none })
        ∧ exec (.avsbusReport true) s = .next (after s (fatalFault { d with avsPend := none })))
    ∧ (∀ r, exec (.railFailure r) s = .next (after s (if r < 10 then fatalFault d else d)))
    ∧ (∀ w, exec (.pllFailure w) s = .next (after s (if w < 3 then fatalFault d
          else if w = 3 then fatalFault (regSetFld .thClk 0 3 3 0 d) else d)))
    ∧ (let u := (Config.freeValue d.freeCtr).toNat % 256
       let i := (Config.freeValue (d.freeCtr + 1)).toNat % 1048576
       fatalFault d = deviceFault 4 u i { d with freeCtr := d.freeCtr + 2 })
    ∧ (∀ c, (3 ≤ c ∨ regFld d .thClk 0 c c = 0 → exec (.refclkLoss c) s = .next (after s d))
      ∧ (3 ≤ c ∨ regFld d .thClk 0 c c = 1 → exec (.refclkValid c) s = .next (after s d))
      ∧ (c < 2 → regFld d .thClk 0 c c = 1 →
          exec (.refclkLoss c) s = .next (after s (pageEvent 10 3 (regSetFld .thClk 0 c c 0 d))))
      ∧ (c < 3 → regFld d .thClk 0 c c = 0 → exec (.refclkValid c) s = .next (after s
          (clocks d (regSetFld .thClk 0 c c 1 d)))))
    ∧ (regFld d .thClk 0 2 2 = 1 →
        let e := clocks d (pageEvent 10 3 (regSetFld .thClk 0 2 2 0 d))
        let e := (List.range 32).foldl (fun d p => dpDown p 0 d) e
        exec (.refclkLoss 2) s = .next (after s (deviceFault 2 ((Config.freeValue e.freeCtr).toNat % 256)
          ((Config.freeValue (e.freeCtr + 1)).toNat % 1048576) { e with freeCtr := e.freeCtr + 2 })))
    ∧ (∀ e,
        let rests := e < 8 ∧ regFld d .thGate 0 31 31 = 1
          ∧ (∀ i, 9 * e ≤ i → i < 9 * e + 9 → (cpGet d i).role = .inService → (cpGet d i).run = .wait)
          ∧ ∀ p ∈ d.pres, p.cp / 9 ≠ e
        (rests → exec (.districtGate e) s = .next (after s (regSetFld .dsStat e 24 24 1 d)))
        ∧ (¬ rests → exec (.districtGate e) s = .next (after s d)))
    ∧ (∀ e mhz need slack rosc, 8 ≤ e → exec (.districtCanarySample e mhz need slack rosc) s = .next (after s d))
    ∧ (∀ e mhz need (slack rosc : BitVec 16), e < 8 → need < 65536 → ∃ t,
        exec (.districtCanarySample e mhz need slack rosc) s = .next (after s t)
        ∧ (let c := regFld d .dsFcap e 15 0
           let ceiling := if c = 0 then Config.ceilingMHz else min c Config.ceilingMHz
           let old := regFld d .dsFreq e 15 0
           let held := match d.avsPend with | none => regFld d .thVreq 0 15 0 | some (v, _) => v - 25
           let f := min mhz ceiling
           regFld t .dsFreq e 15 0 = (if old < f ∧ held < min need 900 then old else f)
           ∧ regFld t .dsVneed e 15 0 = need ∧ regFld t .dsVneed e 31 16 = regFld d .dsVneed e 31 16
           ∧ regGet t .dsCanary e = BitVec.ofNat 64 (rosc.toNat * 65536 + slack.toNat)
           ∧ (∀ k, k < 8 → k ≠ e → regGet t .dsFreq k = regGet d .dsFreq k ∧ regGet t .dsVneed k = regGet d .dsVneed k)))
    ∧ (∀ tj : BitVec 16,
        let e := regBump .rpHours 0 { d with tjSum := d.tjSum + tj.toInt }
        let h := regFld e .rpHours 0 31 0
        let avg := (d.tjSum + tj.toInt).fdiv h
        let f := regSetFld .rpTjavg 0 15 0 (BitVec.ofInt 16 avg).toNat e
        exec (.poweredHoursTick tj) s = .next (after s
          (if 1000 < h ∧ 1360 < avg ∧ regFld d .rpStat 0 28 28 = 0 then pageEvent 11 2 (regSetFld .rpStat 0 28 28 1 f) else f)))

/-- R432, R461, R463, R543, R545, R547, R554 to R558: sensors and throttling, the regulator, rails, clocks, canaries
and powered hours. -/
def Obligations.PowerAndThermal : Prop :=
  Sys2Proof.Machine.ThermalControl ∧ Sys2Proof.Machine.PowerAndClocks
end

