-- ==== Sys2Proof/Laws/Table.lean ====
section
/-!
SUPPORT. Sparse tables and memories: reading back what was written, leaving the rest alone, and keeping the canonical
form. No law but the last group assumes that a table is canonical.
-/
namespace Sys2Proof.Machine

open Sys2Proof

variable {α : Type}

theorem tget_tdel_self (t : Tbl α) (k : Nat) (d : α) : tget (tdel t k) k d = d := by
  induction t with
  | nil => rfl
  | cons e t ih =>
    obtain ⟨j, v⟩ := e
    by_cases h : j = k <;> simp [tdel, tget, h, ih]

theorem tget_tdel_other (t : Tbl α) {j k : Nat} (d : α) (h : j ≠ k) : tget (tdel t k) j d = tget t j d := by
  induction t with
  | nil => rfl
  | cons e t ih =>
    obtain ⟨m, v⟩ := e
    by_cases hm : m = k
    · have : m ≠ j := by omega
      simp [tdel, tget, hm, ih, Ne.symm h]
    · by_cases hj : m = j
      · subst hj; simp [tdel, tget, hm]
      · simp [tdel, tget, hm, hj, ih]

theorem tdel_idem (t : Tbl α) (k : Nat) : tdel (tdel t k) k = tdel t k := by
  induction t with
  | nil => rfl
  | cons e t ih =>
    obtain ⟨j, v⟩ := e
    by_cases h : j = k <;> simp [tdel, h, ih]

theorem tget_tins_self (t : Tbl α) (k : Nat) (v d : α) (h : tget t k d = d) (h' : ∀ e ∈ t, e.1 ≠ k) :
    tget (tins t k v) k d = v := by
  induction t with
  | nil => simp [tins, tget]
  | cons e t ih =>
    obtain ⟨j, w⟩ := e
    have hj : j ≠ k := h' (j, w) (by simp)
    by_cases hlt : k < j
    · simp [tins, tget, hlt]
    · simp only [tins, hlt, if_false, tget, hj]
      simp only [tget, hj, if_false] at h
      exact ih h (fun e he => h' e (by simp [he]))

theorem tget_tins_other (t : Tbl α) {j k : Nat} (v d : α) (h : j ≠ k) : tget (tins t k v) j d = tget t j d := by
  induction t with
  | nil => simp [tins, tget, Ne.symm h]
  | cons e t ih =>
    obtain ⟨m, w⟩ := e
    by_cases hlt : k < m
    · simp [tins, tget, hlt, Ne.symm h]
    · by_cases hm : m = j
      · subst hm; simp [tins, tget, hlt]
      · simp [tins, tget, hlt, hm, ih]

theorem tdel_keys (t : Tbl α) (k : Nat) : ∀ e ∈ tdel t k, e.1 ≠ k := by
  induction t with
  | nil => simp [tdel]
  | cons e t ih =>
    obtain ⟨j, v⟩ := e
    by_cases h : j = k
    · simpa [tdel, h] using ih
    · intro x hx
      simp only [tdel, h, if_false, List.mem_cons] at hx
      rcases hx with rfl | hx
      · exact h
      · exact ih x hx

theorem tdel_tins (t : Tbl α) (k : Nat) (v : α) (h : ∀ e ∈ t, e.1 ≠ k) : tdel (tins t k v) k = t := by
  induction t with
  | nil => simp [tins, tdel]
  | cons e t ih =>
    obtain ⟨j, w⟩ := e
    have hj : j ≠ k := h (j, w) (by simp)
    have ht : ∀ e ∈ t, e.1 ≠ k := fun e he => h e (by simp [he])
    have hd : tdel t k = t := by
      clear ih h
      induction t with
      | nil => rfl
      | cons e t ih =>
        obtain ⟨m, x⟩ := e
        have := ht (m, x) (by simp)
        simp only [tdel, this, if_false]
        rw [ih (fun e he => ht e (by simp [he]))]
    by_cases hlt : k < j
    · simp [tins, tdel, hlt, hj, hd]
    · simp [tins, tdel, hlt, hj, ih ht]

/-- Every key of a table is above k. -/
def keysAbove (k : Nat) (t : Tbl α) : Prop := ∀ e ∈ t, k < e.1

theorem tdel_above {t : Tbl α} {j k : Nat} (h : keysAbove j t) : keysAbove j (tdel t k) := by
  induction t with
  | nil => simp [keysAbove, tdel]
  | cons e t ih =>
    obtain ⟨m, w⟩ := e
    have ht : keysAbove j t := fun x hx => h x (by simp [hx])
    intro x hx
    by_cases hm : m = k
    · simp only [tdel, hm, if_true] at hx
      exact ih ht x hx
    · simp only [tdel, hm, if_false, List.mem_cons] at hx
      rcases hx with rfl | hx
      · exact h _ (by simp)
      · exact ih ht x hx

theorem tins_above {t : Tbl α} {j k : Nat} {v : α} (h : keysAbove j t) (hk : j < k) : keysAbove j (tins t k v) := by
  induction t with
  | nil => intro x hx; simp only [tins, List.mem_singleton] at hx; subst hx; exact hk
  | cons e t ih =>
    obtain ⟨m, w⟩ := e
    have ht : keysAbove j t := fun x hx => h x (by simp [hx])
    intro x hx
    by_cases hm : k < m
    · simp only [tins, hm, if_true, List.mem_cons] at hx
      rcases hx with rfl | hx
      · exact hk
      · exact h x (by simpa using hx)
    · simp only [tins, hm, if_false, List.mem_cons] at hx
      rcases hx with rfl | hx
      · exact h _ (by simp)
      · exact ih ht x hx

variable [DecidableEq α]

/-- A read gives what was written. -/
@[simp] theorem tget_tset_self (t : Tbl α) (k : Nat) (v d : α) : tget (tset t k v d) k d = v := by
  unfold tset
  split
  · next h => rw [tget_tdel_self, h]
  · exact tget_tins_self _ _ _ _ (tget_tdel_self t k d) (tdel_keys t k)

/-- A write leaves every other key alone. -/
theorem tget_tset_other (t : Tbl α) {j k : Nat} (v d e : α) (h : j ≠ k) : tget (tset t k v d) j e = tget t j e := by
  unfold tset
  split
  · exact tget_tdel_other t e h
  · rw [tget_tins_other _ _ _ h, tget_tdel_other t e h]

/-- The later of two writes of one key stands. -/
@[simp] theorem tset_tset (t : Tbl α) (k : Nat) (v w d : α) : tset (tset t k v d) k w d = tset t k w d := by
  have key : tdel (tset t k v d) k = tdel t k := by
    unfold tset
    split
    · exact tdel_idem t k
    · exact tdel_tins _ _ _ (tdel_keys t k)
  unfold tset at key ⊢
  simp only [key]

/-! ### The canonical form -/

theorem tableWf_cons (d : α) (j : Nat) (v : α) (t : Tbl α) :
    tableWf d ((j, v) :: t) = true ↔ v ≠ d ∧ keysAbove j t ∧ tableWf d t = true := by
  induction t generalizing j v with
  | nil => simp [tableWf, keysAbove]
  | cons e t ih =>
    obtain ⟨k, w⟩ := e
    have := ih k w
    constructor
    · intro h
      simp only [tableWf, Bool.and_eq_true, decide_eq_true_eq, bne_iff_ne] at h
      refine ⟨h.1.2, ?_, h.2⟩
      intro x hx
      rcases List.mem_cons.1 hx with rfl | hx
      · exact h.1.1
      · exact Nat.lt_trans h.1.1 ((this.1 h.2).2.1 x hx)
    · rintro ⟨h1, h2, h3⟩
      simp only [tableWf, Bool.and_eq_true, decide_eq_true_eq, bne_iff_ne]
      exact ⟨⟨h2 (k, w) (by simp), h1⟩, h3⟩

theorem tdel_wf {d : α} {t : Tbl α} {k : Nat} (h : tableWf d t = true) : tableWf d (tdel t k) = true := by
  induction t with
  | nil => rfl
  | cons e t ih =>
    obtain ⟨m, w⟩ := e
    obtain ⟨h1, h2, h3⟩ := (tableWf_cons d m w t).1 h
    by_cases hm : m = k
    · simpa [tdel, hm] using ih h3
    · simp only [tdel, hm, if_false]
      exact (tableWf_cons d m w _).2 ⟨h1, tdel_above h2, ih h3⟩

theorem tins_wf {d : α} {t : Tbl α} {k : Nat} {v : α} (h : tableWf d t = true) (hk : ∀ e ∈ t, e.1 ≠ k) (hv : v ≠ d) :
    tableWf d (tins t k v) = true := by
  induction t with
  | nil => simpa [tins, tableWf] using hv
  | cons e t ih =>
    obtain ⟨m, w⟩ := e
    obtain ⟨h1, h2, h3⟩ := (tableWf_cons d m w t).1 h
    by_cases hm : k < m
    · simp only [tins, hm, if_true]
      refine (tableWf_cons d k v _).2 ⟨hv, ?_, h⟩
      intro x hx
      rcases List.mem_cons.1 hx with rfl | hx
      · exact hm
      · exact Nat.lt_trans hm (h2 x hx)
    · have hne : m ≠ k := hk (m, w) (by simp)
      have hlt : m < k := by omega
      simp only [tins, hm, if_false]
      exact (tableWf_cons d m w _).2 ⟨h1, tins_above h2 hlt, ih h3 (fun e he => hk e (by simp [he]))⟩

/-- A write keeps the canonical form. -/
theorem tset_wf {d : α} {t : Tbl α} (k : Nat) (v : α) (h : tableWf d t = true) : tableWf d (tset t k v d) = true := by
  unfold tset
  split
  · exact tdel_wf h
  · next hv => exact tins_wf (tdel_wf h) (tdel_keys t k) hv

/-! ### Memories (R205, R220, R290) -/

@[simp] theorem memGet_memSet_self (m : List Host.Cell) (a : Nat) (b : Byte) : memGet (memSet m a b) a = b := by
  simp [memGet, memSet]

theorem memGet_memSet_other (m : List Host.Cell) {a c : Nat} (b : Byte) (h : c ≠ a) :
    memGet (memSet m a b) c = memGet m c := by
  simp [memGet, memSet, tget_tset_other _ _ _ _ h]

/-- A write of bytes leaves every byte outside them as it was. -/
theorem memGet_memWrite_outside (m : List Host.Cell) (a : Nat) (l : List Byte) (c : Nat) (h : c < a ∨ a + l.length ≤ c) :
    memGet (memWrite m a l) c = memGet m c := by
  induction l generalizing m a with
  | nil => rfl
  | cons b t ih =>
    simp only [List.length_cons] at h
    simp only [memWrite]
    rw [ih _ _ (by omega), memGet_memSet_other _ _ (by omega)]

/-- A write of bytes reads back. -/
theorem memGet_memWrite_inside (m : List Host.Cell) (a : Nat) (l : List Byte) (k : Nat) (h : k < l.length) :
    memGet (memWrite m a l) (a + k) = l[k] := by
  induction l generalizing m a k with
  | nil => simp at h
  | cons b t ih =>
    cases k with
    | zero =>
      simp only [memWrite, Nat.add_zero, List.getElem_cons_zero]
      rw [memGet_memWrite_outside _ _ _ _ (by omega), memGet_memSet_self]
    | succ k =>
      simp only [memWrite, List.getElem_cons_succ]
      rw [show a + (k + 1) = (a + 1) + k from by omega]
      exact ih _ _ _ (by simpa using h)

/-- Every memory operation keeps the canonical form. -/
theorem memWrite_wf (m : List Host.Cell) (a : Nat) (l : List Byte) (h : Memory.wf m = true) :
    Memory.wf (memWrite m a l) = true := by
  induction l generalizing m a with
  | nil => exact h
  | cons b t ih => exact ih _ _ (tset_wf a b h)

end Sys2Proof.Machine
end

