-- ==== Sys2Proof/Laws/Access.lean ====
section
/-!
SUPPORT. What an event, an audit record and the closing of expert modes change: registers apart from the event and audit
ones, and every other part of the device, stay as they are.
-/
namespace Sys2Proof.Machine

open Sys2Proof

/-! ### Registers -/

theorem ctorIdx_inj {q r : Reg} (e : q.ctorIdx = r.ctorIdx) : q = r := by
  have := congrArg Reg.ofNat e
  rwa [Reg.ofNat_ctorIdx, Reg.ofNat_ctorIdx] at this

theorem regKey_ne {q r : Reg} {i j : Nat} (h : q ≠ r) (hi : i < 1048576) (hj : j < 1048576) : regKey q i ≠ regKey r j := by
  have hc : q.ctorIdx ≠ r.ctorIdx := fun e => h (ctorIdx_inj e)
  unfold regKey
  omega

theorem regKey_idx {r : Reg} {i j : Nat} (h : i ≠ j) : regKey r i ≠ regKey r j := by
  unfold regKey
  omega

@[simp] theorem regGet_regSet_self (r : Reg) (i : Nat) (v : DWord) (d : Dev) : regGet (regSet r i v d) r i = v := by
  simp [regGet, regSet]

theorem regGet_regSet_reg {q r : Reg} {i j : Nat} (v : DWord) (d : Dev) (h : q ≠ r) (hi : i < 1048576) (hj : j < 1048576) :
    regGet (regSet r j v d) q i = regGet d q i := by
  simp only [regGet, regSet]
  exact tget_tset_other _ _ _ _ (regKey_ne h hi hj)

theorem regGet_regSet_idx {r : Reg} {i j : Nat} (v : DWord) (d : Dev) (h : i ≠ j) :
    regGet (regSet r j v d) r i = regGet d r i := by
  simp only [regGet, regSet]
  exact tget_tset_other _ _ _ _ (regKey_idx h)

/-- Events that are counted change the counters of DB_CNT alone. -/
theorem regGet_dbEvents (c n : Nat) (d : Dev) {q : Reg} {i : Nat} (hq : q ≠ .dbCnt) (hi : i < 1048576) :
    regGet (dbEvents c n d) q i = regGet d q i := by
  unfold dbEvents
  have hl : ∀ k ∈ List.range 8, k < 8 := fun k h => List.mem_range.mp h
  generalize List.range 8 = l at hl
  induction l generalizing d with
  | nil => rfl
  | cons k l ih =>
      rw [List.foldl_cons, ih _ (fun j h => hl j (List.mem_cons_of_mem _ h))]
      have hk := hl k List.mem_cons_self
      split
      · exact regGet_regSet_reg _ d hq hi (by omega)
      · rfl

/-- The time an expiry brings leaves every register but DB_CNT as it is. -/
theorem regGet_advanceTo (t : DWord) (d : Dev) {q : Reg} {i : Nat} (hq : q ≠ .dbCnt) (hi : i < 1048576) :
    regGet (advanceTo t d) q i = regGet d q i := by
  unfold advanceTo
  split
  · exact regGet_dbEvents _ _ d hq hi
  · rfl

/-! ### What events and audit records leave alone -/

/-- The devices agree but for the event and audit registers, FF_HWM, the audit log, and Junction's sources and presentations. -/
def SameButLog (d e : Dev) : Prop :=
  (∃ r a h f sr p c, e = { d with regs := r, audit := a, auHead := h, auFeed := f, srcs := sr, pres := p, cps := c })
  ∧ (∀ (q : Reg) i, i < 1048576 → q ≠ .evtPending → q ≠ .evtCnt → q ≠ .pgAuditSeq → q ≠ .ffHwm → regGet e q i = regGet d q i)
  ∧ ∀ i, ∃ n f, cpGet e i = { cpGet d i with spurN := n, spurF := f }

theorem SameButLog.refl (d : Dev) : SameButLog d d := ⟨⟨_, _, _, _, _, _, _, rfl⟩, fun _ _ _ _ _ _ _ => rfl, fun _ => ⟨_, _, rfl⟩⟩

theorem SameButLog.trans {a b c : Dev} (h : SameButLog a b) (k : SameButLog b c) : SameButLog a c := by
  obtain ⟨⟨_, _, _, _, _, _, _, rfl⟩, h2, h3⟩ := h
  obtain ⟨⟨_, _, _, _, _, _, _, rfl⟩, k2, k3⟩ := k
  refine ⟨⟨_, _, _, _, _, _, _, rfl⟩, fun q i a b c d e => ?_, fun i => ?_⟩
  · rw [k2 q i a b c d e, h2 q i a b c d e]
  · obtain ⟨n, f, hn⟩ := h3 i
    obtain ⟨n', f', hk⟩ := k3 i
    exact ⟨n', f', by rw [hk, hn]⟩

theorem sameButLog_regSet {r : Reg} {i : Nat} (v : DWord) (d : Dev) (hi : i < 1048576)
    (h : r = .evtPending ∨ r = .evtCnt ∨ r = .pgAuditSeq ∨ r = .ffHwm) : SameButLog d (regSet r i v d) := by
  refine ⟨⟨_, _, _, _, _, _, _, rfl⟩, fun q j hj h1 h2 h3 h4 => ?_, fun _ => ⟨_, _, rfl⟩⟩
  exact regGet_regSet_reg v d (by rcases h with h | h | h | h <;> subst h <;> assumption) hj hi

theorem sameButLog_srcSet (n : Nat) (x : Src) (d : Dev) : SameButLog d (srcSet n x d) :=
  ⟨⟨_, _, _, _, _, _, _, rfl⟩, fun _ _ _ _ _ _ _ => rfl, fun _ => ⟨_, _, rfl⟩⟩

theorem sameButLog_pres (p : List Pres) (d : Dev) : SameButLog d { d with pres := p } :=
  ⟨⟨_, _, _, _, _, _, _, rfl⟩, fun _ _ _ _ _ _ _ => rfl, fun _ => ⟨_, _, rfl⟩⟩

theorem sameButLog_spur (i : Nat) (n f : Bool) (d : Dev) :
    SameButLog d (cpSet i { cpGet d i with spurN := n, spurF := f } d) := by
  refine ⟨⟨_, _, _, _, _, _, _, rfl⟩, fun _ _ _ _ _ _ _ => rfl, fun j => ?_⟩
  by_cases h : j = i
  · subst h; exact ⟨n, f, by simp [cpGet, cpSet]⟩
  · exact ⟨(cpGet d j).spurN, (cpGet d j).spurF, by simp only [cpGet, cpSet]; rw [tget_tset_other _ _ _ _ h]⟩

theorem sameButLog_dropPres (p : Pres → Bool) (d : Dev) : SameButLog d (dropPres p d) := by
  unfold dropPres
  have step : ∀ (l : List Pres) (e : Dev), SameButLog e (l.foldl (fun d x =>
      let c := cpGet d x.cp
      cpSet x.cp (if x.fast then { c with spurF := true } else { c with spurN := true }) d) e) := by
    intro l
    induction l with
    | nil => exact SameButLog.refl
    | cons x t ih =>
      intro e
      refine SameButLog.trans ?_ (ih _)
      dsimp only
      split
      · exact sameButLog_spur x.cp (cpGet e x.cp).spurN true e
      · exact sameButLog_spur x.cp true (cpGet e x.cp).spurF e
  exact (sameButLog_pres _ d).trans (step _ _)

theorem sameButLog_srcWithdraw (n : Nat) (d : Dev) : SameButLog d (srcWithdraw n d) := by
  unfold srcWithdraw
  dsimp only
  split
  · exact sameButLog_srcSet _ _ _
  · exact (sameButLog_srcSet _ _ _).trans (sameButLog_dropPres _ _)

theorem sameButLog_srcLevel (n : Nat) (v : Bool) (d : Dev) : SameButLog d (srcLevel n v d) := by
  unfold srcLevel
  dsimp only
  split
  · exact SameButLog.refl d
  · split
    · exact sameButLog_srcSet _ _ _
    · exact (sameButLog_srcSet _ _ _).trans (sameButLog_srcWithdraw _ _)

theorem sameButLog_pageEvent {p b : Nat} (d : Dev) (hp : p < 16384) (hb : b < 32) : SameButLog d (pageEvent p b d) := by
  unfold pageEvent pageSummary evtCount regSetFld
  dsimp only
  refine SameButLog.trans ?_ (sameButLog_srcLevel _ _ _)
  refine SameButLog.trans ?_ (sameButLog_regSet _ _ (by omega) (Or.inr (Or.inl rfl)))
  refine SameButLog.trans ?_ (sameButLog_regSet _ _ (by omega) (Or.inr (Or.inl rfl)))
  exact sameButLog_regSet _ _ (by omega) (Or.inl rfl)

theorem pageOf_lt {p : Nat} (h : (pageOf p).isSome = true) : p < 0x300 := by
  by_cases hp : p < 0x300
  · exact hp
  · exfalso
    revert h
    simp only [pageOf]
    repeat (rw [if_neg (by omega)])
    simp

theorem sameButLog_noteHwm {n : Nat} (count : Nat) (d : Dev) (hn : n < 1048576) : SameButLog d (noteHwm n count d) := by
  unfold noteHwm
  split
  · exact sameButLog_regSet _ _ hn (Or.inr (Or.inr (Or.inr rfl)))
  · exact SameButLog.refl d

theorem sameButLog_auditPut (o : Origin) (page woff be : Nat) (new old : Word) (flags : Nat) (d : Dev) :
    SameButLog d (auditPut o page woff be new old flags d) := by
  unfold auditPut
  dsimp only
  have h1 : SameButLog d (if (pageOf page).isSome = true then
      regSet .pgAuditSeq page (BitVec.ofNat 64 (d.auHead % 2 ^ 32)) d else d) := by
    split
    · next h => exact sameButLog_regSet _ _ (by have := pageOf_lt h; omega) (Or.inr (Or.inr (Or.inl rfl)))
    · exact SameButLog.refl d
  generalize (if (pageOf page).isSome = true then
      regSet .pgAuditSeq page (BitVec.ofNat 64 (d.auHead % 2 ^ 32)) d else d) = e at h1 ⊢
  have h3 : ∀ a h f, SameButLog d (noteHwm 4177 (e.auFeed + 1) { e with audit := a, auHead := h, auFeed := f }) := fun a h f =>
    (h1.trans ⟨⟨_, _, _, _, _, _, _, rfl⟩, fun _ _ _ _ _ _ _ => rfl, fun _ => ⟨_, _, rfl⟩⟩).trans
      (sameButLog_noteHwm _ _ (by decide))
  split
  · exact (h3 _ _ _).trans (sameButLog_pageEvent _ (by decide) (by decide))
  · exact h3 _ _ _

theorem sameButLog_auditWords (o : Origin) (page x size : Nat) (new old : DWord) (flags : Nat) (d : Dev) :
    SameButLog d (auditWords o page x size new old flags d) := by
  unfold auditWords
  dsimp only
  split
  · exact (sameButLog_auditPut ..).trans (sameButLog_auditPut ..)
  · exact sameButLog_auditPut ..

/-- Closing expert modes changes them, and leaves records. -/
theorem sameButLog_xClose (p : XMode → Bool) (d : Dev) :
    SameButLog { d with xmodes := d.xmodes.filter (fun m => !(p m)) } (xClose p d) := by
  unfold xClose
  dsimp only
  generalize d.xmodes.filter p = l
  generalize ({ d with xmodes := d.xmodes.filter (fun m => !(p m)) } : Dev) = e
  induction l generalizing e with
  | nil => exact SameButLog.refl e
  | cons m t ih => exact (sameButLog_auditPut ..).trans (ih _)

/-- The modes that stay open as an idle time ends. -/
def xLeft (d : Dev) : List XMode :=
  let ms := regFld d .glXtmo 0 15 0
  if ms = 0 then d.xmodes else d.xmodes.filter (fun m => !(decide (m.at_.toNat + ms * 1000000 ≤ d.devtime.toNat)))

theorem sameButLog_xExpire (d : Dev) : SameButLog { d with xmodes := xLeft d } (xExpire d) := by
  unfold xExpire xLeft
  dsimp only
  split
  · exact SameButLog.refl d
  · exact sameButLog_xClose _ d

@[simp] theorem xExpire_xmodes (d : Dev) : (xExpire d).xmodes = xLeft d := by
  obtain ⟨⟨_, _, _, _, _, _, _, h⟩, -⟩ := sameButLog_xExpire d
  rw [h]

@[simp] theorem xLeft_dropChal (o : Origin) (page : Nat) (d : Dev) : xLeft (dropChal o page d) = xLeft d := rfl

theorem regGet_xExpire (d : Dev) {q : Reg} {i : Nat} (hi : i < 1048576) (h1 : q ≠ .evtPending) (h2 : q ≠ .evtCnt)
    (h3 : q ≠ .pgAuditSeq) (h4 : q ≠ .ffHwm) : regGet (xExpire d) q i = regGet d q i :=
  (sameButLog_xExpire d).2.1 q i hi h1 h2 h3 h4

end Sys2Proof.Machine
end

