-- ==== Sys2Proof/Laws/Cp.lean ====
section
/-!
SUPPORT. What the shared operations of a channel processor can do: reading and storing a CP, registers, and the issue of an
instruction.
-/
namespace Sys2Proof.Machine

open Sys2Proof

/-! ### A CP's record -/

@[simp] theorem cpGet_cpSet_self (i : Nat) (c : Cp) (d : Dev) : cpGet (cpSet i c d) i = c := by
  simp [cpGet, cpSet]

theorem cpGet_cpSet_other {i j : Nat} (c : Cp) (d : Dev) (h : j ≠ i) : cpGet (cpSet i c d) j = cpGet d j := by
  simp [cpGet, cpSet, tget_tset_other _ _ _ _ h]

@[simp] theorem cpSet_cpSet (i : Nat) (c e : Cp) (d : Dev) : cpSet i e (cpSet i c d) = cpSet i e d := by
  simp [cpSet]

@[simp] theorem cpMod_cpSet (i : Nat) (f : Cp → Cp) (c : Cp) (d : Dev) : cpMod i f (cpSet i c d) = cpSet i (f c) d := by
  simp [cpMod]

/-! ### General registers (R284, R285) -/

@[simp] theorem gRead_zero (c : Cp) : gRead 0 c = 0 := rfl

@[simp] theorem gWrite_zero (v : Word) (c : Cp) : gWrite 0 v c = c := rfl

@[simp] theorem gWrite_sr (k : Nat) (v : Word) (c : Cp) : (gWrite k v c).sr = c.sr := by
  unfold gWrite; split
  · rfl
  · split <;> rfl

@[simp] theorem gWrite_pc (k : Nat) (v : Word) (c : Cp) : (gWrite k v c).pc = c.pc := by
  unfold gWrite; split
  · rfl
  · split <;> rfl

@[simp] theorem gWrite_loads (k : Nat) (v : Word) (c : Cp) : (gWrite k v c).loads = c.loads := by
  unfold gWrite; split
  · rfl
  · split <;> rfl

@[simp] theorem gWrite_run (k : Nat) (v : Word) (c : Cp) : (gWrite k v c).run = c.run := by
  unfold gWrite; split
  · rfl
  · split <;> rfl

@[simp] theorem gWrite_slot (k : Nat) (v : Word) (c : Cp) : (gWrite k v c).slot = c.slot := by
  unfold gWrite; split
  · rfl
  · split <;> rfl

@[simp] theorem gWrite_dram (k : Nat) (v : Word) (c : Cp) : (gWrite k v c).dram = c.dram := by
  unfold gWrite; split
  · rfl
  · split <;> rfl

@[simp] theorem gWrite_iram (k : Nat) (v : Word) (c : Cp) : (gWrite k v c).iram = c.iram := by
  unfold gWrite; split
  · rfl
  · split <;> rfl

@[simp] theorem setFlags_pc (a : Alu) (c : Cp) : (setFlags a c).pc = c.pc := rfl
@[simp] theorem setFlags_loads (a : Alu) (c : Cp) : (setFlags a c).loads = c.loads := rfl
@[simp] theorem setFlags_run (a : Alu) (c : Cp) : (setFlags a c).run = c.run := rfl

/-- A register reads as what was written to it, in the bank in use. -/
theorem gRead_gWrite_self (k : Nat) (v : Word) (c : Cp) (h0 : 0 < k) (hk : k < 32) (hg : c.g.length = 32)
    (hf : c.gFast.length = 8) : gRead k (gWrite k v c) = v := by
  have h1 : ¬ (k = 0 ∨ 32 ≤ k) := by omega
  have h2 : k ≠ 0 := by omega
  unfold gWrite
  simp only [h1, if_false]
  split
  · next h =>
    have hb : 24 ≤ k := by simp only [Bool.and_eq_true, decide_eq_true_eq] at h; exact h.2
    have hs : bit c.sr 29 = true := by simp only [Bool.and_eq_true] at h; exact h.1
    simp [gRead, h2, hs, hb, lget, lset, hf, show k - 24 < 8 by omega]
  · next h =>
    have h' : (bit c.sr 29 && decide (24 ≤ k)) = false := by simpa using h
    simp only [gRead, h2, if_false, h', lget, lset, List.getElem?_set, hg]
    simp [hk]

/-- Every other register keeps its value. -/
theorem gRead_gWrite_other {j k : Nat} (v : Word) (c : Cp) (h : j ≠ k) : gRead j (gWrite k v c) = gRead j c := by
  unfold gWrite
  split
  · rfl
  · split
    · next h1 h2 =>
      have hb : 24 ≤ k := by simp only [Bool.and_eq_true, decide_eq_true_eq] at h2; exact h2.2
      simp only [gRead]
      by_cases hj : j = 0
      · simp [hj]
      · simp only [hj, if_false]
        split
        · next hs =>
          have : 24 ≤ j := by simp only [Bool.and_eq_true, decide_eq_true_eq] at hs; exact hs.2
          simp only [lget, lset, List.getElem?_set]
          rw [if_neg (by omega)]
        · rfl
    · simp only [gRead]
      by_cases hj : j = 0
      · simp [hj]
      · simp only [hj, if_false]
        split
        · rfl
        · simp only [lget, lset, List.getElem?_set]
          rw [if_neg (Ne.symm h)]

/-! ### The load slot (R308) -/

theorem foldl_gWrite_keeps {β : Type} (p : Cp → β) (hp : ∀ k v c, p (gWrite k v c) = p c) (l : List (Nat × Word)) (c : Cp) :
    p (l.foldl (fun c x => gWrite x.1 x.2 c) c) = p c := by
  induction l generalizing c with
  | nil => rfl
  | cons x t ih => simp [List.foldl, ih, hp]

@[simp] theorem applySlot_sr (c : Cp) : (applySlot c).sr = c.sr := foldl_gWrite_keeps Cp.sr (by simp) _ _
@[simp] theorem applySlot_pc (c : Cp) : (applySlot c).pc = c.pc := foldl_gWrite_keeps Cp.pc (by simp) _ _
@[simp] theorem applySlot_loads (c : Cp) : (applySlot c).loads = c.loads := foldl_gWrite_keeps Cp.loads (by simp) _ _
@[simp] theorem applySlot_run (c : Cp) : (applySlot c).run = c.run := foldl_gWrite_keeps Cp.run (by simp) _ _
@[simp] theorem applySlot_slot (c : Cp) : (applySlot c).slot = [] := foldl_gWrite_keeps Cp.slot (by simp) _ _
@[simp] theorem applySlot_dram (c : Cp) : (applySlot c).dram = c.dram := foldl_gWrite_keeps Cp.dram (by simp) _ _
@[simp] theorem applySlot_iram (c : Cp) : (applySlot c).iram = c.iram := foldl_gWrite_keeps Cp.iram (by simp) _ _

/-! ### Issue (R308, R309, R315) -/

/-- The instruction whose word stands at pc has its effect. -/
theorem cpFetch_eq (w : Word) (f : Cp → Dev → CpRes) (c : Cp) (d : Dev) (ho : fetchOk c = true) (hw : fetchWord c = w) :
    cpFetch w f c d = f c d := by
  simp [cpFetch, ho, hw]

/-- What an instruction's effect is given: the device in which its CP has the slot's registers and the next pc. -/
theorem cpIssue_eq (i : Nat) (w : Word) (f : Cp → Dev → CpRes) (d : Dev) (h : cpIssues d i = true) (hl : (cpGet d i).loads = [])
    (ho : fetchOk (cpGet d i) = true) (hw : fetchWord (cpGet d i) = w) :
    cpIssue i w f d =
      match f (cpGet d i)
        (cpSet i { applySlot (cpGet d i) with pc := (cpGet d i).pc + 4, lastPc := (cpGet d i).pc, loads := [] } d) with
      | .ok e => cpAfter i e
      | .exc cause epc ea => cpRaise i cause epc ea (cpSet i (applySlot (cpGet d i)) d)
      | .wait => d := by
  simp only [cpIssue, h, if_true, hl, List.map_nil, cpFetch_eq _ _ _ _ ho hw]
  cases f (cpGet d i) _ <;> simp [cpMod]

/-- A CP that runs, has no load in progress and can fetch its next instruction stays as it is. -/
theorem cpAfter_eq (i : Nat) (d : Dev) (hl : (cpGet d i).loads = []) (hf : fetchOk (cpGet d i) = true) : cpAfter i d = d := by
  simp [cpAfter, hl, hf]

theorem cpAfter_stopped (i : Nat) (d : Dev) (hl : (cpGet d i).loads = []) (hr : (cpGet d i).run ≠ .run) : cpAfter i d = d := by
  simp [cpAfter, hl, hr]

end Sys2Proof.Machine
end

