-- ==== Sys2Proof/Laws/State.lean ====
section
/-!
SUPPORT. What the named updates of the device leave alone, one lemma for each update and field, and what a get answers
after a set.
-/
namespace Sys2Proof.Machine

open Sys2Proof

/-! ### Fields after sending something outside -/

@[simp] theorem emit_devtime (o : Out) (d : Dev) : (emit o d).devtime = d.devtime := rfl
@[simp] theorem emit_freeCtr (o : Out) (d : Dev) : (emit o d).freeCtr = d.freeCtr := rfl
@[simp] theorem emit_regs (o : Out) (d : Dev) : (emit o d).regs = d.regs := rfl
@[simp] theorem emit_subs (o : Out) (d : Dev) : (emit o d).subs = d.subs := rfl
@[simp] theorem emit_packs (o : Out) (d : Dev) : (emit o d).packs = d.packs := rfl
@[simp] theorem emit_progs (o : Out) (d : Dev) : (emit o d).progs = d.progs := rfl
@[simp] theorem emit_ops (o : Out) (d : Dev) : (emit o d).ops = d.ops := rfl
@[simp] theorem emit_nextTok (o : Out) (d : Dev) : (emit o d).nextTok = d.nextTok := rfl
@[simp] theorem emit_srings (o : Out) (d : Dev) : (emit o d).srings = d.srings := rfl
@[simp] theorem emit_crings (o : Out) (d : Dev) : (emit o d).crings = d.crings := rfl
@[simp] theorem emit_stalled (o : Out) (d : Dev) : (emit o d).stalled = d.stalled := rfl
@[simp] theorem emit_outHeld (o : Out) (d : Dev) : (emit o d).outHeld = d.outHeld := rfl
@[simp] theorem emit_xasked (o : Out) (d : Dev) : (emit o d).xasked = d.xasked := rfl
@[simp] theorem emit_opHeld (o : Out) (d : Dev) : (emit o d).opHeld = d.opHeld := rfl
@[simp] theorem emit_clearing (o : Out) (d : Dev) : (emit o d).clearing = d.clearing := rfl
@[simp] theorem emit_evtWait (o : Out) (d : Dev) : (emit o d).evtWait = d.evtWait := rfl
@[simp] theorem emit_fnHeld (o : Out) (d : Dev) : (emit o d).fnHeld = d.fnHeld := rfl
@[simp] theorem emit_movWait (o : Out) (d : Dev) : (emit o d).movWait = d.movWait := rfl
@[simp] theorem emit_fns (o : Out) (d : Dev) : (emit o d).fns = d.fns := rfl
@[simp] theorem emit_waiting (o : Out) (d : Dev) : (emit o d).waiting = d.waiting := rfl
@[simp] theorem emit_dsWait (o : Out) (d : Dev) : (emit o d).dsWait = d.dsWait := rfl
@[simp] theorem emit_paused (o : Out) (d : Dev) : (emit o d).paused = d.paused := rfl
@[simp] theorem emit_workq (o : Out) (d : Dev) : (emit o d).workq = d.workq := rfl
@[simp] theorem emit_startWait (o : Out) (d : Dev) : (emit o d).startWait = d.startWait := rfl
@[simp] theorem emit_opWait (o : Out) (d : Dev) : (emit o d).opWait = d.opWait := rfl
@[simp] theorem emit_packCalls (o : Out) (d : Dev) : (emit o d).packCalls = d.packCalls := rfl
@[simp] theorem emit_binds (o : Out) (d : Dev) : (emit o d).binds = d.binds := rfl
@[simp] theorem emit_initDue (o : Out) (d : Dev) : (emit o d).initDue = d.initDue := rfl
@[simp] theorem emit_journal (o : Out) (d : Dev) : (emit o d).journal = d.journal := rfl
@[simp] theorem emit_jnHead (o : Out) (d : Dev) : (emit o d).jnHead = d.jnHead := rfl
@[simp] theorem emit_jnFeed (o : Out) (d : Dev) : (emit o d).jnFeed = d.jnFeed := rfl
@[simp] theorem emit_audit (o : Out) (d : Dev) : (emit o d).audit = d.audit := rfl
@[simp] theorem emit_auHead (o : Out) (d : Dev) : (emit o d).auHead = d.auHead := rfl
@[simp] theorem emit_auFeed (o : Out) (d : Dev) : (emit o d).auFeed = d.auFeed := rfl
@[simp] theorem emit_feeds (o : Out) (d : Dev) : (emit o d).feeds = d.feeds := rfl
@[simp] theorem emit_auWait (o : Out) (d : Dev) : (emit o d).auWait = d.auWait := rfl
@[simp] theorem emit_auPhase (o : Out) (d : Dev) : (emit o d).auPhase = d.auPhase := rfl
@[simp] theorem emit_srcs (o : Out) (d : Dev) : (emit o d).srcs = d.srcs := rfl
@[simp] theorem emit_pres (o : Out) (d : Dev) : (emit o d).pres = d.pres := rfl
@[simp] theorem emit_grps (o : Out) (d : Dev) : (emit o d).grps = d.grps := rfl
@[simp] theorem emit_lastGrp (o : Out) (d : Dev) : (emit o d).lastGrp = d.lastGrp := rfl
@[simp] theorem emit_lastSrc (o : Out) (d : Dev) : (emit o d).lastSrc = d.lastSrc := rfl
@[simp] theorem emit_lastCp (o : Out) (d : Dev) : (emit o d).lastCp = d.lastCp := rfl
@[simp] theorem emit_latches (o : Out) (d : Dev) : (emit o d).latches = d.latches := rfl
@[simp] theorem emit_cps (o : Out) (d : Dev) : (emit o d).cps = d.cps := rfl
@[simp] theorem emit_sems (o : Out) (d : Dev) : (emit o d).sems = d.sems := rfl
@[simp] theorem emit_mirrorWait (o : Out) (d : Dev) : (emit o d).mirrorWait = d.mirrorWait := rfl
@[simp] theorem emit_mirrorOld (o : Out) (d : Dev) : (emit o d).mirrorOld = d.mirrorOld := rfl
@[simp] theorem emit_chans (o : Out) (d : Dev) : (emit o d).chans = d.chans := rfl
@[simp] theorem emit_movServed (o : Out) (d : Dev) : (emit o d).movServed = d.movServed := rfl
@[simp] theorem emit_plaza (o : Out) (d : Dev) : (emit o d).plaza = d.plaza := rfl
@[simp] theorem emit_slices (o : Out) (d : Dev) : (emit o d).slices = d.slices := rfl
@[simp] theorem emit_strChans (o : Out) (d : Dev) : (emit o d).strChans = d.strChans := rfl
@[simp] theorem emit_scratch (o : Out) (d : Dev) : (emit o d).scratch = d.scratch := rfl
@[simp] theorem emit_resv (o : Out) (d : Dev) : (emit o d).resv = d.resv := rfl
@[simp] theorem emit_resvNext (o : Out) (d : Dev) : (emit o d).resvNext = d.resvNext := rfl
@[simp] theorem emit_fenceWait (o : Out) (d : Dev) : (emit o d).fenceWait = d.fenceWait := rfl
@[simp] theorem emit_lanes (o : Out) (d : Dev) : (emit o d).lanes = d.lanes := rfl
@[simp] theorem emit_laneBad (o : Out) (d : Dev) : (emit o d).laneBad = d.laneBad := rfl
@[simp] theorem emit_blvBad (o : Out) (d : Dev) : (emit o d).blvBad = d.blvBad := rfl
@[simp] theorem emit_hops (o : Out) (d : Dev) : (emit o d).hops = d.hops := rfl
@[simp] theorem emit_hopRx (o : Out) (d : Dev) : (emit o d).hopRx = d.hopRx := rfl
@[simp] theorem emit_refills (o : Out) (d : Dev) : (emit o d).refills = d.refills := rfl
@[simp] theorem emit_rbts (o : Out) (d : Dev) : (emit o d).rbts = d.rbts := rfl
@[simp] theorem emit_commits (o : Out) (d : Dev) : (emit o d).commits = d.commits := rfl
@[simp] theorem emit_resRsp (o : Out) (d : Dev) : (emit o d).resRsp = d.resRsp := rfl
@[simp] theorem emit_chals (o : Out) (d : Dev) : (emit o d).chals = d.chals := rfl
@[simp] theorem emit_xmodes (o : Out) (d : Dev) : (emit o d).xmodes = d.xmodes := rfl
@[simp] theorem emit_upDown (o : Out) (d : Dev) : (emit o d).upDown = d.upDown := rfl
@[simp] theorem emit_sgAvg (o : Out) (d : Dev) : (emit o d).sgAvg = d.sgAvg := rfl
@[simp] theorem emit_sgLast (o : Out) (d : Dev) : (emit o d).sgLast = d.sgLast := rfl
@[simp] theorem emit_sgTransit (o : Out) (d : Dev) : (emit o d).sgTransit = d.sgTransit := rfl
@[simp] theorem emit_sgCursor (o : Out) (d : Dev) : (emit o d).sgCursor = d.sgCursor := rfl
@[simp] theorem emit_sgMovLast (o : Out) (d : Dev) : (emit o d).sgMovLast = d.sgMovLast := rfl
@[simp] theorem emit_sgLog (o : Out) (d : Dev) : (emit o d).sgLog = d.sgLog := rfl
@[simp] theorem emit_bankSets (o : Out) (d : Dev) : (emit o d).bankSets = d.bankSets := rfl
@[simp] theorem emit_bankPrev (o : Out) (d : Dev) : (emit o d).bankPrev = d.bankPrev := rfl
@[simp] theorem emit_bankElig (o : Out) (d : Dev) : (emit o d).bankElig = d.bankElig := rfl
@[simp] theorem emit_sgDist (o : Out) (d : Dev) : (emit o d).sgDist = d.sgDist := rfl
@[simp] theorem emit_bankRaw (o : Out) (d : Dev) : (emit o d).bankRaw = d.bankRaw := rfl
@[simp] theorem emit_xlate (o : Out) (d : Dev) : (emit o d).xlate = d.xlate := rfl
@[simp] theorem emit_invals (o : Out) (d : Dev) : (emit o d).invals = d.invals := rfl
@[simp] theorem emit_alertSrcs (o : Out) (d : Dev) : (emit o d).alertSrcs = d.alertSrcs := rfl
@[simp] theorem emit_injected (o : Out) (d : Dev) : (emit o d).injected = d.injected := rfl
@[simp] theorem emit_rotWait (o : Out) (d : Dev) : (emit o d).rotWait = d.rotWait := rfl
@[simp] theorem emit_keys (o : Out) (d : Dev) : (emit o d).keys = d.keys := rfl
@[simp] theorem emit_scWait (o : Out) (d : Dev) : (emit o d).scWait = d.scWait := rfl
@[simp] theorem emit_injecting (o : Out) (d : Dev) : (emit o d).injecting = d.injecting := rfl
@[simp] theorem emit_faultAt (o : Out) (d : Dev) : (emit o d).faultAt = d.faultAt := rfl
@[simp] theorem emit_imgs (o : Out) (d : Dev) : (emit o d).imgs = d.imgs := rfl
@[simp] theorem emit_owners (o : Out) (d : Dev) : (emit o d).owners = d.owners := rfl
@[simp] theorem emit_ownersNow (o : Out) (d : Dev) : (emit o d).ownersNow = d.ownersNow := rfl
@[simp] theorem emit_dirActive (o : Out) (d : Dev) : (emit o d).dirActive = d.dirActive := rfl
@[simp] theorem emit_dirGen (o : Out) (d : Dev) : (emit o d).dirGen = d.dirGen := rfl
@[simp] theorem emit_dirCopy (o : Out) (d : Dev) : (emit o d).dirCopy = d.dirCopy := rfl
@[simp] theorem emit_nonces (o : Out) (d : Dev) : (emit o d).nonces = d.nonces := rfl
@[simp] theorem emit_mbQueue (o : Out) (d : Dev) : (emit o d).mbQueue = d.mbQueue := rfl
@[simp] theorem emit_upd (o : Out) (d : Dev) : (emit o d).upd = d.upd := rfl
@[simp] theorem emit_activ (o : Out) (d : Dev) : (emit o d).activ = d.activ := rfl
@[simp] theorem emit_attQ (o : Out) (d : Dev) : (emit o d).attQ = d.attQ := rfl
@[simp] theorem emit_sgWritten (o : Out) (d : Dev) : (emit o d).sgWritten = d.sgWritten := rfl
@[simp] theorem emit_boots (o : Out) (d : Dev) : (emit o d).boots = d.boots := rfl
@[simp] theorem emit_straps (o : Out) (d : Dev) : (emit o d).straps = d.straps := rfl
@[simp] theorem emit_sbEid (o : Out) (d : Dev) : (emit o d).sbEid = d.sbEid := rfl
@[simp] theorem emit_ldAt (o : Out) (d : Dev) : (emit o d).ldAt = d.ldAt := rfl
@[simp] theorem emit_lretry (o : Out) (d : Dev) : (emit o d).lretry = d.lretry := rfl
@[simp] theorem emit_slew (o : Out) (d : Dev) : (emit o d).slew = d.slew := rfl
@[simp] theorem emit_slewCnt (o : Out) (d : Dev) : (emit o d).slewCnt = d.slewCnt := rfl
@[simp] theorem emit_ptmAt (o : Out) (d : Dev) : (emit o d).ptmAt = d.ptmAt := rfl
@[simp] theorem emit_hot (o : Out) (d : Dev) : (emit o d).hot = d.hot := rfl
@[simp] theorem emit_thrCap (o : Out) (d : Dev) : (emit o d).thrCap = d.thrCap := rfl
@[simp] theorem emit_thrDuty (o : Out) (d : Dev) : (emit o d).thrDuty = d.thrDuty := rfl
@[simp] theorem emit_thrWait (o : Out) (d : Dev) : (emit o d).thrWait = d.thrWait := rfl
@[simp] theorem emit_thermtrip (o : Out) (d : Dev) : (emit o d).thermtrip = d.thermtrip := rfl
@[simp] theorem emit_tjSum (o : Out) (d : Dev) : (emit o d).tjSum = d.tjSum := rfl
@[simp] theorem emit_avsPend (o : Out) (d : Dev) : (emit o d).avsPend = d.avsPend := rfl
@[simp] theorem emit_tapIr (o : Out) (d : Dev) : (emit o d).tapIr = d.tapIr := rfl
@[simp] theorem emit_bsr (o : Out) (d : Dev) : (emit o d).bsr = d.bsr := rfl
@[simp] theorem emit_dumpSel (o : Out) (d : Dev) : (emit o d).dumpSel = d.dumpSel := rfl
@[simp] theorem emit_dumpOff (o : Out) (d : Dev) : (emit o d).dumpOff = d.dumpOff := rfl
@[simp] theorem emit_dumpCrc (o : Out) (d : Dev) : (emit o d).dumpCrc = d.dumpCrc := rfl
@[simp] theorem emit_dumpUe (o : Out) (d : Dev) : (emit o d).dumpUe = d.dumpUe := rfl
@[simp] theorem emit_maint (o : Out) (d : Dev) : (emit o d).maint = d.maint := rfl
@[simp] theorem emit_trace (o : Out) (d : Dev) : (emit o d).trace = d.trace := rfl
@[simp] theorem emit_trHead (o : Out) (d : Dev) : (emit o d).trHead = d.trHead := rfl
@[simp] theorem emit_frozen (o : Out) (d : Dev) : (emit o d).frozen = d.frozen := rfl
@[simp] theorem emit_frozenPin (o : Out) (d : Dev) : (emit o d).frozenPin = d.frozenPin := rfl
@[simp] theorem emit_fatal (o : Out) (d : Dev) : (emit o d).fatal = d.fatal := rfl

/-! ### Fields after taking a free value -/

@[simp] theorem freeNext_devtime (d : Dev) : (freeNext d).2.devtime = d.devtime := rfl
@[simp] theorem freeNext_out (d : Dev) : (freeNext d).2.out = d.out := rfl
@[simp] theorem freeNext_regs (d : Dev) : (freeNext d).2.regs = d.regs := rfl
@[simp] theorem freeNext_subs (d : Dev) : (freeNext d).2.subs = d.subs := rfl
@[simp] theorem freeNext_packs (d : Dev) : (freeNext d).2.packs = d.packs := rfl
@[simp] theorem freeNext_progs (d : Dev) : (freeNext d).2.progs = d.progs := rfl
@[simp] theorem freeNext_ops (d : Dev) : (freeNext d).2.ops = d.ops := rfl
@[simp] theorem freeNext_nextTok (d : Dev) : (freeNext d).2.nextTok = d.nextTok := rfl
@[simp] theorem freeNext_srings (d : Dev) : (freeNext d).2.srings = d.srings := rfl
@[simp] theorem freeNext_crings (d : Dev) : (freeNext d).2.crings = d.crings := rfl
@[simp] theorem freeNext_stalled (d : Dev) : (freeNext d).2.stalled = d.stalled := rfl
@[simp] theorem freeNext_outHeld (d : Dev) : (freeNext d).2.outHeld = d.outHeld := rfl
@[simp] theorem freeNext_xasked (d : Dev) : (freeNext d).2.xasked = d.xasked := rfl
@[simp] theorem freeNext_opHeld (d : Dev) : (freeNext d).2.opHeld = d.opHeld := rfl
@[simp] theorem freeNext_clearing (d : Dev) : (freeNext d).2.clearing = d.clearing := rfl
@[simp] theorem freeNext_evtWait (d : Dev) : (freeNext d).2.evtWait = d.evtWait := rfl
@[simp] theorem freeNext_fnHeld (d : Dev) : (freeNext d).2.fnHeld = d.fnHeld := rfl
@[simp] theorem freeNext_movWait (d : Dev) : (freeNext d).2.movWait = d.movWait := rfl
@[simp] theorem freeNext_fns (d : Dev) : (freeNext d).2.fns = d.fns := rfl
@[simp] theorem freeNext_waiting (d : Dev) : (freeNext d).2.waiting = d.waiting := rfl
@[simp] theorem freeNext_dsWait (d : Dev) : (freeNext d).2.dsWait = d.dsWait := rfl
@[simp] theorem freeNext_paused (d : Dev) : (freeNext d).2.paused = d.paused := rfl
@[simp] theorem freeNext_workq (d : Dev) : (freeNext d).2.workq = d.workq := rfl
@[simp] theorem freeNext_startWait (d : Dev) : (freeNext d).2.startWait = d.startWait := rfl
@[simp] theorem freeNext_opWait (d : Dev) : (freeNext d).2.opWait = d.opWait := rfl
@[simp] theorem freeNext_packCalls (d : Dev) : (freeNext d).2.packCalls = d.packCalls := rfl
@[simp] theorem freeNext_binds (d : Dev) : (freeNext d).2.binds = d.binds := rfl
@[simp] theorem freeNext_initDue (d : Dev) : (freeNext d).2.initDue = d.initDue := rfl
@[simp] theorem freeNext_journal (d : Dev) : (freeNext d).2.journal = d.journal := rfl
@[simp] theorem freeNext_jnHead (d : Dev) : (freeNext d).2.jnHead = d.jnHead := rfl
@[simp] theorem freeNext_jnFeed (d : Dev) : (freeNext d).2.jnFeed = d.jnFeed := rfl
@[simp] theorem freeNext_audit (d : Dev) : (freeNext d).2.audit = d.audit := rfl
@[simp] theorem freeNext_auHead (d : Dev) : (freeNext d).2.auHead = d.auHead := rfl
@[simp] theorem freeNext_auFeed (d : Dev) : (freeNext d).2.auFeed = d.auFeed := rfl
@[simp] theorem freeNext_feeds (d : Dev) : (freeNext d).2.feeds = d.feeds := rfl
@[simp] theorem freeNext_auWait (d : Dev) : (freeNext d).2.auWait = d.auWait := rfl
@[simp] theorem freeNext_auPhase (d : Dev) : (freeNext d).2.auPhase = d.auPhase := rfl
@[simp] theorem freeNext_srcs (d : Dev) : (freeNext d).2.srcs = d.srcs := rfl
@[simp] theorem freeNext_pres (d : Dev) : (freeNext d).2.pres = d.pres := rfl
@[simp] theorem freeNext_grps (d : Dev) : (freeNext d).2.grps = d.grps := rfl
@[simp] theorem freeNext_lastGrp (d : Dev) : (freeNext d).2.lastGrp = d.lastGrp := rfl
@[simp] theorem freeNext_lastSrc (d : Dev) : (freeNext d).2.lastSrc = d.lastSrc := rfl
@[simp] theorem freeNext_lastCp (d : Dev) : (freeNext d).2.lastCp = d.lastCp := rfl
@[simp] theorem freeNext_latches (d : Dev) : (freeNext d).2.latches = d.latches := rfl
@[simp] theorem freeNext_cps (d : Dev) : (freeNext d).2.cps = d.cps := rfl
@[simp] theorem freeNext_sems (d : Dev) : (freeNext d).2.sems = d.sems := rfl
@[simp] theorem freeNext_mirrorWait (d : Dev) : (freeNext d).2.mirrorWait = d.mirrorWait := rfl
@[simp] theorem freeNext_mirrorOld (d : Dev) : (freeNext d).2.mirrorOld = d.mirrorOld := rfl
@[simp] theorem freeNext_chans (d : Dev) : (freeNext d).2.chans = d.chans := rfl
@[simp] theorem freeNext_movServed (d : Dev) : (freeNext d).2.movServed = d.movServed := rfl
@[simp] theorem freeNext_plaza (d : Dev) : (freeNext d).2.plaza = d.plaza := rfl
@[simp] theorem freeNext_slices (d : Dev) : (freeNext d).2.slices = d.slices := rfl
@[simp] theorem freeNext_strChans (d : Dev) : (freeNext d).2.strChans = d.strChans := rfl
@[simp] theorem freeNext_scratch (d : Dev) : (freeNext d).2.scratch = d.scratch := rfl
@[simp] theorem freeNext_resv (d : Dev) : (freeNext d).2.resv = d.resv := rfl
@[simp] theorem freeNext_resvNext (d : Dev) : (freeNext d).2.resvNext = d.resvNext := rfl
@[simp] theorem freeNext_fenceWait (d : Dev) : (freeNext d).2.fenceWait = d.fenceWait := rfl
@[simp] theorem freeNext_lanes (d : Dev) : (freeNext d).2.lanes = d.lanes := rfl
@[simp] theorem freeNext_laneBad (d : Dev) : (freeNext d).2.laneBad = d.laneBad := rfl
@[simp] theorem freeNext_blvBad (d : Dev) : (freeNext d).2.blvBad = d.blvBad := rfl
@[simp] theorem freeNext_hops (d : Dev) : (freeNext d).2.hops = d.hops := rfl
@[simp] theorem freeNext_hopRx (d : Dev) : (freeNext d).2.hopRx = d.hopRx := rfl
@[simp] theorem freeNext_refills (d : Dev) : (freeNext d).2.refills = d.refills := rfl
@[simp] theorem freeNext_rbts (d : Dev) : (freeNext d).2.rbts = d.rbts := rfl
@[simp] theorem freeNext_commits (d : Dev) : (freeNext d).2.commits = d.commits := rfl
@[simp] theorem freeNext_resRsp (d : Dev) : (freeNext d).2.resRsp = d.resRsp := rfl
@[simp] theorem freeNext_chals (d : Dev) : (freeNext d).2.chals = d.chals := rfl
@[simp] theorem freeNext_xmodes (d : Dev) : (freeNext d).2.xmodes = d.xmodes := rfl
@[simp] theorem freeNext_upDown (d : Dev) : (freeNext d).2.upDown = d.upDown := rfl
@[simp] theorem freeNext_sgAvg (d : Dev) : (freeNext d).2.sgAvg = d.sgAvg := rfl
@[simp] theorem freeNext_sgLast (d : Dev) : (freeNext d).2.sgLast = d.sgLast := rfl
@[simp] theorem freeNext_sgTransit (d : Dev) : (freeNext d).2.sgTransit = d.sgTransit := rfl
@[simp] theorem freeNext_sgCursor (d : Dev) : (freeNext d).2.sgCursor = d.sgCursor := rfl
@[simp] theorem freeNext_sgMovLast (d : Dev) : (freeNext d).2.sgMovLast = d.sgMovLast := rfl
@[simp] theorem freeNext_sgLog (d : Dev) : (freeNext d).2.sgLog = d.sgLog := rfl
@[simp] theorem freeNext_bankSets (d : Dev) : (freeNext d).2.bankSets = d.bankSets := rfl
@[simp] theorem freeNext_bankPrev (d : Dev) : (freeNext d).2.bankPrev = d.bankPrev := rfl
@[simp] theorem freeNext_bankElig (d : Dev) : (freeNext d).2.bankElig = d.bankElig := rfl
@[simp] theorem freeNext_sgDist (d : Dev) : (freeNext d).2.sgDist = d.sgDist := rfl
@[simp] theorem freeNext_bankRaw (d : Dev) : (freeNext d).2.bankRaw = d.bankRaw := rfl
@[simp] theorem freeNext_xlate (d : Dev) : (freeNext d).2.xlate = d.xlate := rfl
@[simp] theorem freeNext_invals (d : Dev) : (freeNext d).2.invals = d.invals := rfl
@[simp] theorem freeNext_alertSrcs (d : Dev) : (freeNext d).2.alertSrcs = d.alertSrcs := rfl
@[simp] theorem freeNext_injected (d : Dev) : (freeNext d).2.injected = d.injected := rfl
@[simp] theorem freeNext_rotWait (d : Dev) : (freeNext d).2.rotWait = d.rotWait := rfl
@[simp] theorem freeNext_keys (d : Dev) : (freeNext d).2.keys = d.keys := rfl
@[simp] theorem freeNext_scWait (d : Dev) : (freeNext d).2.scWait = d.scWait := rfl
@[simp] theorem freeNext_injecting (d : Dev) : (freeNext d).2.injecting = d.injecting := rfl
@[simp] theorem freeNext_faultAt (d : Dev) : (freeNext d).2.faultAt = d.faultAt := rfl
@[simp] theorem freeNext_imgs (d : Dev) : (freeNext d).2.imgs = d.imgs := rfl
@[simp] theorem freeNext_owners (d : Dev) : (freeNext d).2.owners = d.owners := rfl
@[simp] theorem freeNext_ownersNow (d : Dev) : (freeNext d).2.ownersNow = d.ownersNow := rfl
@[simp] theorem freeNext_dirActive (d : Dev) : (freeNext d).2.dirActive = d.dirActive := rfl
@[simp] theorem freeNext_dirGen (d : Dev) : (freeNext d).2.dirGen = d.dirGen := rfl
@[simp] theorem freeNext_dirCopy (d : Dev) : (freeNext d).2.dirCopy = d.dirCopy := rfl
@[simp] theorem freeNext_nonces (d : Dev) : (freeNext d).2.nonces = d.nonces := rfl
@[simp] theorem freeNext_mbQueue (d : Dev) : (freeNext d).2.mbQueue = d.mbQueue := rfl
@[simp] theorem freeNext_upd (d : Dev) : (freeNext d).2.upd = d.upd := rfl
@[simp] theorem freeNext_activ (d : Dev) : (freeNext d).2.activ = d.activ := rfl
@[simp] theorem freeNext_attQ (d : Dev) : (freeNext d).2.attQ = d.attQ := rfl
@[simp] theorem freeNext_sgWritten (d : Dev) : (freeNext d).2.sgWritten = d.sgWritten := rfl
@[simp] theorem freeNext_boots (d : Dev) : (freeNext d).2.boots = d.boots := rfl
@[simp] theorem freeNext_straps (d : Dev) : (freeNext d).2.straps = d.straps := rfl
@[simp] theorem freeNext_sbEid (d : Dev) : (freeNext d).2.sbEid = d.sbEid := rfl
@[simp] theorem freeNext_ldAt (d : Dev) : (freeNext d).2.ldAt = d.ldAt := rfl
@[simp] theorem freeNext_lretry (d : Dev) : (freeNext d).2.lretry = d.lretry := rfl
@[simp] theorem freeNext_slew (d : Dev) : (freeNext d).2.slew = d.slew := rfl
@[simp] theorem freeNext_slewCnt (d : Dev) : (freeNext d).2.slewCnt = d.slewCnt := rfl
@[simp] theorem freeNext_ptmAt (d : Dev) : (freeNext d).2.ptmAt = d.ptmAt := rfl
@[simp] theorem freeNext_hot (d : Dev) : (freeNext d).2.hot = d.hot := rfl
@[simp] theorem freeNext_thrCap (d : Dev) : (freeNext d).2.thrCap = d.thrCap := rfl
@[simp] theorem freeNext_thrDuty (d : Dev) : (freeNext d).2.thrDuty = d.thrDuty := rfl
@[simp] theorem freeNext_thrWait (d : Dev) : (freeNext d).2.thrWait = d.thrWait := rfl
@[simp] theorem freeNext_thermtrip (d : Dev) : (freeNext d).2.thermtrip = d.thermtrip := rfl
@[simp] theorem freeNext_tjSum (d : Dev) : (freeNext d).2.tjSum = d.tjSum := rfl
@[simp] theorem freeNext_avsPend (d : Dev) : (freeNext d).2.avsPend = d.avsPend := rfl
@[simp] theorem freeNext_tapIr (d : Dev) : (freeNext d).2.tapIr = d.tapIr := rfl
@[simp] theorem freeNext_bsr (d : Dev) : (freeNext d).2.bsr = d.bsr := rfl
@[simp] theorem freeNext_dumpSel (d : Dev) : (freeNext d).2.dumpSel = d.dumpSel := rfl
@[simp] theorem freeNext_dumpOff (d : Dev) : (freeNext d).2.dumpOff = d.dumpOff := rfl
@[simp] theorem freeNext_dumpCrc (d : Dev) : (freeNext d).2.dumpCrc = d.dumpCrc := rfl
@[simp] theorem freeNext_dumpUe (d : Dev) : (freeNext d).2.dumpUe = d.dumpUe := rfl
@[simp] theorem freeNext_maint (d : Dev) : (freeNext d).2.maint = d.maint := rfl
@[simp] theorem freeNext_trace (d : Dev) : (freeNext d).2.trace = d.trace := rfl
@[simp] theorem freeNext_trHead (d : Dev) : (freeNext d).2.trHead = d.trHead := rfl
@[simp] theorem freeNext_frozen (d : Dev) : (freeNext d).2.frozen = d.frozen := rfl
@[simp] theorem freeNext_frozenPin (d : Dev) : (freeNext d).2.frozenPin = d.frozenPin := rfl
@[simp] theorem freeNext_fatal (d : Dev) : (freeNext d).2.fatal = d.fatal := rfl

/-! ### Fields after storing a register -/

@[simp] theorem regSet_devtime (r : Reg) (i : Nat) (v : DWord) (d : Dev) : (regSet r i v d).devtime = d.devtime := rfl
@[simp] theorem regSet_freeCtr (r : Reg) (i : Nat) (v : DWord) (d : Dev) : (regSet r i v d).freeCtr = d.freeCtr := rfl
@[simp] theorem regSet_out (r : Reg) (i : Nat) (v : DWord) (d : Dev) : (regSet r i v d).out = d.out := rfl
@[simp] theorem regSet_subs (r : Reg) (i : Nat) (v : DWord) (d : Dev) : (regSet r i v d).subs = d.subs := rfl
@[simp] theorem regSet_packs (r : Reg) (i : Nat) (v : DWord) (d : Dev) : (regSet r i v d).packs = d.packs := rfl
@[simp] theorem regSet_progs (r : Reg) (i : Nat) (v : DWord) (d : Dev) : (regSet r i v d).progs = d.progs := rfl
@[simp] theorem regSet_ops (r : Reg) (i : Nat) (v : DWord) (d : Dev) : (regSet r i v d).ops = d.ops := rfl
@[simp] theorem regSet_nextTok (r : Reg) (i : Nat) (v : DWord) (d : Dev) : (regSet r i v d).nextTok = d.nextTok := rfl
@[simp] theorem regSet_srings (r : Reg) (i : Nat) (v : DWord) (d : Dev) : (regSet r i v d).srings = d.srings := rfl
@[simp] theorem regSet_crings (r : Reg) (i : Nat) (v : DWord) (d : Dev) : (regSet r i v d).crings = d.crings := rfl
@[simp] theorem regSet_stalled (r : Reg) (i : Nat) (v : DWord) (d : Dev) : (regSet r i v d).stalled = d.stalled := rfl
@[simp] theorem regSet_outHeld (r : Reg) (i : Nat) (v : DWord) (d : Dev) : (regSet r i v d).outHeld = d.outHeld := rfl
@[simp] theorem regSet_xasked (r : Reg) (i : Nat) (v : DWord) (d : Dev) : (regSet r i v d).xasked = d.xasked := rfl
@[simp] theorem regSet_opHeld (r : Reg) (i : Nat) (v : DWord) (d : Dev) : (regSet r i v d).opHeld = d.opHeld := rfl
@[simp] theorem regSet_clearing (r : Reg) (i : Nat) (v : DWord) (d : Dev) : (regSet r i v d).clearing = d.clearing := rfl
@[simp] theorem regSet_evtWait (r : Reg) (i : Nat) (v : DWord) (d : Dev) : (regSet r i v d).evtWait = d.evtWait := rfl
@[simp] theorem regSet_fnHeld (r : Reg) (i : Nat) (v : DWord) (d : Dev) : (regSet r i v d).fnHeld = d.fnHeld := rfl
@[simp] theorem regSet_movWait (r : Reg) (i : Nat) (v : DWord) (d : Dev) : (regSet r i v d).movWait = d.movWait := rfl
@[simp] theorem regSet_fns (r : Reg) (i : Nat) (v : DWord) (d : Dev) : (regSet r i v d).fns = d.fns := rfl
@[simp] theorem regSet_waiting (r : Reg) (i : Nat) (v : DWord) (d : Dev) : (regSet r i v d).waiting = d.waiting := rfl
@[simp] theorem regSet_dsWait (r : Reg) (i : Nat) (v : DWord) (d : Dev) : (regSet r i v d).dsWait = d.dsWait := rfl
@[simp] theorem regSet_paused (r : Reg) (i : Nat) (v : DWord) (d : Dev) : (regSet r i v d).paused = d.paused := rfl
@[simp] theorem regSet_workq (r : Reg) (i : Nat) (v : DWord) (d : Dev) : (regSet r i v d).workq = d.workq := rfl
@[simp] theorem regSet_startWait (r : Reg) (i : Nat) (v : DWord) (d : Dev) : (regSet r i v d).startWait = d.startWait := rfl
@[simp] theorem regSet_opWait (r : Reg) (i : Nat) (v : DWord) (d : Dev) : (regSet r i v d).opWait = d.opWait := rfl
@[simp] theorem regSet_packCalls (r : Reg) (i : Nat) (v : DWord) (d : Dev) : (regSet r i v d).packCalls = d.packCalls := rfl
@[simp] theorem regSet_binds (r : Reg) (i : Nat) (v : DWord) (d : Dev) : (regSet r i v d).binds = d.binds := rfl
@[simp] theorem regSet_initDue (r : Reg) (i : Nat) (v : DWord) (d : Dev) : (regSet r i v d).initDue = d.initDue := rfl
@[simp] theorem regSet_journal (r : Reg) (i : Nat) (v : DWord) (d : Dev) : (regSet r i v d).journal = d.journal := rfl
@[simp] theorem regSet_jnHead (r : Reg) (i : Nat) (v : DWord) (d : Dev) : (regSet r i v d).jnHead = d.jnHead := rfl
@[simp] theorem regSet_jnFeed (r : Reg) (i : Nat) (v : DWord) (d : Dev) : (regSet r i v d).jnFeed = d.jnFeed := rfl
@[simp] theorem regSet_audit (r : Reg) (i : Nat) (v : DWord) (d : Dev) : (regSet r i v d).audit = d.audit := rfl
@[simp] theorem regSet_auHead (r : Reg) (i : Nat) (v : DWord) (d : Dev) : (regSet r i v d).auHead = d.auHead := rfl
@[simp] theorem regSet_auFeed (r : Reg) (i : Nat) (v : DWord) (d : Dev) : (regSet r i v d).auFeed = d.auFeed := rfl
@[simp] theorem regSet_feeds (r : Reg) (i : Nat) (v : DWord) (d : Dev) : (regSet r i v d).feeds = d.feeds := rfl
@[simp] theorem regSet_auWait (r : Reg) (i : Nat) (v : DWord) (d : Dev) : (regSet r i v d).auWait = d.auWait := rfl
@[simp] theorem regSet_auPhase (r : Reg) (i : Nat) (v : DWord) (d : Dev) : (regSet r i v d).auPhase = d.auPhase := rfl
@[simp] theorem regSet_srcs (r : Reg) (i : Nat) (v : DWord) (d : Dev) : (regSet r i v d).srcs = d.srcs := rfl
@[simp] theorem regSet_pres (r : Reg) (i : Nat) (v : DWord) (d : Dev) : (regSet r i v d).pres = d.pres := rfl
@[simp] theorem regSet_grps (r : Reg) (i : Nat) (v : DWord) (d : Dev) : (regSet r i v d).grps = d.grps := rfl
@[simp] theorem regSet_lastGrp (r : Reg) (i : Nat) (v : DWord) (d : Dev) : (regSet r i v d).lastGrp = d.lastGrp := rfl
@[simp] theorem regSet_lastSrc (r : Reg) (i : Nat) (v : DWord) (d : Dev) : (regSet r i v d).lastSrc = d.lastSrc := rfl
@[simp] theorem regSet_lastCp (r : Reg) (i : Nat) (v : DWord) (d : Dev) : (regSet r i v d).lastCp = d.lastCp := rfl
@[simp] theorem regSet_latches (r : Reg) (i : Nat) (v : DWord) (d : Dev) : (regSet r i v d).latches = d.latches := rfl
@[simp] theorem regSet_cps (r : Reg) (i : Nat) (v : DWord) (d : Dev) : (regSet r i v d).cps = d.cps := rfl
@[simp] theorem regSet_sems (r : Reg) (i : Nat) (v : DWord) (d : Dev) : (regSet r i v d).sems = d.sems := rfl
@[simp] theorem regSet_mirrorWait (r : Reg) (i : Nat) (v : DWord) (d : Dev) : (regSet r i v d).mirrorWait = d.mirrorWait := rfl
@[simp] theorem regSet_mirrorOld (r : Reg) (i : Nat) (v : DWord) (d : Dev) : (regSet r i v d).mirrorOld = d.mirrorOld := rfl
@[simp] theorem regSet_chans (r : Reg) (i : Nat) (v : DWord) (d : Dev) : (regSet r i v d).chans = d.chans := rfl
@[simp] theorem regSet_movServed (r : Reg) (i : Nat) (v : DWord) (d : Dev) : (regSet r i v d).movServed = d.movServed := rfl
@[simp] theorem regSet_plaza (r : Reg) (i : Nat) (v : DWord) (d : Dev) : (regSet r i v d).plaza = d.plaza := rfl
@[simp] theorem regSet_slices (r : Reg) (i : Nat) (v : DWord) (d : Dev) : (regSet r i v d).slices = d.slices := rfl
@[simp] theorem regSet_strChans (r : Reg) (i : Nat) (v : DWord) (d : Dev) : (regSet r i v d).strChans = d.strChans := rfl
@[simp] theorem regSet_scratch (r : Reg) (i : Nat) (v : DWord) (d : Dev) : (regSet r i v d).scratch = d.scratch := rfl
@[simp] theorem regSet_resv (r : Reg) (i : Nat) (v : DWord) (d : Dev) : (regSet r i v d).resv = d.resv := rfl
@[simp] theorem regSet_resvNext (r : Reg) (i : Nat) (v : DWord) (d : Dev) : (regSet r i v d).resvNext = d.resvNext := rfl
@[simp] theorem regSet_fenceWait (r : Reg) (i : Nat) (v : DWord) (d : Dev) : (regSet r i v d).fenceWait = d.fenceWait := rfl
@[simp] theorem regSet_lanes (r : Reg) (i : Nat) (v : DWord) (d : Dev) : (regSet r i v d).lanes = d.lanes := rfl
@[simp] theorem regSet_laneBad (r : Reg) (i : Nat) (v : DWord) (d : Dev) : (regSet r i v d).laneBad = d.laneBad := rfl
@[simp] theorem regSet_blvBad (r : Reg) (i : Nat) (v : DWord) (d : Dev) : (regSet r i v d).blvBad = d.blvBad := rfl
@[simp] theorem regSet_hops (r : Reg) (i : Nat) (v : DWord) (d : Dev) : (regSet r i v d).hops = d.hops := rfl
@[simp] theorem regSet_hopRx (r : Reg) (i : Nat) (v : DWord) (d : Dev) : (regSet r i v d).hopRx = d.hopRx := rfl
@[simp] theorem regSet_refills (r : Reg) (i : Nat) (v : DWord) (d : Dev) : (regSet r i v d).refills = d.refills := rfl
@[simp] theorem regSet_rbts (r : Reg) (i : Nat) (v : DWord) (d : Dev) : (regSet r i v d).rbts = d.rbts := rfl
@[simp] theorem regSet_commits (r : Reg) (i : Nat) (v : DWord) (d : Dev) : (regSet r i v d).commits = d.commits := rfl
@[simp] theorem regSet_resRsp (r : Reg) (i : Nat) (v : DWord) (d : Dev) : (regSet r i v d).resRsp = d.resRsp := rfl
@[simp] theorem regSet_chals (r : Reg) (i : Nat) (v : DWord) (d : Dev) : (regSet r i v d).chals = d.chals := rfl
@[simp] theorem regSet_xmodes (r : Reg) (i : Nat) (v : DWord) (d : Dev) : (regSet r i v d).xmodes = d.xmodes := rfl
@[simp] theorem regSet_upDown (r : Reg) (i : Nat) (v : DWord) (d : Dev) : (regSet r i v d).upDown = d.upDown := rfl
@[simp] theorem regSet_sgAvg (r : Reg) (i : Nat) (v : DWord) (d : Dev) : (regSet r i v d).sgAvg = d.sgAvg := rfl
@[simp] theorem regSet_sgLast (r : Reg) (i : Nat) (v : DWord) (d : Dev) : (regSet r i v d).sgLast = d.sgLast := rfl
@[simp] theorem regSet_sgTransit (r : Reg) (i : Nat) (v : DWord) (d : Dev) : (regSet r i v d).sgTransit = d.sgTransit := rfl
@[simp] theorem regSet_sgCursor (r : Reg) (i : Nat) (v : DWord) (d : Dev) : (regSet r i v d).sgCursor = d.sgCursor := rfl
@[simp] theorem regSet_sgMovLast (r : Reg) (i : Nat) (v : DWord) (d : Dev) : (regSet r i v d).sgMovLast = d.sgMovLast := rfl
@[simp] theorem regSet_sgLog (r : Reg) (i : Nat) (v : DWord) (d : Dev) : (regSet r i v d).sgLog = d.sgLog := rfl
@[simp] theorem regSet_bankSets (r : Reg) (i : Nat) (v : DWord) (d : Dev) : (regSet r i v d).bankSets = d.bankSets := rfl
@[simp] theorem regSet_bankPrev (r : Reg) (i : Nat) (v : DWord) (d : Dev) : (regSet r i v d).bankPrev = d.bankPrev := rfl
@[simp] theorem regSet_bankElig (r : Reg) (i : Nat) (v : DWord) (d : Dev) : (regSet r i v d).bankElig = d.bankElig := rfl
@[simp] theorem regSet_sgDist (r : Reg) (i : Nat) (v : DWord) (d : Dev) : (regSet r i v d).sgDist = d.sgDist := rfl
@[simp] theorem regSet_bankRaw (r : Reg) (i : Nat) (v : DWord) (d : Dev) : (regSet r i v d).bankRaw = d.bankRaw := rfl
@[simp] theorem regSet_xlate (r : Reg) (i : Nat) (v : DWord) (d : Dev) : (regSet r i v d).xlate = d.xlate := rfl
@[simp] theorem regSet_invals (r : Reg) (i : Nat) (v : DWord) (d : Dev) : (regSet r i v d).invals = d.invals := rfl
@[simp] theorem regSet_alertSrcs (r : Reg) (i : Nat) (v : DWord) (d : Dev) : (regSet r i v d).alertSrcs = d.alertSrcs := rfl
@[simp] theorem regSet_injected (r : Reg) (i : Nat) (v : DWord) (d : Dev) : (regSet r i v d).injected = d.injected := rfl
@[simp] theorem regSet_rotWait (r : Reg) (i : Nat) (v : DWord) (d : Dev) : (regSet r i v d).rotWait = d.rotWait := rfl
@[simp] theorem regSet_keys (r : Reg) (i : Nat) (v : DWord) (d : Dev) : (regSet r i v d).keys = d.keys := rfl
@[simp] theorem regSet_scWait (r : Reg) (i : Nat) (v : DWord) (d : Dev) : (regSet r i v d).scWait = d.scWait := rfl
@[simp] theorem regSet_injecting (r : Reg) (i : Nat) (v : DWord) (d : Dev) : (regSet r i v d).injecting = d.injecting := rfl
@[simp] theorem regSet_faultAt (r : Reg) (i : Nat) (v : DWord) (d : Dev) : (regSet r i v d).faultAt = d.faultAt := rfl
@[simp] theorem regSet_imgs (r : Reg) (i : Nat) (v : DWord) (d : Dev) : (regSet r i v d).imgs = d.imgs := rfl
@[simp] theorem regSet_owners (r : Reg) (i : Nat) (v : DWord) (d : Dev) : (regSet r i v d).owners = d.owners := rfl
@[simp] theorem regSet_ownersNow (r : Reg) (i : Nat) (v : DWord) (d : Dev) : (regSet r i v d).ownersNow = d.ownersNow := rfl
@[simp] theorem regSet_dirActive (r : Reg) (i : Nat) (v : DWord) (d : Dev) : (regSet r i v d).dirActive = d.dirActive := rfl
@[simp] theorem regSet_dirGen (r : Reg) (i : Nat) (v : DWord) (d : Dev) : (regSet r i v d).dirGen = d.dirGen := rfl
@[simp] theorem regSet_dirCopy (r : Reg) (i : Nat) (v : DWord) (d : Dev) : (regSet r i v d).dirCopy = d.dirCopy := rfl
@[simp] theorem regSet_nonces (r : Reg) (i : Nat) (v : DWord) (d : Dev) : (regSet r i v d).nonces = d.nonces := rfl
@[simp] theorem regSet_mbQueue (r : Reg) (i : Nat) (v : DWord) (d : Dev) : (regSet r i v d).mbQueue = d.mbQueue := rfl
@[simp] theorem regSet_upd (r : Reg) (i : Nat) (v : DWord) (d : Dev) : (regSet r i v d).upd = d.upd := rfl
@[simp] theorem regSet_activ (r : Reg) (i : Nat) (v : DWord) (d : Dev) : (regSet r i v d).activ = d.activ := rfl
@[simp] theorem regSet_attQ (r : Reg) (i : Nat) (v : DWord) (d : Dev) : (regSet r i v d).attQ = d.attQ := rfl
@[simp] theorem regSet_sgWritten (r : Reg) (i : Nat) (v : DWord) (d : Dev) : (regSet r i v d).sgWritten = d.sgWritten := rfl
@[simp] theorem regSet_boots (r : Reg) (i : Nat) (v : DWord) (d : Dev) : (regSet r i v d).boots = d.boots := rfl
@[simp] theorem regSet_straps (r : Reg) (i : Nat) (v : DWord) (d : Dev) : (regSet r i v d).straps = d.straps := rfl
@[simp] theorem regSet_sbEid (r : Reg) (i : Nat) (v : DWord) (d : Dev) : (regSet r i v d).sbEid = d.sbEid := rfl
@[simp] theorem regSet_ldAt (r : Reg) (i : Nat) (v : DWord) (d : Dev) : (regSet r i v d).ldAt = d.ldAt := rfl
@[simp] theorem regSet_lretry (r : Reg) (i : Nat) (v : DWord) (d : Dev) : (regSet r i v d).lretry = d.lretry := rfl
@[simp] theorem regSet_slew (r : Reg) (i : Nat) (v : DWord) (d : Dev) : (regSet r i v d).slew = d.slew := rfl
@[simp] theorem regSet_slewCnt (r : Reg) (i : Nat) (v : DWord) (d : Dev) : (regSet r i v d).slewCnt = d.slewCnt := rfl
@[simp] theorem regSet_ptmAt (r : Reg) (i : Nat) (v : DWord) (d : Dev) : (regSet r i v d).ptmAt = d.ptmAt := rfl
@[simp] theorem regSet_hot (r : Reg) (i : Nat) (v : DWord) (d : Dev) : (regSet r i v d).hot = d.hot := rfl
@[simp] theorem regSet_thrCap (r : Reg) (i : Nat) (v : DWord) (d : Dev) : (regSet r i v d).thrCap = d.thrCap := rfl
@[simp] theorem regSet_thrDuty (r : Reg) (i : Nat) (v : DWord) (d : Dev) : (regSet r i v d).thrDuty = d.thrDuty := rfl
@[simp] theorem regSet_thrWait (r : Reg) (i : Nat) (v : DWord) (d : Dev) : (regSet r i v d).thrWait = d.thrWait := rfl
@[simp] theorem regSet_thermtrip (r : Reg) (i : Nat) (v : DWord) (d : Dev) : (regSet r i v d).thermtrip = d.thermtrip := rfl
@[simp] theorem regSet_tjSum (r : Reg) (i : Nat) (v : DWord) (d : Dev) : (regSet r i v d).tjSum = d.tjSum := rfl
@[simp] theorem regSet_avsPend (r : Reg) (i : Nat) (v : DWord) (d : Dev) : (regSet r i v d).avsPend = d.avsPend := rfl
@[simp] theorem regSet_tapIr (r : Reg) (i : Nat) (v : DWord) (d : Dev) : (regSet r i v d).tapIr = d.tapIr := rfl
@[simp] theorem regSet_bsr (r : Reg) (i : Nat) (v : DWord) (d : Dev) : (regSet r i v d).bsr = d.bsr := rfl
@[simp] theorem regSet_dumpSel (r : Reg) (i : Nat) (v : DWord) (d : Dev) : (regSet r i v d).dumpSel = d.dumpSel := rfl
@[simp] theorem regSet_dumpOff (r : Reg) (i : Nat) (v : DWord) (d : Dev) : (regSet r i v d).dumpOff = d.dumpOff := rfl
@[simp] theorem regSet_dumpCrc (r : Reg) (i : Nat) (v : DWord) (d : Dev) : (regSet r i v d).dumpCrc = d.dumpCrc := rfl
@[simp] theorem regSet_dumpUe (r : Reg) (i : Nat) (v : DWord) (d : Dev) : (regSet r i v d).dumpUe = d.dumpUe := rfl
@[simp] theorem regSet_maint (r : Reg) (i : Nat) (v : DWord) (d : Dev) : (regSet r i v d).maint = d.maint := rfl
@[simp] theorem regSet_trace (r : Reg) (i : Nat) (v : DWord) (d : Dev) : (regSet r i v d).trace = d.trace := rfl
@[simp] theorem regSet_trHead (r : Reg) (i : Nat) (v : DWord) (d : Dev) : (regSet r i v d).trHead = d.trHead := rfl
@[simp] theorem regSet_frozen (r : Reg) (i : Nat) (v : DWord) (d : Dev) : (regSet r i v d).frozen = d.frozen := rfl
@[simp] theorem regSet_frozenPin (r : Reg) (i : Nat) (v : DWord) (d : Dev) : (regSet r i v d).frozenPin = d.frozenPin := rfl
@[simp] theorem regSet_fatal (r : Reg) (i : Nat) (v : DWord) (d : Dev) : (regSet r i v d).fatal = d.fatal := rfl

/-! ### Fields after storing a source -/

@[simp] theorem srcSet_devtime (n : Nat) (v : Src) (d : Dev) : (srcSet n v d).devtime = d.devtime := rfl
@[simp] theorem srcSet_freeCtr (n : Nat) (v : Src) (d : Dev) : (srcSet n v d).freeCtr = d.freeCtr := rfl
@[simp] theorem srcSet_out (n : Nat) (v : Src) (d : Dev) : (srcSet n v d).out = d.out := rfl
@[simp] theorem srcSet_regs (n : Nat) (v : Src) (d : Dev) : (srcSet n v d).regs = d.regs := rfl
@[simp] theorem srcSet_subs (n : Nat) (v : Src) (d : Dev) : (srcSet n v d).subs = d.subs := rfl
@[simp] theorem srcSet_packs (n : Nat) (v : Src) (d : Dev) : (srcSet n v d).packs = d.packs := rfl
@[simp] theorem srcSet_progs (n : Nat) (v : Src) (d : Dev) : (srcSet n v d).progs = d.progs := rfl
@[simp] theorem srcSet_ops (n : Nat) (v : Src) (d : Dev) : (srcSet n v d).ops = d.ops := rfl
@[simp] theorem srcSet_nextTok (n : Nat) (v : Src) (d : Dev) : (srcSet n v d).nextTok = d.nextTok := rfl
@[simp] theorem srcSet_srings (n : Nat) (v : Src) (d : Dev) : (srcSet n v d).srings = d.srings := rfl
@[simp] theorem srcSet_crings (n : Nat) (v : Src) (d : Dev) : (srcSet n v d).crings = d.crings := rfl
@[simp] theorem srcSet_stalled (n : Nat) (v : Src) (d : Dev) : (srcSet n v d).stalled = d.stalled := rfl
@[simp] theorem srcSet_outHeld (n : Nat) (v : Src) (d : Dev) : (srcSet n v d).outHeld = d.outHeld := rfl
@[simp] theorem srcSet_xasked (n : Nat) (v : Src) (d : Dev) : (srcSet n v d).xasked = d.xasked := rfl
@[simp] theorem srcSet_opHeld (n : Nat) (v : Src) (d : Dev) : (srcSet n v d).opHeld = d.opHeld := rfl
@[simp] theorem srcSet_clearing (n : Nat) (v : Src) (d : Dev) : (srcSet n v d).clearing = d.clearing := rfl
@[simp] theorem srcSet_evtWait (n : Nat) (v : Src) (d : Dev) : (srcSet n v d).evtWait = d.evtWait := rfl
@[simp] theorem srcSet_fnHeld (n : Nat) (v : Src) (d : Dev) : (srcSet n v d).fnHeld = d.fnHeld := rfl
@[simp] theorem srcSet_movWait (n : Nat) (v : Src) (d : Dev) : (srcSet n v d).movWait = d.movWait := rfl
@[simp] theorem srcSet_fns (n : Nat) (v : Src) (d : Dev) : (srcSet n v d).fns = d.fns := rfl
@[simp] theorem srcSet_waiting (n : Nat) (v : Src) (d : Dev) : (srcSet n v d).waiting = d.waiting := rfl
@[simp] theorem srcSet_dsWait (n : Nat) (v : Src) (d : Dev) : (srcSet n v d).dsWait = d.dsWait := rfl
@[simp] theorem srcSet_paused (n : Nat) (v : Src) (d : Dev) : (srcSet n v d).paused = d.paused := rfl
@[simp] theorem srcSet_workq (n : Nat) (v : Src) (d : Dev) : (srcSet n v d).workq = d.workq := rfl
@[simp] theorem srcSet_startWait (n : Nat) (v : Src) (d : Dev) : (srcSet n v d).startWait = d.startWait := rfl
@[simp] theorem srcSet_opWait (n : Nat) (v : Src) (d : Dev) : (srcSet n v d).opWait = d.opWait := rfl
@[simp] theorem srcSet_packCalls (n : Nat) (v : Src) (d : Dev) : (srcSet n v d).packCalls = d.packCalls := rfl
@[simp] theorem srcSet_binds (n : Nat) (v : Src) (d : Dev) : (srcSet n v d).binds = d.binds := rfl
@[simp] theorem srcSet_initDue (n : Nat) (v : Src) (d : Dev) : (srcSet n v d).initDue = d.initDue := rfl
@[simp] theorem srcSet_journal (n : Nat) (v : Src) (d : Dev) : (srcSet n v d).journal = d.journal := rfl
@[simp] theorem srcSet_jnHead (n : Nat) (v : Src) (d : Dev) : (srcSet n v d).jnHead = d.jnHead := rfl
@[simp] theorem srcSet_jnFeed (n : Nat) (v : Src) (d : Dev) : (srcSet n v d).jnFeed = d.jnFeed := rfl
@[simp] theorem srcSet_audit (n : Nat) (v : Src) (d : Dev) : (srcSet n v d).audit = d.audit := rfl
@[simp] theorem srcSet_auHead (n : Nat) (v : Src) (d : Dev) : (srcSet n v d).auHead = d.auHead := rfl
@[simp] theorem srcSet_auFeed (n : Nat) (v : Src) (d : Dev) : (srcSet n v d).auFeed = d.auFeed := rfl
@[simp] theorem srcSet_feeds (n : Nat) (v : Src) (d : Dev) : (srcSet n v d).feeds = d.feeds := rfl
@[simp] theorem srcSet_auWait (n : Nat) (v : Src) (d : Dev) : (srcSet n v d).auWait = d.auWait := rfl
@[simp] theorem srcSet_auPhase (n : Nat) (v : Src) (d : Dev) : (srcSet n v d).auPhase = d.auPhase := rfl
@[simp] theorem srcSet_pres (n : Nat) (v : Src) (d : Dev) : (srcSet n v d).pres = d.pres := rfl
@[simp] theorem srcSet_grps (n : Nat) (v : Src) (d : Dev) : (srcSet n v d).grps = d.grps := rfl
@[simp] theorem srcSet_lastGrp (n : Nat) (v : Src) (d : Dev) : (srcSet n v d).lastGrp = d.lastGrp := rfl
@[simp] theorem srcSet_lastSrc (n : Nat) (v : Src) (d : Dev) : (srcSet n v d).lastSrc = d.lastSrc := rfl
@[simp] theorem srcSet_lastCp (n : Nat) (v : Src) (d : Dev) : (srcSet n v d).lastCp = d.lastCp := rfl
@[simp] theorem srcSet_latches (n : Nat) (v : Src) (d : Dev) : (srcSet n v d).latches = d.latches := rfl
@[simp] theorem srcSet_cps (n : Nat) (v : Src) (d : Dev) : (srcSet n v d).cps = d.cps := rfl
@[simp] theorem srcSet_sems (n : Nat) (v : Src) (d : Dev) : (srcSet n v d).sems = d.sems := rfl
@[simp] theorem srcSet_mirrorWait (n : Nat) (v : Src) (d : Dev) : (srcSet n v d).mirrorWait = d.mirrorWait := rfl
@[simp] theorem srcSet_mirrorOld (n : Nat) (v : Src) (d : Dev) : (srcSet n v d).mirrorOld = d.mirrorOld := rfl
@[simp] theorem srcSet_chans (n : Nat) (v : Src) (d : Dev) : (srcSet n v d).chans = d.chans := rfl
@[simp] theorem srcSet_movServed (n : Nat) (v : Src) (d : Dev) : (srcSet n v d).movServed = d.movServed := rfl
@[simp] theorem srcSet_plaza (n : Nat) (v : Src) (d : Dev) : (srcSet n v d).plaza = d.plaza := rfl
@[simp] theorem srcSet_slices (n : Nat) (v : Src) (d : Dev) : (srcSet n v d).slices = d.slices := rfl
@[simp] theorem srcSet_strChans (n : Nat) (v : Src) (d : Dev) : (srcSet n v d).strChans = d.strChans := rfl
@[simp] theorem srcSet_scratch (n : Nat) (v : Src) (d : Dev) : (srcSet n v d).scratch = d.scratch := rfl
@[simp] theorem srcSet_resv (n : Nat) (v : Src) (d : Dev) : (srcSet n v d).resv = d.resv := rfl
@[simp] theorem srcSet_resvNext (n : Nat) (v : Src) (d : Dev) : (srcSet n v d).resvNext = d.resvNext := rfl
@[simp] theorem srcSet_fenceWait (n : Nat) (v : Src) (d : Dev) : (srcSet n v d).fenceWait = d.fenceWait := rfl
@[simp] theorem srcSet_lanes (n : Nat) (v : Src) (d : Dev) : (srcSet n v d).lanes = d.lanes := rfl
@[simp] theorem srcSet_laneBad (n : Nat) (v : Src) (d : Dev) : (srcSet n v d).laneBad = d.laneBad := rfl
@[simp] theorem srcSet_blvBad (n : Nat) (v : Src) (d : Dev) : (srcSet n v d).blvBad = d.blvBad := rfl
@[simp] theorem srcSet_hops (n : Nat) (v : Src) (d : Dev) : (srcSet n v d).hops = d.hops := rfl
@[simp] theorem srcSet_hopRx (n : Nat) (v : Src) (d : Dev) : (srcSet n v d).hopRx = d.hopRx := rfl
@[simp] theorem srcSet_refills (n : Nat) (v : Src) (d : Dev) : (srcSet n v d).refills = d.refills := rfl
@[simp] theorem srcSet_rbts (n : Nat) (v : Src) (d : Dev) : (srcSet n v d).rbts = d.rbts := rfl
@[simp] theorem srcSet_commits (n : Nat) (v : Src) (d : Dev) : (srcSet n v d).commits = d.commits := rfl
@[simp] theorem srcSet_resRsp (n : Nat) (v : Src) (d : Dev) : (srcSet n v d).resRsp = d.resRsp := rfl
@[simp] theorem srcSet_chals (n : Nat) (v : Src) (d : Dev) : (srcSet n v d).chals = d.chals := rfl
@[simp] theorem srcSet_xmodes (n : Nat) (v : Src) (d : Dev) : (srcSet n v d).xmodes = d.xmodes := rfl
@[simp] theorem srcSet_upDown (n : Nat) (v : Src) (d : Dev) : (srcSet n v d).upDown = d.upDown := rfl
@[simp] theorem srcSet_sgAvg (n : Nat) (v : Src) (d : Dev) : (srcSet n v d).sgAvg = d.sgAvg := rfl
@[simp] theorem srcSet_sgLast (n : Nat) (v : Src) (d : Dev) : (srcSet n v d).sgLast = d.sgLast := rfl
@[simp] theorem srcSet_sgTransit (n : Nat) (v : Src) (d : Dev) : (srcSet n v d).sgTransit = d.sgTransit := rfl
@[simp] theorem srcSet_sgCursor (n : Nat) (v : Src) (d : Dev) : (srcSet n v d).sgCursor = d.sgCursor := rfl
@[simp] theorem srcSet_sgMovLast (n : Nat) (v : Src) (d : Dev) : (srcSet n v d).sgMovLast = d.sgMovLast := rfl
@[simp] theorem srcSet_sgLog (n : Nat) (v : Src) (d : Dev) : (srcSet n v d).sgLog = d.sgLog := rfl
@[simp] theorem srcSet_bankSets (n : Nat) (v : Src) (d : Dev) : (srcSet n v d).bankSets = d.bankSets := rfl
@[simp] theorem srcSet_bankPrev (n : Nat) (v : Src) (d : Dev) : (srcSet n v d).bankPrev = d.bankPrev := rfl
@[simp] theorem srcSet_bankElig (n : Nat) (v : Src) (d : Dev) : (srcSet n v d).bankElig = d.bankElig := rfl
@[simp] theorem srcSet_sgDist (n : Nat) (v : Src) (d : Dev) : (srcSet n v d).sgDist = d.sgDist := rfl
@[simp] theorem srcSet_bankRaw (n : Nat) (v : Src) (d : Dev) : (srcSet n v d).bankRaw = d.bankRaw := rfl
@[simp] theorem srcSet_xlate (n : Nat) (v : Src) (d : Dev) : (srcSet n v d).xlate = d.xlate := rfl
@[simp] theorem srcSet_invals (n : Nat) (v : Src) (d : Dev) : (srcSet n v d).invals = d.invals := rfl
@[simp] theorem srcSet_alertSrcs (n : Nat) (v : Src) (d : Dev) : (srcSet n v d).alertSrcs = d.alertSrcs := rfl
@[simp] theorem srcSet_injected (n : Nat) (v : Src) (d : Dev) : (srcSet n v d).injected = d.injected := rfl
@[simp] theorem srcSet_rotWait (n : Nat) (v : Src) (d : Dev) : (srcSet n v d).rotWait = d.rotWait := rfl
@[simp] theorem srcSet_keys (n : Nat) (v : Src) (d : Dev) : (srcSet n v d).keys = d.keys := rfl
@[simp] theorem srcSet_scWait (n : Nat) (v : Src) (d : Dev) : (srcSet n v d).scWait = d.scWait := rfl
@[simp] theorem srcSet_injecting (n : Nat) (v : Src) (d : Dev) : (srcSet n v d).injecting = d.injecting := rfl
@[simp] theorem srcSet_faultAt (n : Nat) (v : Src) (d : Dev) : (srcSet n v d).faultAt = d.faultAt := rfl
@[simp] theorem srcSet_imgs (n : Nat) (v : Src) (d : Dev) : (srcSet n v d).imgs = d.imgs := rfl
@[simp] theorem srcSet_owners (n : Nat) (v : Src) (d : Dev) : (srcSet n v d).owners = d.owners := rfl
@[simp] theorem srcSet_ownersNow (n : Nat) (v : Src) (d : Dev) : (srcSet n v d).ownersNow = d.ownersNow := rfl
@[simp] theorem srcSet_dirActive (n : Nat) (v : Src) (d : Dev) : (srcSet n v d).dirActive = d.dirActive := rfl
@[simp] theorem srcSet_dirGen (n : Nat) (v : Src) (d : Dev) : (srcSet n v d).dirGen = d.dirGen := rfl
@[simp] theorem srcSet_dirCopy (n : Nat) (v : Src) (d : Dev) : (srcSet n v d).dirCopy = d.dirCopy := rfl
@[simp] theorem srcSet_nonces (n : Nat) (v : Src) (d : Dev) : (srcSet n v d).nonces = d.nonces := rfl
@[simp] theorem srcSet_mbQueue (n : Nat) (v : Src) (d : Dev) : (srcSet n v d).mbQueue = d.mbQueue := rfl
@[simp] theorem srcSet_upd (n : Nat) (v : Src) (d : Dev) : (srcSet n v d).upd = d.upd := rfl
@[simp] theorem srcSet_activ (n : Nat) (v : Src) (d : Dev) : (srcSet n v d).activ = d.activ := rfl
@[simp] theorem srcSet_attQ (n : Nat) (v : Src) (d : Dev) : (srcSet n v d).attQ = d.attQ := rfl
@[simp] theorem srcSet_sgWritten (n : Nat) (v : Src) (d : Dev) : (srcSet n v d).sgWritten = d.sgWritten := rfl
@[simp] theorem srcSet_boots (n : Nat) (v : Src) (d : Dev) : (srcSet n v d).boots = d.boots := rfl
@[simp] theorem srcSet_straps (n : Nat) (v : Src) (d : Dev) : (srcSet n v d).straps = d.straps := rfl
@[simp] theorem srcSet_sbEid (n : Nat) (v : Src) (d : Dev) : (srcSet n v d).sbEid = d.sbEid := rfl
@[simp] theorem srcSet_ldAt (n : Nat) (v : Src) (d : Dev) : (srcSet n v d).ldAt = d.ldAt := rfl
@[simp] theorem srcSet_lretry (n : Nat) (v : Src) (d : Dev) : (srcSet n v d).lretry = d.lretry := rfl
@[simp] theorem srcSet_slew (n : Nat) (v : Src) (d : Dev) : (srcSet n v d).slew = d.slew := rfl
@[simp] theorem srcSet_slewCnt (n : Nat) (v : Src) (d : Dev) : (srcSet n v d).slewCnt = d.slewCnt := rfl
@[simp] theorem srcSet_ptmAt (n : Nat) (v : Src) (d : Dev) : (srcSet n v d).ptmAt = d.ptmAt := rfl
@[simp] theorem srcSet_hot (n : Nat) (v : Src) (d : Dev) : (srcSet n v d).hot = d.hot := rfl
@[simp] theorem srcSet_thrCap (n : Nat) (v : Src) (d : Dev) : (srcSet n v d).thrCap = d.thrCap := rfl
@[simp] theorem srcSet_thrDuty (n : Nat) (v : Src) (d : Dev) : (srcSet n v d).thrDuty = d.thrDuty := rfl
@[simp] theorem srcSet_thrWait (n : Nat) (v : Src) (d : Dev) : (srcSet n v d).thrWait = d.thrWait := rfl
@[simp] theorem srcSet_thermtrip (n : Nat) (v : Src) (d : Dev) : (srcSet n v d).thermtrip = d.thermtrip := rfl
@[simp] theorem srcSet_tjSum (n : Nat) (v : Src) (d : Dev) : (srcSet n v d).tjSum = d.tjSum := rfl
@[simp] theorem srcSet_avsPend (n : Nat) (v : Src) (d : Dev) : (srcSet n v d).avsPend = d.avsPend := rfl
@[simp] theorem srcSet_tapIr (n : Nat) (v : Src) (d : Dev) : (srcSet n v d).tapIr = d.tapIr := rfl
@[simp] theorem srcSet_bsr (n : Nat) (v : Src) (d : Dev) : (srcSet n v d).bsr = d.bsr := rfl
@[simp] theorem srcSet_dumpSel (n : Nat) (v : Src) (d : Dev) : (srcSet n v d).dumpSel = d.dumpSel := rfl
@[simp] theorem srcSet_dumpOff (n : Nat) (v : Src) (d : Dev) : (srcSet n v d).dumpOff = d.dumpOff := rfl
@[simp] theorem srcSet_dumpCrc (n : Nat) (v : Src) (d : Dev) : (srcSet n v d).dumpCrc = d.dumpCrc := rfl
@[simp] theorem srcSet_dumpUe (n : Nat) (v : Src) (d : Dev) : (srcSet n v d).dumpUe = d.dumpUe := rfl
@[simp] theorem srcSet_maint (n : Nat) (v : Src) (d : Dev) : (srcSet n v d).maint = d.maint := rfl
@[simp] theorem srcSet_trace (n : Nat) (v : Src) (d : Dev) : (srcSet n v d).trace = d.trace := rfl
@[simp] theorem srcSet_trHead (n : Nat) (v : Src) (d : Dev) : (srcSet n v d).trHead = d.trHead := rfl
@[simp] theorem srcSet_frozen (n : Nat) (v : Src) (d : Dev) : (srcSet n v d).frozen = d.frozen := rfl
@[simp] theorem srcSet_frozenPin (n : Nat) (v : Src) (d : Dev) : (srcSet n v d).frozenPin = d.frozenPin := rfl
@[simp] theorem srcSet_fatal (n : Nat) (v : Src) (d : Dev) : (srcSet n v d).fatal = d.fatal := rfl

/-! ### Fields after storing a CP -/

@[simp] theorem cpSet_devtime (i : Nat) (c : Cp) (d : Dev) : (cpSet i c d).devtime = d.devtime := rfl
@[simp] theorem cpSet_freeCtr (i : Nat) (c : Cp) (d : Dev) : (cpSet i c d).freeCtr = d.freeCtr := rfl
@[simp] theorem cpSet_out (i : Nat) (c : Cp) (d : Dev) : (cpSet i c d).out = d.out := rfl
@[simp] theorem cpSet_regs (i : Nat) (c : Cp) (d : Dev) : (cpSet i c d).regs = d.regs := rfl
@[simp] theorem cpSet_subs (i : Nat) (c : Cp) (d : Dev) : (cpSet i c d).subs = d.subs := rfl
@[simp] theorem cpSet_packs (i : Nat) (c : Cp) (d : Dev) : (cpSet i c d).packs = d.packs := rfl
@[simp] theorem cpSet_progs (i : Nat) (c : Cp) (d : Dev) : (cpSet i c d).progs = d.progs := rfl
@[simp] theorem cpSet_ops (i : Nat) (c : Cp) (d : Dev) : (cpSet i c d).ops = d.ops := rfl
@[simp] theorem cpSet_nextTok (i : Nat) (c : Cp) (d : Dev) : (cpSet i c d).nextTok = d.nextTok := rfl
@[simp] theorem cpSet_srings (i : Nat) (c : Cp) (d : Dev) : (cpSet i c d).srings = d.srings := rfl
@[simp] theorem cpSet_crings (i : Nat) (c : Cp) (d : Dev) : (cpSet i c d).crings = d.crings := rfl
@[simp] theorem cpSet_stalled (i : Nat) (c : Cp) (d : Dev) : (cpSet i c d).stalled = d.stalled := rfl
@[simp] theorem cpSet_outHeld (i : Nat) (c : Cp) (d : Dev) : (cpSet i c d).outHeld = d.outHeld := rfl
@[simp] theorem cpSet_xasked (i : Nat) (c : Cp) (d : Dev) : (cpSet i c d).xasked = d.xasked := rfl
@[simp] theorem cpSet_opHeld (i : Nat) (c : Cp) (d : Dev) : (cpSet i c d).opHeld = d.opHeld := rfl
@[simp] theorem cpSet_clearing (i : Nat) (c : Cp) (d : Dev) : (cpSet i c d).clearing = d.clearing := rfl
@[simp] theorem cpSet_evtWait (i : Nat) (c : Cp) (d : Dev) : (cpSet i c d).evtWait = d.evtWait := rfl
@[simp] theorem cpSet_fnHeld (i : Nat) (c : Cp) (d : Dev) : (cpSet i c d).fnHeld = d.fnHeld := rfl
@[simp] theorem cpSet_movWait (i : Nat) (c : Cp) (d : Dev) : (cpSet i c d).movWait = d.movWait := rfl
@[simp] theorem cpSet_fns (i : Nat) (c : Cp) (d : Dev) : (cpSet i c d).fns = d.fns := rfl
@[simp] theorem cpSet_waiting (i : Nat) (c : Cp) (d : Dev) : (cpSet i c d).waiting = d.waiting := rfl
@[simp] theorem cpSet_dsWait (i : Nat) (c : Cp) (d : Dev) : (cpSet i c d).dsWait = d.dsWait := rfl
@[simp] theorem cpSet_paused (i : Nat) (c : Cp) (d : Dev) : (cpSet i c d).paused = d.paused := rfl
@[simp] theorem cpSet_workq (i : Nat) (c : Cp) (d : Dev) : (cpSet i c d).workq = d.workq := rfl
@[simp] theorem cpSet_startWait (i : Nat) (c : Cp) (d : Dev) : (cpSet i c d).startWait = d.startWait := rfl
@[simp] theorem cpSet_opWait (i : Nat) (c : Cp) (d : Dev) : (cpSet i c d).opWait = d.opWait := rfl
@[simp] theorem cpSet_packCalls (i : Nat) (c : Cp) (d : Dev) : (cpSet i c d).packCalls = d.packCalls := rfl
@[simp] theorem cpSet_binds (i : Nat) (c : Cp) (d : Dev) : (cpSet i c d).binds = d.binds := rfl
@[simp] theorem cpSet_initDue (i : Nat) (c : Cp) (d : Dev) : (cpSet i c d).initDue = d.initDue := rfl
@[simp] theorem cpSet_journal (i : Nat) (c : Cp) (d : Dev) : (cpSet i c d).journal = d.journal := rfl
@[simp] theorem cpSet_jnHead (i : Nat) (c : Cp) (d : Dev) : (cpSet i c d).jnHead = d.jnHead := rfl
@[simp] theorem cpSet_jnFeed (i : Nat) (c : Cp) (d : Dev) : (cpSet i c d).jnFeed = d.jnFeed := rfl
@[simp] theorem cpSet_audit (i : Nat) (c : Cp) (d : Dev) : (cpSet i c d).audit = d.audit := rfl
@[simp] theorem cpSet_auHead (i : Nat) (c : Cp) (d : Dev) : (cpSet i c d).auHead = d.auHead := rfl
@[simp] theorem cpSet_auFeed (i : Nat) (c : Cp) (d : Dev) : (cpSet i c d).auFeed = d.auFeed := rfl
@[simp] theorem cpSet_feeds (i : Nat) (c : Cp) (d : Dev) : (cpSet i c d).feeds = d.feeds := rfl
@[simp] theorem cpSet_auWait (i : Nat) (c : Cp) (d : Dev) : (cpSet i c d).auWait = d.auWait := rfl
@[simp] theorem cpSet_auPhase (i : Nat) (c : Cp) (d : Dev) : (cpSet i c d).auPhase = d.auPhase := rfl
@[simp] theorem cpSet_srcs (i : Nat) (c : Cp) (d : Dev) : (cpSet i c d).srcs = d.srcs := rfl
@[simp] theorem cpSet_pres (i : Nat) (c : Cp) (d : Dev) : (cpSet i c d).pres = d.pres := rfl
@[simp] theorem cpSet_grps (i : Nat) (c : Cp) (d : Dev) : (cpSet i c d).grps = d.grps := rfl
@[simp] theorem cpSet_lastGrp (i : Nat) (c : Cp) (d : Dev) : (cpSet i c d).lastGrp = d.lastGrp := rfl
@[simp] theorem cpSet_lastSrc (i : Nat) (c : Cp) (d : Dev) : (cpSet i c d).lastSrc = d.lastSrc := rfl
@[simp] theorem cpSet_lastCp (i : Nat) (c : Cp) (d : Dev) : (cpSet i c d).lastCp = d.lastCp := rfl
@[simp] theorem cpSet_latches (i : Nat) (c : Cp) (d : Dev) : (cpSet i c d).latches = d.latches := rfl
@[simp] theorem cpSet_sems (i : Nat) (c : Cp) (d : Dev) : (cpSet i c d).sems = d.sems := rfl
@[simp] theorem cpSet_mirrorWait (i : Nat) (c : Cp) (d : Dev) : (cpSet i c d).mirrorWait = d.mirrorWait := rfl
@[simp] theorem cpSet_mirrorOld (i : Nat) (c : Cp) (d : Dev) : (cpSet i c d).mirrorOld = d.mirrorOld := rfl
@[simp] theorem cpSet_chans (i : Nat) (c : Cp) (d : Dev) : (cpSet i c d).chans = d.chans := rfl
@[simp] theorem cpSet_movServed (i : Nat) (c : Cp) (d : Dev) : (cpSet i c d).movServed = d.movServed := rfl
@[simp] theorem cpSet_plaza (i : Nat) (c : Cp) (d : Dev) : (cpSet i c d).plaza = d.plaza := rfl
@[simp] theorem cpSet_slices (i : Nat) (c : Cp) (d : Dev) : (cpSet i c d).slices = d.slices := rfl
@[simp] theorem cpSet_strChans (i : Nat) (c : Cp) (d : Dev) : (cpSet i c d).strChans = d.strChans := rfl
@[simp] theorem cpSet_scratch (i : Nat) (c : Cp) (d : Dev) : (cpSet i c d).scratch = d.scratch := rfl
@[simp] theorem cpSet_resv (i : Nat) (c : Cp) (d : Dev) : (cpSet i c d).resv = d.resv := rfl
@[simp] theorem cpSet_resvNext (i : Nat) (c : Cp) (d : Dev) : (cpSet i c d).resvNext = d.resvNext := rfl
@[simp] theorem cpSet_fenceWait (i : Nat) (c : Cp) (d : Dev) : (cpSet i c d).fenceWait = d.fenceWait := rfl
@[simp] theorem cpSet_lanes (i : Nat) (c : Cp) (d : Dev) : (cpSet i c d).lanes = d.lanes := rfl
@[simp] theorem cpSet_laneBad (i : Nat) (c : Cp) (d : Dev) : (cpSet i c d).laneBad = d.laneBad := rfl
@[simp] theorem cpSet_blvBad (i : Nat) (c : Cp) (d : Dev) : (cpSet i c d).blvBad = d.blvBad := rfl
@[simp] theorem cpSet_hops (i : Nat) (c : Cp) (d : Dev) : (cpSet i c d).hops = d.hops := rfl
@[simp] theorem cpSet_hopRx (i : Nat) (c : Cp) (d : Dev) : (cpSet i c d).hopRx = d.hopRx := rfl
@[simp] theorem cpSet_refills (i : Nat) (c : Cp) (d : Dev) : (cpSet i c d).refills = d.refills := rfl
@[simp] theorem cpSet_rbts (i : Nat) (c : Cp) (d : Dev) : (cpSet i c d).rbts = d.rbts := rfl
@[simp] theorem cpSet_commits (i : Nat) (c : Cp) (d : Dev) : (cpSet i c d).commits = d.commits := rfl
@[simp] theorem cpSet_resRsp (i : Nat) (c : Cp) (d : Dev) : (cpSet i c d).resRsp = d.resRsp := rfl
@[simp] theorem cpSet_chals (i : Nat) (c : Cp) (d : Dev) : (cpSet i c d).chals = d.chals := rfl
@[simp] theorem cpSet_xmodes (i : Nat) (c : Cp) (d : Dev) : (cpSet i c d).xmodes = d.xmodes := rfl
@[simp] theorem cpSet_upDown (i : Nat) (c : Cp) (d : Dev) : (cpSet i c d).upDown = d.upDown := rfl
@[simp] theorem cpSet_sgAvg (i : Nat) (c : Cp) (d : Dev) : (cpSet i c d).sgAvg = d.sgAvg := rfl
@[simp] theorem cpSet_sgLast (i : Nat) (c : Cp) (d : Dev) : (cpSet i c d).sgLast = d.sgLast := rfl
@[simp] theorem cpSet_sgTransit (i : Nat) (c : Cp) (d : Dev) : (cpSet i c d).sgTransit = d.sgTransit := rfl
@[simp] theorem cpSet_sgCursor (i : Nat) (c : Cp) (d : Dev) : (cpSet i c d).sgCursor = d.sgCursor := rfl
@[simp] theorem cpSet_sgMovLast (i : Nat) (c : Cp) (d : Dev) : (cpSet i c d).sgMovLast = d.sgMovLast := rfl
@[simp] theorem cpSet_sgLog (i : Nat) (c : Cp) (d : Dev) : (cpSet i c d).sgLog = d.sgLog := rfl
@[simp] theorem cpSet_bankSets (i : Nat) (c : Cp) (d : Dev) : (cpSet i c d).bankSets = d.bankSets := rfl
@[simp] theorem cpSet_bankPrev (i : Nat) (c : Cp) (d : Dev) : (cpSet i c d).bankPrev = d.bankPrev := rfl
@[simp] theorem cpSet_bankElig (i : Nat) (c : Cp) (d : Dev) : (cpSet i c d).bankElig = d.bankElig := rfl
@[simp] theorem cpSet_sgDist (i : Nat) (c : Cp) (d : Dev) : (cpSet i c d).sgDist = d.sgDist := rfl
@[simp] theorem cpSet_bankRaw (i : Nat) (c : Cp) (d : Dev) : (cpSet i c d).bankRaw = d.bankRaw := rfl
@[simp] theorem cpSet_xlate (i : Nat) (c : Cp) (d : Dev) : (cpSet i c d).xlate = d.xlate := rfl
@[simp] theorem cpSet_invals (i : Nat) (c : Cp) (d : Dev) : (cpSet i c d).invals = d.invals := rfl
@[simp] theorem cpSet_alertSrcs (i : Nat) (c : Cp) (d : Dev) : (cpSet i c d).alertSrcs = d.alertSrcs := rfl
@[simp] theorem cpSet_injected (i : Nat) (c : Cp) (d : Dev) : (cpSet i c d).injected = d.injected := rfl
@[simp] theorem cpSet_rotWait (i : Nat) (c : Cp) (d : Dev) : (cpSet i c d).rotWait = d.rotWait := rfl
@[simp] theorem cpSet_keys (i : Nat) (c : Cp) (d : Dev) : (cpSet i c d).keys = d.keys := rfl
@[simp] theorem cpSet_scWait (i : Nat) (c : Cp) (d : Dev) : (cpSet i c d).scWait = d.scWait := rfl
@[simp] theorem cpSet_injecting (i : Nat) (c : Cp) (d : Dev) : (cpSet i c d).injecting = d.injecting := rfl
@[simp] theorem cpSet_faultAt (i : Nat) (c : Cp) (d : Dev) : (cpSet i c d).faultAt = d.faultAt := rfl
@[simp] theorem cpSet_imgs (i : Nat) (c : Cp) (d : Dev) : (cpSet i c d).imgs = d.imgs := rfl
@[simp] theorem cpSet_owners (i : Nat) (c : Cp) (d : Dev) : (cpSet i c d).owners = d.owners := rfl
@[simp] theorem cpSet_ownersNow (i : Nat) (c : Cp) (d : Dev) : (cpSet i c d).ownersNow = d.ownersNow := rfl
@[simp] theorem cpSet_dirActive (i : Nat) (c : Cp) (d : Dev) : (cpSet i c d).dirActive = d.dirActive := rfl
@[simp] theorem cpSet_dirGen (i : Nat) (c : Cp) (d : Dev) : (cpSet i c d).dirGen = d.dirGen := rfl
@[simp] theorem cpSet_dirCopy (i : Nat) (c : Cp) (d : Dev) : (cpSet i c d).dirCopy = d.dirCopy := rfl
@[simp] theorem cpSet_nonces (i : Nat) (c : Cp) (d : Dev) : (cpSet i c d).nonces = d.nonces := rfl
@[simp] theorem cpSet_mbQueue (i : Nat) (c : Cp) (d : Dev) : (cpSet i c d).mbQueue = d.mbQueue := rfl
@[simp] theorem cpSet_upd (i : Nat) (c : Cp) (d : Dev) : (cpSet i c d).upd = d.upd := rfl
@[simp] theorem cpSet_activ (i : Nat) (c : Cp) (d : Dev) : (cpSet i c d).activ = d.activ := rfl
@[simp] theorem cpSet_attQ (i : Nat) (c : Cp) (d : Dev) : (cpSet i c d).attQ = d.attQ := rfl
@[simp] theorem cpSet_sgWritten (i : Nat) (c : Cp) (d : Dev) : (cpSet i c d).sgWritten = d.sgWritten := rfl
@[simp] theorem cpSet_boots (i : Nat) (c : Cp) (d : Dev) : (cpSet i c d).boots = d.boots := rfl
@[simp] theorem cpSet_straps (i : Nat) (c : Cp) (d : Dev) : (cpSet i c d).straps = d.straps := rfl
@[simp] theorem cpSet_sbEid (i : Nat) (c : Cp) (d : Dev) : (cpSet i c d).sbEid = d.sbEid := rfl
@[simp] theorem cpSet_ldAt (i : Nat) (c : Cp) (d : Dev) : (cpSet i c d).ldAt = d.ldAt := rfl
@[simp] theorem cpSet_lretry (i : Nat) (c : Cp) (d : Dev) : (cpSet i c d).lretry = d.lretry := rfl
@[simp] theorem cpSet_slew (i : Nat) (c : Cp) (d : Dev) : (cpSet i c d).slew = d.slew := rfl
@[simp] theorem cpSet_slewCnt (i : Nat) (c : Cp) (d : Dev) : (cpSet i c d).slewCnt = d.slewCnt := rfl
@[simp] theorem cpSet_ptmAt (i : Nat) (c : Cp) (d : Dev) : (cpSet i c d).ptmAt = d.ptmAt := rfl
@[simp] theorem cpSet_hot (i : Nat) (c : Cp) (d : Dev) : (cpSet i c d).hot = d.hot := rfl
@[simp] theorem cpSet_thrCap (i : Nat) (c : Cp) (d : Dev) : (cpSet i c d).thrCap = d.thrCap := rfl
@[simp] theorem cpSet_thrDuty (i : Nat) (c : Cp) (d : Dev) : (cpSet i c d).thrDuty = d.thrDuty := rfl
@[simp] theorem cpSet_thrWait (i : Nat) (c : Cp) (d : Dev) : (cpSet i c d).thrWait = d.thrWait := rfl
@[simp] theorem cpSet_thermtrip (i : Nat) (c : Cp) (d : Dev) : (cpSet i c d).thermtrip = d.thermtrip := rfl
@[simp] theorem cpSet_tjSum (i : Nat) (c : Cp) (d : Dev) : (cpSet i c d).tjSum = d.tjSum := rfl
@[simp] theorem cpSet_avsPend (i : Nat) (c : Cp) (d : Dev) : (cpSet i c d).avsPend = d.avsPend := rfl
@[simp] theorem cpSet_tapIr (i : Nat) (c : Cp) (d : Dev) : (cpSet i c d).tapIr = d.tapIr := rfl
@[simp] theorem cpSet_bsr (i : Nat) (c : Cp) (d : Dev) : (cpSet i c d).bsr = d.bsr := rfl
@[simp] theorem cpSet_dumpSel (i : Nat) (c : Cp) (d : Dev) : (cpSet i c d).dumpSel = d.dumpSel := rfl
@[simp] theorem cpSet_dumpOff (i : Nat) (c : Cp) (d : Dev) : (cpSet i c d).dumpOff = d.dumpOff := rfl
@[simp] theorem cpSet_dumpCrc (i : Nat) (c : Cp) (d : Dev) : (cpSet i c d).dumpCrc = d.dumpCrc := rfl
@[simp] theorem cpSet_dumpUe (i : Nat) (c : Cp) (d : Dev) : (cpSet i c d).dumpUe = d.dumpUe := rfl
@[simp] theorem cpSet_maint (i : Nat) (c : Cp) (d : Dev) : (cpSet i c d).maint = d.maint := rfl
@[simp] theorem cpSet_trace (i : Nat) (c : Cp) (d : Dev) : (cpSet i c d).trace = d.trace := rfl
@[simp] theorem cpSet_trHead (i : Nat) (c : Cp) (d : Dev) : (cpSet i c d).trHead = d.trHead := rfl
@[simp] theorem cpSet_frozen (i : Nat) (c : Cp) (d : Dev) : (cpSet i c d).frozen = d.frozen := rfl
@[simp] theorem cpSet_frozenPin (i : Nat) (c : Cp) (d : Dev) : (cpSet i c d).frozenPin = d.frozenPin := rfl
@[simp] theorem cpSet_fatal (i : Nat) (c : Cp) (d : Dev) : (cpSet i c d).fatal = d.fatal := rfl

/-! ### Fields after storing a function -/

@[simp] theorem fnSet_devtime (f : FnId) (v : Fn) (d : Dev) : (fnSet f v d).devtime = d.devtime := rfl
@[simp] theorem fnSet_freeCtr (f : FnId) (v : Fn) (d : Dev) : (fnSet f v d).freeCtr = d.freeCtr := rfl
@[simp] theorem fnSet_out (f : FnId) (v : Fn) (d : Dev) : (fnSet f v d).out = d.out := rfl
@[simp] theorem fnSet_regs (f : FnId) (v : Fn) (d : Dev) : (fnSet f v d).regs = d.regs := rfl
@[simp] theorem fnSet_subs (f : FnId) (v : Fn) (d : Dev) : (fnSet f v d).subs = d.subs := rfl
@[simp] theorem fnSet_packs (f : FnId) (v : Fn) (d : Dev) : (fnSet f v d).packs = d.packs := rfl
@[simp] theorem fnSet_progs (f : FnId) (v : Fn) (d : Dev) : (fnSet f v d).progs = d.progs := rfl
@[simp] theorem fnSet_ops (f : FnId) (v : Fn) (d : Dev) : (fnSet f v d).ops = d.ops := rfl
@[simp] theorem fnSet_nextTok (f : FnId) (v : Fn) (d : Dev) : (fnSet f v d).nextTok = d.nextTok := rfl
@[simp] theorem fnSet_srings (f : FnId) (v : Fn) (d : Dev) : (fnSet f v d).srings = d.srings := rfl
@[simp] theorem fnSet_crings (f : FnId) (v : Fn) (d : Dev) : (fnSet f v d).crings = d.crings := rfl
@[simp] theorem fnSet_stalled (f : FnId) (v : Fn) (d : Dev) : (fnSet f v d).stalled = d.stalled := rfl
@[simp] theorem fnSet_outHeld (f : FnId) (v : Fn) (d : Dev) : (fnSet f v d).outHeld = d.outHeld := rfl
@[simp] theorem fnSet_xasked (f : FnId) (v : Fn) (d : Dev) : (fnSet f v d).xasked = d.xasked := rfl
@[simp] theorem fnSet_opHeld (f : FnId) (v : Fn) (d : Dev) : (fnSet f v d).opHeld = d.opHeld := rfl
@[simp] theorem fnSet_clearing (f : FnId) (v : Fn) (d : Dev) : (fnSet f v d).clearing = d.clearing := rfl
@[simp] theorem fnSet_evtWait (f : FnId) (v : Fn) (d : Dev) : (fnSet f v d).evtWait = d.evtWait := rfl
@[simp] theorem fnSet_fnHeld (f : FnId) (v : Fn) (d : Dev) : (fnSet f v d).fnHeld = d.fnHeld := rfl
@[simp] theorem fnSet_movWait (f : FnId) (v : Fn) (d : Dev) : (fnSet f v d).movWait = d.movWait := rfl
@[simp] theorem fnSet_waiting (f : FnId) (v : Fn) (d : Dev) : (fnSet f v d).waiting = d.waiting := rfl
@[simp] theorem fnSet_dsWait (f : FnId) (v : Fn) (d : Dev) : (fnSet f v d).dsWait = d.dsWait := rfl
@[simp] theorem fnSet_paused (f : FnId) (v : Fn) (d : Dev) : (fnSet f v d).paused = d.paused := rfl
@[simp] theorem fnSet_workq (f : FnId) (v : Fn) (d : Dev) : (fnSet f v d).workq = d.workq := rfl
@[simp] theorem fnSet_startWait (f : FnId) (v : Fn) (d : Dev) : (fnSet f v d).startWait = d.startWait := rfl
@[simp] theorem fnSet_opWait (f : FnId) (v : Fn) (d : Dev) : (fnSet f v d).opWait = d.opWait := rfl
@[simp] theorem fnSet_packCalls (f : FnId) (v : Fn) (d : Dev) : (fnSet f v d).packCalls = d.packCalls := rfl
@[simp] theorem fnSet_binds (f : FnId) (v : Fn) (d : Dev) : (fnSet f v d).binds = d.binds := rfl
@[simp] theorem fnSet_initDue (f : FnId) (v : Fn) (d : Dev) : (fnSet f v d).initDue = d.initDue := rfl
@[simp] theorem fnSet_journal (f : FnId) (v : Fn) (d : Dev) : (fnSet f v d).journal = d.journal := rfl
@[simp] theorem fnSet_jnHead (f : FnId) (v : Fn) (d : Dev) : (fnSet f v d).jnHead = d.jnHead := rfl
@[simp] theorem fnSet_jnFeed (f : FnId) (v : Fn) (d : Dev) : (fnSet f v d).jnFeed = d.jnFeed := rfl
@[simp] theorem fnSet_audit (f : FnId) (v : Fn) (d : Dev) : (fnSet f v d).audit = d.audit := rfl
@[simp] theorem fnSet_auHead (f : FnId) (v : Fn) (d : Dev) : (fnSet f v d).auHead = d.auHead := rfl
@[simp] theorem fnSet_auFeed (f : FnId) (v : Fn) (d : Dev) : (fnSet f v d).auFeed = d.auFeed := rfl
@[simp] theorem fnSet_feeds (f : FnId) (v : Fn) (d : Dev) : (fnSet f v d).feeds = d.feeds := rfl
@[simp] theorem fnSet_auWait (f : FnId) (v : Fn) (d : Dev) : (fnSet f v d).auWait = d.auWait := rfl
@[simp] theorem fnSet_auPhase (f : FnId) (v : Fn) (d : Dev) : (fnSet f v d).auPhase = d.auPhase := rfl
@[simp] theorem fnSet_srcs (f : FnId) (v : Fn) (d : Dev) : (fnSet f v d).srcs = d.srcs := rfl
@[simp] theorem fnSet_pres (f : FnId) (v : Fn) (d : Dev) : (fnSet f v d).pres = d.pres := rfl
@[simp] theorem fnSet_grps (f : FnId) (v : Fn) (d : Dev) : (fnSet f v d).grps = d.grps := rfl
@[simp] theorem fnSet_lastGrp (f : FnId) (v : Fn) (d : Dev) : (fnSet f v d).lastGrp = d.lastGrp := rfl
@[simp] theorem fnSet_lastSrc (f : FnId) (v : Fn) (d : Dev) : (fnSet f v d).lastSrc = d.lastSrc := rfl
@[simp] theorem fnSet_lastCp (f : FnId) (v : Fn) (d : Dev) : (fnSet f v d).lastCp = d.lastCp := rfl
@[simp] theorem fnSet_latches (f : FnId) (v : Fn) (d : Dev) : (fnSet f v d).latches = d.latches := rfl
@[simp] theorem fnSet_cps (f : FnId) (v : Fn) (d : Dev) : (fnSet f v d).cps = d.cps := rfl
@[simp] theorem fnSet_sems (f : FnId) (v : Fn) (d : Dev) : (fnSet f v d).sems = d.sems := rfl
@[simp] theorem fnSet_mirrorWait (f : FnId) (v : Fn) (d : Dev) : (fnSet f v d).mirrorWait = d.mirrorWait := rfl
@[simp] theorem fnSet_mirrorOld (f : FnId) (v : Fn) (d : Dev) : (fnSet f v d).mirrorOld = d.mirrorOld := rfl
@[simp] theorem fnSet_chans (f : FnId) (v : Fn) (d : Dev) : (fnSet f v d).chans = d.chans := rfl
@[simp] theorem fnSet_movServed (f : FnId) (v : Fn) (d : Dev) : (fnSet f v d).movServed = d.movServed := rfl
@[simp] theorem fnSet_plaza (f : FnId) (v : Fn) (d : Dev) : (fnSet f v d).plaza = d.plaza := rfl
@[simp] theorem fnSet_slices (f : FnId) (v : Fn) (d : Dev) : (fnSet f v d).slices = d.slices := rfl
@[simp] theorem fnSet_strChans (f : FnId) (v : Fn) (d : Dev) : (fnSet f v d).strChans = d.strChans := rfl
@[simp] theorem fnSet_scratch (f : FnId) (v : Fn) (d : Dev) : (fnSet f v d).scratch = d.scratch := rfl
@[simp] theorem fnSet_resv (f : FnId) (v : Fn) (d : Dev) : (fnSet f v d).resv = d.resv := rfl
@[simp] theorem fnSet_resvNext (f : FnId) (v : Fn) (d : Dev) : (fnSet f v d).resvNext = d.resvNext := rfl
@[simp] theorem fnSet_fenceWait (f : FnId) (v : Fn) (d : Dev) : (fnSet f v d).fenceWait = d.fenceWait := rfl
@[simp] theorem fnSet_lanes (f : FnId) (v : Fn) (d : Dev) : (fnSet f v d).lanes = d.lanes := rfl
@[simp] theorem fnSet_laneBad (f : FnId) (v : Fn) (d : Dev) : (fnSet f v d).laneBad = d.laneBad := rfl
@[simp] theorem fnSet_blvBad (f : FnId) (v : Fn) (d : Dev) : (fnSet f v d).blvBad = d.blvBad := rfl
@[simp] theorem fnSet_hops (f : FnId) (v : Fn) (d : Dev) : (fnSet f v d).hops = d.hops := rfl
@[simp] theorem fnSet_hopRx (f : FnId) (v : Fn) (d : Dev) : (fnSet f v d).hopRx = d.hopRx := rfl
@[simp] theorem fnSet_refills (f : FnId) (v : Fn) (d : Dev) : (fnSet f v d).refills = d.refills := rfl
@[simp] theorem fnSet_rbts (f : FnId) (v : Fn) (d : Dev) : (fnSet f v d).rbts = d.rbts := rfl
@[simp] theorem fnSet_commits (f : FnId) (v : Fn) (d : Dev) : (fnSet f v d).commits = d.commits := rfl
@[simp] theorem fnSet_resRsp (f : FnId) (v : Fn) (d : Dev) : (fnSet f v d).resRsp = d.resRsp := rfl
@[simp] theorem fnSet_chals (f : FnId) (v : Fn) (d : Dev) : (fnSet f v d).chals = d.chals := rfl
@[simp] theorem fnSet_xmodes (f : FnId) (v : Fn) (d : Dev) : (fnSet f v d).xmodes = d.xmodes := rfl
@[simp] theorem fnSet_upDown (f : FnId) (v : Fn) (d : Dev) : (fnSet f v d).upDown = d.upDown := rfl
@[simp] theorem fnSet_sgAvg (f : FnId) (v : Fn) (d : Dev) : (fnSet f v d).sgAvg = d.sgAvg := rfl
@[simp] theorem fnSet_sgLast (f : FnId) (v : Fn) (d : Dev) : (fnSet f v d).sgLast = d.sgLast := rfl
@[simp] theorem fnSet_sgTransit (f : FnId) (v : Fn) (d : Dev) : (fnSet f v d).sgTransit = d.sgTransit := rfl
@[simp] theorem fnSet_sgCursor (f : FnId) (v : Fn) (d : Dev) : (fnSet f v d).sgCursor = d.sgCursor := rfl
@[simp] theorem fnSet_sgMovLast (f : FnId) (v : Fn) (d : Dev) : (fnSet f v d).sgMovLast = d.sgMovLast := rfl
@[simp] theorem fnSet_sgLog (f : FnId) (v : Fn) (d : Dev) : (fnSet f v d).sgLog = d.sgLog := rfl
@[simp] theorem fnSet_bankSets (f : FnId) (v : Fn) (d : Dev) : (fnSet f v d).bankSets = d.bankSets := rfl
@[simp] theorem fnSet_bankPrev (f : FnId) (v : Fn) (d : Dev) : (fnSet f v d).bankPrev = d.bankPrev := rfl
@[simp] theorem fnSet_bankElig (f : FnId) (v : Fn) (d : Dev) : (fnSet f v d).bankElig = d.bankElig := rfl
@[simp] theorem fnSet_sgDist (f : FnId) (v : Fn) (d : Dev) : (fnSet f v d).sgDist = d.sgDist := rfl
@[simp] theorem fnSet_bankRaw (f : FnId) (v : Fn) (d : Dev) : (fnSet f v d).bankRaw = d.bankRaw := rfl
@[simp] theorem fnSet_xlate (f : FnId) (v : Fn) (d : Dev) : (fnSet f v d).xlate = d.xlate := rfl
@[simp] theorem fnSet_invals (f : FnId) (v : Fn) (d : Dev) : (fnSet f v d).invals = d.invals := rfl
@[simp] theorem fnSet_alertSrcs (f : FnId) (v : Fn) (d : Dev) : (fnSet f v d).alertSrcs = d.alertSrcs := rfl
@[simp] theorem fnSet_injected (f : FnId) (v : Fn) (d : Dev) : (fnSet f v d).injected = d.injected := rfl
@[simp] theorem fnSet_rotWait (f : FnId) (v : Fn) (d : Dev) : (fnSet f v d).rotWait = d.rotWait := rfl
@[simp] theorem fnSet_keys (f : FnId) (v : Fn) (d : Dev) : (fnSet f v d).keys = d.keys := rfl
@[simp] theorem fnSet_scWait (f : FnId) (v : Fn) (d : Dev) : (fnSet f v d).scWait = d.scWait := rfl
@[simp] theorem fnSet_injecting (f : FnId) (v : Fn) (d : Dev) : (fnSet f v d).injecting = d.injecting := rfl
@[simp] theorem fnSet_faultAt (f : FnId) (v : Fn) (d : Dev) : (fnSet f v d).faultAt = d.faultAt := rfl
@[simp] theorem fnSet_imgs (f : FnId) (v : Fn) (d : Dev) : (fnSet f v d).imgs = d.imgs := rfl
@[simp] theorem fnSet_owners (f : FnId) (v : Fn) (d : Dev) : (fnSet f v d).owners = d.owners := rfl
@[simp] theorem fnSet_ownersNow (f : FnId) (v : Fn) (d : Dev) : (fnSet f v d).ownersNow = d.ownersNow := rfl
@[simp] theorem fnSet_dirActive (f : FnId) (v : Fn) (d : Dev) : (fnSet f v d).dirActive = d.dirActive := rfl
@[simp] theorem fnSet_dirGen (f : FnId) (v : Fn) (d : Dev) : (fnSet f v d).dirGen = d.dirGen := rfl
@[simp] theorem fnSet_dirCopy (f : FnId) (v : Fn) (d : Dev) : (fnSet f v d).dirCopy = d.dirCopy := rfl
@[simp] theorem fnSet_nonces (f : FnId) (v : Fn) (d : Dev) : (fnSet f v d).nonces = d.nonces := rfl
@[simp] theorem fnSet_mbQueue (f : FnId) (v : Fn) (d : Dev) : (fnSet f v d).mbQueue = d.mbQueue := rfl
@[simp] theorem fnSet_upd (f : FnId) (v : Fn) (d : Dev) : (fnSet f v d).upd = d.upd := rfl
@[simp] theorem fnSet_activ (f : FnId) (v : Fn) (d : Dev) : (fnSet f v d).activ = d.activ := rfl
@[simp] theorem fnSet_attQ (f : FnId) (v : Fn) (d : Dev) : (fnSet f v d).attQ = d.attQ := rfl
@[simp] theorem fnSet_sgWritten (f : FnId) (v : Fn) (d : Dev) : (fnSet f v d).sgWritten = d.sgWritten := rfl
@[simp] theorem fnSet_boots (f : FnId) (v : Fn) (d : Dev) : (fnSet f v d).boots = d.boots := rfl
@[simp] theorem fnSet_straps (f : FnId) (v : Fn) (d : Dev) : (fnSet f v d).straps = d.straps := rfl
@[simp] theorem fnSet_sbEid (f : FnId) (v : Fn) (d : Dev) : (fnSet f v d).sbEid = d.sbEid := rfl
@[simp] theorem fnSet_ldAt (f : FnId) (v : Fn) (d : Dev) : (fnSet f v d).ldAt = d.ldAt := rfl
@[simp] theorem fnSet_lretry (f : FnId) (v : Fn) (d : Dev) : (fnSet f v d).lretry = d.lretry := rfl
@[simp] theorem fnSet_slew (f : FnId) (v : Fn) (d : Dev) : (fnSet f v d).slew = d.slew := rfl
@[simp] theorem fnSet_slewCnt (f : FnId) (v : Fn) (d : Dev) : (fnSet f v d).slewCnt = d.slewCnt := rfl
@[simp] theorem fnSet_ptmAt (f : FnId) (v : Fn) (d : Dev) : (fnSet f v d).ptmAt = d.ptmAt := rfl
@[simp] theorem fnSet_hot (f : FnId) (v : Fn) (d : Dev) : (fnSet f v d).hot = d.hot := rfl
@[simp] theorem fnSet_thrCap (f : FnId) (v : Fn) (d : Dev) : (fnSet f v d).thrCap = d.thrCap := rfl
@[simp] theorem fnSet_thrDuty (f : FnId) (v : Fn) (d : Dev) : (fnSet f v d).thrDuty = d.thrDuty := rfl
@[simp] theorem fnSet_thrWait (f : FnId) (v : Fn) (d : Dev) : (fnSet f v d).thrWait = d.thrWait := rfl
@[simp] theorem fnSet_thermtrip (f : FnId) (v : Fn) (d : Dev) : (fnSet f v d).thermtrip = d.thermtrip := rfl
@[simp] theorem fnSet_tjSum (f : FnId) (v : Fn) (d : Dev) : (fnSet f v d).tjSum = d.tjSum := rfl
@[simp] theorem fnSet_avsPend (f : FnId) (v : Fn) (d : Dev) : (fnSet f v d).avsPend = d.avsPend := rfl
@[simp] theorem fnSet_tapIr (f : FnId) (v : Fn) (d : Dev) : (fnSet f v d).tapIr = d.tapIr := rfl
@[simp] theorem fnSet_bsr (f : FnId) (v : Fn) (d : Dev) : (fnSet f v d).bsr = d.bsr := rfl
@[simp] theorem fnSet_dumpSel (f : FnId) (v : Fn) (d : Dev) : (fnSet f v d).dumpSel = d.dumpSel := rfl
@[simp] theorem fnSet_dumpOff (f : FnId) (v : Fn) (d : Dev) : (fnSet f v d).dumpOff = d.dumpOff := rfl
@[simp] theorem fnSet_dumpCrc (f : FnId) (v : Fn) (d : Dev) : (fnSet f v d).dumpCrc = d.dumpCrc := rfl
@[simp] theorem fnSet_dumpUe (f : FnId) (v : Fn) (d : Dev) : (fnSet f v d).dumpUe = d.dumpUe := rfl
@[simp] theorem fnSet_maint (f : FnId) (v : Fn) (d : Dev) : (fnSet f v d).maint = d.maint := rfl
@[simp] theorem fnSet_trace (f : FnId) (v : Fn) (d : Dev) : (fnSet f v d).trace = d.trace := rfl
@[simp] theorem fnSet_trHead (f : FnId) (v : Fn) (d : Dev) : (fnSet f v d).trHead = d.trHead := rfl
@[simp] theorem fnSet_frozen (f : FnId) (v : Fn) (d : Dev) : (fnSet f v d).frozen = d.frozen := rfl
@[simp] theorem fnSet_frozenPin (f : FnId) (v : Fn) (d : Dev) : (fnSet f v d).frozenPin = d.frozenPin := rfl
@[simp] theorem fnSet_fatal (f : FnId) (v : Fn) (d : Dev) : (fnSet f v d).fatal = d.fatal := rfl

/-! ### Fields after storing a start ring -/

@[simp] theorem srSet_devtime (n : Nat) (v : SRing) (d : Dev) : (srSet n v d).devtime = d.devtime := rfl
@[simp] theorem srSet_freeCtr (n : Nat) (v : SRing) (d : Dev) : (srSet n v d).freeCtr = d.freeCtr := rfl
@[simp] theorem srSet_out (n : Nat) (v : SRing) (d : Dev) : (srSet n v d).out = d.out := rfl
@[simp] theorem srSet_regs (n : Nat) (v : SRing) (d : Dev) : (srSet n v d).regs = d.regs := rfl
@[simp] theorem srSet_subs (n : Nat) (v : SRing) (d : Dev) : (srSet n v d).subs = d.subs := rfl
@[simp] theorem srSet_packs (n : Nat) (v : SRing) (d : Dev) : (srSet n v d).packs = d.packs := rfl
@[simp] theorem srSet_progs (n : Nat) (v : SRing) (d : Dev) : (srSet n v d).progs = d.progs := rfl
@[simp] theorem srSet_ops (n : Nat) (v : SRing) (d : Dev) : (srSet n v d).ops = d.ops := rfl
@[simp] theorem srSet_nextTok (n : Nat) (v : SRing) (d : Dev) : (srSet n v d).nextTok = d.nextTok := rfl
@[simp] theorem srSet_crings (n : Nat) (v : SRing) (d : Dev) : (srSet n v d).crings = d.crings := rfl
@[simp] theorem srSet_stalled (n : Nat) (v : SRing) (d : Dev) : (srSet n v d).stalled = d.stalled := rfl
@[simp] theorem srSet_outHeld (n : Nat) (v : SRing) (d : Dev) : (srSet n v d).outHeld = d.outHeld := rfl
@[simp] theorem srSet_xasked (n : Nat) (v : SRing) (d : Dev) : (srSet n v d).xasked = d.xasked := rfl
@[simp] theorem srSet_opHeld (n : Nat) (v : SRing) (d : Dev) : (srSet n v d).opHeld = d.opHeld := rfl
@[simp] theorem srSet_clearing (n : Nat) (v : SRing) (d : Dev) : (srSet n v d).clearing = d.clearing := rfl
@[simp] theorem srSet_evtWait (n : Nat) (v : SRing) (d : Dev) : (srSet n v d).evtWait = d.evtWait := rfl
@[simp] theorem srSet_fnHeld (n : Nat) (v : SRing) (d : Dev) : (srSet n v d).fnHeld = d.fnHeld := rfl
@[simp] theorem srSet_movWait (n : Nat) (v : SRing) (d : Dev) : (srSet n v d).movWait = d.movWait := rfl
@[simp] theorem srSet_fns (n : Nat) (v : SRing) (d : Dev) : (srSet n v d).fns = d.fns := rfl
@[simp] theorem srSet_waiting (n : Nat) (v : SRing) (d : Dev) : (srSet n v d).waiting = d.waiting := rfl
@[simp] theorem srSet_dsWait (n : Nat) (v : SRing) (d : Dev) : (srSet n v d).dsWait = d.dsWait := rfl
@[simp] theorem srSet_paused (n : Nat) (v : SRing) (d : Dev) : (srSet n v d).paused = d.paused := rfl
@[simp] theorem srSet_workq (n : Nat) (v : SRing) (d : Dev) : (srSet n v d).workq = d.workq := rfl
@[simp] theorem srSet_startWait (n : Nat) (v : SRing) (d : Dev) : (srSet n v d).startWait = d.startWait := rfl
@[simp] theorem srSet_opWait (n : Nat) (v : SRing) (d : Dev) : (srSet n v d).opWait = d.opWait := rfl
@[simp] theorem srSet_packCalls (n : Nat) (v : SRing) (d : Dev) : (srSet n v d).packCalls = d.packCalls := rfl
@[simp] theorem srSet_binds (n : Nat) (v : SRing) (d : Dev) : (srSet n v d).binds = d.binds := rfl
@[simp] theorem srSet_initDue (n : Nat) (v : SRing) (d : Dev) : (srSet n v d).initDue = d.initDue := rfl
@[simp] theorem srSet_journal (n : Nat) (v : SRing) (d : Dev) : (srSet n v d).journal = d.journal := rfl
@[simp] theorem srSet_jnHead (n : Nat) (v : SRing) (d : Dev) : (srSet n v d).jnHead = d.jnHead := rfl
@[simp] theorem srSet_jnFeed (n : Nat) (v : SRing) (d : Dev) : (srSet n v d).jnFeed = d.jnFeed := rfl
@[simp] theorem srSet_audit (n : Nat) (v : SRing) (d : Dev) : (srSet n v d).audit = d.audit := rfl
@[simp] theorem srSet_auHead (n : Nat) (v : SRing) (d : Dev) : (srSet n v d).auHead = d.auHead := rfl
@[simp] theorem srSet_auFeed (n : Nat) (v : SRing) (d : Dev) : (srSet n v d).auFeed = d.auFeed := rfl
@[simp] theorem srSet_feeds (n : Nat) (v : SRing) (d : Dev) : (srSet n v d).feeds = d.feeds := rfl
@[simp] theorem srSet_auWait (n : Nat) (v : SRing) (d : Dev) : (srSet n v d).auWait = d.auWait := rfl
@[simp] theorem srSet_auPhase (n : Nat) (v : SRing) (d : Dev) : (srSet n v d).auPhase = d.auPhase := rfl
@[simp] theorem srSet_srcs (n : Nat) (v : SRing) (d : Dev) : (srSet n v d).srcs = d.srcs := rfl
@[simp] theorem srSet_pres (n : Nat) (v : SRing) (d : Dev) : (srSet n v d).pres = d.pres := rfl
@[simp] theorem srSet_grps (n : Nat) (v : SRing) (d : Dev) : (srSet n v d).grps = d.grps := rfl
@[simp] theorem srSet_lastGrp (n : Nat) (v : SRing) (d : Dev) : (srSet n v d).lastGrp = d.lastGrp := rfl
@[simp] theorem srSet_lastSrc (n : Nat) (v : SRing) (d : Dev) : (srSet n v d).lastSrc = d.lastSrc := rfl
@[simp] theorem srSet_lastCp (n : Nat) (v : SRing) (d : Dev) : (srSet n v d).lastCp = d.lastCp := rfl
@[simp] theorem srSet_latches (n : Nat) (v : SRing) (d : Dev) : (srSet n v d).latches = d.latches := rfl
@[simp] theorem srSet_cps (n : Nat) (v : SRing) (d : Dev) : (srSet n v d).cps = d.cps := rfl
@[simp] theorem srSet_sems (n : Nat) (v : SRing) (d : Dev) : (srSet n v d).sems = d.sems := rfl
@[simp] theorem srSet_mirrorWait (n : Nat) (v : SRing) (d : Dev) : (srSet n v d).mirrorWait = d.mirrorWait := rfl
@[simp] theorem srSet_mirrorOld (n : Nat) (v : SRing) (d : Dev) : (srSet n v d).mirrorOld = d.mirrorOld := rfl
@[simp] theorem srSet_chans (n : Nat) (v : SRing) (d : Dev) : (srSet n v d).chans = d.chans := rfl
@[simp] theorem srSet_movServed (n : Nat) (v : SRing) (d : Dev) : (srSet n v d).movServed = d.movServed := rfl
@[simp] theorem srSet_plaza (n : Nat) (v : SRing) (d : Dev) : (srSet n v d).plaza = d.plaza := rfl
@[simp] theorem srSet_slices (n : Nat) (v : SRing) (d : Dev) : (srSet n v d).slices = d.slices := rfl
@[simp] theorem srSet_strChans (n : Nat) (v : SRing) (d : Dev) : (srSet n v d).strChans = d.strChans := rfl
@[simp] theorem srSet_scratch (n : Nat) (v : SRing) (d : Dev) : (srSet n v d).scratch = d.scratch := rfl
@[simp] theorem srSet_resv (n : Nat) (v : SRing) (d : Dev) : (srSet n v d).resv = d.resv := rfl
@[simp] theorem srSet_resvNext (n : Nat) (v : SRing) (d : Dev) : (srSet n v d).resvNext = d.resvNext := rfl
@[simp] theorem srSet_fenceWait (n : Nat) (v : SRing) (d : Dev) : (srSet n v d).fenceWait = d.fenceWait := rfl
@[simp] theorem srSet_lanes (n : Nat) (v : SRing) (d : Dev) : (srSet n v d).lanes = d.lanes := rfl
@[simp] theorem srSet_laneBad (n : Nat) (v : SRing) (d : Dev) : (srSet n v d).laneBad = d.laneBad := rfl
@[simp] theorem srSet_blvBad (n : Nat) (v : SRing) (d : Dev) : (srSet n v d).blvBad = d.blvBad := rfl
@[simp] theorem srSet_hops (n : Nat) (v : SRing) (d : Dev) : (srSet n v d).hops = d.hops := rfl
@[simp] theorem srSet_hopRx (n : Nat) (v : SRing) (d : Dev) : (srSet n v d).hopRx = d.hopRx := rfl
@[simp] theorem srSet_refills (n : Nat) (v : SRing) (d : Dev) : (srSet n v d).refills = d.refills := rfl
@[simp] theorem srSet_rbts (n : Nat) (v : SRing) (d : Dev) : (srSet n v d).rbts = d.rbts := rfl
@[simp] theorem srSet_commits (n : Nat) (v : SRing) (d : Dev) : (srSet n v d).commits = d.commits := rfl
@[simp] theorem srSet_resRsp (n : Nat) (v : SRing) (d : Dev) : (srSet n v d).resRsp = d.resRsp := rfl
@[simp] theorem srSet_chals (n : Nat) (v : SRing) (d : Dev) : (srSet n v d).chals = d.chals := rfl
@[simp] theorem srSet_xmodes (n : Nat) (v : SRing) (d : Dev) : (srSet n v d).xmodes = d.xmodes := rfl
@[simp] theorem srSet_upDown (n : Nat) (v : SRing) (d : Dev) : (srSet n v d).upDown = d.upDown := rfl
@[simp] theorem srSet_sgAvg (n : Nat) (v : SRing) (d : Dev) : (srSet n v d).sgAvg = d.sgAvg := rfl
@[simp] theorem srSet_sgLast (n : Nat) (v : SRing) (d : Dev) : (srSet n v d).sgLast = d.sgLast := rfl
@[simp] theorem srSet_sgTransit (n : Nat) (v : SRing) (d : Dev) : (srSet n v d).sgTransit = d.sgTransit := rfl
@[simp] theorem srSet_sgCursor (n : Nat) (v : SRing) (d : Dev) : (srSet n v d).sgCursor = d.sgCursor := rfl
@[simp] theorem srSet_sgMovLast (n : Nat) (v : SRing) (d : Dev) : (srSet n v d).sgMovLast = d.sgMovLast := rfl
@[simp] theorem srSet_sgLog (n : Nat) (v : SRing) (d : Dev) : (srSet n v d).sgLog = d.sgLog := rfl
@[simp] theorem srSet_bankSets (n : Nat) (v : SRing) (d : Dev) : (srSet n v d).bankSets = d.bankSets := rfl
@[simp] theorem srSet_bankPrev (n : Nat) (v : SRing) (d : Dev) : (srSet n v d).bankPrev = d.bankPrev := rfl
@[simp] theorem srSet_bankElig (n : Nat) (v : SRing) (d : Dev) : (srSet n v d).bankElig = d.bankElig := rfl
@[simp] theorem srSet_sgDist (n : Nat) (v : SRing) (d : Dev) : (srSet n v d).sgDist = d.sgDist := rfl
@[simp] theorem srSet_bankRaw (n : Nat) (v : SRing) (d : Dev) : (srSet n v d).bankRaw = d.bankRaw := rfl
@[simp] theorem srSet_xlate (n : Nat) (v : SRing) (d : Dev) : (srSet n v d).xlate = d.xlate := rfl
@[simp] theorem srSet_invals (n : Nat) (v : SRing) (d : Dev) : (srSet n v d).invals = d.invals := rfl
@[simp] theorem srSet_alertSrcs (n : Nat) (v : SRing) (d : Dev) : (srSet n v d).alertSrcs = d.alertSrcs := rfl
@[simp] theorem srSet_injected (n : Nat) (v : SRing) (d : Dev) : (srSet n v d).injected = d.injected := rfl
@[simp] theorem srSet_rotWait (n : Nat) (v : SRing) (d : Dev) : (srSet n v d).rotWait = d.rotWait := rfl
@[simp] theorem srSet_keys (n : Nat) (v : SRing) (d : Dev) : (srSet n v d).keys = d.keys := rfl
@[simp] theorem srSet_scWait (n : Nat) (v : SRing) (d : Dev) : (srSet n v d).scWait = d.scWait := rfl
@[simp] theorem srSet_injecting (n : Nat) (v : SRing) (d : Dev) : (srSet n v d).injecting = d.injecting := rfl
@[simp] theorem srSet_faultAt (n : Nat) (v : SRing) (d : Dev) : (srSet n v d).faultAt = d.faultAt := rfl
@[simp] theorem srSet_imgs (n : Nat) (v : SRing) (d : Dev) : (srSet n v d).imgs = d.imgs := rfl
@[simp] theorem srSet_owners (n : Nat) (v : SRing) (d : Dev) : (srSet n v d).owners = d.owners := rfl
@[simp] theorem srSet_ownersNow (n : Nat) (v : SRing) (d : Dev) : (srSet n v d).ownersNow = d.ownersNow := rfl
@[simp] theorem srSet_dirActive (n : Nat) (v : SRing) (d : Dev) : (srSet n v d).dirActive = d.dirActive := rfl
@[simp] theorem srSet_dirGen (n : Nat) (v : SRing) (d : Dev) : (srSet n v d).dirGen = d.dirGen := rfl
@[simp] theorem srSet_dirCopy (n : Nat) (v : SRing) (d : Dev) : (srSet n v d).dirCopy = d.dirCopy := rfl
@[simp] theorem srSet_nonces (n : Nat) (v : SRing) (d : Dev) : (srSet n v d).nonces = d.nonces := rfl
@[simp] theorem srSet_mbQueue (n : Nat) (v : SRing) (d : Dev) : (srSet n v d).mbQueue = d.mbQueue := rfl
@[simp] theorem srSet_upd (n : Nat) (v : SRing) (d : Dev) : (srSet n v d).upd = d.upd := rfl
@[simp] theorem srSet_activ (n : Nat) (v : SRing) (d : Dev) : (srSet n v d).activ = d.activ := rfl
@[simp] theorem srSet_attQ (n : Nat) (v : SRing) (d : Dev) : (srSet n v d).attQ = d.attQ := rfl
@[simp] theorem srSet_sgWritten (n : Nat) (v : SRing) (d : Dev) : (srSet n v d).sgWritten = d.sgWritten := rfl
@[simp] theorem srSet_boots (n : Nat) (v : SRing) (d : Dev) : (srSet n v d).boots = d.boots := rfl
@[simp] theorem srSet_straps (n : Nat) (v : SRing) (d : Dev) : (srSet n v d).straps = d.straps := rfl
@[simp] theorem srSet_sbEid (n : Nat) (v : SRing) (d : Dev) : (srSet n v d).sbEid = d.sbEid := rfl
@[simp] theorem srSet_ldAt (n : Nat) (v : SRing) (d : Dev) : (srSet n v d).ldAt = d.ldAt := rfl
@[simp] theorem srSet_lretry (n : Nat) (v : SRing) (d : Dev) : (srSet n v d).lretry = d.lretry := rfl
@[simp] theorem srSet_slew (n : Nat) (v : SRing) (d : Dev) : (srSet n v d).slew = d.slew := rfl
@[simp] theorem srSet_slewCnt (n : Nat) (v : SRing) (d : Dev) : (srSet n v d).slewCnt = d.slewCnt := rfl
@[simp] theorem srSet_ptmAt (n : Nat) (v : SRing) (d : Dev) : (srSet n v d).ptmAt = d.ptmAt := rfl
@[simp] theorem srSet_hot (n : Nat) (v : SRing) (d : Dev) : (srSet n v d).hot = d.hot := rfl
@[simp] theorem srSet_thrCap (n : Nat) (v : SRing) (d : Dev) : (srSet n v d).thrCap = d.thrCap := rfl
@[simp] theorem srSet_thrDuty (n : Nat) (v : SRing) (d : Dev) : (srSet n v d).thrDuty = d.thrDuty := rfl
@[simp] theorem srSet_thrWait (n : Nat) (v : SRing) (d : Dev) : (srSet n v d).thrWait = d.thrWait := rfl
@[simp] theorem srSet_thermtrip (n : Nat) (v : SRing) (d : Dev) : (srSet n v d).thermtrip = d.thermtrip := rfl
@[simp] theorem srSet_tjSum (n : Nat) (v : SRing) (d : Dev) : (srSet n v d).tjSum = d.tjSum := rfl
@[simp] theorem srSet_avsPend (n : Nat) (v : SRing) (d : Dev) : (srSet n v d).avsPend = d.avsPend := rfl
@[simp] theorem srSet_tapIr (n : Nat) (v : SRing) (d : Dev) : (srSet n v d).tapIr = d.tapIr := rfl
@[simp] theorem srSet_bsr (n : Nat) (v : SRing) (d : Dev) : (srSet n v d).bsr = d.bsr := rfl
@[simp] theorem srSet_dumpSel (n : Nat) (v : SRing) (d : Dev) : (srSet n v d).dumpSel = d.dumpSel := rfl
@[simp] theorem srSet_dumpOff (n : Nat) (v : SRing) (d : Dev) : (srSet n v d).dumpOff = d.dumpOff := rfl
@[simp] theorem srSet_dumpCrc (n : Nat) (v : SRing) (d : Dev) : (srSet n v d).dumpCrc = d.dumpCrc := rfl
@[simp] theorem srSet_dumpUe (n : Nat) (v : SRing) (d : Dev) : (srSet n v d).dumpUe = d.dumpUe := rfl
@[simp] theorem srSet_maint (n : Nat) (v : SRing) (d : Dev) : (srSet n v d).maint = d.maint := rfl
@[simp] theorem srSet_trace (n : Nat) (v : SRing) (d : Dev) : (srSet n v d).trace = d.trace := rfl
@[simp] theorem srSet_trHead (n : Nat) (v : SRing) (d : Dev) : (srSet n v d).trHead = d.trHead := rfl
@[simp] theorem srSet_frozen (n : Nat) (v : SRing) (d : Dev) : (srSet n v d).frozen = d.frozen := rfl
@[simp] theorem srSet_frozenPin (n : Nat) (v : SRing) (d : Dev) : (srSet n v d).frozenPin = d.frozenPin := rfl
@[simp] theorem srSet_fatal (n : Nat) (v : SRing) (d : Dev) : (srSet n v d).fatal = d.fatal := rfl

/-! ### Fields after storing a completion ring -/

@[simp] theorem crSet_devtime (n : Nat) (v : CRing) (d : Dev) : (crSet n v d).devtime = d.devtime := rfl
@[simp] theorem crSet_freeCtr (n : Nat) (v : CRing) (d : Dev) : (crSet n v d).freeCtr = d.freeCtr := rfl
@[simp] theorem crSet_out (n : Nat) (v : CRing) (d : Dev) : (crSet n v d).out = d.out := rfl
@[simp] theorem crSet_regs (n : Nat) (v : CRing) (d : Dev) : (crSet n v d).regs = d.regs := rfl
@[simp] theorem crSet_subs (n : Nat) (v : CRing) (d : Dev) : (crSet n v d).subs = d.subs := rfl
@[simp] theorem crSet_packs (n : Nat) (v : CRing) (d : Dev) : (crSet n v d).packs = d.packs := rfl
@[simp] theorem crSet_progs (n : Nat) (v : CRing) (d : Dev) : (crSet n v d).progs = d.progs := rfl
@[simp] theorem crSet_ops (n : Nat) (v : CRing) (d : Dev) : (crSet n v d).ops = d.ops := rfl
@[simp] theorem crSet_nextTok (n : Nat) (v : CRing) (d : Dev) : (crSet n v d).nextTok = d.nextTok := rfl
@[simp] theorem crSet_srings (n : Nat) (v : CRing) (d : Dev) : (crSet n v d).srings = d.srings := rfl
@[simp] theorem crSet_stalled (n : Nat) (v : CRing) (d : Dev) : (crSet n v d).stalled = d.stalled := rfl
@[simp] theorem crSet_outHeld (n : Nat) (v : CRing) (d : Dev) : (crSet n v d).outHeld = d.outHeld := rfl
@[simp] theorem crSet_xasked (n : Nat) (v : CRing) (d : Dev) : (crSet n v d).xasked = d.xasked := rfl
@[simp] theorem crSet_opHeld (n : Nat) (v : CRing) (d : Dev) : (crSet n v d).opHeld = d.opHeld := rfl
@[simp] theorem crSet_clearing (n : Nat) (v : CRing) (d : Dev) : (crSet n v d).clearing = d.clearing := rfl
@[simp] theorem crSet_evtWait (n : Nat) (v : CRing) (d : Dev) : (crSet n v d).evtWait = d.evtWait := rfl
@[simp] theorem crSet_fnHeld (n : Nat) (v : CRing) (d : Dev) : (crSet n v d).fnHeld = d.fnHeld := rfl
@[simp] theorem crSet_movWait (n : Nat) (v : CRing) (d : Dev) : (crSet n v d).movWait = d.movWait := rfl
@[simp] theorem crSet_fns (n : Nat) (v : CRing) (d : Dev) : (crSet n v d).fns = d.fns := rfl
@[simp] theorem crSet_waiting (n : Nat) (v : CRing) (d : Dev) : (crSet n v d).waiting = d.waiting := rfl
@[simp] theorem crSet_dsWait (n : Nat) (v : CRing) (d : Dev) : (crSet n v d).dsWait = d.dsWait := rfl
@[simp] theorem crSet_paused (n : Nat) (v : CRing) (d : Dev) : (crSet n v d).paused = d.paused := rfl
@[simp] theorem crSet_workq (n : Nat) (v : CRing) (d : Dev) : (crSet n v d).workq = d.workq := rfl
@[simp] theorem crSet_startWait (n : Nat) (v : CRing) (d : Dev) : (crSet n v d).startWait = d.startWait := rfl
@[simp] theorem crSet_opWait (n : Nat) (v : CRing) (d : Dev) : (crSet n v d).opWait = d.opWait := rfl
@[simp] theorem crSet_packCalls (n : Nat) (v : CRing) (d : Dev) : (crSet n v d).packCalls = d.packCalls := rfl
@[simp] theorem crSet_binds (n : Nat) (v : CRing) (d : Dev) : (crSet n v d).binds = d.binds := rfl
@[simp] theorem crSet_initDue (n : Nat) (v : CRing) (d : Dev) : (crSet n v d).initDue = d.initDue := rfl
@[simp] theorem crSet_journal (n : Nat) (v : CRing) (d : Dev) : (crSet n v d).journal = d.journal := rfl
@[simp] theorem crSet_jnHead (n : Nat) (v : CRing) (d : Dev) : (crSet n v d).jnHead = d.jnHead := rfl
@[simp] theorem crSet_jnFeed (n : Nat) (v : CRing) (d : Dev) : (crSet n v d).jnFeed = d.jnFeed := rfl
@[simp] theorem crSet_audit (n : Nat) (v : CRing) (d : Dev) : (crSet n v d).audit = d.audit := rfl
@[simp] theorem crSet_auHead (n : Nat) (v : CRing) (d : Dev) : (crSet n v d).auHead = d.auHead := rfl
@[simp] theorem crSet_auFeed (n : Nat) (v : CRing) (d : Dev) : (crSet n v d).auFeed = d.auFeed := rfl
@[simp] theorem crSet_feeds (n : Nat) (v : CRing) (d : Dev) : (crSet n v d).feeds = d.feeds := rfl
@[simp] theorem crSet_auWait (n : Nat) (v : CRing) (d : Dev) : (crSet n v d).auWait = d.auWait := rfl
@[simp] theorem crSet_auPhase (n : Nat) (v : CRing) (d : Dev) : (crSet n v d).auPhase = d.auPhase := rfl
@[simp] theorem crSet_srcs (n : Nat) (v : CRing) (d : Dev) : (crSet n v d).srcs = d.srcs := rfl
@[simp] theorem crSet_pres (n : Nat) (v : CRing) (d : Dev) : (crSet n v d).pres = d.pres := rfl
@[simp] theorem crSet_grps (n : Nat) (v : CRing) (d : Dev) : (crSet n v d).grps = d.grps := rfl
@[simp] theorem crSet_lastGrp (n : Nat) (v : CRing) (d : Dev) : (crSet n v d).lastGrp = d.lastGrp := rfl
@[simp] theorem crSet_lastSrc (n : Nat) (v : CRing) (d : Dev) : (crSet n v d).lastSrc = d.lastSrc := rfl
@[simp] theorem crSet_lastCp (n : Nat) (v : CRing) (d : Dev) : (crSet n v d).lastCp = d.lastCp := rfl
@[simp] theorem crSet_latches (n : Nat) (v : CRing) (d : Dev) : (crSet n v d).latches = d.latches := rfl
@[simp] theorem crSet_cps (n : Nat) (v : CRing) (d : Dev) : (crSet n v d).cps = d.cps := rfl
@[simp] theorem crSet_sems (n : Nat) (v : CRing) (d : Dev) : (crSet n v d).sems = d.sems := rfl
@[simp] theorem crSet_mirrorWait (n : Nat) (v : CRing) (d : Dev) : (crSet n v d).mirrorWait = d.mirrorWait := rfl
@[simp] theorem crSet_mirrorOld (n : Nat) (v : CRing) (d : Dev) : (crSet n v d).mirrorOld = d.mirrorOld := rfl
@[simp] theorem crSet_chans (n : Nat) (v : CRing) (d : Dev) : (crSet n v d).chans = d.chans := rfl
@[simp] theorem crSet_movServed (n : Nat) (v : CRing) (d : Dev) : (crSet n v d).movServed = d.movServed := rfl
@[simp] theorem crSet_plaza (n : Nat) (v : CRing) (d : Dev) : (crSet n v d).plaza = d.plaza := rfl
@[simp] theorem crSet_slices (n : Nat) (v : CRing) (d : Dev) : (crSet n v d).slices = d.slices := rfl
@[simp] theorem crSet_strChans (n : Nat) (v : CRing) (d : Dev) : (crSet n v d).strChans = d.strChans := rfl
@[simp] theorem crSet_scratch (n : Nat) (v : CRing) (d : Dev) : (crSet n v d).scratch = d.scratch := rfl
@[simp] theorem crSet_resv (n : Nat) (v : CRing) (d : Dev) : (crSet n v d).resv = d.resv := rfl
@[simp] theorem crSet_resvNext (n : Nat) (v : CRing) (d : Dev) : (crSet n v d).resvNext = d.resvNext := rfl
@[simp] theorem crSet_fenceWait (n : Nat) (v : CRing) (d : Dev) : (crSet n v d).fenceWait = d.fenceWait := rfl
@[simp] theorem crSet_lanes (n : Nat) (v : CRing) (d : Dev) : (crSet n v d).lanes = d.lanes := rfl
@[simp] theorem crSet_laneBad (n : Nat) (v : CRing) (d : Dev) : (crSet n v d).laneBad = d.laneBad := rfl
@[simp] theorem crSet_blvBad (n : Nat) (v : CRing) (d : Dev) : (crSet n v d).blvBad = d.blvBad := rfl
@[simp] theorem crSet_hops (n : Nat) (v : CRing) (d : Dev) : (crSet n v d).hops = d.hops := rfl
@[simp] theorem crSet_hopRx (n : Nat) (v : CRing) (d : Dev) : (crSet n v d).hopRx = d.hopRx := rfl
@[simp] theorem crSet_refills (n : Nat) (v : CRing) (d : Dev) : (crSet n v d).refills = d.refills := rfl
@[simp] theorem crSet_rbts (n : Nat) (v : CRing) (d : Dev) : (crSet n v d).rbts = d.rbts := rfl
@[simp] theorem crSet_commits (n : Nat) (v : CRing) (d : Dev) : (crSet n v d).commits = d.commits := rfl
@[simp] theorem crSet_resRsp (n : Nat) (v : CRing) (d : Dev) : (crSet n v d).resRsp = d.resRsp := rfl
@[simp] theorem crSet_chals (n : Nat) (v : CRing) (d : Dev) : (crSet n v d).chals = d.chals := rfl
@[simp] theorem crSet_xmodes (n : Nat) (v : CRing) (d : Dev) : (crSet n v d).xmodes = d.xmodes := rfl
@[simp] theorem crSet_upDown (n : Nat) (v : CRing) (d : Dev) : (crSet n v d).upDown = d.upDown := rfl
@[simp] theorem crSet_sgAvg (n : Nat) (v : CRing) (d : Dev) : (crSet n v d).sgAvg = d.sgAvg := rfl
@[simp] theorem crSet_sgLast (n : Nat) (v : CRing) (d : Dev) : (crSet n v d).sgLast = d.sgLast := rfl
@[simp] theorem crSet_sgTransit (n : Nat) (v : CRing) (d : Dev) : (crSet n v d).sgTransit = d.sgTransit := rfl
@[simp] theorem crSet_sgCursor (n : Nat) (v : CRing) (d : Dev) : (crSet n v d).sgCursor = d.sgCursor := rfl
@[simp] theorem crSet_sgMovLast (n : Nat) (v : CRing) (d : Dev) : (crSet n v d).sgMovLast = d.sgMovLast := rfl
@[simp] theorem crSet_sgLog (n : Nat) (v : CRing) (d : Dev) : (crSet n v d).sgLog = d.sgLog := rfl
@[simp] theorem crSet_bankSets (n : Nat) (v : CRing) (d : Dev) : (crSet n v d).bankSets = d.bankSets := rfl
@[simp] theorem crSet_bankPrev (n : Nat) (v : CRing) (d : Dev) : (crSet n v d).bankPrev = d.bankPrev := rfl
@[simp] theorem crSet_bankElig (n : Nat) (v : CRing) (d : Dev) : (crSet n v d).bankElig = d.bankElig := rfl
@[simp] theorem crSet_sgDist (n : Nat) (v : CRing) (d : Dev) : (crSet n v d).sgDist = d.sgDist := rfl
@[simp] theorem crSet_bankRaw (n : Nat) (v : CRing) (d : Dev) : (crSet n v d).bankRaw = d.bankRaw := rfl
@[simp] theorem crSet_xlate (n : Nat) (v : CRing) (d : Dev) : (crSet n v d).xlate = d.xlate := rfl
@[simp] theorem crSet_invals (n : Nat) (v : CRing) (d : Dev) : (crSet n v d).invals = d.invals := rfl
@[simp] theorem crSet_alertSrcs (n : Nat) (v : CRing) (d : Dev) : (crSet n v d).alertSrcs = d.alertSrcs := rfl
@[simp] theorem crSet_injected (n : Nat) (v : CRing) (d : Dev) : (crSet n v d).injected = d.injected := rfl
@[simp] theorem crSet_rotWait (n : Nat) (v : CRing) (d : Dev) : (crSet n v d).rotWait = d.rotWait := rfl
@[simp] theorem crSet_keys (n : Nat) (v : CRing) (d : Dev) : (crSet n v d).keys = d.keys := rfl
@[simp] theorem crSet_scWait (n : Nat) (v : CRing) (d : Dev) : (crSet n v d).scWait = d.scWait := rfl
@[simp] theorem crSet_injecting (n : Nat) (v : CRing) (d : Dev) : (crSet n v d).injecting = d.injecting := rfl
@[simp] theorem crSet_faultAt (n : Nat) (v : CRing) (d : Dev) : (crSet n v d).faultAt = d.faultAt := rfl
@[simp] theorem crSet_imgs (n : Nat) (v : CRing) (d : Dev) : (crSet n v d).imgs = d.imgs := rfl
@[simp] theorem crSet_owners (n : Nat) (v : CRing) (d : Dev) : (crSet n v d).owners = d.owners := rfl
@[simp] theorem crSet_ownersNow (n : Nat) (v : CRing) (d : Dev) : (crSet n v d).ownersNow = d.ownersNow := rfl
@[simp] theorem crSet_dirActive (n : Nat) (v : CRing) (d : Dev) : (crSet n v d).dirActive = d.dirActive := rfl
@[simp] theorem crSet_dirGen (n : Nat) (v : CRing) (d : Dev) : (crSet n v d).dirGen = d.dirGen := rfl
@[simp] theorem crSet_dirCopy (n : Nat) (v : CRing) (d : Dev) : (crSet n v d).dirCopy = d.dirCopy := rfl
@[simp] theorem crSet_nonces (n : Nat) (v : CRing) (d : Dev) : (crSet n v d).nonces = d.nonces := rfl
@[simp] theorem crSet_mbQueue (n : Nat) (v : CRing) (d : Dev) : (crSet n v d).mbQueue = d.mbQueue := rfl
@[simp] theorem crSet_upd (n : Nat) (v : CRing) (d : Dev) : (crSet n v d).upd = d.upd := rfl
@[simp] theorem crSet_activ (n : Nat) (v : CRing) (d : Dev) : (crSet n v d).activ = d.activ := rfl
@[simp] theorem crSet_attQ (n : Nat) (v : CRing) (d : Dev) : (crSet n v d).attQ = d.attQ := rfl
@[simp] theorem crSet_sgWritten (n : Nat) (v : CRing) (d : Dev) : (crSet n v d).sgWritten = d.sgWritten := rfl
@[simp] theorem crSet_boots (n : Nat) (v : CRing) (d : Dev) : (crSet n v d).boots = d.boots := rfl
@[simp] theorem crSet_straps (n : Nat) (v : CRing) (d : Dev) : (crSet n v d).straps = d.straps := rfl
@[simp] theorem crSet_sbEid (n : Nat) (v : CRing) (d : Dev) : (crSet n v d).sbEid = d.sbEid := rfl
@[simp] theorem crSet_ldAt (n : Nat) (v : CRing) (d : Dev) : (crSet n v d).ldAt = d.ldAt := rfl
@[simp] theorem crSet_lretry (n : Nat) (v : CRing) (d : Dev) : (crSet n v d).lretry = d.lretry := rfl
@[simp] theorem crSet_slew (n : Nat) (v : CRing) (d : Dev) : (crSet n v d).slew = d.slew := rfl
@[simp] theorem crSet_slewCnt (n : Nat) (v : CRing) (d : Dev) : (crSet n v d).slewCnt = d.slewCnt := rfl
@[simp] theorem crSet_ptmAt (n : Nat) (v : CRing) (d : Dev) : (crSet n v d).ptmAt = d.ptmAt := rfl
@[simp] theorem crSet_hot (n : Nat) (v : CRing) (d : Dev) : (crSet n v d).hot = d.hot := rfl
@[simp] theorem crSet_thrCap (n : Nat) (v : CRing) (d : Dev) : (crSet n v d).thrCap = d.thrCap := rfl
@[simp] theorem crSet_thrDuty (n : Nat) (v : CRing) (d : Dev) : (crSet n v d).thrDuty = d.thrDuty := rfl
@[simp] theorem crSet_thrWait (n : Nat) (v : CRing) (d : Dev) : (crSet n v d).thrWait = d.thrWait := rfl
@[simp] theorem crSet_thermtrip (n : Nat) (v : CRing) (d : Dev) : (crSet n v d).thermtrip = d.thermtrip := rfl
@[simp] theorem crSet_tjSum (n : Nat) (v : CRing) (d : Dev) : (crSet n v d).tjSum = d.tjSum := rfl
@[simp] theorem crSet_avsPend (n : Nat) (v : CRing) (d : Dev) : (crSet n v d).avsPend = d.avsPend := rfl
@[simp] theorem crSet_tapIr (n : Nat) (v : CRing) (d : Dev) : (crSet n v d).tapIr = d.tapIr := rfl
@[simp] theorem crSet_bsr (n : Nat) (v : CRing) (d : Dev) : (crSet n v d).bsr = d.bsr := rfl
@[simp] theorem crSet_dumpSel (n : Nat) (v : CRing) (d : Dev) : (crSet n v d).dumpSel = d.dumpSel := rfl
@[simp] theorem crSet_dumpOff (n : Nat) (v : CRing) (d : Dev) : (crSet n v d).dumpOff = d.dumpOff := rfl
@[simp] theorem crSet_dumpCrc (n : Nat) (v : CRing) (d : Dev) : (crSet n v d).dumpCrc = d.dumpCrc := rfl
@[simp] theorem crSet_dumpUe (n : Nat) (v : CRing) (d : Dev) : (crSet n v d).dumpUe = d.dumpUe := rfl
@[simp] theorem crSet_maint (n : Nat) (v : CRing) (d : Dev) : (crSet n v d).maint = d.maint := rfl
@[simp] theorem crSet_trace (n : Nat) (v : CRing) (d : Dev) : (crSet n v d).trace = d.trace := rfl
@[simp] theorem crSet_trHead (n : Nat) (v : CRing) (d : Dev) : (crSet n v d).trHead = d.trHead := rfl
@[simp] theorem crSet_frozen (n : Nat) (v : CRing) (d : Dev) : (crSet n v d).frozen = d.frozen := rfl
@[simp] theorem crSet_frozenPin (n : Nat) (v : CRing) (d : Dev) : (crSet n v d).frozenPin = d.frozenPin := rfl
@[simp] theorem crSet_fatal (n : Nat) (v : CRing) (d : Dev) : (crSet n v d).fatal = d.fatal := rfl

/-! ### Get after set -/

@[simp] theorem emit_out (o : Out) (d : Dev) : (emit o d).out = d.out ++ [o] := rfl

@[simp] theorem freeNext_freeCtr (d : Dev) : (freeNext d).2.freeCtr = d.freeCtr + 1 := rfl

@[simp] theorem freeNext_value (d : Dev) : (freeNext d).1 = Config.freeValue d.freeCtr := rfl

@[simp] theorem srcGet_srcSet_self (n : Nat) (v : Src) (d : Dev) : srcGet (srcSet n v d) n = v := by
  simp [srcGet, srcSet]

@[simp] theorem fnGet_fnSet_self (f : FnId) (v : Fn) (d : Dev) : fnGet (fnSet f v d) f = v := by
  simp [fnGet, fnSet]

@[simp] theorem srGet_srSet_self (n : Nat) (v : SRing) (d : Dev) : srGet (srSet n v d) n = v := by
  simp [srGet, srSet]

@[simp] theorem crGet_crSet_self (n : Nat) (v : CRing) (d : Dev) : crGet (crSet n v d) n = v := by
  simp [crGet, crSet]

theorem srGet_srSet_other {n k : Nat} (v : SRing) (d : Dev) (h : k ≠ n) : srGet (srSet n v d) k = srGet d k := by
  simp only [srGet, srSet]
  exact tget_tset_other _ _ _ _ h

theorem crGet_crSet_other {n k : Nat} (v : CRing) (d : Dev) (h : k ≠ n) : crGet (crSet n v d) k = crGet d k := by
  simp only [crGet, crSet]
  exact tget_tset_other _ _ _ _ h

theorem srcGet_srcSet_other {n k : Nat} (v : Src) (d : Dev) (h : k ≠ n) : srcGet (srcSet n v d) k = srcGet d k := by
  simp only [srcGet, srcSet]
  exact tget_tset_other _ _ _ _ h

/-- Storing a subchannel changes the subchannel table and nothing else. -/
theorem subSet_frame (n : Nat) (v : Sub) (d : Dev) : ∃ t, subSet n v d = { d with subs := t } := by
  unfold subSet
  dsimp only
  split
  · exact ⟨_, rfl⟩
  · exact ⟨d.subs, rfl⟩

/-- A subchannel that exists reads as it was stored, the sequence of its window entry apart. -/
theorem subGet_subSet_self {n : Nat} (v : Sub) (d : Dev) (h : n < Config.subchannels) :
    ∃ q, subGet (subSet n v d) n = { v with swSeq := q } := by
  have pick : ∀ (b : Prop) [Decidable b] (a : BitVec 24), ∃ q, (if b then v else { v with swSeq := a }) = { v with swSeq := q } := by
    intro b _ a
    by_cases hb : b
    · exact ⟨v.swSeq, by rw [if_pos hb]⟩
    · exact ⟨a, by rw [if_neg hb]⟩
  unfold subSet
  dsimp only
  rw [if_pos h]
  simp only [subGet, tget_tset_self]
  exact pick _ _

/-- Storing one subchannel leaves every other as it was. -/
theorem subGet_subSet_other {n k : Nat} (v : Sub) (d : Dev) (h : k ≠ n) : subGet (subSet n v d) k = subGet d k := by
  unfold subSet
  dsimp only
  split
  · simp only [subGet]
    exact tget_tset_other _ _ _ _ h
  · rfl

/-- Events that are counted change registers alone. -/
theorem dbEvents_frame (c n : Nat) (d : Dev) : ∃ r, dbEvents c n d = { d with regs := r } := by
  unfold dbEvents
  generalize List.range 8 = l
  induction l generalizing d with
  | nil => exact ⟨d.regs, rfl⟩
  | cons i l ih =>
      rw [List.foldl_cons]
      split
      · obtain ⟨r, h⟩ := ih (regSet .dbCnt i (regGet d .dbCnt i + BitVec.ofNat 64 n) d)
        exact ⟨r, h⟩
      · exact ih d

/-- An expiry brings its time, counts the cycles of FBK that pass, and changes nothing else. -/
theorem advanceTo_frame (t : DWord) (d : Dev) :
    ∃ u r, advanceTo t d = { d with devtime := u, regs := r } ∧ t ≤ u ∧ d.devtime ≤ u := by
  unfold advanceTo
  split
  · rename_i h
    obtain ⟨r, e⟩ := dbEvents_frame 0x0A ((d.devtime.toNat + (t.toNat - d.devtime.toNat)) * 8 / 5 - d.devtime.toNat * 8 / 5) d
    exact ⟨t, r, by rw [fbkPass, e], BitVec.le_refl t, BitVec.le_of_lt h⟩
  · rename_i h
    exact ⟨d.devtime, d.regs, rfl, BitVec.not_lt.mp h, BitVec.le_refl _⟩

end Sys2Proof.Machine
end

