-- ==== Sys2Proof/Laws/Signpost.lean ====
section
/-!
SUPPORT. What Signpost's choices can be.
-/
namespace Sys2Proof.Machine

open Sys2Proof

/-- The least number of a list is one of its numbers. -/
theorem foldl_min_mem (a : Nat) (t : List Nat) : t.foldl min a ∈ a :: t := by
  induction t generalizing a with
  | nil => simp
  | cons b t ih =>
    rw [List.foldl_cons]
    rcases List.mem_cons.mp (ih (min a b)) with h | h
    · rw [h]; rcases Nat.le_total a b with hb | hb <;> simp [Nat.min_eq_left, Nat.min_eq_right, hb]
    · exact List.mem_cons_of_mem _ (List.mem_cons_of_mem _ h)

/-- A partner that Signpost takes fits, or is one of those it may take (R263). -/
theorem onePartner_some {all : List Nat} {ok : Nat → Bool} {d : Dev} {m : Nat} (h : onePartner all ok d = some m) :
    ok m = true ∨ m ∈ all := by
  cases all with
  | nil => cases h
  | cons a t =>
    simp only [onePartner] at h
    split at h
    · cases h; exact .inl ‹_›
    · cases h; exact .inr (foldl_min_mem a t)

/-- Where there is a partner to take, one is taken (R263). -/
theorem onePartner_isSome (all : List Nat) (ok : Nat → Bool) (d : Dev) : (onePartner all ok d).isSome = !all.isEmpty := by
  cases all <;> rfl

end Sys2Proof.Machine
end

