-- ==== Sys2Proof/Laws/Streams.lean ====
section
/-!
SUPPORT. What the operations a command's stream goes through can do: its host accesses, its slices and its mover channels.
-/
namespace Sys2Proof.Machine

open Sys2Proof

/-- Accesses that wait for nothing are made now (R206, R515). -/
theorem hostGo_now {f : FnId} {l : List (DWord × Nat × Bool)} (g : Dev → Dev) {d : Dev} (h : hostWaits d f l = false) :
    hostGo f l g d = g d := by simp [hostGo, h]

/-- Accesses one of which waits ask for their translations and do nothing else (R515). -/
theorem hostGo_waits {f : FnId} {l : List (DWord × Nat × Bool)} (g : Dev → Dev) {d : Dev} (h : hostWaits d f l = true) :
    hostGo f l g d = hostAsk f l d := by simp [hostGo, h]

/-- A stream that needs no slice changes nothing (R222). -/
@[simp] theorem streamHold_zero (n cls : Nat) (ends : List Nat) (d : Dev) : streamHold n cls 0 ends d = (true, d) := by
  simp [streamHold]

/-- A stream that needs no mover channel changes nothing (R274). -/
@[simp] theorem chanHold_zero (n : Nat) (d : Dev) : chanHold n 0 d = (true, d) := by simp [chanHold]

/-- Committing channels changes the commitments, the channel assigned last and the streams' channels alone (R274). -/
theorem takeChans_frame {n k : Nat} {d e : Dev} (h : takeChans n k d = some e) :
    e = { d with commits := e.commits, sgMovLast := e.sgMovLast, strChans := e.strChans } := by
  induction k generalizing d with
  | zero => cases h; rfl
  | succ k ih =>
      unfold takeChans at h
      split at h
      · cases h
      · dsimp only at h
        have q := ih h
        exact q

/-- A stream that asks for channels holds them, or receives them when nobody waits before it and they are free, or waits (R274). -/
theorem chanHold_cases (n k : Nat) (d : Dev) :
    chanHold n k d = (true, d) ∨ (∃ e, takeChans n k d = some e ∧ d.movWait = [] ∧ chanHold n k d = (true, e))
      ∨ chanHold n k d = (false, d) ∨ chanHold n k d = (false, { d with movWait := d.movWait ++ [(n, k)] }) := by
  unfold chanHold
  split
  · exact .inl rfl
  · split
    · exact .inr (.inr (.inl rfl))
    · split
      · rename_i e h
        split at h
        · exact .inr (.inl ⟨e, h, by simpa using ‹d.movWait.isEmpty = true›, rfl⟩)
        · cases h
      · exact .inr (.inr (.inr rfl))

/-- With its slots, slices and channels there, a row acts (R79, R225, R274). -/
theorem whenRoom_room {n : Nat} {p : Prog} {k bytes ch : Nat} {ends : List Nat} (f : Dev → Dev) {d e : Dev}
    (hk : slotsFree d p.cp k = true) (hs : (streamHold n 1 (min 64 ((bytes + 4095) / 4096)) ends d).1 = true)
    (hc : chanHold n ch (streamHold n 1 (min 64 ((bytes + 4095) / 4096)) ends d).2 = (true, e)) :
    whenRoom n p k bytes ch ends f d = f e := by
  unfold whenRoom
  rw [if_pos hk]
  generalize streamHold n 1 (min 64 ((bytes + 4095) / 4096)) ends d = r at hs hc
  obtain ⟨b, d1⟩ := r
  cases hs
  simp only at hc
  simp [hc]

/-- A row that issues operations and moves no data through Plaza needs its slots alone. -/
theorem whenRoom_slots {n : Nat} {p : Prog} {k : Nat} (f : Dev → Dev) {d : Dev} (hk : slotsFree d p.cp k = true) :
    whenRoom n p k 0 0 [] f d = f d := whenRoom_room f hk (by simp) (by simp)

/-- Without its slots it waits (R79). -/
theorem whenRoom_full {n : Nat} {p : Prog} {k bytes ch : Nat} {ends : List Nat} (f : Dev → Dev) {d : Dev}
    (hk : slotsFree d p.cp k = false) : whenRoom n p k bytes ch ends f d = d := by simp [whenRoom, hk]

end Sys2Proof.Machine
end

