-- ==== Sys2Proof/Laws/Writes.lean ====
section
/-!
SUPPORT. One write of BAR 0 that passes the steps 1 to 3 of R405, by what its register says of it.
-/
namespace Sys2Proof.Machine

open Sys2Proof

/-- What a register says of a write, as the machine after it. -/
def answerOf (s : State) (o : Origin) (page x size : Nat) (val : DWord) (a : RegAt) : WrRes → State
  | .denied f => after s (writeAnswer o 1 (f (pgFlag page 31 (recorded s o page x size val 1))))
  | .cfgerr f => ignoredWrite s o page x size val f
  | .quiet => idleWrite s o page x size val
  | .ok f => if unaudited (judged o page x s.dev) o a = true then wroteQuietly s o page x f else wrote s o page x size val f

theorem barWriteNow_4 {o : Origin} {page x : Nat} (val : DWord) (d : Dev) (h0 : ¬ (page = 0 ∧ (x = 0x80 ∨ x = 0x84)))
    (hx : x < 4096) (h4 : x % 4 = 0) (hp : page < 0x4000) :
    barWriteNow o (4096 * page + x) 4 val d = barWrite1 o page x 4 (BitVec.ofNat 64 (val.toNat % 2 ^ 32)) d := by
  have e1 : (4096 * page + x) / 4096 = page := by omega
  have e2 : (4096 * page + x) % 4096 = x := by omega
  have e3 : sizeOk (4096 * page + x) 4 = true := by simp [sizeOk]; omega
  have e4 : (!sizeOk (4096 * page + x) 4 || decide (page = 0) && decide ((4 : Nat) = 4) && (decide (x = 0x80) || decide (x = 0x84))) = false := by
    rw [e3]; simpa using h0
  unfold barWriteNow
  dsimp only
  rw [e1, e2, e4]
  simp

theorem barWriteNow_8 {o : Origin} {page x : Nat} {a : RegAt} (val : DWord) (d : Dev) (hf : regFind page x = some a)
    (hb : a.byte = 0) (hw : a.info.bytes = 8) (hx : x < 4096) (h8 : x % 8 = 0) (hp : page < 0x4000) :
    barWriteNow o (4096 * page + x) 8 val d = barWrite1 o page x 8 val d := by
  have e1 : (4096 * page + x) / 4096 = page := by omega
  have e2 : (4096 * page + x) % 4096 = x := by omega
  have e3 : sizeOk (4096 * page + x) 8 = true := by simp [sizeOk]; omega
  unfold barWriteNow
  simp only [e1, e2, e3, hf]
  simp [hb, hw]

/-- Step 4 and 5 of R405 of a write that has passed the first three. -/
theorem barWrite1_passed {s : State} {o : Origin} {page x size : Nat} {val : DWord} {a : RegAt} {cs : List Nat}
    (P : Passes s o page x cs) (hf : regFind page x = some a) (hsel : isSelection a.reg = false) (hk : a.reg ≠ .pgXkey)
    (hb : a.byte = 0) (hc : ∀ c ∈ cs, inSet (writers a x) c = true) (hm : writeMask a.info ≠ 0)
    (hn : x ≠ 0x00C) (hp : page < 0x4000) (hwm : writeMask a.info &&& BitVec.ofNat 64 (fieldN (8 * size - 1) 0 (2 ^ 64 - 1)) = writeMask a.info) :
    after s (writeAnswer o (barWrite1 o page x size val s.dev).1 (barWrite1 o page x size val s.dev).2)
      = answerOf s o page x size val a (regEffect (judged o page x s.dev) o a (merged s o page x val (writeMask a.info))) := by
  obtain ⟨h1, h2, h3, h4, h5⟩ := P
  have hcl := hc _ h3
  have hv : (regShown (dropChal o page s.dev) o a &&& ~~~ (writeMask a.info)) ||| (val &&& writeMask a.info) = merged s o page x val (writeMask a.info) := by
    simp [merged, hf]
  have hl : lockOk (judged o page x s.dev) o page = true := by
    rw [← h4]
    unfold judged lockOk fatalShut regFld
    split
    · rw [regGet_xExpire _ (by omega) (by decide) (by decide) (by decide) (by decide), regGet_xExpire _ (by omega) (by decide) (by decide) (by decide) (by decide),
        regGet_xExpire _ (by omega) (by decide) (by decide) (by decide) (by decide)]
      rfl
    · rfl
  unfold barWrite1
  simp only [hf, hn, hsel, hb, Nat.mul_zero, BitVec.shiftLeft_zero, Nat.zero_add, hwm, hv, if_neg hk, if_false, Bool.false_eq_true]
  simp only [Nat.pow_zero, Nat.div_one]
  have hj : (if 2048 ≤ x then xExpire (dropChal o page s.dev) else dropChal o page s.dev) = judged o page x s.dev := by
    simp [judged]
  have hlo : (!(inSet (writers a x) (originClass o) && lockOk (judged o page x s.dev) o page)) = false := by simp [hcl, hl]
  have hxo : (decide (2048 ≤ x) && !(xOpen (judged o page x s.dev) o page)) = false := by
    by_cases h : 0x800 ≤ x
    · have := h5 h
      simp only [xOpen, xExpire_xmodes] at this
      simp only [judged, if_pos h, xOpen, xExpire_xmodes, xLeft_dropChal, this]
      simp
    · simp [h]
  simp only [decide_eq_true_eq, hj]
  simp only [hlo, hxo, hm, if_false, Bool.false_eq_true]
  cases regEffect (judged o page x s.dev) o a (merged s o page x val (writeMask a.info)) with
  | denied f => simp [answerOf, recorded, oldShown, hf, hb]
  | cfgerr f => simp [answerOf, recorded, oldShown, hf, hb, ignoredWrite]
  | quiet => simp [answerOf, recorded, oldShown, hf, hb, idleWrite]
  | ok f =>
    by_cases hu : unaudited (judged o page x s.dev) o a = true
    · simp [answerOf, hu, wroteQuietly]
    · simp [answerOf, hu, wrote, oldShown, hf, hb]

theorem run_running (s : State) (f : Dev → Dev) (h : s.dev.frozen = false) : run s f = .next (after s (f s.dev)) := by
  simp [run, h, after]

/-- A row that writes one register of 4 bytes, when steps 1 to 3 of R405 pass. -/
theorem write32_passed {s : State} {o : Origin} {page x : Nat} {v : Word} {a : RegAt} {cs : List Nat}
    (P : Passes s o page x cs) (hf : regFind page x = some a) (hsel : isSelection a.reg = false) (hk : a.reg ≠ .pgXkey)
    (hb : a.byte = 0) (hc : ∀ c ∈ cs, inSet (writers a x) c = true) (hm : writeMask a.info ≠ 0)
    (hn : x ≠ 0x00C) (hp : page < 0x4000) (hx : x < 4096) (h4 : x % 4 = 0) (h0 : ¬ (page = 0 ∧ (x = 0x80 ∨ x = 0x84)))
    (hwm : writeMask a.info &&& BitVec.ofNat 64 (fieldN (8 * 4 - 1) 0 (2 ^ 64 - 1)) = writeMask a.info) :
    run s (write32 o page x v) = .next (answerOf s o page x 4 (v.zeroExtend 64) a
      (regEffect (judged o page x s.dev) o a (merged s o page x (v.zeroExtend 64) (writeMask a.info)))) := by
  have hv : BitVec.ofNat 64 ((v.zeroExtend 64).toNat % 2 ^ 32) = v.zeroExtend 64 := by
    apply BitVec.eq_of_toNat_eq
    have := v.isLt
    simp
    omega
  rw [run_running _ _ P.1, ← barWrite1_passed P hf hsel hk hb hc hm hn hp hwm]
  unfold write32 barWrite
  rw [P.2.1, barWriteNow_4 _ _ h0 hx h4 hp, hv]
  simp

/-- A row that writes one register of 8 bytes, when steps 1 to 3 of R405 pass. -/
theorem write64_passed {s : State} {o : Origin} {page x : Nat} {v : DWord} {a : RegAt} {cs : List Nat}
    (P : Passes s o page x cs) (hf : regFind page x = some a) (hsel : isSelection a.reg = false) (hk : a.reg ≠ .pgXkey)
    (hb : a.byte = 0) (hw : a.info.bytes = 8) (hc : ∀ c ∈ cs, inSet (writers a x) c = true) (hm : writeMask a.info ≠ 0)
    (hn : x ≠ 0x00C) (hp : page < 0x4000) (hx : x < 4096) (h8 : x % 8 = 0) :
    run s (write64 o page x v) = .next (answerOf s o page x 8 v a
      (regEffect (judged o page x s.dev) o a (merged s o page x v (writeMask a.info)))) := by
  have hwm : writeMask a.info &&& BitVec.ofNat 64 (fieldN (8 * 8 - 1) 0 (2 ^ 64 - 1)) = writeMask a.info := by
    have : BitVec.ofNat 64 (fieldN (8 * 8 - 1) 0 (2 ^ 64 - 1)) = BitVec.allOnes 64 := by decide
    rw [this]; exact BitVec.and_allOnes
  rw [run_running _ _ P.1, ← barWrite1_passed P hf hsel hk hb hc hm hn hp hwm]
  unfold write64 barWrite
  rw [P.2.1, barWriteNow_8 _ _ hf hb hw hx h8 hp]
  simp

end Sys2Proof.Machine
end

