-- ==== Sys2Proof/Tests/Slice0.lean ====
section
/-!
SUPPORT. Small checks of the model's author: ill-formed commands that WellFormed refuses, examples of the manual's text, and,
for each statement with hypotheses, concrete states and operands that meet them (witness_<statement>).
-/
namespace Sys2Proof.Tests

open Sys2Proof Sys2Proof.Machine

set_option Elab.async false

/-! ### Well-formed commands -/

theorem test_wf_cp : instrWf (.add 72 ⟨0, 0, 0, 0⟩) = false ∧ instrWf (.add 71 ⟨0, 0, 0, 0⟩) = true := by decide
theorem test_wf_fn : instrWf (.d3hotEntry ⟨2, 0⟩) = false ∧ instrWf (.d3hotEntry ⟨0, 65⟩) = false
    ∧ instrWf (.d3hotEntry ⟨1, 64⟩) = true := by decide
theorem test_wf_origin : instrWf (.fzCtlGo (.hostPf 2) 0) = false ∧ instrWf (.fzCtlGo (.hostVf 0 0) 0) = false
    ∧ instrWf (.fzCtlGo (.hostVf 0 65) 0) = false ∧ instrWf (.fzCtlGo (.hostVf 2 1) 0) = false
    ∧ instrWf (.fzCtlGo (.bmc 4) 0) = false ∧ instrWf (.fzCtlGo (.cp 72) 0) = false ∧ instrWf (.fzCtlGo (.hw 8) 0) = false
    ∧ instrWf (.fzCtlGo .jtag 0) = true ∧ instrWf (.fzCtlGo .elfort 0) = true := by decide
theorem test_wf_ring : instrWf (.startRingPoll 4096) = false ∧ instrWf (.startRingPoll 4095) = true
    ∧ instrWf (.crDoorbell ⟨0, 0⟩ 4096 4 0) = false ∧ instrWf (.srCtlEnSet .jtag 4096 0) = false := by decide
theorem test_wf_sub : instrWf (.nop 0x40000) = false ∧ instrWf (.nop 0x3FFFF) = true
    ∧ instrWf (.pzReserve 3 0x40000) = false := by decide
theorem test_wf_chan : instrWf (.moverWaitDelayExpiry 4096) = false ∧ instrWf (.moverDisable .jtag 4096 0) = false := by decide
theorem test_wf_plaza : instrWf (.plazaHoldExpiry 0x40000) = false ∧ instrWf (.bankRetired 64) = false
    ∧ instrWf (.scratchSliceCopy 16384 0) = false ∧ instrWf (.scratchSliceCopy 0 16384) = false
    ∧ instrWf (.pzReservationGrant 8) = false ∧ instrWf (.boulevardPortFault 40) = false := by decide
theorem test_wf_junction : instrWf (.junctionSourceFire 16384) = false ∧ instrWf (.holdoffExpiry 256) = false := by decide
theorem test_wf_pages : instrWf (.pgXkeyRead .jtag 16384) = false ∧ instrWf (.evtPendingWrite .jtag 16384 0) = false := by decide
theorem test_wf_ports : instrWf (.linkDownWaitExpiry 32 []) = false ∧ instrWf (.perstRelease 2) = false
    ∧ instrWf (.downstreamLaneFault 8 0) = false ∧ instrWf (.zeroLengthReadComplete 2) = false := by decide
theorem test_wf_district : instrWf (.spareRotation 8) = false ∧ instrWf (.ckptMirrorAck 7 32784) = false
    ∧ instrWf (.ckptMirrorAck 8 0) = false ∧ instrWf (.ckptMirrorAck 7 32783) = true := by decide
theorem test_wf_semaphore : instrWf (.semAcq 0 320) = false ∧ instrWf (.semRel 0 320 0) = false := by decide
theorem test_wf_timer : instrWf (.timerFiring 256) = false ∧ instrWf (.gpioInputChange 16 true) = false
    ∧ instrWf (.ppsInEdge 16) = false := by decide

/-! ### The helpers of the tests -/

/-- The machine after reset with one CP's record put in place. -/
def onCp (i : Nat) (c : Cp) : State := { State.reset with dev := cpSet i c State.reset.dev }

/-- A CP of district 0 that runs in base mode from 0x8100, with its registers in g0 to g31. -/
def cpAt (g : List Word) : Cp :=
  { cpReset 5 with run := .run, role := .inService, pc := 0x8100, g := g ++ List.replicate (32 - g.length) 0 }

/-- The same in handler mode. -/
def cpHandler (g : List Word) : Cp := { cpAt g with sr := 0, hdlo := 0x10009000#32, hdhi := 0x1000A000#32 }

def based (g : List Word) : State := onCp 5 (cpAt g)
def handled (g : List Word) : State := onCp 5 (cpHandler g)

/-- The word of a CP's instruction. -/
def wordOf (x : Instr) : Word := ((cpWord x).getD (0, 0)).2

/-- The machine with the word of x in IRAM at the pc of CP 5. -/
def withWord (x : Instr) (s : State) : State :=
  { s with dev := cpMod 5 (fun c => { c with iram := memWrite c.iram c.pc.toNat (leBytes 4 (wordOf x).toNat) }) s.dev }

/-- CP 5 after one command, the word of which stands at its pc. -/
def cpThen (s : State) (x : Instr) : Cp := match exec x (withWord x s) with | .next t => cpGet t.dev 5 | _ => cpReset 0

/-- Registers rd, ra, rb of an instruction. -/
def rr (d a b : Nat) : RR := ⟨BitVec.ofNat 5 d, BitVec.ofNat 5 a, BitVec.ofNat 5 b, 0⟩
def ri (d a : Nat) (m : BitVec 16) : RI := ⟨BitVec.ofNat 5 d, BitVec.ofNat 5 a, m⟩

/-- CP 5 issues an instruction when its word stands at the pc, in base mode and in handler mode. -/
theorem witness_Issues :
    Issues (withWord (.add 5 (rr 6 2 4)) (based [])) 5 (.add 5 (rr 6 2 4))
      ∧ Issues (withWord (.add 5 (rr 6 2 4)) (handled [])) 5 (.add 5 (rr 6 2 4)) := by
  unfold Issues Fetches Running; decide +kernel

/-! ### Arithmetic (chapter 09's examples) -/

/-- The 64-bit addition of chapter 09: ADD and ADDC over g2:g3 and g4:g5. -/
theorem test_add_64 :
    let s := based [0, 0, 0xFFFFFFFF, 1, 1, 0x7FFFFFFF]
    let c := cpThen s (.add 5 (rr 6 2 4))
    gRead 6 c = 0 ∧ bits c.sr 3 0 = 0b0110
      ∧ gRead 7 (cpThen (onCp 5 c) (.addc 5 (rr 7 3 5))) = 0x80000001
      ∧ bits (cpThen (onCp 5 c) (.addc 5 (rr 7 3 5))).sr 3 0 = 0b1001 := by decide +kernel

/-- R344: SHR by 40 and by 0x128 give 0 with C = 0. -/
theorem test_shr_40 :
    let c := cpThen (based [0, 0xFFFFFFFF, 40]) (.shr 5 (rr 3 1 2))
    let e := cpThen (based [0, 0xFFFFFFFF, 0x128]) (.shr 5 (rr 3 1 2))
    gRead 3 c = 0 ∧ bits c.sr 3 0 = 0b0100 ∧ gRead 3 e = 0 ∧ bits e.sr 3 0 = 0b0100 := by decide +kernel

/-- R353: EXT of three accumulators in the four rounding modes, with C and V. -/
theorem test_ext_modes :
    ∀ p ∈ [((0x18 : BitVec 40), [((1 : Word), 2), (2, 2), (2, 2), (1, 2)]),
        (0xFFFFFFFFE8, [(0xFFFFFFFE, 10), (0xFFFFFFFF, 10), (0xFFFFFFFE, 10), (0xFFFFFFFF, 10)]),
        (0x07FFFFFFF8, [(0x7FFFFFFF, 2), (0x7FFFFFFF, 3), (0x7FFFFFFF, 3), (0x7FFFFFFF, 2)])],
      ∀ q ∈ [0, 1, 2, 3],
        let c := cpThen (onCp 5 { cpAt [] with a0 := p.1, sr := 0x80000000#32 + BitVec.ofNat 32 (q * 2 ^ 18) }) (.extA 5 (rr 3 0 0))
        (gRead 3 c, bits c.sr 3 0) = p.2.getD q (0, 0) := by decide +kernel

/-- R353: the three-tap filter. -/
theorem test_three_taps :
    let c0 : Cp := { cpAt [0, 0x20000000, 0x40000000, 0x60000000, 0x70000000, 0x7FFFFFFF] with sr := 0x80080000#32 }
    let c1 := cpThen (onCp 5 c0) (.mula 5 (rr 0 1 3))
    let c2 := cpThen (onCp 5 c1) (.mac 5 (rr 0 2 4))
    let c3 := cpThen (onCp 5 c2) (.mac 5 (rr 0 1 5))
    let c4 := cpThen (onCp 5 c3) (.extA 5 (rr 6 0 0))
    c1.a0 = 0x0180000000 ∧ c2.a0 = 0x0500000000 ∧ c3.a0 = 0x06FFFFFFFC ∧ gRead 6 c4 = 0x70000000 := by decide +kernel

/-- Chapter 10: a clamped divide and the comparison behind it; with 0 / 0 the comparison is unordered. -/
theorem test_fdiv_by_zero :
    let c := cpThen (based [0, 0, 0, 0x4B800000, 0, 0, 0x40000000]) (.fdiv 5 (rr 5 3 4))
    let e := cpThen (onCp 5 c) (.fcmp 5 (rr 0 5 6))
    let z := cpThen (based []) (.fdiv 5 (rr 5 3 4))
    gRead 5 c = 0x7F800000 ∧ bits c.sr 3 0 = 0 ∧ bits e.sr 3 0 = 0b0010
      ∧ gRead 5 z = 0x7FC00000 ∧ bits z.sr 3 0 = 0b0001 := by decide +kernel

/-! ### The register instructions of a CP -/

/-- Every clause of the statements about register instructions: reserved fields zero, rd and rb zero or not, rd even and
odd, a shift by 255 in each of the three groups of SHI. -/
theorem witness_RegisterInstructions :
    ∀ x ∈ [Instr.add 5 (rr 6 2 4), .addc 5 (rr 6 2 4), .sub 5 (rr 6 2 4), .subc 5 (rr 6 2 4), .cmp 5 (rr 0 2 4), .addi 5 (ri 6 2 0xFFFF),
        .cmpi 5 (ri 0 31 5), .andR 5 (rr 6 2 4), .orR 5 (rr 0 2 4), .xorR 5 (rr 6 2 4), .andn 5 (rr 6 2 4), .tst 5 (rr 0 2 4),
        .andi 5 (ri 6 2 0xFFFF), .ori 5 (ri 6 2 1), .xori 5 (ri 6 2 1), .tsti 5 (ri 0 31 5), .shl 5 (rr 6 2 4), .shr 5 (rr 6 2 4),
        .sar 5 (rr 6 2 4), .shi 5 (ri 1 1 255), .shi 5 (ri 1 1 0x1FF), .shi 5 (ri 1 1 0x2FF), .neg 5 (rr 31 31 0), .negs 5 (rr 6 2 0),
        .clz 5 (rr 6 2 0), .movR 5 (rr 6 2 0), .mflk 5 (rr 6 0 0), .mtlk 5 (rr 0 2 0), .movi 5 (ri 31 0 5), .lui 5 (ri 6 0 5),
        .movl 5 (ri 6 0 5), .mul 5 (rr 6 2 4), .mulw 5 (rr 6 2 4), .mulw 5 (rr 31 2 4), .mulwu 5 (rr 6 2 4), .mulwu 5 (rr 31 2 4),
        .divS 5 (rr 6 2 4), .divs 5 (rr 6 2 4), .divu 5 (rr 6 2 4), .remS 5 (rr 6 2 4), .remu 5 (rr 6 2 4), .qadd 5 (rr 6 2 4),
        .qsub 5 (rr 6 2 4), .qmul 5 (rr 6 2 4), .mac 5 (rr 1 2 4), .msu 5 (rr 0 2 4), .mula 5 (rr 0 2 4), .aclr 5 (rr 1 0 0),
        .extA 5 (rr 3 1 0), .fadd 5 (rr 6 2 4), .fsub 5 (rr 6 2 4), .fmul 5 (rr 6 2 4), .fdiv 5 (rr 6 2 4), .fmadd 5 (rr 6 2 4),
        .fmin 5 (rr 6 2 4), .fmax 5 (rr 6 2 4), .fcmp 5 (rr 0 2 4), .fsqrt 5 (rr 6 2 0), .fcvtsw 5 (rr 6 2 0), .fcvtswu 5 (rr 6 2 0),
        .fcvtws 5 (rr 6 2 0), .fcvtwus 5 (rr 6 2 0), .fabs 5 (rr 6 2 0), .fneg 5 (rr 6 2 0), .fclass 5 (rr 6 2 0)],
      Issues (withWord x (based [])) 5 x := by
  unfold Issues Fetches Running; decide +kernel

theorem witness_OneNanIsWritten :
    let r := (aluFadd 0 0x7F800001 0).r
    r &&& 0x7F800000#32 = 0x7F800000#32 ∧ r &&& 0x007FFFFF#32 ≠ 0 := by decide +kernel

/-- Both clauses of FCMP: a signalling NaN, a quiet one, and -0 with +0. -/
theorem witness_CompareRelations :
    (0x7F800001#32).toNat % 2 ^ 31 > 0x7F800000 ∧ (0x7F800001#32).getLsbD 22 = false
      ∧ ¬ (0x80000000#32).toNat % 2 ^ 31 > 0x7F800000 ∧ (aluFcmp 0x80000000#32 0).z = true := by decide +kernel

/-- Every number of MFS and of MTS that has an access, and one that has none, in both modes. -/
theorem witness_SpecialRegisters :
    cpBase (cpGet (based []).dev 5) = true ∧ cpBase (cpGet (handled []).dev 5) = false
      ∧ ∀ s ∈ [based [], handled []],
        (∀ n ∈ [0, 1, 2, 3, 4, 5, 6, 7, 8, 0x10, 0x11, 0x12, 0x13, 0x14, 0x18, 0x19, 0x1A, 0x1B, 0x1C, 0x20, 0x21, 0x22, 0x23, 9],
          Issues (withWord (.mfs 5 (ri 4 0 (BitVec.ofNat 16 n))) s) 5 (.mfs 5 (ri 4 0 (BitVec.ofNat 16 n)))
            ∧ (ri 4 0 (BitVec.ofNat 16 n)).imm.toNat = n)
        ∧ ∀ n ∈ [0, 1, 2, 5, 6, 7, 8, 0x18, 0x19, 0x1A, 0x1B, 0x1C, 0x20, 0x21, 0x22, 0x23, 3],
          Issues (withWord (.mts 5 (ri 0 4 (BitVec.ofNat 16 n))) s) 5 (.mts 5 (ri 0 4 (BitVec.ofNat 16 n))) := by
  unfold Issues Fetches Running; decide +kernel

/-! ### Loads and stores -/

/-- A CP whose g1 to g7 hold addresses: of DRAM and of IRAM at the ends of their ranges, of Plaza, and of nothing. -/
def addressed : State :=
  based [0, 0x10000000, 0x1001FFF0, 0x0001FFF0, 0x40000000, 0x10000001, 0x10020000, 0x1001FFFF]

theorem witness_ShortLoads :
    (∀ x ∈ [Instr.ldb 5 (ri 8 7 0), .ldbu 5 (ri 8 7 0), .ldh 5 (ri 8 2 14), .ldhu 5 (ri 8 2 14), .ldw 5 (ri 8 3 12),
      .ldd 5 (ri 8 1 0), .ldq 5 (ri 8 2 0)], Issues (withWord x addressed) 5 x) ∧
    (let c := cpGet addressed.dev 5
     let a := fun (f : RI) => (opAI addressed 5 f + f.imm.signExtend 32).toNat
     let may := fun (f : RI) (n : Nat) => cpTarget addressed.dev c (a f) n false ∈ [some (CpTarget.iram (a f)), some (CpTarget.dram (a f))]
     (may (ri 8 7 0) 1 ∧ a (ri 8 7 0) = 0x1001FFFF)
       ∧ (may (ri 8 2 14) 2 ∧ a (ri 8 2 14) % 2 = 0) ∧ (may (ri 8 3 12) 4 ∧ a (ri 8 3 12) % 4 = 0)
       ∧ (may (ri 8 1 0) 8 ∧ a (ri 8 1 0) % 8 = 0 ∧ (ri 8 1 0).d % 2 = 0)
       ∧ (may (ri 8 2 0) 16 ∧ a (ri 8 2 0) % 16 = 0 ∧ (ri 8 2 0).d % 4 = 0)) := by
  refine ⟨?_, ?_⟩
  · unfold Issues Fetches Running; decide +kernel
  · decide +kernel

/-- A CP with a short load of g3 that has not written yet. -/
def loading : State :=
  withWord (.movR 5 ⟨4, 3, 0, 0⟩) (onCp 5 { cpAt [0, 1, 2, 3] with slot := [(3, 77)] })

theorem witness_LoadSlotReadsOldValue : Issues loading 5 (.movR 5 ⟨4, 3, 0, 0⟩) ∧ loading.dev.pres = [] ∧ loading.dev.packCalls = []
    ∧ (cpGet loading.dev 5).slot = [(3, 77)] ∧ (cpGet loading.dev 5).g.length = 32 ∧ (cpGet loading.dev 5).gFast.length = 8
    ∧ ∃ t, exec (.movR 5 ⟨4, 3, 0, 0⟩) loading = .next t := by
  refine ⟨?_, by decide +kernel, by decide +kernel, by decide +kernel, by decide +kernel, by decide +kernel, ⟨_, rfl⟩⟩
  unfold Issues Fetches Running; decide +kernel

theorem witness_DramStores :
    (∀ x ∈ [Instr.stb 5 (ri 3 7 0), .sth 5 (ri 3 2 14), .stw 5 (ri 3 2 12), .std 5 (ri 2 2 8), .stq 5 (ri 4 2 0)],
      Issues (withWord x addressed) 5 x) ∧
    (let c := cpGet addressed.dev 5
     let a := fun (f : RI) => (opAI addressed 5 f + f.imm.signExtend 32).toNat
     ∀ p ∈ [(ri 3 7 0, 1), (ri 3 2 14, 2), (ri 3 2 12, 4), (ri 2 2 8, 8), (ri 4 2 0, 16)],
       cpTarget addressed.dev c (a p.1) p.2 true = some (CpTarget.dram (a p.1)) ∧ a p.1 % p.2 = 0
         ∧ (ri 2 2 8).d % 2 = 0 ∧ (ri 4 2 0).d % 4 = 0) := by
  refine ⟨?_, ?_⟩
  · unfold Issues Fetches Running; decide +kernel
  · decide +kernel

theorem witness_HandlerReach :
    let c := cpHandler []
    cpBase c = false ∧ cpTarget State.reset.dev c 0x8000 4 false = some (.iram 0x8000)
      ∧ cpTarget State.reset.dev c 0x10009FFC 4 true = some (.dram 0x10009FFC)
      ∧ cpTarget State.reset.dev c 0x1000A000 4 true = none := by decide +kernel

theorem witness_LoadStoreExceptions :
    (∀ x ∈ [Instr.ldq 5 (ri 4 5 0), .stq 5 (ri 4 6 0), .ldq 5 (ri 4 6 0)], Issues (withWord x addressed) 5 x)
      ∧ Issues (withWord (.ldq 5 (ri 4 0 0)) (handled [])) 5 (.ldq 5 (ri 4 0 0))
      ∧ cpTarget (handled []).dev (cpGet (handled []).dev 5) 0 16 false = none ∧ shortAddr 0 = true
      ∧ (let at' := fun (k : Nat) => (opAI addressed 5 (ri 4 k 0) + 0).toNat
         (ri 4 5 0).d % 4 = 0 ∧ at' 5 % 16 ≠ 0 ∧ at' 6 % 16 = 0
           ∧ cpTarget addressed.dev (cpGet addressed.dev 5) (at' 6) 16 false = none
           ∧ cpTarget addressed.dev (cpGet addressed.dev 5) (at' 6) 16 true = none ∧ shortAddr (at' 6) = false) := by
  unfold Issues Fetches Running; decide +kernel

theorem witness_ExceptionEntry :
    bit (cpGet (based []).dev 5).sr 30 = false ∧ bit (cpGet (based []).dev 5).sr 31 = true := by decide +kernel

theorem witness_LongLoadIssues :
    Issues (withWord (.ldw 5 (ri 4 4 0)) addressed) 5 (.ldw 5 (ri 4 4 0)) ∧ (opAI addressed 5 (ri 4 4 0) + 0).toNat % 4 = 0
      ∧ refilling addressed.dev 0 4 = []
      ∧ cpTarget addressed.dev (cpGet addressed.dev 5) (opAI addressed 5 (ri 4 4 0) + 0).toNat 4 false = some (.plaza 0) := by
  refine ⟨?_, ?_⟩
  · unfold Issues Fetches Running; decide +kernel
  · decide +kernel

/-- A CP with one long load that waits for the outside; the instruction behind it has issued or not. -/
def waitingLoad (u : Bool) : State :=
  onCp 5 { cpAt [] with loads := [⟨0x80FC, [(3, 0)], false, 4, false, 0xC0000000, .outside none, u⟩] }

theorem witness_LongLoadReturns : ∀ u ∈ [false, true],
    (waitingLoad u).dev.frozen = false ∧ (waitingLoad u).dev.refills = []
      ∧ (cpGet (waitingLoad u).dev 5).loads = [⟨0x80FC, [(3, 0)], false, 4, false, 0xC0000000, .outside none, u⟩]
      ∧ (cpGet (waitingLoad u).dev 5).run = .run ∧ fetchOk (cpGet (waitingLoad u).dev 5) = true := by decide +kernel

/-- A state in which CP 5 holds semaphore 255 of its district. -/
def holding : State := { State.reset with dev := semSet 255 ⟨some 5, true⟩ State.reset.dev }

theorem witness_SemaphoresAndStores : holding.dev.frozen = false ∧ (semGet holding.dev (256 * (5 / 9) + 0)).holder = none
    ∧ (semGet holding.dev (256 * (5 / 9) + 255)).holder = some 5 ∧ (semGet holding.dev (256 * (5 / 9) + 254)).holder ≠ some 5
    ∧ (cpGet holding.dev 71).apert.length = 16 := by decide +kernel

/-! ### Branches, the SYS group, exceptions, interrupts -/

theorem witness_BranchResults :
    bcHolds 14 (cpGet (based []).dev 5).sr = false ∧ bcHolds 0 (cpGet (based []).dev 5).sr = true
      ∧ (let goes := fun (x : Instr) (pc : Word) => IssuesTo (withWord x (based [0, 0x1FFFC])) 5 x pc
         let pc := (cpGet (based []).dev 5).pc
         goes (.bCond 5 0 0x3FFFFD#22) (pc + 4 * (0x3FFFFD#22).signExtend 32)
           ∧ goes (.bCond 5 14 0x3FFFFD#22) (pc + 4) ∧ goes (.bCond 5 15 5) (pc + 4)
           ∧ goes (.bl 5 0x3FFFFFD#26) (pc + 4 * (0x3FFFFFD#26).signExtend 32)
           ∧ goes (.jr 5 (rr 0 1 0)) (opA (based [0, 0x1FFFC]) 5 (rr 0 1 0))
           ∧ goes (.blr 5 (rr 0 1 0)) (opA (based [0, 0x1FFFC]) 5 (rr 0 1 0))
           ∧ goes (.ret 5 ⟨0, 0, 0, 0⟩) (lkRead (cpGet (based []).dev 5)))
      ∧ (cpGet (based []).dev 5).serve = none := by
  unfold IssuesTo Fetches Running; decide +kernel

theorem witness_Conditions :
    (0x5#32).toNat % 16 = false.toNat * 8 + true.toNat * 4 + false.toNat * 2 + true.toNat
      ∧ (0x9#32).toNat % 16 = ((0x7FFFFFFF#32 - 0x80000000#32).msb.toNat * 8 + (decide (0x7FFFFFFF#32 = 0x80000000#32)).toNat * 4
        + (decide ((0x80000000#32).toNat ≤ (0x7FFFFFFF#32).toNat)).toNat * 2
        + (overflows ((0x7FFFFFFF#32).toInt - (0x80000000#32).toInt)).toNat) := by decide +kernel

/-- An exception routine in base mode, ready to return to 0x8000 in base mode. -/
def returning : State := onCp 5 { cpAt [] with sr := 0xC0000000#32, epc := 0x8000, esr := 0x80000000#32 }

/-- A CP with a store to host memory that waits to leave. -/
def fencing : State :=
  let s := based []
  { s with dev := { s.dev with outHeld := [(⟨0, 0⟩, .cp 5, .write 0x1000 [7])] } }

theorem witness_SysGroup :
    (∀ x ∈ [Instr.cpNop 5 ⟨0, 0, 0, 0⟩, .cpFence 5 ⟨0, 0, 0, 0⟩, .isync 5 ⟨0, 0, 0, 0⟩, .cpWait 5 ⟨0, 0, 0, 0⟩, .brk 5 ⟨0, 0, 0, 0⟩,
        .svc 5 (ri 0 0 7), .eret 5 ⟨0, 0, 0, 0⟩, .ckpt 5 ⟨0, 0, 0, 0⟩],
      Issues (withWord x (based [])) 5 x ∧ Issues (withWord x (handled [])) 5 x)
      ∧ storesWait (based []).dev 5 = false ∧ storesWait fencing.dev 5 = true
      ∧ Issues (withWord (.cpFence 5 ⟨0, 0, 0, 0⟩) fencing) 5 (.cpFence 5 ⟨0, 0, 0, 0⟩)
      ∧ cpBase (cpGet (based []).dev 5) = true ∧ bkGrant (based []).dev 5 = false
      ∧ bkGrant (regSet .dbBkgrant0 0 0xFFFFFFFFFFFFFFFF#64 (based []).dev) 5 = true
      ∧ cpBase (cpGet (handled []).dev 5) = false
      ∧ Fetches (withWord (.eret 5 ⟨0, 0, 0, 0⟩) returning) 5 (.eret 5 ⟨0, 0, 0, 0⟩) ∧ cpBase (cpGet returning.dev 5) = true
      ∧ fetchOk (cpEret (issued (cpGet returning.dev 5))) = true := by
  unfold Issues Fetches Running; decide +kernel

/-- The three clauses of what a CP does with the word at its pc: no address to fetch from, an undefined word, another instruction. -/
theorem witness_FetchedWord :
    (∀ s ∈ [onCp 5 { cpAt [] with pc := 0x8102 }, onCp 5 { cpAt [] with iram := [(0x8103, 0xFF)] }, withWord (.movi 5 (ri 1 0 5)) (based [])],
      Running s ∧ cpIssues s.dev 5 = true ∧ (cpGet s.dev 5).loads = [])
      ∧ fetchOk { cpAt [] with pc := 0x8102 } = false
      ∧ (let c : Cp := { cpAt [] with iram := [(0x8103, 0xFF)] }
         fetchOk c = true ∧ fetchWord c ≠ wordOf (.add 5 (rr 6 2 4)) ∧ cpDefined (fetchWord c) = false)
      ∧ (let c := cpGet (withWord (.movi 5 (ri 1 0 5)) (based [])).dev 5
         fetchOk c = true ∧ fetchWord c ≠ wordOf (.add 5 (rr 6 2 4)) ∧ cpDefined (fetchWord c) = true) := by
  unfold Running; decide +kernel

theorem witness_ReturnLevels :
    (∃ c : Cp, bit c.sr 30 = true) ∧ (∃ c : Cp, bit c.sr 30 = false ∧ bit c.sr 29 = true)
      ∧ (∃ c : Cp, bit c.sr 30 = false ∧ bit c.sr 29 = false ∧ bit c.sr 28 = true)
      ∧ ∃ c : Cp, bit c.sr 30 = false ∧ bit c.sr 29 = false ∧ bit c.sr 28 = false :=
  ⟨⟨{ cpAt [] with sr := 0x40000000#32 }, by decide +kernel⟩, ⟨{ cpAt [] with sr := 0x20000000#32 }, by decide +kernel⟩,
    ⟨{ cpAt [] with sr := 0x10000000#32 }, by decide +kernel⟩, ⟨{ cpAt [] with sr := 0 }, by decide +kernel⟩⟩

/-- A CP with interrupts enabled at which a normal and a fast presentation stand. -/
def interrupted : State :=
  let s := onCp 5 { cpAt [] with sr := 0x8C000000#32 }
  { s with dev := { s.dev with pres := [⟨40, 5, false, true⟩, ⟨41, 5, true, true⟩] } }

theorem witness_InterruptEntries :
    let c := cpGet interrupted.dev 5
    interrupted.dev.frozen = false ∧ c.run = .run ∧ c.loads = [] ∧ cpBase c = true ∧ bit c.sr 30 = false ∧ bit c.sr 29 = false
      ∧ presented interrupted.dev 5 false = true ∧ bit c.sr 26 = true ∧ bit c.sr 28 = false
      ∧ presented interrupted.dev 5 true = true ∧ bit c.sr 27 = true := by decide +kernel

/-- R315: a normal interrupt in base mode goes to 0x80 and clears IE. -/
theorem test_normal_entry :
    let c := cpThen interrupted (.normalInterruptEntry 5)
    c.pc = 0x80 ∧ c.npc = 0x8100 ∧ bit c.sr 26 = false ∧ bit c.sr 28 = true := by decide +kernel

theorem witness_BudgetEnds :
    let s := onCp 71 { cpHandler [] with budget := 1 }
    let c := cpGet s.dev 71
    s.dev.frozen = false ∧ c.run = .run ∧ cpBase c = false ∧ c.budget ≠ 0 := by decide +kernel

/-- A CP with addresses for CKPT at the ends of the ranges. -/
def checkpointing : State :=
  let s := based [0, 0x1001FF80, 32783, 0x10020000, 32784]
  { s with dev := { s.dev with mirrorWait := [(0, 5)] } }

theorem witness_Checkpoints : Running checkpointing
    ∧ (∀ f ∈ [rr 0 1 2, rr 0 3 2, rr 0 1 4], Issues (withWord (.ckpt 5 f) checkpointing) 5 (.ckpt 5 f)) ∧ cpBase (cpGet checkpointing.dev 5) = true
    ∧ (let a := fun n => (opA checkpointing 5 (rr 0 n 2)).toNat
       (a 1 % 128 = 0 ∧ 0x10000000 ≤ a 1 ∧ a 1 + 128 ≤ 0x10020000 ∧ (opB checkpointing 5 (rr 0 1 2)).toNat ≤ 32783)
         ∧ 0x10020000 < a 3 + 128 ∧ 32783 < (opB checkpointing 5 (rr 0 1 4)).toNat ∧ (0, 5) ∈ checkpointing.dev.mirrorWait) := by
  unfold Issues Fetches Running; decide +kernel

/-! ### The queue, the clock, register accesses -/

def resetDev : Dev := State.reset.dev
def st (d : Dev) : State := { State.reset with dev := d }

/-- A device under a slew, k nanoseconds into its current step. -/
def slewing (n : Int) (k : Nat) : Dev := { resetDev with slew := n, slewCnt := k }

def slewDue (d : Dev) : Bool := decide (1000000 / regFld d .tbSlew 0 9 0 ≤ d.slewCnt + 1)

theorem witness_IdleNanosecond :
    (st resetDev).pending = [] ∧ (st { resetDev with frozen := true, frozenPin := true }).dev.frozenPin = true
      ∧ (st { resetDev with frozen := true }).dev.frozenPin = false ∧ resetDev.frozen = false ∧ resetDev.clearing = []
      ∧ resetDev.attQ = [] ∧ resetDev.invals = [] ∧ resetDev.activ = [] ∧ resetDev.slew = 0 ∧ slewDue (slewing 1 0) = false
      ∧ slewDue (slewing 1 1000000) = true ∧ slewDue (slewing (-1) 1000000) = true := by decide +kernel

theorem witness_StepKeepsInvariant : Inv { State.reset with pending := [.journalFeedResume] }
    ∧ ∃ t, step { State.reset with pending := [.journalFeedResume] } = .next t := by
  refine ⟨⟨by decide, ?_⟩, ⟨_, rfl⟩⟩
  unfold Settled Awake CallsMade; decide +kernel

/-- Which case of a write of page, offset x by an origin the device is in: 0 denied, 1 no writable field, 2 taken, with the
register's own rules and its record; 9 no such write of the statement. -/
def writeCase (d : Dev) (o : Origin) (page x : Nat) (val : DWord) : Nat :=
  match regFind page x with
  | none => 9
  | some a =>
      if a.info.bytes ≠ 4 ∨ a.byte ≠ 0 ∨ isSelection a.reg ∨ a.reg = .pgXkey ∨ mustWait d o (4096 * page + x) then 9
      else if inSet (writers a x) (originClass o) = false ∨ lockOk d o page = false
        ∨ (0x800 ≤ x ∧ xOpen (xExpire d) o page = false) then 0
      else if writeMask a.info = 0 then 1
      else match regEffect (judged o page x d) o a (merged (st d) o page x val (writeMask a.info)) with
        | .ok _ => if unaudited (judged o page x d) o a then 9 else 2
        | _ => 9

/-- A device whose expert half of page PLZ_0 is open to the Elfort core. -/
def expertOpen : Dev := { resetDev with xmodes := [⟨.elfort, 0x80, 0⟩] }

theorem witness_RegisterWrites :
    writeCase resetDev (.hostVf 0 1) 0x10 0x800 0 = 0
      ∧ writeCase (regSet .pgCtl 0 1 resetDev) (.hostPf 0) 0 0x10 0 = 0
      ∧ writeCase resetDev .elfort 0x80 0x800 0 = 0
      ∧ writeCase resetDev .elfort 0 0x00 0 = 1
      ∧ writeCase resetDev .elfort 0 0x10 0 = 2
      ∧ writeCase expertOpen .elfort 0x80 0x800 0 = 2 := by decide +kernel

theorem witness_ReadsNow : ReadsNow (st resetDev) .elfort := by unfold ReadsNow Running; decide +kernel

theorem witness_ReadsOfBar0 :
    pageOf 0x2FF = some (.rng, 0xFF) ∧ mayRead resetDev .elfort .rng = true ∧ mayRead (regSetFld .glDbgpol 0 0 0 0 resetDev) .jtag .rng = false
      ∧ pageOf 0x3FFF = none ∧ mayRead resetDev .elfort .tim = true := by decide +kernel

theorem witness_OtherSpaces :
    originFn (.hostVf 1 64) = some ⟨1, 64⟩ ∧ 0x3FFFF < Config.subchannels
      ∧ (subOwner (subGet resetDev 0x3FFFF) ≠ some ⟨1, 64⟩ ∧ (⟨1, 64⟩ : FnId).fn ≠ 0) := by decide +kernel

/-- A device with a challenge of the Elfort core for PLZ_0 at the end of its time. -/
def challenged : Dev := { resetDev with devtime := 1000000, chals := [⟨.elfort, 0x80, 0x1234, 0⟩] }

/-- The word that answers it. -/
def answer : Word := BitVec.ofNat 32 (0xA5000000 + pageTypeCode .plz * 65536 + (0x1234 ^^^ 0x9640))

theorem witness_ExpertMode :
    (mustWait challenged .elfort 0x8000C = false ∧ inSet (pageXw .plz) 4 = true ∧ lockOk challenged .elfort 0x80 = true
      ∧ xOpen (xExpire challenged) .elfort 0x80 = false ∧ bits answer 31 24 = 0xA5
      ∧ xAllowed (xExpire challenged) .elfort .plz = true ∧ xProcedure (xExpire challenged) .elfort .plz 0x80 answer = true)
    ∧ (xOpen (xExpire expertOpen) .elfort 0x80 = true ∧ mustWait expertOpen .elfort 0x8000C = false)
    ∧ (mustWait resetDev .elfort 0x80010 = false ∧ originClass .elfort ∈ [4, 1] ∧ lockOk resetDev .elfort 0x80 = true)
    ∧ (originClass (.cp 5) = 1 ∧ mustWait expertOpen (.cp 5) 0x80010 = false ∧ lockOk expertOpen (.cp 5) 0x80 = true
      ∧ (∃ m ∈ expertOpen.xmodes, m.page = 0x80) ∧ (∀ m ∈ resetDev.xmodes, m.page ≠ 0x80))
    ∧ regFld expertOpen .glXtmo 0 15 0 ≠ 0 ∧ 0 + regFld expertOpen .glXtmo 0 15 0 * 1000000 < 2 ^ 64
    ∧ expertOpen.devtime.toNat ≤ 0 + regFld expertOpen .glXtmo 0 15 0 * 1000000 := by decide +kernel

theorem witness_WaitingAccesses :
    needsRecord (4096 * 0 + 0x10) = true ∧ feedCap { resetDev with auFeed := 1048608 } 4177 ≤ 1048608
      ∧ { resetDev with auWait := [⟨false, .elfort, 0x10, 4, 0⟩] }.auWait = [⟨false, .elfort, 0x10, 4, (0#32).zeroExtend 64⟩] := by
  decide +kernel

/-! ### Rings and functions -/

/-- A device with GL_STAT.READY. -/
def readyDev : Dev := regSetFld .glStat 0 31 31 1 resetDev

def pf0 : FnId := ⟨0, 0⟩

/-- Start ring 4095 of the PF of port 0, enabled, with 16 entries, at the last of which its consumer stands. -/
def ring0 (r : RdStage) : SRing :=
  { sringReset with base := 0x100000, shadow := 0x2000, ctl := 0x80000000#32, own := 0, cons := 15, phase := true, rd := r, dirty := true }
def withRing (r : RdStage) (d : Dev) : Dev := srSet 4095 (ring0 r) d

/-- A head with the phase bit p. -/
def headOf (p : Bool) : List Byte := (if p then 0x81#8 else 1#8) :: List.replicate 15 0

theorem witness_StartRings :
    Engine (st (withRing .idle readyDev)) ∧
    (let d := withRing .idle readyDev
     ownOf (srGet d 4095).own = some pf0 ∧ isReady d = true ∧ bit (srGet d 4095).ctl 31 = true ∧ (fnGet d pf0).d3hot = false
       ∧ d.paused = false ∧ (srGet d 4095).rd = .idle ∧ (srGet d 4095).pref = []
       ∧ regFld d .upStat (ringPort d (srGet d 4095).port) 18 18 = 0
       ∧ regFld (regSetFld .upStat 0 18 18 1 d) .upStat (ringPort d (srGet d 4095).port) 18 18 = 1
       ∧ (srGet d 4095).dirty = true ∧ (srGet d 4095).shadow ≠ 0)
    ∧ (srGet (withRing .head readyDev) 4095).rd ≠ .idle
    ∧ (headOf true).length = 16 ∧ bit (BitVec.ofNat 128 (leNat (headOf true))) 7 = true
    ∧ bit (BitVec.ofNat 128 (leNat (headOf false))) 7 = !true
    ∧ (srGet (withRing (.body (headOf true)) readyDev) 4095).rd = .body (headOf true)
    ∧ (headOf true ++ List.replicate 48 0).length = 64
    ∧ (srGet (withRing .line readyDev) 4095).rd = .line ∧ bit (BitVec.ofNat 512 (leNat (headOf true ++ List.replicate 48 0))) 7 = true
    ∧ takeAllowed readyDev (BitVec.ofNat 512 (leNat (headOf true ++ List.replicate 48 0))) = true := by
  unfold Engine; decide +kernel

/-- A start-ring entry: function code, ring if named, key, subchannel, address. -/
def entryOf (code sub : Nat) (at_ : Nat := 0) : BitVec 512 := BitVec.ofNat 512 (code + sub * 2 ^ 64 + at_ * 2 ^ 128)
def entryBytes (code sub : Nat) : List Byte := leBytes 64 (entryOf code sub).toNat

/-- A function of the PF of port 0, taken in under jseq. -/
def taken (jseq code sub : Nat) (at_ : Nat := 0) : TakeIn := ⟨jseq, pf0, entryOf code sub at_, 4095, false, none⟩

theorem witness_TakingIn :
    (entryBytes 7 0x3FFFF).length = 64 ∧ isReady readyDev = true ∧ readyDev.fatal = false ∧ readyDev.paused = false
      ∧ takeAllowed readyDev (entryOf 7 0x3FFFF) = true
      ∧ ((fnGet readyDev pf0).slots.any (fun p => p.1 = 255)) = false
      ∧ ((fnGet (fnSet pf0 { fnGet readyDev pf0 with slots := [(255, 9)] } readyDev) pf0).slots.any (fun p => p.1 = 255)) = true
      ∧ seFcode (entryOf 7 0x3FFFF) = 7 ∧ seSub (entryOf 7 0x3FFFF) < 0x40000 ∧ (namedRing readyDev pf0 (entryOf 7 0x3FFFF)).2 = false
      ∧ { readyDev with dsWait := [taken 9 7 0x3FFFF] }.dsWait = [taken 9 7 0x3FFFF]
      ∧ (64 < (65 * 0x400000) / 0x400000 ∧ (64 * 0x400000 + 0x4000) / 0x400000 ≤ 64 ∧ (64 * 0x400000 + 0x4000) % 0x400000 = 0x4000) := by
  decide +kernel

theorem witness_TakingInPref : ∀ n, (srGet readyDev n).pref = [] := fun _ => rfl

/-- Completion ring 4095 of the PF of port 0, enabled, one entry from its wrap. -/
def cring0 : CRing := { cringReset with base := 0x200000, ctl := 0x80000000#32, own := 0, prod := 15, cons := 14 }
def withCRing (r : CRing) (d : Dev) : Dev := crSet 4095 r d

theorem witness_CompletionRingEvents :
    ownOf cring0.own = some pf0 ∧ ((15#32) - cring0.cons).toNat ≤ (cring0.prod - cring0.cons).toNat
      ∧ (cring0.prod - cring0.cons).toNat < ((16#32) - cring0.cons).toNat
      ∧ ringsOf (withCRing cring0 readyDev) pf0 = [4095] ∧ { cring0 with xwait := some 0x5000 }.xwait = some 0x5000
      ∧ bit cring0.ctl 31 = true ∧ (cring0.prod - cring0.cons).toNat ≠ ringSize cring0.ctl ∧ cring0.xwait = none
      ∧ (fnGet readyDev pf0).d3hot = false ∧ (fnGet readyDev pf0).ats = false ∧ bit cring0.ctl 30 = false
      ∧ readyDev.stalled = [] ∧ readyDev.fnHeld = []
      ∧ (let d := withCRing { cring0 with xwait := some 0x5000 } readyDev
         let yes := hostResume { d with xlate := [(fnKey pf0, 5, 9)] }
         let no := hostResume (moverDenied pf0 5 d)
         ringsOf yes pf0 = [4095] ∧ (crGet yes 4095).xwait.map (fun x => x.toNat / 4096) = some 5
           ∧ ringsOf no pf0 = [4095] ∧ (crGet no 4095).xwait.map (fun x => x.toNat / 4096) = some 5)
      ∧ (let x : FifoItem := ⟨7, false, false, false, false, 7, []⟩
         let r := { cring0 with fifo := ⟨[x], 1, 0⟩ }
         (crGet (withCRing r readyDev) 4095).fifo = ⟨[x], 1, 0⟩ ∧ x.ports = [] ∧ r.zlr = none)
      ∧ readyDev.progs = []
      ∧ (let e : Ent := ⟨4095, ⟨0, false, false, false, false, 7, []⟩, .none, pf0, false, some 1⟩
         { readyDev with stalled := [e] }.stalled = [e] ∧ e.zlr = some 1) := by decide +kernel

theorem witness_CompletionRingEventsSubs : (∀ k, (subGet readyDev k).heldAttn = false) ∧ (∀ k, (subGet readyDev k).swHold = none)
    ∧ (∀ k, (crGet readyDev k).zlr ≠ some 1) :=
  ⟨fun _ => rfl, fun _ => rfl, fun _ => nofun⟩

/-- The same ring, armed. -/
def armedDev : Dev := withCRing { cring0 with armed := true, armCnt := 1, due := 500 } readyDev

theorem witness_Messages :
    (crGet readyDev 4095).armed = false ∧ (crGet armedDev 4095).armed = true ∧ ownOf (crGet armedDev 4095).own = some pf0
      ∧ bits (crGet armedDev 4095).ctl 10 0 < msixSize armedDev pf0 ∧ (fnGet armedDev pf0).d3hot = false
      ∧ (let d := fnSet pf0 { fnGet armedDev pf0 with msixMask := false } armedDev
         (fnGet d pf0).msixMask = false ∧ 0 ∉ (fnGet d pf0).vecMask)
      ∧ (let d := fnSet pf0 { fnGet armedDev pf0 with msixMask := false, vecMask := [0] } armedDev
         0 ∈ (fnGet d pf0).vecMask ∧ 0 ∉ (fnGet d pf0).pba)
      ∧ (let d := fnSet pf0 { fnGet armedDev pf0 with msixMask := false, pba := [2047] } armedDev
         2047 ∈ (fnGet d pf0).pba)
      ∧ ringsOf (hostResume (fnSet pf0 { fnGet armedDev pf0 with d3hot := false, dueMsgs := [] } armedDev)) pf0 = [4095] := by
  decide +kernel

/-- The PF of port 0 with ATS and PASID on, and a translation of its page 5. -/
def translated : Dev :=
  { fnSet pf0 { fnGet readyDev pf0 with ats := true, pasid := true } (regSetFld .upFnpasid 0 31 31 1 readyDev) with xlate := [(0, 5, 9)], xasked := [(0, 7)] }

theorem witness_HostAccesses :
    (fnGet (fnSet pf0 { fnGet readyDev pf0 with d3hot := true } readyDev) pf0).d3hot = true
      ∧ (fnGet translated pf0).pasid = true ∧ regFld translated .upFnpasid (fnKey pf0) 31 31 = 1
      ∧ (fnGet readyDev pf0).pasid = false ∧ (fnGet readyDev pf0).d3hot = false ∧ (fnGet readyDev pf0).ats = false
      ∧ (fnGet translated pf0).ats = true ∧ (0x5FF0#64).toNat % 4096 + 16 ≤ 4096
      ∧ hasXlate translated pf0 ((0x5FF0#64).toNat / 4096) = true
      ∧ hasXlate translated pf0 ((0x7FF0#64).toNat / 4096) = false ∧ (fnKey pf0, (0x7FF0#64).toNat / 4096) ∈ translated.xasked
      ∧ hasXlate translated pf0 ((0x8FF0#64).toNat / 4096) = false ∧ (fnKey pf0, (0x8FF0#64).toNat / 4096) ∉ translated.xasked
      ∧ { readyDev with outHeld := [(pf0, .kept 1, .read 0x40 16)] }.outHeld = [(pf0, .kept 1, .read 0x40 16)] := by decide +kernel

/-- A subchannel in a state, owned by the PF of port 0, whose function `t` waits. -/
def subIn (s : SubState) : Sub := { subReset 7 with st := s, ownPort := 0, ownFn := 0 }
def asked (s : SubState) (t : TakeIn) : Dev := { subSet 7 (subIn s) readyDev with waiting := [t] }

def standsAt (d : Dev) (jseq code : Nat) (t : TakeIn) : Bool :=
  !d.frozen && !d.fatal && !binding d (seSub t.entry) && decide (fnFind d jseq code = some t) && !activating d (seSub t.entry)
    && decide ((d.stalled.filter (fun e => e.item.sub = seSub t.entry)).length < 16)
    && decide (leaseLapse (seSub t.entry) d = d)

/-- Each function code stands and is accepted in a state that takes it, and refused in another. -/
theorem witness_Accepted :
    (∀ p ∈ [(1, SubState.idle), (2, .suspended), (2, .active), (3, .idle), (3, .startPending), (3, .active), (3, .suspended),
        (4, .statusPending), (4, .notOperational), (4, .haltPending), (5, .idle), (6, .active), (7, .statusPending), (7, .idle),
        (8, .idle)],
      let t := taken 3 p.1 7
      standsAt (asked p.2 t) 3 p.1 t = true ∧ fnCheck (asked p.2 t) t = 0)
    ∧ (∀ p ∈ [(1, SubState.active), (2, .idle), (3, .haltPending), (4, .clearPending), (5, .active), (7, .notOperational),
        (8, .active)],
      let t := taken 3 p.1 7
      standsAt (asked p.2 t) 3 p.1 t = true ∧ fnCheck (asked p.2 t) t ≠ 0)
    ∧ (let t := taken 3 6 0x40000
       standsAt { readyDev with waiting := [t] } 3 6 t = true ∧ fnCheck { readyDev with waiting := [t] } t = 5) := by
  decide +kernel

/-- The clauses of R97: no right, BIND of a VF, a lease, a key. -/
theorem witness_FunctionResponses :
    permitted ⟨1, 0⟩ (subIn .idle) 1 = false ∧ permitted pf0 (subIn .idle) 1 = true
      ∧ (responseTable.getD (SubState.idle).code []).getD 0 0 = 0 ∧ (responseTable.getD (SubState.active).code []).getD 0 0 ≠ 0
      ∧ (let x := { subIn .idle with lease := some ⟨0, 3⟩ }
         fnCheck { subSet 7 x readyDev with waiting := [taken 3 5 7] } (taken 3 5 7) = 8)
      ∧ (let x := { subIn .idle with key := 2 }
         x.key ≠ seKey (taken 3 1 7).entry ∧ fnCheck { subSet 7 x readyDev with waiting := [taken 3 1 7] } (taken 3 1 7) = 6)
      ∧ fnCheck { subSet 7 { subIn .idle with ownFn := 64 } readyDev with waiting := [] }
          ⟨3, ⟨0, 64⟩, entryOf 8 7, 0, false, none⟩ = 7
      ∧ (let x := { subIn .idle with lease := some pf0, leaseEnd := 5 }
         (subGet (subSet 7 x readyDev) 7).lease = some pf0 ∧ readyDev.devtime < 5 ∧ { x with leaseEnd := 0 }.leaseEnd ≤ readyDev.devtime) := by
  decide +kernel

/-- A program that stands at a suspend. -/
def someProg (g : Stage) : Prog :=
  { jseq := 3, tag := 0, key := 0, ring := none, idem := none, first := 0, cp := 0, stage := g, how := .first, chain := [],
    stopAt := none, pos := 0, run := none, grp := [], grpLast := false, lastEnd := ⟨0, 0, 0, 0, false, none⟩, recov := false,
    ports := [], own := none, ticAt := (0, 0), pref := [], prefAt := none, lastPort := none, sync := none, marks := [] }

theorem witness_FunctionsAccepted :
    let d := progSet 7 (someProg (.atSuspend 0x40)) (asked .suspended (taken 3 2 7))
    standsAt d 3 2 (taken 3 2 7) = true ∧ fnCheck d (taken 3 2 7) = 0
      ∧ (subGet (fnAccept (taken 3 2 7) d) 7).st = .suspended
      ∧ (match progOf (fnAccept (taken 3 2 7) d) 7 with | some p => decide (p.stage = .atSuspend 0x40) | none => false) = true
      ∧ d.progs.find? (fun q => q.1 = 7) = some (7, someProg (.atSuspend 0x40)) ∧ (subGet d 7).st = .suspended
      ∧ (subGet (subSet 7 { subIn .active with rp := true } d) 7).rp = true ∧ (subGet (subSet 7 (subIn .active) d) 7).rp = false := by
  decide +kernel

/-- Blocks for MODIFY and BIND: a MODIFY that changes nothing, an unbind, an NVMe bind, and a window bind. -/
def modifyBlock : List Byte := leBytes 32 0x2011
def unbindBlock : List Byte := leBytes 64 (0x4010 + 2 ^ 23)
def nvmeBlock : List Byte := leBytes 64 (0x4010 + 4095 * 2 ^ 116 + 31 * 2 ^ 128 + 2 ^ 136)
def windowBlock : List Byte := leBytes 64 (0x4010 + 2 ^ 104 + 4095 * 2 ^ 116 + 31 * 2 ^ 128 + 5 * 2 ^ 136 + 4 * 2 ^ 320)

def ownerBlock : List Byte := leBytes 64 (0x4010 + 3 * 2 ^ 104 + 4095 * 2 ^ 116 + 31 * 2 ^ 128)

/-- A vendor pack. -/
def pack0 : Pack := ⟨0, 1, 0, 0, 0, true, [], [], 0, 0, 0, 0, 0, 0, 0, 0, 0, 0⟩

/-- The vendor packs are there, and ring 4095 is the PF's. -/
def bindable : Dev := { withCRing cring0 (asked .idle (taken 3 8 7)) with packs := [(0, pack0), (1, pack0), (3, pack0)] }

theorem witness_FunctionBlocks :
    (seAddr (taken 3 5 7 0x1230).entry = 0x1230 ∧ bits (seAddr (taken 3 5 7 0x1230).entry) 3 0 = 0)
    ∧ bits (seAddr (taken 3 6 7 0x1238).entry) 3 0 ≠ 0
    ∧ (let v : BitVec 256 := BitVec.ofNat 256 (leNat modifyBlock)
       modifyBlock.length = 32 ∧ bits v 7 0 = 0x11 ∧ bits v 15 8 = 0x20 ∧ bits v 111 24 = 0 ∧ bits v 159 128 = 0
         ∧ bits v 255 192 = 0 ∧ bits v 191 160 ≤ 60000 ∧ bit v 23 = false)
    ∧ (let v : BitVec 512 := BitVec.ofNat 512 (leNat unbindBlock)
       unbindBlock.length = 64 ∧ bits v 7 0 = 0x10 ∧ bits v 15 8 = 0x40 ∧ bit v 23 = true)
    ∧ (∀ p ∈ [(nvmeBlock, 0), (windowBlock, 1), (ownerBlock, 3)],
       let v : BitVec 512 := BitVec.ofNat 512 (leNat p.1)
       p.1.length = 64 ∧ bits v 7 0 = 0x10 ∧ bits v 15 8 = 0x40 ∧ bit v 23 = false ∧ bits v 63 24 = 0 ∧ bits v 18 16 = 0
         ∧ bits v 255 192 = 0 ∧ bits v 191 160 ≤ 60000 ∧ bits v 103 96 = 0 ∧ bits v 111 104 = p.2
         ∧ bindable.packs.any (fun e => e.1 = bits v 111 104) = true
         ∧ crOwner bindable (bits v 127 116) = some ⟨bits v 103 103, bits v 102 96⟩ ∧ bits v 135 128 ≤ 31 ∧ bits v 95 64 = 0)
    ∧ (let v : BitVec 512 := BitVec.ofNat 512 (leNat nvmeBlock)
       bits v 511 256 = 0 ∧ bits v 143 136 ≠ 0)
    ∧ (let v : BitVec 512 := BitVec.ofNat 512 (leNat windowBlock)
       bits v 511 384 = 0 ∧ bits v 143 136 ≤ 5 ∧ bits v 383 320 ≠ 0 ∧ bits v 383 320 % 4 = 0
         ∧ bits v 319 256 + bits v 383 320 ≤ 4)
    ∧ fnCheck bindable (taken 3 8 7) = 0 ∧ standsAt bindable 3 8 (taken 3 8 7) = true
    ∧ (∀ k ∈ [true, false], hostWaits (asked .idle (taken 3 5 7 0x1230)) pf0 [(0x1230, 32, k)] = false)
    ∧ hostWaits (fnSet pf0 { fnGet readyDev pf0 with d3hot := true } readyDev) pf0 [(0x1230, 32, true)] = true
    ∧ hostWaits (asked .active (taken 3 6 7 0x1230)) pf0 [(0x1230, 128, true)] = false
    ∧ (∀ b ∈ [unbindBlock, nvmeBlock, windowBlock, ownerBlock],
        hostWaits bindable pf0 (bindTouch (.ok b) ⟨.ok [], true, ⟨true, 9, 8⟩, 4, true, none⟩ (taken 3 8 7) bindable) = false)
    ∧ (cpGet readyDev 5).handoff = []
    ∧ (cpGet (cpSet 5 { cpGet readyDev 5 with handoff := [⟨taken 3 1 7, 7⟩] } readyDev) 5).handoff = [⟨taken 3 1 7, 7⟩] := by
  decide +kernel

/-! ### Channel programs -/

/-- A CCW: code, flags (bits 8 to 15), ASEL, count, address. -/
def ccwOf (code count at_ : Nat) (flags : Nat := 0) (asel : Nat := 0) : QWord :=
  BitVec.ofNat 128 (code + flags * 256 + asel * 65536 + count * 2 ^ 32 + at_ * 2 ^ 64)
/-- The same from a tuple of code, count, address and flags. -/
def ccwT (p : Nat × Nat × Nat × Nat) : QWord := ccwOf p.1 p.2.1 p.2.2.1 p.2.2.2
def ccwBytes (w : QWord) : List Byte := leBytes 16 w.toNat

def packedDev : Dev := { readyDev with packs := [(0, pack0), (1, pack0), (2, pack0)] }

/-- Subchannel 7 in a state, with its program, bound to a vendor pack. -/
def hp0 : HPriv := { HPriv.none with nsid := 1, bsLog := 9, blocks := 8, base := 0x10000, size := 4096, width := 1, members := [(1, 1), (2, 1), (3, 1)], uLog := 9 }
def boundSub (hp : Nat) (s : SubState) : Sub := { subIn s with hpack := hp, hpriv := hp0 }
def putSub (n : Nat) (x : Sub) (d : Dev) : Dev := { d with subs := tset d.subs n x (subReset n) }
def running (hp : Nat) (p : Prog) : Dev := progSet 7 p (putSub 7 (boundSub hp .active) packedDev)
def readyProg (w : QWord) : Prog := { someProg .ready with chain := [(0x1000, w)], how := .byCmd }
def inHand (hp : Nat) (w : QWord) : Dev := running hp (readyProg w)

def inHandIs (hp : Nat) (h : Handler) (w : QWord) : Prop :=
  InHand (st (inHand hp w)) 7 (boundSub hp .active) h (readyProg w) 0x1000 w

theorem witness_CcwFetches :
    let p := someProg (.fetch 0x1000 .byCmd false)
    let d := running 0 p
    let check := fun (w : QWord) => ccwCheck d 7 .nvme p (ccwCode w) false w
    (progOf d 7 = some p ∧ p.pref = [] ∧ p.chain = [] ∧ p.grp = [] ∧ handlerOf d (subGet d 7) = some .nvme)
    ∧ (someProg (.fetch 0x1000 .byCmd true)).stage = .fetch 0x1000 .byCmd true
    ∧ (ccwBytes (ccwOf 8 0 0x2000)).length = 16 ∧ (List.replicate 64 (0 : Byte)).length = 64 ∧ bits (0x1010#64) 3 0 = 0
    ∧ { someProg .running with prefAt := some 0x1010 }.prefAt = some 0x1010
    ∧ ccwCount (ccwOf 1 0 0) = 0 ∧ implements .nvme 1 = true ∧ endsEmpty .nvme 1 = true
    ∧ (∀ p ∈ [(8, 0, 0x2000, 0), (3, 1, 0, 0), (2, 512, 0x2000, 2), (0, 0, 0, 0), (0x0F, 512, 0, 0)], let w := ccwT p; (BitVec.ofNat 128 (leNat (ccwBytes w)) : QWord) = w)
    ∧ ccwCode (ccwOf 8 0 0x2000) = 8
    ∧ (check (ccwOf 0 0 0) = some csPgm ∧ ccwCode (ccwOf 0 0 0) ≠ 8)
    ∧ (check (ccwOf 2 512 0x2000 2) = none ∧ ccwMark (ccwOf 2 512 0x2000 2) = false ∧ ccwCD (ccwOf 2 512 0x2000 2) = true)
    ∧ (check (ccwOf 3 1 0) = none ∧ ccwCD (ccwOf 3 1 0) = false ∧ engineCode 3 = true ∧ ccwCount (ccwOf 3 1 0) ≠ 0)
    ∧ (check (ccwOf 0x15 512 0) = none ∧ engineCode 0x15 = false ∧ implements .nvme 0x15 = false
        ∧ groupMember (subGet d 7) .nvme { p with chain := [(0x1000, ccwOf 0x15 512 0)], stage := .ready } = false)
    ∧ (ccwS (ccwOf 3 1 0 4) = true ∧ ccwS (ccwOf 3 1 0 1) = false ∧ ccwCC (ccwOf 3 1 0 1) = true ∧ ccwCC (ccwOf 3 1 0) = false) := by
  decide +kernel

theorem witness_Tics :
    let d := inHand 0 (ccwOf 8 0 0x2000)
    progOf d 7 = some (readyProg (ccwOf 8 0 0x2000)) ∧ (subGet d 7).st = .active
      ∧ (bits (ccwOf 8 0 0x2000) 27 24 = 0 ∧ bits (ccwOf 8 0 0x2000) 23 18 = 0 ∧ ccwAsel (ccwOf 8 0 0x2000) = 0
        ∧ (readyProg (ccwOf 8 0 0x2000)).how ≠ .first ∧ bits (ccwAddr (ccwOf 8 0 0x2000)) 3 0 = 0)
      ∧ bits (ccwAddr (ccwOf 8 0 0x2001)) 3 0 ≠ 0 := by decide +kernel

theorem witness_NopAndChaining : (∀ fl ∈ [0, 1, 4], inHandIs 0 .nvme (ccwOf 3 1 0 fl) ∧ ccwCode (ccwOf 3 1 0 fl) = 3)
    ∧ (boundSub 0 .active).rp = false := by
  unfold inHandIs InHand Engine; decide +kernel

theorem witness_EngineOwnCommands :
    (hostWaits (inHand 0 (ccwOf 4 32 0x2000)) pf0 [(0x2000, 32, true)] = false
      ∧ hostWaits (inHand 0 (ccwOf 9 4096 0x2000)) pf0 [(0x2000, 32, true), (1, 4096, true), (2, 4096, true)] = false
      ∧ hostWaits (inHand 0 (ccwOf 9 4096 0x2000)) pf0 [(0x2000, 32, false)] = false) ∧
    (∀ p ∈ [(4, 0, 0, 0), (4, 32, 0x2000, 0), (9, 4096, 0x2000, 0), (0xC, 0, 255, 0), (0xB, 0, 255, 0), (0xB, 1, 255, 0)], let w := ccwT p; inHandIs 0 .nvme w)
    ∧ HostArea (ccwOf 4 32 0x2000) ∧ ccwAsel (ccwOf 9 4096 0x2000) = 0
    ∧ (let e : BitVec 256 := BitVec.ofNat 256 (leNat (leBytes 32 (2 ^ 128 * 4)))
       bits e 191 130 ≠ 0)
    ∧ (let e : BitVec 256 := BitVec.ofNat 256 (leNat (leBytes 32 0x300000000))
       bits e 255 128 = 0)
    ∧ evtWaiter (inHand 0 (ccwOf 0xC 0 255)) pf0 255 = none ∧ evtValue (inHand 0 (ccwOf 0xB 0 255)) pf0 255 = 0
    ∧ 0 < evtValue (evtSet pf0 255 1 (inHand 0 (ccwOf 0xB 0 255))) pf0 255
    ∧ (let d := progSet 8 (someProg (.waitEvent 255 none)) (subSet 8 (boundSub 0 .active) (inHand 0 (ccwOf 0xC 0 255)))
       evtWaiter { d with evtWait := [8] } pf0 255 = some 8) := by
  unfold inHandIs InHand Engine HostArea; decide +kernel

/-- A COPY of 128 bytes across a 4 KiB boundary, of which `done` are written. -/
def copying (done : Nat) : Dev :=
  running 0 { readyProg (ccwOf 9 128 0x2000) with stage := .copying ⟨0, 0x10FC0, 128⟩ (List.replicate 128 7) done 0 }

/-- Both clauses of COPY's bursts: one that is not the last, and the last. -/
theorem witness_CopyBursts :
    (∀ done ∈ [0, 64],
      let d := copying done
      let p := { readyProg (ccwOf 9 128 0x2000) with stage := .copying ⟨0, 0x10FC0, 128⟩ (List.replicate 128 7) done 0 }
      Engine (st d) ∧ subGet d 7 = boundSub 0 .active ∧ progOf d 7 = some p ∧ p.chain = [(0x1000, ccwOf 9 128 0x2000)]
        ∧ handlerOf d (boundSub 0 .active) = some .nvme ∧ groupMember (boundSub 0 .active) .nvme p = false ∧ waits156 d 7 = false
        ∧ portWaits p (some 0) = false ∧ done < (List.replicate 128 (7 : Byte)).length
        ∧ hostWaits d pf0 [(0x10FC0 + BitVec.ofNat 64 done, copyBurst ⟨0, 0x10FC0, 128⟩ 128 done, true)] = false)
      ∧ 0 + copyBurst ⟨0, 0x10FC0, 128⟩ 128 0 < 128 ∧ 128 ≤ 64 + copyBurst ⟨0, 0x10FC0, 128⟩ 128 64 := by
  unfold Engine; decide +kernel

theorem witness_WaitEventTimesOut :
    let p := { readyProg (ccwOf 0xB 1 255) with stage := .waitEvent 255 (some 1000) }
    progOf (running 0 p) 7 = some p ∧ (running 0 p).devtime < 1000 := by decide +kernel

/-- The run of a command of 512 bytes with one operation, number 9, and the operation. -/
def run9 (code : Nat) (w : QWord) : Run :=
  { id := 1, code := code, isSet := false, ccws := [(0x1000, w)], segs := [⟨0, 0x2000, 512⟩], total := 512, devLen := 512,
    ops := [9], got := [], row := 0, todo := [], startPos := 0, endPos := 1, stop := none, fails := [], sm := false, ownResid := none,
    ended := none, port := some 0, paths := [], banks := [] }
def op9 (idem : Bool) (k : OpKind) : Op :=
  { sub := 7, jseq := 3, dev := 7, dport := 0, member := 0, cls := 0, idem := idem, kind := k, from_ := 0, info := 0, cond := .uncertain,
    reissued := false, detached := false, cp := 0 }
def flying (idem : Bool) (k : OpKind) (code : Nat) : Dev :=
  let w := ccwOf code 512 0x2000
  { running 0 { readyProg w with stage := .running, run := some (run9 code w) } with ops := [(9, op9 idem k)] }

/-- The command in hand has its operation slots, the slices of `bytes` bytes and `ch` mover channels. -/
def roomy (hp k bytes ch : Nat) (w : QWord) (l : List Seg) (devs : List Nat) : Bool :=
  let d := inHand hp w
  let held := streamHold 7 1 (min 64 ((bytes + 4095) / 4096)) (rowEnds d 7 l devs) d
  slotsFree d 0 k && held.1 && (chanHold 7 ch held.2).1

theorem room_of_roomy {hp k bytes ch : Nat} {w : QWord} {l : List Seg} {devs : List Nat} (h : roomy hp k bytes ch w l devs = true) :
    Room (st (inHand hp w)) 7 (readyProg w) k bytes ch (rowEnds (inHand hp w) 7 l devs)
      (chanHold 7 ch (streamHold 7 1 (min 64 ((bytes + 4095) / 4096)) (rowEnds (inHand hp w) 7 l devs) (inHand hp w)).2).2 := by
  simp only [roomy, Bool.and_eq_true] at h
  exact ⟨h.1.1, h.1.2, Prod.ext h.2 rfl⟩

/-- CP 0 has every operation slot in use. -/
def slotless (d : Dev) : Dev := { d with ops := (List.range 256).map (fun k => (k + 100, op9 true .winFence)) }

theorem witness_NvmeCommands :
    (∀ p ∈ [(1, 512, 0x2000, 0), (2, 4096, 0x2000, 0), (0x11, 4096, 0x2000, 0), (0x12, 513, 0, 0), (0x10, 0, 0, 0), (0x13, 4096, 0x2000, 0), (7, 32, 0x2000, 0), (0x14, 4608, 0x2000, 0)], let w := ccwT p; inHandIs 0 .nvme w)
    ∧ (∀ p ∈ [(1, 512, 0x2000, 0), (2, 4096, 0x2000, 0), (0x11, 4096, 0x2000, 0), (7, 32, 0x2000, 0), (0x14, 4608, 0x2000, 0)], let w := ccwT p; HostArea w)
    ∧ hp0.nsid ≠ 0 ∧ ccwCount (ccwOf 2 4096 0x2000) = 8 * 2 ^ hp0.bsLog ∧ 0 + 8 ≤ hp0.blocks
    ∧ ccwCount (ccwOf 0x14 4608 0x2000) = 9 * 2 ^ hp0.bsLog ∧ hp0.blocks < 0 + 9
    ∧ ccwCount (ccwOf 0x12 513 0) % 2 ^ hp0.bsLog ≠ 0
    ∧ HPriv.none.nsid = 0
    ∧ (∀ p ∈ [(1, 512), (2, 4096), (0x13, 4096), (0x14, 4096)], roomy 0 1 p.2 1 (ccwOf p.1 p.2 0x2000) [⟨0, 0x2000, p.2⟩] [7] = true)
    ∧ (∀ k ∈ [true, false], ∀ m ∈ [32, 512], hostWaits (inHand 0 (ccwOf 1 512 0x2000)) pf0 [(0x2000, m, k)] = false)
    ∧ slotsFree (inHand 0 (ccwOf 0x10 0 0)) 0 1 = true ∧ slotsFree (slotless (inHand 0 (ccwOf 2 512 0x2000))) 0 1 = false
    ∧ (let v : BitVec 256 := BitVec.ofNat 256 (leNat (leBytes 32 (0x32001 + 2 ^ 32 + 8 * 2 ^ 64)))
       bits v 7 0 = 1 ∧ bits v 15 8 = 0x20 ∧ bits v 31 19 = 0 ∧ bits v 255 128 = 0 ∧ bit v 16 = true ∧ bits v 63 32 ≠ 0
         ∧ bit v 17 = true ∧ bits v 127 64 ≤ 8 ∧ 7 < bits v 127 64) := by
  unfold inHandIs InHand Engine HostArea; decide +kernel

/-- A second subchannel, bound to another vendor pack. -/
def withPeer (hp : Nat) (d : Dev) : Dev := subSet 8 (boundSub hp .idle) d

theorem witness_WindowPeerAndSetCommands :
    (∀ p ∈ [(1, 4096, 0x2000, 0), (2, 4, 0x2000, 0), (0x11, 4, 5, 0), (1, 3, 0x2000, 0), (0x11, 8, 5, 0), (0x10, 0, 0, 0), (7, 32, 0x2000, 0), (0xA, 512, (8 * 2 ^ 46), 0)], let w := ccwT p; inHandIs 1 .window w ∧ (ccwCode w ≤ 2 → HostArea w))
    ∧ (4096 % 4 = 0 ∧ 0 + 4096 ≤ hp0.size ∧ 3 % 4 ≠ 0 ∧ { hp0 with size := 4 }.size < 0 + 8 ∧ hp0.width = 1)
    ∧ (let v : BitVec 256 := BitVec.ofNat 256 (leNat (leBytes 32 (0x12002 + 4095 * 2 ^ 64)))
       bits v 7 0 = 2 ∧ bits v 15 8 = 0x20 ∧ bits v 18 17 ≠ 3 ∧ bits v 63 20 = 0 ∧ bits v 255 128 = 0 ∧ bit v 16 = true
         ∧ bits v 127 64 < hp0.size)
    ∧ (let w := ccwOf 0xA 512 (8 * 2 ^ 46)
       bits (ccwAddr w) 63 46 = 8 ∧ bits (ccwAddr w) 45 0 = 0 ∧ ccwCount w = 1 * 2 ^ hp0.bsLog
         ∧ handlerOf (withPeer 2 (inHand 1 w)) (subGet (withPeer 2 (inHand 1 w)) 8) = some .peer
         ∧ handlerOf (withPeer 1 (inHand 0 w)) (subGet (withPeer 1 (inHand 0 w)) 8) = some .window
         ∧ handlerOf (withPeer 0 (inHand 1 w)) (subGet (withPeer 0 (inHand 1 w)) 8) = some .nvme
         ∧ (subGet (withPeer 0 (inHand 1 w)) 8).st ≠ .notOperational)
    ∧ (∀ p ∈ [(0xF, 512, 0x2000, 0), (2, 512, 0x2000, 0)], let w := ccwT p; inHandIs 2 .peer w ∧ HostArea w
        ∧ hp0.members.length = 1 + 2 ∧ ccwCount w = 1 * 2 ^ hp0.uLog)
    ∧ (roomy 1 1 4096 1 (ccwOf 1 4096 0x2000) [⟨0, 0x2000, 4096⟩] [7] = true ∧ roomy 1 1 4 1 (ccwOf 2 4 0x2000) [⟨0, 0x2000, 4⟩] [7] = true
      ∧ roomy 1 1 512 1 (ccwOf 0xA 512 (8 * 2 ^ 46)) [] [7, 8] = true
      ∧ roomy 0 1 512 2 (ccwOf 0xA 512 (8 * 2 ^ 46)) [] [7, 8] = true ∧ roomy 2 3 1536 2 (ccwOf 0xF 512 0x2000) [⟨0, 0x2000, 512⟩] [1, 2, 3] = true
      ∧ roomy 2 1 512 1 (ccwOf 2 512 0x2000) [⟨0, 0x2000, 512⟩] [1] = true
      ∧ slotsFree (inHand 1 (ccwOf 0x10 0 0)) 0 1 = true ∧ ∀ m ∈ [32, 512, 4096], hostWaits (inHand 1 0) pf0 [(0x2000, m, true)] = false) := by
  refine ⟨?_, by decide +kernel, by decide +kernel, by decide +kernel, ?_, by decide +kernel⟩
  · unfold inHandIs InHand Engine HostArea; decide +kernel
  · unfold inHandIs InHand Engine HostArea; decide +kernel

theorem witness_OperationEvents :
    hostWaits (flying true (.nvmeRead 1 0 1) 2) pf0 [(0x2000, 512, true)] = false ∧ (run9 2 0).got = [] ∧ (run9 2 0).port = some 0 ∧
    ∀ p ∈ [(false, OpKind.nvmeWrite 1 0 1 false [], 1), (true, OpKind.nvmeRead 1 0 1, 2)],
      let w := ccwOf p.2.2 512 0x2000
      InFlight (st (flying p.1 p.2.1 p.2.2)) 9 7 (op9 p.1 p.2.1) (boundSub 0 .active)
        { readyProg w with stage := .running, run := some (run9 p.2.2 w) } (run9 p.2.2 w) 0x1000 w := by
  unfold InFlight Engine; decide +kernel

theorem witness_LossAttentionLease :
    (∀ q ∈ [SubState.idle, .startPending, .active, .suspended, .haltPending, .clearPending, .statusPending, .notOperational],
      (subGet (subSet 7 (boundSub 0 q) packedDev) 7).st = q ∧ (boundSub 0 q).hpack ≠ 0xFF)
    ∧ (subIn .idle).hpack = 0xFF
    ∧ (let d := { running 0 (readyProg (ccwOf 3 1 0)) with ops := [(9, { op9 true .winFence with detached := true })] }
       d.ops.find? (fun e => e.1 = 9) = some (9, { op9 true .winFence with detached := true }) ∧ progOps d 7 = [])
    ∧ (subIn .idle).lease = none
    ∧ (let x := { subIn .idle with lease := some pf0, leaseEnd := 5 }
       (subGet (subSet 7 x readyDev) 7).lease = some pf0 ∧ readyDev.devtime < 5)
    ∧ { subIn .idle with lease := some pf0 }.leaseEnd ≤ readyDev.devtime := by decide +kernel

/-! ### Registers of rings, the mover -/

def opened (o : Origin) (page : Nat) (d : Dev) : Dev := { d with xmodes := [⟨o, page, d.devtime⟩] }

/-- Passes, as a check. -/
def passes (d : Dev) (o : Origin) (page x : Nat) (cl : List Nat) : Bool :=
  !d.frozen && !(mustWait d o (4096 * page + x)) && cl.contains (originClass o) && lockOk d o page
    && (decide (x < 0x800) || xOpen (xExpire d) o page)

theorem passes_iff {d : Dev} {o : Origin} {page x : Nat} {cl : List Nat} (h : passes d o page x cl = true) :
    Passes (st d) o page x cl := by
  simp only [passes, Bool.and_eq_true, Bool.not_eq_true', Bool.or_eq_true, decide_eq_true_eq, List.contains_iff_mem] at h
  obtain ⟨⟨⟨⟨h1, h2⟩, h3⟩, h4⟩, h5⟩ := h
  exact ⟨h1, h2, h3, h4, fun hx => h5.resolve_left (Nat.not_lt.mpr hx)⟩

def enOf (en : Bool) (size : Nat) : Word := BitVec.ofNat 32 ((if en then 2 ^ 31 else 0) + size * 2 ^ 24)

theorem witness_RingRegisters :
    ((4095 : Nat) < 4096)
    ∧ (∀ x ∈ [startRegs 4095 + 0x10, complRegs 4095 + 8, complRegs 4095 + 0xC],
        passes resetDev (.hostPf 0) (ringPage 4095) x [4, 3, 2] = true ∧ passes resetDev .elfort (ringPage 4095) x [4, 3, 2] = true)
    ∧ mayRing (.hostPf 0) 0 = true ∧ mayRing (.hostPf 0) 0x7F = false ∧ mayRing .elfort 0 = false
    ∧ bit (enOf true 0) 31 = true ∧ bit (enOf false 0) 31 = false
    ∧ bits (clampSize (enOf true 12 &&& 0xCF00FFFF#32)) 27 24 ≠ bits (enOf true 0) 27 24
    ∧ bits (clampSize (enOf true 0 &&& 0xCF00FFFF#32)) 27 24 = bits (enOf true 0) 27 24
    ∧ (originClass .elfort = 4 ∧ ownOf (0 : Word) ≠ none
      ∧ clampSize (enOf false 0 &&& 0x10FFF800#32 ||| enOf true 0 &&& 0xEF0007FF#32) = setBit (enOf false 0) 31 true)
    ∧ (Origin.hostPf 0 ≠ .hostPf (bits (0x80#32) 7 7) ∧ Origin.hostPf 0 = .hostPf (bits (0x7F#32) 7 7))
    ∧ (crGet resetDev 4095).fifo.items = [] ∧ stalledCount resetDev 4095 = 0
    ∧ ((crGet resetDev 4095).own &&& 0xFFFFFF00#32 ||| (0x7F#32) &&& 0xFF#32) = (crGet resetDev 4095).own := by decide +kernel

/-- Mover channel 4095 committed to firmware or to the PF of port 0, in a state. -/
def chanIn (q : ChSt) : Chan := { chReset with st := q, cfg := 0x94300000, prog := 0x50 }
def mover (q : ChSt) : Dev :=
  opened (.hostPf 0) (chanPage 4095) { chSet 4095 (chanIn q) (regSetFld .glFnPerm 0 0 0 1 readyDev) with
    commits := [(resKey 3 4095, ⟨.fn pf0, 0⟩)], scratch := [(areaOf pf0, [0])], slices := [(0, .scratch (areaOf pf0))] }

theorem witness_MoverCommands :
    (∀ q ∈ [ChSt.idle, .run, .wait, .halted, .disabled],
      passes (mover q) (.hostPf 0) (chanPage 4095) (chanRegs 4095) [3, 2, 1, 0] = true
        ∧ passes (mover q) (.hostPf 0) (chanPage 4095) (chanRegs 4095 + 8) [3, 2, 1, 0] = true
        ∧ mayChan (mover q) (.hostPf 0) 4095 = true ∧ ((commitOf (mover q) 3 4095).map (·.holder)) ≠ some .signpost
        ∧ (chGet (mover q) 4095).st = q ∧ (chGet (mover q) 4095).needHdr = false)
    ∧ mayChan (mover .idle) (.cp 5) 4095 = false
    ∧ chSpace (chanIn .idle) = 1 ∧ 0x40 + 64 ≤ plazaSize (mover .idle) (chGet (mover .idle) 4095)
    ∧ plazaHeld (mover .idle) (chGet (mover .idle) 4095) 0x40 64 = [] ∧ bits (0x40000000#32) 31 29 = 2 ∧ bits (0x80000000#32) 31 29 = 4 ∧ bits (0x20000000#32) 31 29 = 1
    ∧ (inHand 0 (ccwOf 0xE 0 0x4000)).movWait = [] ∧ (freeChannel (inHand 0 (ccwOf 0xE 0 0x4000))).isSome = true
    ∧ freeChannel (regSetFld .sgMovRange 0 27 16 4095 (regSetFld .sgMovRange 0 11 0 4095 (mover .idle))) = none
    ∧ (takeChans 7 2 (inHand 0 (ccwOf 0xA 512 (8 * 2 ^ 46)))).isSome = true ∧ Stage.ready ≠ .waitMover 0
    ∧ bits (ccwAddr (ccwOf 0xE 0 0x4000)) 5 0 = 0 ∧ bits (ccwAddr (ccwOf 0xE 0 0x4001)) 5 0 ≠ 0
    ∧ (let b : Burst := { pc := 0, space := 0, addr := 0x4000, data := [1], sent := true, prio := 4, cls := 2, retries := 0, hold := false, zlr := none, port := 0 }
       let x := { chanIn .run with bursts := [b] }
       x.bursts = b :: [] ∧ b.sent = true ∧ b.zlr = none ∧ b.retries < bits x.cfg 23 20 ∧ { b with space := 1 }.space ≠ 0
         ∧ bits x.cfg 23 20 ≤ { b with retries := 3 }.retries
         ∧ (let d := { mover .run with upDown := [false, false] }
            upUp d (1 - b.port) = true)
         ∧ upUp { mover .run with upDown := [false, true] } (1 - 0) = false)
    ∧ ({ chanIn .run with again := true }.again = true ∧ { chanIn .run with again := true, needHdr := true }.needHdr = true)
    ∧ ({ chanIn .run with retry := some 0 }).retry = some 0
    ∧ ({ chanIn .wait with wait := some (.delay 5) }).wait = some (.delay 5) ∧ (mover .wait).devtime < 5 := by decide +kernel

theorem witness_MoverCcw : InHand (st (inHand 0 (ccwOf 0xE 0 0x4000))) 7 (boundSub 0 .active) .nvme (readyProg (ccwOf 0xE 0 0x4000))
    0x1000 (ccwOf 0xE 0 0x4000) := by
  unfold InHand Engine; decide +kernel

/-- A firmware channel whose program stands in Plaza with one instruction at its pc. -/
def movChan : Chan :=
  { chReset with st := .run, cfg := 0x9430007F, prog := 0x10, pc := 0x40, ar := [0x1000, 0x2000, 0x3000, 0x4000, 0, 0, 0, 0] }
def movBase : Dev := chSet 4095 movChan readyDev
def movImage (w : QWord) : Dev := { movBase with plaza := memWrite [] 0x40 (leBytes 16 w.toNat) }
def noIo : MovIo := ⟨.ok [], .ok [], []⟩

/-- A MOVE of 16 bytes from AR0 to AR1 in Plaza. -/
def moveW : QWord := BitVec.ofNat 128 (1 + 0x14000 * 256 + 1 * 2 ^ 29 + 16 * 2 ^ 96)

/-- The channel with its line fetched, and a data instruction's with its turn and its slices. -/
def movLine (w : QWord) : Dev := lineFetch 4095 noIo (movImage w)
def movHeld (w : QWord) : Bool × Dev :=
  let d := movLine w
  chanRoom 4095 (chSlices (chGet d 4095) w) (chEnds d (chGet d 4095) w) d
def movTurn (h : Dev) : Dev := { h with movServed := tset h.movServed (bits (chGet h 4095).cfg 31 29) 4095 4095 }
def movReady (w : QWord) : Dev := if dataOp w then movTurn (movHeld w).2 else movLine w

def fetchable (w : QWord) : Bool :=
  chBegins (movImage w) 4095 (chGet (movImage w) 4095) && !(chGet (movImage w) 4095).needHdr
    && decide ((chGet (movLine w) 4095).st = .run) && !(chGet (movLine w) 4095).again
    && decide (chWord (chGet (movLine w) 4095) = some w)
    && (!(dataOp w) || (seqTurn 4095 (movLine w) && (movHeld w).1))

theorem fetches_movImage {w : QWord} (h : fetchable w = true) : ChanFetches (st (movImage w)) 4095 w noIo (movReady w) := by
  simp only [fetchable, Bool.and_eq_true, Bool.or_eq_true, Bool.not_eq_true', decide_eq_true_eq] at h
  obtain ⟨⟨⟨⟨⟨h1, h2⟩, h3⟩, h4⟩, h5⟩, h6⟩ := h
  refine ⟨⟨rfl, rfl⟩, h1, h2, h3, h4, h5, fun hd => ?_, fun hd => ?_⟩
  · simp only [movReady, hd]; rfl
  · rcases h6 with h6 | ⟨h6, h7⟩
    · rw [hd] at h6; cases h6
    · refine ⟨h6, (movHeld w).2, Prod.ext h7 rfl, ?_⟩
      simp only [movReady, hd]; rfl

theorem witness_MoveWritesItsRange : ChanFetches (st (movImage moveW)) 4095 moveW noIo (movReady moveW) ∧ bits moveW 7 0 = 1
    ∧ bits moveW 25 8 = 0x14000 ∧ (movImage moveW).fnHeld = [] ∧ (movImage moveW).progs = []
    ∧ (∀ n, (subGet (movImage moveW) n).heldAttn = false)
    ∧ (let x := chGet (movReady moveW) 4095
       chOwner x = none ∧ bits x.buf 31 1 = 0 ∧ inRefill (movImage moveW) (blocksOf (addrAdd 1 (lget x.ar 0 0) 0).toNat 16) = []
         ∧ (addrAdd 1 (lget x.ar 0 0) 0).toNat + 16 ≤ Config.plazaBytes
         ∧ (addrAdd 1 (lget x.ar 1 0) 0).toNat + 16 ≤ Config.plazaBytes) :=
  ⟨fetches_movImage (by decide +kernel), by decide +kernel, by decide +kernel, rfl, rfl, fun _ => rfl, by decide +kernel⟩

/-- Channels with bursts to send: 4095 of PRIO 4, and 5 of PRIO 1, whose first burst of space 0 is on its way. -/
def sending (sent : Bool) : Chan :=
  let b : Burst := { pc := 0, space := 0, addr := 0x4000, data := [1], sent := sent, prio := 0, cls := 0, retries := 0, hold := false, zlr := none, port := 0 }
  { movChan with bursts := [b, { b with space := 2, sent := false }] }
def sendingDev : Dev := chSet 5 { sending true with cfg := 0x3430007F } (chSet 4095 (sending false) readyDev)

theorem witness_MoverDispatch :
    dispatchPick sendingDev = some 5 ∧ seqTurn 4095 (movLine moveW) = true ∧ plazaHeld movBase (chGet movBase 4095) 0x40 64 = []
      ∧ { movChan with port := some 1 }.port = some 1 ∧ nextBurst sendingDev (sending true) = some 1 ∧ nextBurst sendingDev (sending false) = some 0
      ∧ (chGet (movReady moveW) 4095).line.map (·.1) = some ((chGet (movReady moveW) 4095).pc &&& 0xFFFFFFFFFFFFFFC0#64)
      ∧ (chGet movBase 4095).line = none ∧ chSpace (chGet movBase 4095) = 1 ∧ 0x40 + 64 ≤ plazaSize movBase (chGet movBase 4095)
      ∧ chSpace { movChan with prog := 0 } ≠ 1 ∧ hostWaits movBase (chFn movChan) [(0x40, 64, true)] = false := by decide +kernel

/-- The instructions of mover programs: each clause has a word that meets it, and the channel fetches it. -/
def mw (op rest : Nat) : QWord := BitVec.ofNat 128 (op + rest)

theorem witness_MoverInstructions :
    (∀ p ∈ [(0, 0), (0, 2 ^ 100), (1, 2 ^ 20), (1, 2 ^ 22 + 2 ^ 24 + 2 ^ 29 + 2 ^ 19 + 5 * 2 ^ 96), (2, 2 ^ 64),
        (2, 2 ^ 59 + 2 ^ 54 + 2 ^ 49 + 2 * 2 ^ 96 + 3 * 2 ^ 84 + 2 ^ 61 + 2 * 2 ^ 56 + 3 * 2 ^ 51), (3, 2 ^ 96 + 2 ^ 64), (3, 2 ^ 97 + 2 ^ 64),
        (4, 255 * 2 ^ 96), (4, 2 ^ 16), (4, 2 ^ 17), (4, 256 * 2 ^ 96), (5, 0), (5, 2 ^ 16), (5, 2 ^ 17), (6, 0), (7, 0),
        (7, 2 ^ 18 + 2 ^ 19 + 2 ^ 48 + 2 ^ 46 + 2 * 2 ^ 56 + 3 * 2 ^ 53 + 2 ^ 50 + 8 * 2 ^ 64 + 8 * 2 ^ 96), (0xF, 0), (0xF, 2 ^ 8)],
      bits (mw p.1 p.2) 7 0 = p.1 ∧ fetchable (mw p.1 p.2) = true)
    ∧ (let w := mw 1 (2 ^ 22 + 2 ^ 24 + 2 ^ 29 + 2 ^ 19 + 5 * 2 ^ 96)
       bits w 21 20 = 0 ∧ bits w 15 8 = 0 ∧ bits w 23 22 = 1 ∧ bits w 25 24 = 1 ∧ bits w 127 96 = 5 ∧ bit w 16 = false
         ∧ xfKind (mw 0 (2 ^ 8 + 2 ^ 24)) ≠ 0 ∧ xfLength (mw 0 (2 ^ 8 + 2 ^ 24)) 5 = false ∧ xfLength (mw 0 (2 ^ 8 + 2 ^ 24)) 6 = true
         ∧ overlaps 1 0x1000 6 1 0x1005 6 = true ∧ overlaps 1 0x1000 5 1 0x2000 5 = false)
    ∧ (let d := movImage 0
       let x := chGet d 4095
       firstErr d x [(1, 0x1000, 5), (1, 0x2000, 5)] = none ∧ (firstErr d x [(1, 0x3FFFFFF, 5), (1, 0x2000, 5)]).isSome = true
         ∧ (readAll 4095 moveW (place 1 0x1000 0 [16]) [] d).1.isSome = true ∧ x.bursts = [] ∧ lget x.lc 0 0 = 0 ∧ (chImage x).toNat + 64 + 16 * 1 > x.pc.toNat ∧ x.sig = 0
         ∧ chOwner (chGet d 0) = chOwner x ∧ chOwner (chGet (mover .run) 4095) ≠ chOwner x)
    ∧ (let w := mw 2 (2 ^ 59 + 2 ^ 54 + 2 ^ 49 + 2 * 2 ^ 96 + 3 * 2 ^ 84 + 2 ^ 61 + 2 * 2 ^ 56 + 3 * 2 ^ 51)
       bits w 83 64 = 0 ∧ bits w 48 20 = 0 ∧ bits w 15 8 = 0 ∧ bits w 60 59 = 1 ∧ bits w 55 54 = 1 ∧ bits w 50 49 = 1
         ∧ bits w 127 96 = 2 ∧ bits w 95 84 + 1 = 4)
    ∧ (let w := mw 7 (2 ^ 18 + 2 ^ 19 + 2 ^ 48 + 2 ^ 46 + 2 * 2 ^ 56 + 3 * 2 ^ 53 + 2 ^ 50 + 8 * 2 ^ 64 + 8 * 2 ^ 96)
       bits w 45 20 = 0 ∧ bits w 15 8 = 0 ∧ bit w 18 = true ∧ bits w 49 48 = 1 ∧ bits w 47 46 = 1 ∧ bit w 17 = false
         ∧ bit w 16 = false ∧ 0 < bits w 127 96
         ∧ anyOverlap [(1, 0x3000, 8), (1, 0x4000, 8), (1, 0x2000, 8)] = false ∧ anyOverlap [(1, 0x3000, 8), (1, 0x3007, 8)] = true) := by
  decide +kernel

/-- R186: a MOVE copies its bytes. -/
theorem test_move_16 :
    (match exec (.move 4095 moveW noIo) (st { movImage moveW with plaza := memWrite (movImage moveW).plaza 0x1000 [1, 2, 3] }) with
     | .next t => memRead t.dev.plaza 0x2000 4
     | _ => []) = [1, 2, 3, 0] := by decide +kernel

/-! ### Plaza, Boulevard, Roundabout, Signpost -/

/-- A device with a refill of block b in progress for a reader, after n tries. -/
def inRefillOf (b n : Nat) (r : BlockUser) : Dev := { readyDev with refills := [⟨b, .nvme 7 1 0 8 64, r, n, 1000⟩] }

theorem witness_PlazaReads :
    (∀ x ∈ readyDev.refills, x.blk ≠ 0x3FFFF) ∧ (BlockSrc.nvme 7 1 0 8 64 ≠ .windowFixed ∧ BlockSrc.nvme 7 1 0 8 64 ≠ .scratch)
      ∧ (∀ r ∈ [BlockUser.chan 4095 0, .cmd 3, .cpLoad 5 0x40000000, .xfer 3, .device 31 9 0 64, .engine 7, .copy 3],
        regFld (crcRaised 0x3FFFF r readyDev) .pzResend 0 2 0 ≠ 0
          ∧ regFld (crcRaised 0x3FFFF r (regSetFld .pzResend 0 2 0 0 readyDev)) .pzResend 0 2 0 = 0)
      ∧ (let d := inRefillOf 0x3FFFF 0 (.chan 4095 0)
         let x : Refill := ⟨0x3FFFF, .nvme 7 1 0 8 64, .chan 4095 0, 0, 1000⟩
         d.refills.find? (fun y => y.blk = 0x3FFFF) = some x ∧ d.refills.filter (fun y => y.blk = 0x3FFFF) = [x]
           ∧ (∀ y ∈ d.refills, y.blk = 0x3FFFF → y.reader ≠ .cmd 3) ∧ (∃ y ∈ d.refills, y.blk = 0x3FFFF ∧ y.reader = .chan 4095 0)
           ∧ x.tries + 1 < regFld d .pzResend 0 2 0 ∧ x.tries + 1 < regFld (crcRaised 0x3FFFF x.reader d) .pzResend 0 2 0)
      ∧ (let d := inRefillOf 0x3FFFF 7 (.device 31 9 0 64)
         let x : Refill := ⟨0x3FFFF, .nvme 7 1 0 8 64, .device 31 9 0 64, 7, 1000⟩
         d.refills.filter (fun y => y.blk = 0x3FFFF) = [x] ∧ d.refills.find? (fun y => decide (y.blk = 0x3FFFF) && y.held) = some x
           ∧ (∀ y ∈ d.refills.filter (fun y => y.blk ≠ 0x3FFFF), y.reader ≠ x.reader)
           ∧ regFld d .pzResend 0 2 0 ≤ x.tries + 1
           ∧ regFld (crcRaised 0x3FFFF x.reader { d with refills := [] }) .pzResend 0 2 0 ≤ x.tries + 1)
      ∧ (List.replicate 256 (1 : Byte)).length = 256
      ∧ (let q : PlazaProd := .parityP none [0, 256]
         fitBytes 256 (fitBytes 256 (produced readyDev q)) = fitBytes 256 (produced readyDev q)) := by decide +kernel

/-- The bytes of a refill: from NVMe at the block's offset in what was read, from a window as they are, computed again. -/
theorem witness_PlazaReads_origin :
    (∃ n ns lba k o, BlockSrc.nvme 7 1 0 8 64 = .nvme n ns lba k o ∧ o + 256 ≤ (List.replicate 4096 (1 : Byte)).length)
      ∧ (∀ q, BlockSrc.window 7 64 ≠ .plaza q) ∧ (∀ n ns lba k o, BlockSrc.window 7 64 ≠ .nvme n ns lba k o)
      ∧ ∃ q, BlockSrc.plaza (.parityP none [0, 256]) = .plaza q :=
  ⟨⟨7, 1, 0, 8, 64, rfl, by rw [List.length_replicate]; decide⟩, nofun, nofun, _, rfl⟩

/-- A device with bank 0 in a state. -/
def bankIn (q : Nat) : Dev := regSetFld .bkStat 0 31 30 q readyDev

/-- An owner pack's part of a command, with CP 5. -/
def own0 : OwnCmd :=
  { cp := 5, ctx := 0, xfers := [(9, true, 0)], segs := [], cdc := none, timers := [(10, 3, 2000)], srcs := [], res := [(0, 100)], held := [],
    sense := none, toks := [9], replay := none, settled := [], fails := [] }

theorem witness_PlazaSlices :
    bankState readyDev 63 = 0 ∧ regFld readyDev .bkStat 63 12 8 < 16 ∧ regFld readyDev .bkStat 63 2 0 < 4
      ∧ 16 ≤ regFld (regSetFld .bkStat 63 12 8 16 readyDev) .bkStat 63 12 8
      ∧ 4 ≤ regFld (regSetFld .bkStat 63 2 0 4 readyDev) .bkStat 63 2 0
      ∧ bankState (bankIn 1) 0 = 1 ∧ bankState (bankIn 2) 0 = 2 ∧ bankState (bankIn 3) 0 = 3
      ∧ (∀ e ∈ (bankIn 1).slices, e.1 / 256 = 0 → e.2 = .fenced)
      ∧ (let d := { bankIn 1 with slices := [(0, .scratch 5)], scratch := [(5, [0])] }
         sliceGet d 0 = .scratch 5 ∧ bankState d (0 / 256) = 1 ∧ 16383 / 256 ≠ 0 / 256 ∧ 16383 < Config.plazaSlices
           ∧ bankState d (16383 / 256) = 0 ∧ sliceGet d 16383 = .free ∧ d.fenceWait = [] ∧ refilling d 0 4096 = [] ∧ d.refills = [] ∧ 0 ∈ scratchOf d 5)
      ∧ (let d := { beginBanks 7 [0] (inHand 0 (ccwOf 3 1 0)) with resv := [⟨0, 1, 1, 7, [0]⟩] }
         d.fatal = false ∧ d.resv.find? (fun q => q.cls = 1) = some ⟨0, 1, 1, 7, [0]⟩ ∧ (∀ k, k < 1 → pzNext k d = none)
           ∧ (pzGrant 7 1 1 [0] { d with resv := [] }).isSome = true
           ∧ (pzGrant 7 1 16385 [0] d).isSome = false ∧ ((progOf d 7).bind (·.own)).isSome = false)
      ∧ (let d := { beginBanks 7 [] (inHand 0 (ccwOf 3 1 0)) with resv := [⟨0, 0, 1, 7, []⟩, ⟨1, 1, 1, 7, []⟩] }
         d.resv.find? (fun q => q.cls = 1) = some ⟨1, 1, 1, 7, []⟩ ∧ ∃ k, k < 1 ∧ pzNext k d ≠ none)
      ∧ (let d := progSet 7 { readyProg (ccwOf 3 1 0) with own := some own0 } { beginBanks 7 [0] packedDev with resv := [⟨0, 1, 1, 7, [0]⟩] }
         d.resv.find? (fun q => q.cls = 1) = some ⟨0, 1, 1, 7, [0]⟩ ∧ (pzGrant 7 1 1 [0] { d with resv := [] }).isSome = true
           ∧ ((progOf d 7).bind (·.own)).isSome = true) := by decide +kernel

/-- A flit of zeros, whose CRC is 0, and one with a wrong CRC. -/
def flit0 : Flit := ⟨0, List.replicate 128 0, 0⟩
def flitBad : Flit := ⟨0, List.replicate 128 0, 1⟩

theorem crc16_zeros (n : Nat) : crc16 (List.replicate n 0) = 0 := by
  unfold crc16
  induction n with
  | zero => rfl
  | succ n ih =>
    rw [List.replicate_succ, List.foldl_cons]
    have h : (List.range 8).foldl (fun r i => crc16Bit r (bit (0 : Byte) (7 - i))) 0 = 0 := by decide
    rw [h]; exact ih

theorem witness_BoulevardFaults_flit :
    flitGood flit0 = true ∧ flit0.payload.length = 128 ∧ flitFails [flit0] = 0 ∧ flitFails [flitBad, flit0] = 1 := by
  have hb : flitBytes flit0 = List.replicate 136 0 := by decide +kernel
  have h0 : flitGood flit0 = true := by unfold flitGood; rw [hb, crc16_zeros]; decide
  have h1 : flitGood flitBad = false := by
    have : flitBytes flitBad = List.replicate 136 0 := by decide +kernel
    unfold flitGood; rw [this, crc16_zeros]; decide
  refine ⟨h0, by decide +kernel, ?_, ?_⟩ <;> simp [flitFails, h0, h1]

/-- R236: the CRC-16 of the nine ASCII digits 1 to 9. -/
theorem test_flit_crc : crc16 [0x31, 0x32, 0x33, 0x34, 0x35, 0x36, 0x37, 0x38, 0x39] = 0xD0DB#16 := by decide +kernel

/-- Requests that have waited 500 cycles at a bank and at an output. -/
def aged : Dev :=
  let x : Rbt := { Rbt.idle with reqs := [⟨1, 3, 4, none, 500, false⟩, ⟨2, 3, 4, none, 499, false⟩] }
  rbtSet 103 x (rbtSet 63 x (regSetFld .plzWatchThr (4 * 63 + 3) 31 0 500 (regSetFld .blvWatchThr (4 * 39 + 3) 31 0 501 readyDev)))

theorem witness_BoulevardFaults :
    (let after := fun d => pageEvent 2 4 (deviceFault 0 4 39 (dbEvent 8 (regBump .rplCnt 39 (hopSend ⟨39, true⟩ [flitBad] d))))
     1 < max 1 (regFld (after readyDev) .rplLim 0 3 0) ∧ max 1 (regFld (after (regSetFld .rplLim 0 3 0 1 readyDev)) .rplLim 0 3 0) ≤ 1)
      ∧ regFld readyDev .blvSteer 0 15 15 ≠ 1 ∧ regFld readyDev .blvSteer 0 31 31 ≠ 1
      ∧ 38 ∉ readyDev.blvBad ∧ 39 ∉ readyDev.blvBad ∧ 3 ∈ ({ readyDev with blvBad := [3] }).blvBad
      ∧ 3 ∈ ({ readyDev with laneBad := [3] }).laneBad
      ∧ (let d := regSetFld .blvSteer 0 15 15 1 readyDev
         regFld d .blvSteer 0 15 15 = 1 ∧ regFld d .blvSteer 0 31 31 ≠ 1 ∧ 39 ∉ d.blvBad
           ∧ regFld (regSetFld .blvSteer 0 31 31 1 d) .blvSteer 0 15 15 = 1
           ∧ regFld (regSetFld .blvSteer 0 31 31 1 d) .blvSteer 0 31 31 = 1)
      ∧ 4 ∈ readyDev.lanes ∧ 5 ∉ readyDev.lanes ∧ 5 ∉ readyDev.laneBad ∧ 4 ∉ readyDev.laneBad
      ∧ 5 ∈ ({ readyDev with lanes := [0, 1, 2, 3, 5] }).lanes
      ∧ (let due := fun (o : Bool) i src => (rbtGet aged (if o then 64 + i else i)).reqs.any (fun q => overdue
            (regFld aged (if o then .blvWatchThr else .plzWatchThr) (4 * i + 3) 31 0) 3 q && decide (q.src = src))
         due false 63 1 = true ∧ due false 63 2 = false ∧ due true 39 1 = false) := by decide +kernel

def preempting : Dev := regSet .bkArb 0 1 readyDev
/-- Roundabout r with what x says. -/
def rbtIs (r : Nat) (x : Rbt) (d : Dev) : Rbt := rbtGet (rbtSet r x d) r

theorem witness_RoundaboutCycles :
    rbtBest [⟨1, 2, 4, none, 0, false⟩, ⟨2, 1, 4, none, 0, false⟩] = some ⟨2, 1, 4, none, 0, false⟩
      ∧ preEn readyDev 63 = false ∧ preEn readyDev 103 = false ∧ preEn preempting 0 = true
      ∧ (let x := rbtIs 103 { Rbt.idle with late := [(4095, 0)], reqs := [⟨26, 2, 4, some 4095, 0, false⟩] } readyDev
         x.late = [(4095, 0)] ∧ x.decision = none ∧ x.holder = none ∧ x.reqs = [⟨26, 2, 4, some 4095, 0, false⟩] ∧ (2 : Nat) ≠ 0)
      ∧ (let x := rbtGet readyDev 103
         x.late = [] ∧ x.decision = none ∧ x.holder = none ∧ trafficSource 103 39 .device = some 39
           ∧ (∀ y ∈ x.reqs, ¬ (y.src = 39 ∧ (y.cls = trafficCls .device ∨ y.cls = bits (chGet readyDev 4095).cfg 28 27))))
      ∧ (let q : RReq := ⟨1, 2, 4, none, 3, false⟩
         let x := rbtIs 63 { Rbt.idle with reqs := [q], decision := some q } readyDev
         x.late = [] ∧ x.decision = some q ∧ x.preempt = false ∧ x.holder = none ∧ 1 < q.units
           ∧ x.reqs.find? (fun z => decide (q.src = z.src) && decide (q.cls = z.cls)) = some q)
      ∧ (let p : RReq := ⟨0, 2, 4, none, 0, false⟩
         let y : Rbt := { Rbt.idle with reqs := [⟨1, 2, 4, none, 0, false⟩], decision := some p }
         let x := rbtIs 0 y readyDev
         let z := rbtIs 0 { y with holder := some ⟨2, 1, 3, none, 0, false⟩, moved := 1, preempt := true } readyDev
         x.decision = some p ∧ x.holder = none ∧ x.preempt = false ∧ (∀ y ∈ x.reqs, ¬ (y.src = 0 ∧ y.cls = 2))
           ∧ z.decision = some p ∧ z.holder = some ⟨2, 1, 3, none, 0, false⟩ ∧ z.preempt = true)
      ∧ (let q : RReq := ⟨3, 0, 4, none, 0, false⟩
         let x := rbtIs 0 { Rbt.idle with holder := some ⟨2, 1, 1, none, 0, false⟩, moved := 3, reqs := [q], decision := some q, preempt := true } preempting
         x.decision = some q ∧ x.holder = some ⟨2, 1, 1, none, 0, false⟩ ∧ x.preempt = true ∧ q.cls = 0
           ∧ x.reqs.find? (fun y => decide (q.src = y.src) && decide (q.cls = y.cls)) = some q)
      ∧ (let q : RReq := ⟨3, 0, 4, none, 0, false⟩
         let x := rbtIs 0 { Rbt.idle with holder := some ⟨2, 1, 2, none, 0, false⟩, moved := 3, reqs := [q] } preempting
         let y := rbtIs 0 { Rbt.idle with holder := some ⟨2, 1, 1, none, 0, false⟩, moved := 3 } readyDev
         x.late = [] ∧ x.decision = none ∧ x.holder = some ⟨2, 1, 2, none, 0, false⟩ ∧ rbtBest x.reqs = some q
           ∧ y.decision = none ∧ y.holder = some ⟨2, 1, 1, none, 0, false⟩) := by decide +kernel

/-- R244, cycles 6 and 7 of the example: D of class 0 preempts C of class 1, which takes the highest class-1 rank anew. -/
theorem test_roundabout_preempts :
    (let c : RReq := ⟨2, 1, 1, none, 0, false⟩
     let q : RReq := ⟨3, 0, 4, none, 0, false⟩
     let b : RReq := ⟨1, 2, 4, none, 0, false⟩
     let d := rbtSet 0 { Rbt.idle with holder := some c, moved := 3, reqs := [b, q], decision := some q, preempt := true } preempting
     match exec (.roundaboutDecision false 0 [] []) (st d) with
     | .next t => decide ((rbtGet t.dev 0).holder = some { q with units := 3 } ∧ (rbtGet t.dev 0).moved = 1
         ∧ (rbtGet t.dev 0).reqs.map (fun r => (r.src, r.cls, r.units)) = [(2, 1, 4), (1, 2, 4)] ∧ (rbtGet t.dev 0).decision = none)
     | _ => false) = true := by decide +kernel

theorem witness_SignpostSamples : ∀ p ∈ [(0, 7), (1, 63), (2, 1), (3, 31)],
    ((p.1 = 0 ∧ p.2 < 8) ∨ (p.1 = 1 ∧ p.2 < 64) ∨ (p.1 = 2 ∧ p.2 < 2) ∨ (p.1 = 3 ∧ p.2 < 32)) := by decide

/-- A device with subchannels of two homes: 7 is pinned to wait for district 0, where 8 is free. -/
def homes : Dev := putSub 7 { boundSub 0 .idle with mpend := some 0, pinned := true } packedDev

/-- Subchannel 7 with the rebalancing on, and a score of its home district above that of the others. -/
def rebalanced (sc : Word) : Dev :=
  putSub 7 (boundSub 0 .idle) { regSetFld .sgRebal 0 31 16 5 (regSetFld .sgRebal 0 15 0 5 packedDev) with
    sgAvg := [(sgKey 0 7, ⟨sc, sc, sc⟩)] }

theorem witness_Migrations :
    7 < Config.subchannels ∧ 8 < Config.subchannels ∧ (7 : Nat) ≠ 8 ∧ (subGet homes 7).home ≠ (subGet homes 8).home
      ∧ (subGet homes 7).home < 8 ∧ (subGet homes 8).home < 8
      ∧ (homes.subs.map (·.1)).Nodup ∧ (∀ x ∈ homes.subs, x.1 < Config.subchannels)
      ∧ sgWaits homes = false ∧ sgWaits { homes with feeds := [(4176, 1048640)] } = true
      ∧ (subGet homes 7).mpend = some 0 ∧ (subGet homes 7).home ≠ 0 ∧ movable homes 7 = true ∧ cpsIn homes 0 ≠ 0
      ∧ (freePartner homes 0 7).isSome = true ∧ (pinPartner homes 0 7).isSome = true
      ∧ (subGet (putSub 7 { boundSub 0 .idle with mpend := some 7 } packedDev) 7).mpend = some 7
      ∧ movable (putSub 7 (boundSub 0 .active) packedDev) 7 = false ∧ (subGet readyDev 7).mpend = none
      ∧ regFld (regSetFld .sgRebal 0 15 0 0 readyDev) .sgRebal 0 15 0 = 0
      ∧ evacuateSweep readyDev = readyDev := by decide +kernel

/-- The cases of one subchannel that rebalancing examines: it stays, it is no candidate, it is moved. -/
theorem witness_Rebalance :
    (let d := rebalanced 0
     rebalanceList d = [7] ∧ regFld d .sgRebal 0 15 0 ≠ 0 ∧ regFld d .sgCtl 0 31 31 ≠ 1 ∧ (bestOf d 0 (districts d)).isSome = true
       ∧ movable d 7 = true ∧ cpsIn d (subGet d 7).home ≠ 0 ∧ score d 0 7 - score d 0 0 ≤ (regGet d .sgH 0).toNat)
      ∧ (let d := rebalanced 0xFFFF0000
         bestOf d 0 (districts d) = some 0 ∧ movable d 7 = true ∧ (0 : Nat) ≠ (subGet d 7).home
           ∧ (regGet d .sgH 0).toNat < score d 0 7 - score d 0 0 ∧ (freePartner d 0 7).isSome = true) := by decide +kernel

/-- The partner that rebalancing finds for it is another subchannel, homed in district 0. -/
theorem witness_Rebalance_partner :
    ∃ m, freePartner (rebalanced 0xFFFF0000) 0 7 = some m ∧ m ≠ 7 ∧ (subGet (rebalanced 0xFFFF0000) m).home = 0 := by
  obtain ⟨m, hm⟩ := Option.isSome_iff_exists.mp
    (show (freePartner (rebalanced 0xFFFF0000) 0 7).isSome = true by unfold freePartner; rw [onePartner_isSome]; decide +kernel)
  refine ⟨m, hm, ?_⟩
  unfold freePartner at hm
  rcases onePartner_some hm with h | h
  · simp only [Bool.and_eq_true, decide_eq_true_eq] at h
    exact ⟨h.1.1.1.1, h.1.1.2⟩
  · clear hm; revert m; decide +kernel

theorem witness_SignpostRegisters :
    passes readyDev (.hostPf 0) 5 0x044 [4, 3, 1] = true ∧ passes readyDev (.cp 5) 5 0x044 [4, 3, 1] = true
      ∧ passes readyDev (.cp 5) 5 0x054 [4, 3, 1] = true
      ∧ (∀ x ∈ [0x804, 0x810, 0x818], passes (opened (.hostPf 0) 3 readyDev) (.hostPf 0) 3 x [4, 3, 1] = true
        ∧ passes (opened .elfort 3 readyDev) .elfort 3 x [4, 3, 1] = true)
      ∧ (selOf readyDev (.hostPf 0) .ffSel < 4096 ∧ ownOf (crGet (crSet 0 cring0 readyDev) 0).own = some pf0)
      ∧ (fifoParts readyDev 0).1 = 0 ∧ (fifoParts (crSet 0 { cring0 with fifo := ⟨[⟨0, false, false, false, false, 7, []⟩], 1, 0⟩ } readyDev) 0).1 ≠ 0
      ∧ middleCap 4 ≤ poolFree readyDev + middleCap (regFld readyDev .ffCfg 0 4 0)
      ∧ (let d := (List.range 110).foldl (fun d k => regSet .ffCfg k 20 d) readyDev
         ¬ middleCap 20 ≤ poolFree d + middleCap (regFld d .ffCfg 200 4 0)) ∧ bit (0x80000000#32) 31 = true
      ∧ (let d := opened (.hostPf 0) 3 (putSub 0 (subIn .idle) readyDev)
         selOf (judged (.hostPf 0) 3 0x804 d) (.hostPf 0) .sgPinSub < Config.subchannels
           ∧ subOwner (subGet d (selOf (judged (.hostPf 0) 3 0x804 d) (.hostPf 0) .sgPinSub)) = some pf0)
      ∧ (let d := opened (.hostPf 1) 3 (putSub 0 (subIn .idle) readyDev)
         subOwner (subGet d (selOf (judged (.hostPf 1) 3 0x804 d) (.hostPf 1) .sgPinSub)) = some pf0)
      ∧ (bankState readyDev 0 = 0 ∧ bit (0#64) 0 = false ∧ bit (regGet readyDev .sgExclAll 0) 0 = false)
      ∧ (∀ b, b < 64 → bit (0xFFFFFFFFFFFFFFFF#64) b = true)
      ∧ bit (regGet readyDev .sgExcl 0) 0 = false := by decide +kernel

theorem witness_Selects : Selects (st readyDev) .elfort 3 0x048 .sgn ∧ Selects (st readyDev) .elfort 3 0x088 .sgn := by
  unfold Selects Running; decide +kernel

/-! ### Junction, failover -/

/-- A running CP 0 in district 0, which an enabled, pending source 63 targets. -/
def src63 : Src := { srcReset 63 with pend := true, en := true, tgt := 1 }
def junctioned (pres : List Pres) (x : Src) : Dev :=
  cpSet 0 { cpReset 0 with run := .run } { readyDev with srcs := [(63, x)], pres := pres }

theorem witness_JunctionInputs :
    srcKind 0x3F80 = .privileged ∧ srcKind 0x3F91 = .privileged ∧ srcKind 0x2141 = .edge ∧ srcKind 0x3FFF ≠ .edge
      ∧ srcKind 0x2AFF = .level ∧ (srcGet readyDev 0x2AFF).level = false
      ∧ (let x := { srcReset 0x2AFF with level := true, act := true }
         (srcGet { readyDev with srcs := [(0x2AFF, x)] } 0x2AFF).level = true ∧ x.act = true)
      ∧ (srcGet readyDev 0x2AFF).act = false
      ∧ bits (0x1000#32) 31 12 ≠ 0 ∧ (0xFFF#32).toNat < 0x1000 ∧ bits (0x3DFF#32) 13 0 = 0x3DFF
      ∧ (0x243F % 8 ≠ 2 ∧ 0x243F % 8 ≠ 3) := by decide +kernel

theorem no_candidate (d : Dev) (h : d.srcs = []) (hw : ∀ k, workQueue d k = []) (f : Bool) (n : Nat) : candidate d f n = false := by
  have hs : srcGet d n = srcReset n := by simp [srcGet, tget, h]
  have hp : srcPending d n = false := by
    simp only [srcPending, hs, hw]; split <;> simp [srcReset]
  simp [candidate, hp]

/-- The device in which what CP 0 has been sent in the normal class is committed or cancelled. -/
def sentCommit (d : Dev) : Dev := (d.pres.filter (fun p => decide (p.cp = 0) && decide (p.fast = false))).foldl (fun d p => commitPres p d) d

theorem witness_JunctionCore :
    (let d := junctioned [] src63
     d.pres = [] ∧ (∀ f ∈ [true, false], (srcNumbers d).eraseDups.filter (candidate d f) = if f = (srcGet d 63).fast then [63] else [])
       ∧ (chooseCp d 63).isSome = true)
    ∧ (let p : Pres := ⟨63, 0, false, false⟩
       commits (junctioned [p] src63) p = true
         ∧ commits { readyDev with pres := [p] } p = false ∧ (dropPres (fun q => decide (q = p)) { readyDev with pres := [p] }).srcs = [])
    ∧ bits (0x3FFF#32) 13 0 = 0x3FFF ∧ srcKind 0x2480 = .queue ∧ srcKind 0x2142 = .reserved ∧ bits (0x2142#32) 13 0 ≠ 0x3FFF
    ∧ (let x := { src63 with act := true, holder := some 0 }
       (srcGet (junctioned [] x) 63).act = true ∧ (srcGet (junctioned [] x) 63).holder = some 0)
    ∧ (grpGet readyDev 255).run = false ∧ (grpGet (grpSet 255 ⟨1, true, 20⟩ readyDev) 255).run = true
    ∧ (∀ p ∈ (sentCommit readyDev).pres, ¬ (p.cp = 0 ∧ p.fast = false ∧ p.committed = true))
    ∧ (let p : Pres := ⟨63, 0, false, true⟩
       (sentCommit (junctioned [p] src63)).pres.find? (fun p => p.cp = 0 && decide (p.fast = false) && p.committed) = some p
         ∧ srcKind p.src ≠ .queue ∧ p.src ≠ 0x3FFF)
    ∧ (let p : Pres := ⟨0x2480, 0, false, true⟩
       let d := { readyDev with pres := [p], workq := [(0, [⟨taken 3 1 7, 7⟩])] }
       (sentCommit d).pres.find? (fun p => p.cp = 0 && decide (p.fast = false) && p.committed) = some p
         ∧ srcKind p.src = .queue
         ∧ workQueue (restartHoldoff (p.src / 64) (traceEvent 2 (some 0) 0 p.src (claimServed false 0
           { sentCommit d with pres := [] }))) (p.src - 0x2480) = ⟨taken 3 1 7, 7⟩ :: []) := by decide +kernel

/-- A claim lets a presentation that has been sent commit, and cancels one whose source no longer stands (R376). -/
theorem witness_JunctionCore_sent :
    (sentCommit (junctioned [⟨63, 0, false, false⟩] src63)).pres = [⟨63, 0, false, true⟩]
      ∧ (sentCommit { readyDev with pres := [⟨63, 0, false, false⟩] }).pres = [] := by decide +kernel

theorem witness_JunctionCoreNone : ∀ f n, candidate readyDev f n = false :=
  no_candidate readyDev rfl (fun _ => rfl)

theorem witness_JunctionRegisters :
    (∀ x ∈ [0x070, 0x074, 0x078, 0x07C], passes readyDev .elfort 4 x [4, 1] = true ∧ passes readyDev (.cp 71) 4 x [4, 1] = true)
      ∧ (∀ x ∈ [0x800, 0x808], passes (opened (.cp 71) 4 readyDev) (.cp 71) 4 x [1, 0] = true)
      ∧ srcKind 0x2141 = .edge ∧ srcKind 0x3F80 = .privileged ∧ srcKind 0x2142 = .reserved ∧ srcKind 0x2800 = .level
      ∧ selOf (judged (.cp 71) 4 0x800 (regSet .srcSel (originKey (.cp 71)) 0x2200 (opened (.cp 71) 4 readyDev))) (.cp 71) .srcSel = 0x2200
      ∧ srcKind (selOf (judged (.cp 71) 4 0x800 (opened (.cp 71) 4 readyDev)) (.cp 71) .srcSel) ≠ .reserved
      ∧ (0x243F < 0x2480 ∧ srcKind 0x2480 ≠ .reserved ∧ srcKind 0x243F = .reserved)
      ∧ pageOf 12 = some (.dbg, 0) ∧ passes readyDev (.cp 71) 12 0x018 [4, 1, 0] = true
      ∧ pageOf 0x2FF = some (.rng, 0xFF) ∧ passes readyDev .elfort 0x2FF 0x018 [4, 1] = true := by decide +kernel

/-- CPs of district 7 in service and running; CP 71 is its spare. -/
def inService (c : Cp) : Dev := cpSet 71 { cpReset 71 with run := .run } (cpSet 63 c readyDev)
def serving : Cp := { cpReset 63 with run := .run }

/-- The device of a failover before a spare is taken. -/
def cpLost (d : Dev) : Dev :=
  let d1 := regBump .dsHbmiss 7 (feedIn 4175 (latchSet 0x3F8F d))
  let d2 := pageEvent 0x27 0 (regBump .dsFailov 7 d1)
  let d3 := cpSet 63 { failedCp (cpGet d2 63) false with failedAt := some d2.devtime } d2
  xClose (fun m => decide (m.origin = .cp 63)) (semPoison 63 (junctionFailover 63 d3))

theorem witness_FailoverAndRotation :
    (let d := inService serving
     (cpGet d 63).halted = false ∧ (cpGet d 63).run ≠ .off ∧ (cpGet d 63).role = .inService ∧ (cpGet d 71).role = .spare
       ∧ (cpGet d 71).run ≠ .off ∧ spareOf (cpLost d) 7 = some 71 ∧ lslotOf d 63 = some 0)
    ∧ spareOf (cpLost (cpSet 71 { cpReset 71 with role := .retired } (inService serving))) 7 = none
    ∧ (cpGet (inService { serving with halted := true }) 63).halted = true
    ∧ (cpGet readyDev 63).run = .off ∧ (cpGet (inService { serving with role := .retired }) 63).role = .retired
    ∧ (cpGet (inService { serving with role := .bist false }) 63).role = .bist false
    ∧ (cpGet (inService { serving with role := .bist true }) 63).role = .bist true
    ∧ regFld (regSetFld .dsRotCtl 7 7 0 0 readyDev) .dsRotCtl 7 7 0 = 0
    ∧ (let d := regSetFld .dsRotCtl 7 7 0 24 (inService serving)
       regFld d .dsRotCtl 7 7 0 ≠ 0 ∧ spareOf d 7 = some 71 ∧ d.rotWait = [] ∧ rotPick d 7 71 = some 63 ∧ lslotOf d 63 = some 0
         ∧ rotReady d 63 = true ∧ { d with rotWait := [(7, 8 * 63 + 0)] }.rotWait.find? (fun w => w.1 = 7) = some (7, 8 * 63 + 0)
         ∧ rotReady (inService { serving with handoff := [⟨taken 3 1 7, 7⟩] }) 63 = false)
    ∧ passes (opened (.cp 71) 0x27 readyDev) (.cp 71) 0x27 0x800 [1, 0] = true := by decide +kernel

theorem witness_BankClockAndMemoryFaults :
    regFld (regSetFld .dsStat 7 25 25 1 readyDev) .dsStat 7 25 25 = 1 ∧ regFld readyDev .dsStat 7 25 25 ≠ 1
      ∧ regFld (latchSet 0x3F87 readyDev) .dsSeg 7 1 0 < 2
      ∧ 2 ≤ regFld (latchSet 0x3F87 (regSetFld .dsSeg 7 1 0 2 readyDev)) .dsSeg 7 1 0
      ∧ regFld (regSetFld .dsStat 7 26 26 1 readyDev) .dsStat 7 26 26 = 1 ∧ regFld readyDev .dsStat 7 26 26 ≠ 1
      ∧ regFld (regAdd .hbCe 0 5 (regBump .hbScrub 0 readyDev)) .rpUsed 8 15 0 < 2048
      ∧ 2048 ≤ regFld (regAdd .hbCe 0 5 (regBump .hbScrub 0 (regSetFld .rpUsed 8 15 0 2048 readyDev))) .rpUsed 8 15 0
      ∧ passes (opened .elfort 11 readyDev) .elfort 11 0x804 [4, 1, 0] = true
      ∧ bits (0x80700000#32) 27 20 = 7 ∧ bit (0x80700000#32) 31 = true ∧ bits (0x00800000#32) 27 20 = 8
      ∧ regFld readyDev .rpPol 0 1 1 = 0 ∧ regFld (regSetFld .rpPol 0 1 1 1 readyDev) .rpPol 0 1 1 ≠ 0
      ∧ [0, 72, 8, 64, 40, 6, 128, 8][1]?.getD 0 ≤ 72
      ∧ readyDev.mirrorWait.all (fun x => decide (x.1 ≠ 7)) = true ∧ secondFault readyDev = false
      ∧ (let d := { inHand 0 0 with mirrorWait := [(7, 0), (6, 1)], faultAt := some 0 }
         d.frozen = false ∧ d.fatal = false ∧ d.devtime.toNat < 12000 ∧ d.mirrorWait.filter (fun x => x.1 = 7) = [(7, 0)]
           ∧ subAt d 7 0 = some 7 ∧ (subGet d 7).st = .active ∧ progOf d 7 = some (readyProg 0) ∧ progOps d 7 = []
           ∧ regFld d .dsStat 7 25 25 ≠ 1)
      ∧ regFld (regAdd .hbCe 0 5 (regBump .hbScrub 0 (regSetFld .dsStat 7 25 25 1 readyDev))) .dsStat 7 25 25 = 1
      ∧ (feedIn (4168 + 7) (latchSet (0x3F80 + 7) { readyDev with mirrorWait := [(7, 5)] })).mirrorWait.filter (fun x => x.1 = 7) = [(7, 5)]
      ∧ regFld (bankReload 7 (feedIn 4175 (latchSet 0x3F87 readyDev))) .dsSeg 7 1 0 < 2
      ∧ 2 ≤ regFld (bankReload 7 (feedIn 4175 (latchSet 0x3F87 (regSetFld .dsSeg 7 1 0 2 readyDev)))) .dsSeg 7 1 0 := by decide +kernel

/-! ### Packs, resources, logs -/

def ownProg (o : OwnCmd) : Prog := { someProg .inPack with chain := [(0x1000, ccwOf 1 4096 0x2000)], own := some o }
def serve0 : Serve := ⟨7, 2, 0x100, false⟩
/-- CP 5 in the exception entry of SVC imm, with g1 to g4, serving subchannel 7 of an owner pack. -/
def calling (imm : Nat) (a : List Word) : Dev :=
  let d := progSet 7 (ownProg own0) (putSub 7 { boundSub 0 .active with hpack := 3 }
    { readyDev with packs := [(3, { pack0 with senseDecl := 1 })], ops := [(9, op9 false .pack)] })
  cpSet 5 { cpAt ([0] ++ a) with sr := 0xC0000000#32, esr := 0, epc := 0x8104, ecause := 8, eaddr := BitVec.ofNat 32 imm,
                                 serve := some serve0, g := [0] ++ a ++ List.replicate (31 - a.length) 0 } d

theorem witness_Serves : Serves (st (calling 1 [1, 2, 3, 4])) 5 7 1 (ownProg own0) own0 serve0 := by
  refine ⟨?_, ?_, ?_, ?_, ?_, ?_, ?_, ?_, ?_, ?_⟩
  · rfl
  all_goals decide +kernel

/-- The same for the other services: only the cause's address differs. -/
theorem witness_ServesAll : ∀ imm ∈ [1, 2, 3, 4, 5, 6, 7, 8, 9, 10],
    bit (cpGet (calling imm []) 5).sr 30 = true ∧ (cpGet (calling imm []) 5).ecause = 8
      ∧ (cpGet (calling imm []) 5).eaddr.toNat = imm := by decide +kernel

/-- The owner in D3hot; its translations on. -/
def inColdHost (d : Dev) : Dev := fnSet pf0 { fnGet d pf0 with d3hot := true } d
def atsOn (d : Dev) : Dev := fnSet pf0 { fnGet d pf0 with ats := true } d

/-- A device in which the stream of subchannel 7 has begun. -/
def begun (d : Dev) : Dev := beginBanks 7 (streamEnds d 7) d

theorem witness_PackServices :
    own0.replay = none ∧ (calling 1 [64]).resv = [] ∧ (pzGrant 7 1 64 (streamEnds (calling 1 [64]) 7) (begun (calling 1 [64]))).isSome = true
      ∧ tget (calling 1 [64]).bankSets 7 [] = []
      ∧ pzGrant 7 1 64 (streamEnds (calling 1 [64]) 7) (begun (regSetFld .pzQuota 1 30 16 0 (calling 1 [64]))) = none
      ∧ (svcArg (st (calling 1 [65])) 5 1 = 65 ∧ svcArg (st (calling 1 [0])) 5 1 = 0 ∧ svcArg (st (calling 1 [64])) 5 1 = 64)
      ∧ (∃ r ∈ [(⟨0, 1, 1, 7, []⟩ : PzRes)], r.cls = 1)
      ∧ (∀ q ∈ List.range' (0 / 4096) 1, ∃ r ∈ own0.res, r.1 = q) ∧ ¬ (∀ q ∈ List.range' (4096 / 4096) 1, ∃ r ∈ own0.res, r.1 = q)
      ∧ segLen (buildSegs (calling 3 [0, 0]) pf0 (ownProg own0).chain []).1 = 4096
      ∧ (∀ q ∈ List.range' (0 / 4096) ((0 % 4096 + 4096 + 4095) / 4096), ∃ r ∈ own0.res, r.1 = q)
      ∧ (calling 5 [9, 1]).ops.find? (fun x => x.1 = 9) = some (9, op9 false .pack) ∧ 9 ∈ own0.toks
      ∧ (srcKind 0x3FFE = .reserved ∧ 0x3FFE < 0x3FFF ∧ srcKind 0xFFF ≠ .reserved)
      ∧ (calling 8 [0x80]).packs.find? (fun e => e.1 = (subGet (calling 8 [0x80]) 7).hpack) = some (3, { pack0 with senseDecl := 1 })
      ∧ (bit ({ pack0 with senseDecl := 1 } : Pack).senseDecl (0x80 - 0x80) = true ∧ bit ({ pack0 with senseDecl := 1 } : Pack).senseDecl (255 - 0x80) = false)
      ∧ apRange (cpGet (calling 9 [12, 5]) 5) (some own0) 5 0 = none ∧ (apRange (cpGet (calling 9 [12, 2, 0x64000]) 5) (some own0) 2 0x64000).isSome = true
      ∧ (7 < Config.subchannels ∧ (subGet (calling 10 [7, 0x10]) 7).hpack = (subGet (calling 10 [7, 0x10]) 7).hpack)
      ∧ (subGet (calling 10 [8, 0x10]) 8).hpack ≠ (subGet (calling 10 [8, 0x10]) 7).hpack
      ∧ ownerOfToken (calling 1 [1]) (fun o => o.xfers.any (fun x => x.1 = 9)) = some (7, ownProg own0, own0)
      ∧ (chanHold 7 1 (calling 3 [0, 0])).1 = true ∧ (chanHold 7 1 { calling 3 [0, 0] with movWait := [(8, 1)] }).1 = false
      ∧ own0.xfers.find? (fun x => x.1 = 9) = some (9, true, 0)
      ∧ inRefill (calling 3 [0, 0]) (segBlocks (calling 3 [0, 0]) pf0 (buildSegs (calling 3 [0, 0]) pf0 (ownProg own0).chain []).1) = []
      ∧ (let d := calling 3 [0, 0]
         portWaits (ownProg own0) (takeStream 7 own0.segs d).1 = false
           ∧ (takeStream 7 [⟨0, 0x2000, 16⟩] d).1 = some 0 ∧ portWaits { ownProg own0 with lastPort := some 1 } (some 0) = true)
      ∧ (let d := { inRefillOf 16 0 (.cmd 3) with scratch := [(areaOf pf0, [1])] }
         let l := (buildSegs d pf0 [(0x1000, ccwOf 1 256 0 0 1)] []).1
         segBlocks d pf0 l = [16] ∧ inRefill d (segBlocks d pf0 l) ≠ [])
      ∧ (9 ∈ own0.toks ∧ 8 ∉ own0.toks)
      ∧ ownerOfToken (calling 1 [1]) (fun o => o.timers.any (fun x => x.1 = 10)) = some (7, ownProg own0, own0)
      ∧ own0.timers.find? (fun x => x.1 = 10) = some (10, 3, 2000)
      ∧ slotsFree (calling 4 [2]) (ownProg own0).cp 1 = true ∧ slotsFree (slotless (calling 4 [2])) (ownProg own0).cp 1 = false
      ∧ hostWaits (calling 3 [0, 0]) pf0 (idaReads (calling 3 [0, 0]) pf0 (ownProg own0).chain []
          ++ gatherTouch (buildSegs (calling 3 [0, 0]) pf0 (ownProg own0).chain []).1 []) = false
      ∧ hostWaits (calling 3 [0, 0]) pf0 (writeTouch own0.segs .ok) = false
      ∧ (calling 3 [0, 0]).refills.any (fun x => decide (x.reader = .xfer 9)) = false
      ∧ (inRefillOf 0 0 (.xfer 9)).refills.any (fun x => decide (x.reader = .xfer 9)) = true
      ∧ hostWaits (inColdHost (calling 3 [0, 0])) pf0 [(0x2000, 4096, true)] = true := by
  repeat' apply And.intro
  all_goals decide +kernel

theorem witness_GlobalRegisters :
    (∀ x ∈ [0x048, 0x050, 0x054, 0x05C], passes readyDev .elfort 0 x [4, 3, 2, 1, 0] = true
        ∧ passes readyDev (.bmc 3) 0 x [4, 3, 2, 1, 0] = true ∧ passes readyDev (.hostPf 1) 0 x [4, 3, 2, 1, 0] = true)
      ∧ regFld readyDev .glPlock 0 0 0 ≠ 1 ∧ regFld (regSet .glPlock 0 1 readyDev) .glPlock 0 0 0 = 1
      ∧ originClass .elfort = 4 ∧ originClass (.hostPf 1) ≠ 4
      ∧ (selFn readyDev .elfort .glFnSel).fn ≤ 64
      ∧ 64 < (selFn (regSet .glFnSel (originKey .elfort) 0x7E readyDev) .elfort .glFnSel).fn
      ∧ (selFn (regSet .glFnSel (originKey (.hostPf 1)) 0xC0 readyDev) (.hostPf 1) .glFnSel) = ⟨1, 64⟩ := by decide +kernel

def resCmd (op k i a : Nat) : DWord := BitVec.ofNat 64 (op * 2 ^ 30 + k * 2 ^ 24 + i + a * 2 ^ 32)

theorem witness_SharedResources :
    passes readyDev (.hostVf 1 64) 0 0x080 [4, 3, 2, 1, 0] = true
      ∧ (let v := resCmd 0 3 4095 0
         bits v 27 24 = 3 ∧ bits v 15 0 = 4095 ∧ bits v 49 32 = 0 ∧ bits v 31 30 = 0)
      ∧ resIndexOk 3 4095 = true ∧ resIndexOk 3 4096 = false ∧ resArgOk 3 0 = true ∧ resArgOk 2 4097 = false
      ∧ mayCommit readyDev (.bmc 0) 2 256 = false ∧ mayCommit readyDev (.hostPf 1) 3 4095 = true
      ∧ (let d := { readyDev with commits := [(resKey 3 4095, ⟨.fn ⟨1, 0⟩, 0⟩)] }
         commitOf d 3 4095 = some ⟨holderOf (.hostPf 1), 0⟩ ∧ commitOf d 3 4095 ≠ some ⟨holderOf (.hostPf 0), 0⟩
           ∧ mayRelease (.hostPf 0) (.fn ⟨1, 0⟩) = false)
      ∧ commitOf readyDev 1 0 = none ∧ mayRelease .elfort (.fn ⟨1, 0⟩) = true := by decide +kernel

theorem witness_LogRegisters :
    Selects (st readyDev) .elfort 7 0x050 .aud ∧ Selects (st readyDev) .elfort 6 0x050 .jnl
      ∧ passes (opened .elfort 6 readyDev) .elfort 6 0x800 [4, 1] = true
      ∧ passes readyDev (.hostPf 0) 7 0x0C0 [4, 3, 1] = true ∧ passes readyDev (.hostPf 0) 7 0x0A8 [4, 3, 1] = true
      ∧ regFld (regSet .auExpCtl 0 0x80000080 readyDev) .auExpCtl 0 31 31 = 1
      ∧ regFld (regSet .auExpCtl 0 0x80000080 readyDev) .auExpCtl 0 7 7 ≠ 0 ∧ regFld readyDev .auExpCtl 0 31 31 ≠ 1
      ∧ (bits (0x8B000000#32) 6 0 = 0 ∧ bits (0x8B000000#32) 7 7 = 0 ∧ bit (0x8B000000#32) 31 = true ∧ bits (0x80000001#32) 6 0 ≠ 0) := by
  unfold Selects Running; decide +kernel

/-- A device with one audit record, and the export of the audit log enabled; and with one journal record and its export. -/
def exporting : Dev := { regSet .auExpCtl 0 0x80000000 readyDev with audit := [0], auHead := 1 }
def jExporting (r : List JRec) : Dev :=
  fnSet pf0 { fnGet readyDev pf0 with jxCtl := 0x80000000#32 } { readyDev with journal := r, jnHead := 1 }

theorem witness_LogExports :
    regFld readyDev .auExpCtl 0 31 31 = 0
      ∧ (regFld exporting .auExpCtl 0 31 31 ≠ 0 ∧ (fnGet exporting ⟨regFld exporting .auExpCtl 0 7 7, 0⟩).d3hot = false
        ∧ (regGet exporting .auExpNext 0).toNat < exporting.auHead
        ∧ (((regGet exporting .auExpProd 0).truncate 32 : Word) - (regGet exporting .auExpCons 0).truncate 32).toNat
          < 2 ^ (regFld exporting .auExpCtl 0 27 24 + 12))
      ∧ bit (fnGet readyDev pf0).jxCtl 31 = false
      ∧ (let d := jExporting []
         bit (fnGet d pf0).jxCtl 31 = true ∧ (fnGet d pf0).d3hot = false
           ∧ ((fnGet d pf0).jxProd - (fnGet d pf0).jxCons).toNat < 2 ^ (bits (fnGet d pf0).jxCtl 27 24 + 10)
           ∧ (fnGet d pf0).jxNext.toNat < d.jnHead ∧ jOldest d ≤ (fnGet d pf0).jxNext.toNat ∧ jNext d pf0 0 = none)
      ∧ untranslated exporting pf0 0 32 = [] ∧ untranslated (atsOn exporting) pf0 0 32 ≠ []
      ∧ untranslated (jExporting []) pf0 0 64 = [] ∧ untranslated (atsOn (jExporting [])) pf0 0 64 ≠ []
      ∧ (jNext (jExporting [{ jblank 0x08 pf0 with seq := 0 }]) pf0 0).isSome = true
      ∧ (let d := { jExporting [] with jnHead := 2 ^ 40 }
         (fnGet d pf0).jxNext.toNat < jOldest d ∧ jNext d pf0 (jOldest d % 2 ^ 64) = none) := by decide +kernel

/-! ### Resets, boot, firmware, sideband, freeze, test access, debug -/

theorem witness_ColdReset : Reg.glXpol ∉ resetTouched ∧ (0 : Nat) < 1048576 := by decide

theorem witness_PortAndFunctionResets :
    regFld (regSetFld .upStat 1 15 15 1 resetDev) .upStat 1 15 15 = 1 ∧ regFld (regSetFld .upStat 1 15 15 0 resetDev) .upStat 1 15 15 = 0
      ∧ (fnGet (fnSet ⟨1, 0⟩ { fnGet resetDev ⟨1, 0⟩ with vfEnable := true } resetDev) ⟨1, 0⟩).vfEnable = true
      ∧ resetDev.frozen = false := by decide +kernel

theorem witness_ResetClears :
    (∀ f ∈ [(⟨1, 0⟩ : FnId), ⟨1, 64⟩], f.port < 2 ∧ f.fn ≤ 64)
      ∧ ownOf (crGet (withCRing { cring0 with own := 0x80 } readyDev) 4095).own = some ⟨1, 0⟩
      ∧ ownOf (srGet (srSet 4095 { sringReset with own := 0xC0 } readyDev) 4095).own = some ⟨1, 64⟩
      ∧ 0x3FFFF < Config.subchannels
      ∧ (∀ e ∈ (withCRing { cring0 with own := 0x80 } readyDev).stalled, e.ring ≠ 4095)
      ∧ (subGet (resetClear [] 7 (running 0 (someProg .ready))) 7).st = .clearPending
      ∧ (subGet (resetClear [] 0x3FFFF readyDev) 0x3FFFF).st = .idle := by decide +kernel

/-- A SIGNPOST_POLICY of level 1, signed with owner key 1 of hash 77 (R468); a device that has CP_BASE_FW loaded and the key installed. -/
def img0 : Img :=
  { head := [0x54, 0x46, 0x49, 0x4D, 1, 4, 0, 64, 1, 0, 0, 0, 1, 0, 1, 0, 1, 0, 1, 0, 0, 0, 0, 0, 1, 0, 1], keyHash := 77, sigOk := true
    hashOk := true, packOk := true, digest := 5, policy := none, pack := none, iram := [], dram := [], option_ := none }
def keyed : Dev := { resetDev with
  imgs := [(2, ⟨0, 0, 0, some img0⟩)], ownersNow := [⟨true, false, 77⟩], owners := [⟨true, false, 77⟩] }
def booting (c : Nat) (x y : Option Img) : BootIn :=
  { dir0 := [], dir1 := dirBytes 7 [0, 0, 0, c]
    imgs := (x.toList.map (fun z => (3, c, z))) ++ (y.toList.map (fun z => (3, 1 - c, z))) }
def badImg : Img := { img0 with head := [] }

theorem witness_BootReady :
    isReady readyDev = true ∧ isReady resetDev = false ∧ imgReason false 3 img0 keyed = 0 ∧ imgReason false 3 badImg keyed ≠ 0
      ∧ (let find := fun (b : BootIn) (c : Nat) => (b.imgs.find? (fun e => decide (e.1 = 3) && decide (e.2.1 = c))).map (·.2.2)
         lget (bootActive (booting 1 (some img0) none)) 3 0 % 2 = 1
           ∧ find (booting 1 none (some img0)) 1 = none ∧ find (booting 1 none (some img0)) (1 - 1) = some img0
           ∧ find (booting 1 none (some badImg)) (1 - 1) = some badImg
           ∧ find (booting 1 (some badImg) (some badImg)) (1 - 1) = some badImg
           ∧ (let b := booting 1 none none
              leNat ((fitBytes 64 b.dir1).take 4) = 0x52494456 ∧ leNat ((fitBytes 64 b.dir0).take 4) ≠ 0x52494456
              ∧ leNat ((fitBytes 64 b.dir1).drop 60) = (crc32c ((fitBytes 64 b.dir1).take 60)).toNat
              ∧ dirValid b.dir0 = false ∧ dirValid b.dir1 = true)
           ∧ find (booting 1 (some img0) none) 1 = some img0 ∧ find (booting 1 (some img0) none) (1 - 1) = none
           ∧ find (booting 1 (some badImg) (some img0)) 1 = some badImg ∧ find (booting 1 (some badImg) (some img0)) (1 - 1) = some img0
           ∧ find (booting 1 none none) 1 = none) := by decide +kernel

/-- A command waits in the mailbox of the Elfort core; its block names version 1 and a nonce that stands. -/
def boxed (cmd : Nat) (owners : List OwnerKey) : Dev :=
  { regSetFld .seUpdpol 0 1 1 1 (regSet .seMbData (originKey .elfort * 128) 1 (regSet .seMbData (originKey .elfort * 128 + 1) 5 readyDev)) with
    nonces := [(originKey .elfort, 5)], mbQueue := [(.elfort, cmd)], owners := owners }

theorem witness_OwnershipAndCommits :
    (boxed 1 []).mbQueue = (.elfort, 1) :: [] ∧ ownCheck .elfort 0 false (boxed 1 []) = 0
      ∧ ownCheck .elfort 0 false { boxed 1 [] with nonces := [] } ≠ 0
      ∧ (0 : Nat) < 4 ∧ ownerState (lget ([] : List OwnerKey) 0 ⟨false, false, 0⟩) = 0
      ∧ ownCheck .elfort 77 true (boxed 1 [⟨true, false, 77⟩]) = 0 ∧ ownerState (lget [⟨true, false, 77⟩] 0 ⟨false, false, 0⟩) ≠ 0
      ∧ (boxed 2 []).mbQueue = (.elfort, 2) :: []
      ∧ rbTarget { boxed 2 [] with imgs := [(0, ⟨0, 0, 0, some img0⟩)] } (bits (mbBlock (boxed 2 []) .elfort) 7 0) = some 64
      ∧ rbTarget (boxed 2 []) (bits (mbBlock (boxed 2 []) .elfort) 7 0) = none
      ∧ (boxed 3 []).mbQueue = (.elfort, 3) :: [] ∧ mayRead readyDev .elfort .sec = true := by decide +kernel

theorem witness_OwnershipAndCommitsNone : (∀ p r, readyDev.mbQueue ≠ (p, 1) :: r) ∧ (∀ p r, readyDev.mbQueue ≠ (p, 2) :: r) :=
  ⟨fun _ _ h => (by cases h), fun _ _ h => (by cases h)⟩

theorem witness_Attestation :
    readyDev.attQ.length < 9 ∧ 9 ≤ ({ readyDev with attQ := List.replicate 9 (.chain 0 0 1) }).attQ.length
      ∧ ({ readyDev with attQ := [.chain (attPath 2 1) 0 1025] }).attQ = .chain 3 0 1025 :: []
      ∧ ({ readyDev with attQ := [.report 0 5, .chain 0 0 1] }).attQ = .report 0 5 :: [.chain 0 0 1]
      ∧ readyDev.slew = 0 ∧ readyDev.activ = [] ∧ readyDev.clearing = [] ∧ readyDev.invals = [] := by decide +kernel

/-- An update in progress over a path. -/
def updating (u : Upd) : Dev := { keyed with upd := some u }

theorem witness_FirmwareUpdate :
    regFld (regSetFld .seUpdpol 0 0 0 0 keyed) .seUpdpol 0 0 0 = 0 ∧ regFld (regSetFld .seUpdpol 0 0 0 1 keyed) .seUpdpol 0 0 0 ≠ 0
      ∧ keyed.upd = none ∧ regFld keyed .seStat 0 31 31 ≠ 1 ∧ isReady keyed = false ∧ (∀ e ∈ keyed.imgs, ¬ (e.2.status = 1 ∨ e.2.status = 2))
      ∧ regFld (regSetFld .seStat 0 31 31 1 keyed) .seStat 0 31 31 = 1 ∧ isReady readyDev = true
      ∧ compIndex 0x400 = some 3 ∧ compIndex 0x50F = some 19 ∧ compIndex 0x600 = none
      ∧ (updating ⟨2, 3, some 0x400, some (3, img0), true, []⟩).upd = some ⟨2, 3, some 0x400, some (3, img0), true, []⟩
      ∧ 0x1F000 + (List.replicate 4096 (0 : Byte)).length ≤ 0x20000 ∧ (List.replicate 4096 (0 : Byte)).length ≤ 4096
      ∧ 0x20000 < 0x1F001 + (List.replicate 4096 (0 : Byte)).length ∧ 1024 < (List.replicate 1025 (0 : Byte)).length
      ∧ (updating ⟨0, 0, none, none, false, [(19, img0)]⟩).activ = []
      ∧ slotBusy (running 15 (someProg .ready)) 15 = true ∧ slotBusy keyed 15 = false
      ∧ ({ keyed with activ := [⟨15, 0, img0, 0, 5⟩] }).activ = ⟨15, 0, img0, 0, 5⟩ :: []
      ∧ ((cpGet keyed 63).role = .inService ∨ (cpGet keyed 63).role = .spare)
      ∧ (cpGet (cpSet 63 { cpReset 63 with role := .bist false } keyed) 63).role = .bist false := by decide +kernel

theorem witness_SidebandCommands :
    ({ readyDev with fatal := true }).fatal = true ∧ readyDev.fatal = false ∧ isReady resetDev = false ∧ isReady readyDev = true
      ∧ (∀ k, k < 11 → 100 * regFld readyDev .rpUsed k 15 0 / regFld readyDev .rpBudget k 15 0 ≤ 0)
      ∧ (∃ k, k < 11 ∧ 100 * regFld readyDev .rpUsed k 15 0 / regFld readyDev .rpBudget k 15 0 = 0)
      ∧ upAnswers resetDev 1 = false
      ∧ (let d := regSet .upStat 1 0x6D000000 (regSetFld .upCfg 1 30 30 0 readyDev)
         regFld d .upStat 1 27 25 = 6 ∧ regFld d .upStat 1 24 20 = 16)
      ∧ dpAbsent (regSetFld .dpStat 31 18 18 0 (regSetFld .dpStat 31 16 16 1 readyDev)) 0 = false
      ∧ regFld (regSetFld .dpStat 31 16 16 1 readyDev) .dpStat 31 16 16 = 1
      ∧ regFld (regSetFld .upMctp 1 31 31 0 readyDev) .upMctp 1 31 31 = 0
      ∧ regFld (regSetFld .upMctp 1 31 31 1 readyDev) .upMctp 1 31 31 = 1
      ∧ pageOf 0x10 = some (.upt, 0) := by decide +kernel

theorem witness_FreezeSources :
    ({ resetDev with frozen := true, frozenPin := true }).frozenPin = true ∧ ({ resetDev with frozen := true }).frozenPin = false
      ∧ regFld (regSet .fzPol 0 1 resetDev) .fzPol 0 0 0 = 1 ∧ regFld (regSet .fzPol 0 0 resetDev) .fzPol 0 0 0 = 0
      ∧ regFld (regSet .glDbgpol 0 2 resetDev) .glDbgpol 0 1 1 = 1 ∧ regFld (regSet .glDbgpol 0 0 resetDev) .glDbgpol 0 1 1 = 0
      ∧ passes (opened .elfort 12 readyDev) .elfort 12 0x800 [4, 0] = true := by decide +kernel

theorem witness_TestAccessPort :
    (let d := { regSet .glDbgpol 0 1 resetDev with frozen := true, frozenPin := true }
     d.frozen = true ∧ d.frozenPin = true ∧ resetDev.frozenPin = false ∧ regFld d .glDbgpol 0 0 0 = 1) ∧ regFld (regSet .glDbgpol 0 0 resetDev) .glDbgpol 0 0 0 = 0
      ∧ sizeOk 0x44 8 = false ∧ sizeOk 0x48 8 = true
      ∧ ({ readyDev with auWait := [⟨false, Origin.jtag, 0x48, 8, 0⟩] } : Dev).auWait.any (fun x => !x.rd && decide (x.origin = Origin.jtag)) = true
      ∧ readyDev.auWait.any (fun x => !x.rd && decide (x.origin = Origin.jtag)) ≠ true := by decide +kernel

/-- R504, R227: the check of the nine ASCII digits. -/
theorem test_crc32c : crcMore 0 [0x31, 0x32, 0x33, 0x34, 0x35, 0x36, 0x37, 0x38, 0x39] = 0xE3069283#32 := by decide +kernel

theorem witness_DebugRegisters :
    (let d := opened .elfort 12 readyDev
     passes d .elfort 12 0x81C [4, 0] = true ∧ passes d .elfort 12 (0x820 + 4 * 34) [4, 0] = true)
    ∧ (let d := opened .jtag 12 (regSet .glDbgpol 0 3 readyDev)
       passes d .jtag 12 (0x820 + 4 * 34) [4, 0] = true ∧ originClass .jtag = 0)
    ∧ (let d := cpSet 0 { cpReset 0 with halted := true, run := .stopped } readyDev
       (cpGet d (selOf (judged .elfort 12 0x81C d) .elfort .dbCpsel)).halted = true)
    ∧ (cpGet readyDev 0).halted = false
    ∧ passes readyDev .elfort 12 0x100 [4, 1, 0] = true ∧ passes readyDev (.cp 71) 12 0x088 [4, 1, 0] = true
    ∧ passes readyDev .elfort 12 0x088 [4, 1, 0] = true := by decide +kernel

theorem witness_DebugSelects : Selects (st readyDev) .elfort 12 0x060 .dbg ∧ (∀ k, Origin.elfort ≠ .cp k) := by
  refine ⟨?_, fun k h => by cases h⟩
  unfold Selects Running; decide +kernel

/-! ### Ports, links, timers, temperature, power -/

/-- Root port 31 with its avenue split in four, enabled, with its slot's device present or not and its link up or down. -/
def port31 (present up contained : Nat) : Dev :=
  regSet .dpStat 31 (BitVec.ofNat 64 (present * 2 ^ 17 + up * 2 ^ 18 + contained * 2 ^ 16)) (regSetFld .dpCtl 31 31 31 0
    (regSetFld .avStat 7 31 30 2 (regSetFld .thClk 0 2 2 1 readyDev)))

theorem witness_RootPortEvents :
    (dpAbsent (port31 0 0 0) 31 = false ∧ regFld (port31 0 0 0) .dpCtl 31 31 31 = 0 ∧ regFld (port31 0 0 0) .dpStat 31 16 16 = 0
      ∧ regFld (port31 0 0 0) .thClk 0 2 2 = 1 ∧ dpMaxw (port31 0 0 0) 31 = 4)
    ∧ dpMaxw (regSetFld .avStat 7 15 12 15 (port31 0 0 0)) 31 = 0
    ∧ regFld (port31 1 1 0) .dpStat 31 17 17 = 1 ∧ regFld (port31 0 0 0) .dpStat 31 17 17 = 0
    ∧ regFld (port31 1 1 1) .dpStat 31 16 16 = 1 ∧ dpAbsent (regSetFld .avStat 7 31 30 0 readyDev) 31 = true
    ∧ (port31 1 0 0).ldAt.find? (fun e => e.1 = 31) = none
    ∧ ({ port31 1 0 0 with ldAt := [(31, 5)] }).ldAt.find? (fun e => e.1 = 31) = some (31, 5)
    ∧ regFld readyDev .avStat 7 15 15 = 0 ∧ regFld (regSetFld .avStat 7 15 15 1 readyDev) .avStat 7 15 15 = 1 ∧ 28 % 4 = 0 := by
  decide +kernel

/-- A slice that a stream of subchannel 7, whose device is below port 0, holds while an operation of it is in flight. -/
def windowDev : Dev := { flying true (.nvmeRead 1 0 1) 2 with slices := [(16383, .stream 1 7 .hand)] }

theorem witness_DownstreamRequests :
    (0xFFFFF00000 ≤ (0xFFFFF00FFC#64).toNat ∧ (0xFFFFF00FFC#64).toNat < 0xFFFFF01000 ∧ (0xFFFFF00FFC#64).toNat % 4 = 0)
      ∧ (leNat [0xFF, 0x0F, 0, 0] < 4096 ∧ 4096 ≤ leNat [0, 0x10, 0, 0] ∧ [(0 : Byte), 0x10, 0, 0].length = 4)
      ∧ (0x10000000000 ≤ (0x10003FFFFFF#64).toNat ∧ (0x10003FFFFFF#64).toNat - 0x10000000000 + 1 ≤ 0x4000000
        ∧ ((0x10003FFFFFF#64).toNat - 0x10000000000) / 4096 = 16383 ∧ windowOpen windowDev 0 16383 = true)
      ∧ ¬ (0xFFFFF00000 ≤ (0x10003FFFFFF#64).toNat ∧ (0x10003FFFFFF#64).toNat < 0xFFFFF01000)
      ∧ windowOpen readyDev 31 16383 = false
      ∧ Machine.refilling windowDev 0x3FFFFC0 64 = []
      ∧ Machine.refilling (inRefillOf 0x3FFFF 0 (.cmd 9)) 0x3FFFFC0 64 = [0x3FFFF] := by decide +kernel

theorem witness_UpstreamPorts :
    regFld (regSetFld .upStat 1 15 15 1 readyDev) .upStat 1 15 15 = 1 ∧ regFld (regSetFld .upStat 1 15 15 0 readyDev) .upStat 1 15 15 = 0
      ∧ (let d := fnSet ⟨1, 64⟩ { fnGet readyDev ⟨1, 64⟩ with ats := true }
           (cpSet 5 { cpGet readyDev 5 with loads := [⟨0, [], false, 4, false, 0, .outside (some (⟨1, 64⟩, 0x1000)), false⟩] } readyDev)
         hostReads d = [(⟨1, 64⟩, 0x1000, 4)] ∧ (fnGet d ⟨1, 64⟩).ats = true
           ∧ (0x1000 : DWord).toNat / 4096 < (0x1000 : DWord).toNat / 4096 + 1 ∧ hostReads readyDev = []
           ∧ ({ d with invals := [⟨1, true, [(⟨1, 64⟩, 0x1000, 4)]⟩] }).invals = [⟨1, true, hostReads d⟩])
      ∧ (8 : Nat) < 9 ∧ 0 ∉ (fnGet readyDev ⟨1, 64⟩).vecMask
      ∧ 2047 ∈ (fnGet (fnSet ⟨1, 64⟩ { fnGet readyDev ⟨1, 64⟩ with vecMask := [2047] } readyDev) ⟨1, 64⟩).vecMask := by decide +kernel

theorem witness_LinkRegisters :
    passes readyDev .elfort 0x5F 0x060 [4, 1] = true ∧ passes (opened .elfort 0x5F readyDev) .elfort 0x5F 0x800 [4, 1, 0] = true
      ∧ passes (opened .elfort 0x1F readyDev) .elfort 0x1F 0x800 [4, 1, 0] = true
      ∧ passes (opened .elfort 0x11 readyDev) .elfort 0x11 0x804 [4, 1, 0] = true
      ∧ bits (0xC0000000#32) 31 30 = 3 ∧ bits (0x80000000#32) 31 30 ≠ 3
      ∧ bits (BitVec.ofNat 32 (regFld readyDev .avCfg 7 31 30 * 2 ^ 30)) 31 30 = regFld readyDev .avCfg 7 31 30
      ∧ (let d := regSetFld .dpCtl 28 31 31 0 (regSetFld .avCfg 7 31 30 1 readyDev)
         bits (0x80000000#32) 31 30 ≠ regFld d .avCfg 7 31 30 ∧ bifAbsent (regFld d .avStat 7 31 30) 28 = false
           ∧ regFld d .dpCtl 28 31 31 = 0) := by decide +kernel

/-- Port 1 asks for time over an active link. -/
def timed : Dev := regSetFld .upStat 1 31 28 3 (regSetFld .tbCtl 0 31 30 1 (fnSet ⟨1, 0⟩ { fnGet readyDev ⟨1, 0⟩ with ptm := true } readyDev))

theorem witness_TimersAndPins :
    (regFld timed .tbCtl 0 31 30 = 1 ∧ (fnGet timed ⟨1, 0⟩).ptm = true ∧ regFld timed .upStat 1 31 28 = 3)
      ∧ ¬ ((fnGet readyDev ⟨0, 0⟩).ptm = true)
      ∧ ((0xFFFFFFFFFFFFFFFF#64).toInt ≤ (regFld timed .tbStep 0 31 0 * 1000 : Nat))
      ∧ ((regFld timed .tbStep 0 31 0 * 1000 : Nat) : Int) < (0x7FFFFFFFFFFFFFFF#64).toInt
      ∧ regFld readyDev .tmCtl 255 31 31 = 0 ∧ regFld (regSetFld .tmCtl 255 31 31 1 readyDev) .tmCtl 255 31 31 = 1
      ∧ (let d := regSet .tmPeriod 255 100 (regSet .tmCmp 255 1000 (regSetFld .tmCtl 255 31 31 1 readyDev))
         let e := moverTimer 255 (srcFire (0x2000 + 255) (regBump .tmFires 255 (advanceTo 1000 d)))
         let f := (pinsWith e 8 255).foldl (fun d n => emit (.gpioPulse n) d) e
         (regGet f .tmPeriod 255).toNat = 100 ∧ 1000 + (1 - 1) * 100 ≤ f.devtime.toNat ∧ f.devtime.toNat < 1000 + 1 * 100)
      ∧ regFld readyDev .tmGpioIn 0 15 15 = 0 ∧ (pinFn readyDev 15).1 ≠ 7
      ∧ (pinFn { readyDev with commits := [(resKey 0 15, ⟨.bmc, 0x700⟩)] } 15).1 = 7
      ∧ passes readyDev (.hostVf 1 64) 8 0x0C8 [4, 3, 2, 1] = true ∧ passes readyDev .elfort 8 0x0CC [4, 3, 2, 1] = true := by
  decide +kernel

theorem witness_ThermalControl :
    (let count := fun (d : Dev) (tj : List (BitVec 16)) =>
       (List.range 12).map (fun i => if (lget tj i 0#16).toInt < 1920 then 0 else lget d.hot i 0 + 1)
     (readyDev.thermtrip = false ∧ 3 ≤ lget (count { readyDev with hot := List.replicate 12 2 } (List.replicate 12 1920)) 11 0)
       ∧ ¬ (∃ i, i < 12 ∧ 3 ≤ lget (count readyDev (List.replicate 12 1920)) i 0))
    ∧ (∃ i, i < 12 ∧ lget (List.replicate 12 (0x7FF#16)) i 0#16 = 0x7FF) ∧ (∀ i, i < 12 → (lget (List.replicate 12 (0x7FF#16)) i 0#16).toInt ≤ 0x7FF)
    ∧ (let lim := fun (w : Nat) => 8 * regFld (regSetFld .thPwr 0 15 0 w readyDev) .thPlim 0 15 0
       lim 0xFFFF < 0xFFFF ∧ 0 ≤ lim 0 ∧ 100 * 0 ≤ 95 * lim 0 ∧ regFld (regSetFld .thStat 0 29 29 1 readyDev) .thStat 0 29 29 = 1)
    ∧ regFld readyDev .thStat 0 30 29 = 0 ∧ regFld (regSetFld .thStat 0 30 30 1 readyDev) .thStat 0 30 29 ≠ 0
    ∧ regFld (regSetFld .thStat 0 30 30 1 readyDev) .thStat 0 30 30 = 1 ∧ regFld readyDev .thStat 0 29 29 = 0
    ∧ 2800 < Config.ceilingMHz := by decide +kernel

theorem witness_PowerAndClocks :
    (let d := regSetFld .dsVneed 7 15 0 700 (regSetFld .thVreq 0 15 0 750 ((List.range 7).foldl (fun d e => regSetFld .dsVneed e 15 0 650 d) readyDev))
     750 = regFld d .thVreq 0 15 0 ∧ (∀ e, e < 8 → regFld d .dsVneed e 15 0 ≤ 700 ∨ 900 ≤ 700) ∧ 700 % 5 = 0
       ∧ (∃ e, e < 8 ∧ 700 < regFld d .dsVneed e 15 0 + 5) ∧ d.avsPend = none ∧ max 700 (750 - 25) ≠ 750)
    ∧ ({ readyDev with avsPend := some (700, 5) }).avsPend = some (700, 5)
    ∧ regFld (regSetFld .thClk 0 1 1 0 readyDev) .thClk 0 1 1 = 0 ∧ regFld (regSetFld .thClk 0 1 1 1 readyDev) .thClk 0 1 1 = 1
    ∧ regFld (regSetFld .thClk 0 2 2 1 readyDev) .thClk 0 2 2 = 1
    ∧ (let d := regSetFld .thGate 0 31 31 1 readyDev
       regFld d .thGate 0 31 31 = 1 ∧ (∀ p ∈ d.pres, p.cp / 9 ≠ 7))
    ∧ (let d := (List.range 8).foldl (fun d i => cpSet (63 + i) { cpReset (63 + i) with run := .wait } d) (regSetFld .thGate 0 31 31 1 readyDev)
       ∀ i, i < 72 → 63 ≤ i → (cpGet d i).role = .inService → (cpGet d i).run = .wait) := by decide +kernel

end Sys2Proof.Tests
end

section
/-!
SUPPORT. A read of BAR 0 that nothing keeps waiting (R400, R424): its answer, and what it does to PG_STAT
(R403) and TB_TIME (R27).
-/
namespace Sys2Proof.Machine

open Sys2Proof

/-- A read that no waiting write of its origin stands before, of an allowed size, is answered at once (R400, R424). -/
theorem barReadOp_now {s : State} {o : Origin} {off size : Nat} (h : ReadsNow s o) (hs : sizeOk off size = true) :
    barReadOp o off size s.dev = readAnswer o (barRead o off size s.dev).1 (barRead o off size s.dev).2 := by
  have hw : s.dev.auWait.any (fun w => !w.rd && decide (w.origin = o)) = false := by
    rw [List.any_eq_false]
    intro w hm
    rcases h.2 w hm with hr | ho
    · simp [hr]
    · simp [ho]
  simp [barReadOp, hs, hw]

/-- Of an origin other than the BMC, a read of the wrong size is an Unsupported Request (R400). -/
theorem barReadOp_badSize {o : Origin} {off size : Nat} (d : Dev) (hs : sizeOk off size = false) (ho : ∀ p, o ≠ .bmc p) :
    barReadOp o off size d = emit (.unsupported o) d := by
  cases o with
  | bmc p => exact absurd rfl (ho p)
  | _ => simp [barReadOp, hs]

/-- A word of a page is of an allowed size (R400). -/
theorem sizeOk_word {page x : Nat} (hp : page < 0x4000) (hx : x < 4096) (h4 : x % 4 = 0) :
    sizeOk (4096 * page + x) 4 = true := by
  simp [sizeOk]
  omega

/-- A read of 4 bytes is one read of its page. -/
theorem barRead_word (o : Origin) {page x : Nat} (d : Dev) (hx : x < 4096) :
    barRead o (4096 * page + x) 4 d = readAt o page x 4 d := by
  have hpage : (4096 * page + x) / 4096 = page := by omega
  have hoff : (4096 * page + x) % 4096 = x := by omega
  simp [barRead, hpage, hoff]

/-- A read of a register that its origin may see is made (R409). -/
theorem readAt_seen {o : Origin} {page x : Nat} {a : RegAt} (size : Nat) {d : Dev} (hf : regFind page x = some a)
    (hr : mayRead d o a.ty = true) (hl : inLimits d o a = true) : readAt o page x size d = readOne o a size d := by
  simp [readAt, hf, hr, hl]

/-- A read of a register of a page that its origin may not read shows 0 and does nothing (R409). -/
theorem readAt_unseen {o : Origin} {page x i : Nat} {t : PageTy} {a : RegAt} (size : Nat) {d : Dev}
    (hpg : pageOf page = some (t, i)) (ht : t ≠ .tim) (hf : regFind page x = some a) (hr : mayRead d o a.ty = false) :
    readAt o page x size d = (0, d) := by
  simp [readAt, hf, hr, hpg, ht]

/-- A read of a reserved page shows 0 and does nothing (R409). -/
theorem readAt_reserved (o : Origin) {page : Nat} (x size : Nat) (d : Dev) (hpg : pageOf page = none) :
    readAt o page x size d = (0, d) := by
  simp [readAt, regFind, hpg]

/-! ### PG_STAT (R403) -/

/-- PG_STAT as a read meets it in a page. -/
def pgStatAt (t : PageTy) (i page : Nat) : RegAt :=
  ⟨t, i, page, .pgStat,
    ⟨.hdr, 0x14, 0, 1, 4, [⟨31, 31, .rs, 0⟩, ⟨30, 30, .rs, 0⟩, ⟨29, 29, .rs, 0⟩, ⟨28, 28, .rs, 0⟩]⟩, 0, 0⟩

/-- Every page of the map has its PG_STAT at 0x14 (R398). -/
theorem regFind_pgStat {page i : Nat} {t : PageTy} (hpg : pageOf page = some (t, i)) :
    regFind page 0x14 = some (pgStatAt t i page) := by
  simp [regFind, hpg, regsHdr, regAtOff, pgStatAt]

/-- No limit of class T lies on a page header (R406). -/
theorem inLimits_pgStat (d : Dev) (o : Origin) (t : PageTy) (i page : Nat) : inLimits d o (pgStatAt t i page) = true := by
  cases o with
  | hostVf p v => cases t <;> simp [inLimits, pgStatAt]
  | _ => rfl

/-- PG_STAT shows what is stored for its page. -/
theorem regShown_pgStat (d : Dev) (o : Origin) (t : PageTy) (i page : Nat) :
    regShown d o (pgStatAt t i page) = regGet d .pgStat page := by
  have hview : regView d o (pgStatAt t i page) = regGet d .pgStat page := rfl
  have hmask : accMask (pgStatAt t i page).info (fun x => x = .wo || x = .sc) = 0#64 := rfl
  have hbusy : selfBusy d (pgStatAt t i page) = 0#64 := rfl
  rw [regShown, hview, hmask, hbusy, BitVec.not_zero, BitVec.and_allOnes, BitVec.or_zero]

/-- The low word of a register of 64 bits. -/
theorem lowWord_eq_and (x : DWord) : BitVec.ofNat 64 (x.toNat % 2 ^ 32) = x &&& 0xFFFFFFFF#64 := by
  apply BitVec.eq_of_toNat_eq
  have hand : x.toNat &&& 0xFFFFFFFF = x.toNat % 2 ^ 32 := Nat.and_two_pow_sub_one_eq_mod x.toNat 32
  rw [BitVec.toNat_and, BitVec.toNat_ofNat, BitVec.toNat_ofNat, Nat.mod_eq_of_lt (by omega : 0xFFFFFFFF < 2 ^ 64), hand]
  omega

/-- Outside the TIM page a read of PG_STAT shows its word and clears it (R403). -/
theorem readOne_pgStat (o : Origin) {t : PageTy} (i page : Nat) (d : Dev) (ht : t ≠ .tim) :
    readOne o (pgStatAt t i page) 4 d = (regGet d .pgStat page &&& 0xFFFFFFFF#64, regSet .pgStat page 0 d) := by
  rw [← lowWord_eq_and, ← regShown_pgStat d o t i page]
  simp [readOne, readEffect, pgStatAt, ht]

/-! ### TB_TIME (R27) -/

/-- TB_TIME as a read of its low word meets it. -/
def tbTimeLowAt : RegAt := ⟨.tim, 0, 8, .tbTime, ⟨.tim, 0x40, 0, 1, 8, [⟨63, 0, .ro, 0⟩]⟩, 0, 0⟩

theorem regFind_tbTimeLow : regFind 8 0x40 = some tbTimeLowAt := by decide

theorem inLimits_tbTimeLow (d : Dev) (o : Origin) : inLimits d o tbTimeLowAt = true := by cases o <;> rfl

/-- The low word is that of DEVTIME; its high word is held for the origin (R27). -/
theorem readOne_tbTimeLow (o : Origin) (d : Dev) :
    readOne o tbTimeLowAt 4 d
      = (BitVec.ofNat 64 (d.devtime.toNat % 2 ^ 32), timHold o (2 ^ 32 + d.devtime.toNat / 2 ^ 32) d) := by
  simp [readOne, tbTimeLowAt]

end Sys2Proof.Machine
end

section
/-!
SUPPORT. Reads of a function's other address spaces (R2, R137, R164, R518), at the offsets of log entry 92.
-/
namespace Sys2Proof.Machine

open Sys2Proof

theorem exec_readClearStatus (o : Origin) (off size : Nat) (s : State) :
    exec (.readClearStatus o off size) s = execReadClearStatus o off size s := rfl

/-- In BAR 0's range READ_CLEAR_STATUS is a read of BAR 0. -/
theorem exec_readClearStatus_bar0 {s : State} {o : Origin} {off : Nat} (size : Nat) (hs : Running s) (hoff : off < 0x4000000) :
    exec (.readClearStatus o off size) s = .next (after s (barReadOp o off size s.dev)) := by
  rw [exec_readClearStatus, execReadClearStatus, run_running _ _ hs, if_pos hoff]

/-- From cfgBase on it is a read of configuration space. -/
theorem exec_readClearStatus_cfg {s : State} {o : Origin} {f : FnId} (off size : Nat) (hs : Running s) (hf : originFn o = some f) :
    exec (.readClearStatus o (0x40000000 + off) size) s = .next (after s (cfgRead f off size s.dev)) := by
  have hoff : 0x40000000 + off - cfgBase = off := by simp [cfgBase]
  rw [exec_readClearStatus, execReadClearStatus, run_running _ _ hs, if_neg (by omega)]
  simp only [hf]
  rw [if_neg (by simp only [bar2Base]; omega), if_neg (by simp only [hdmBase]; omega), if_neg (by simp only [cfgBase]; omega), hoff]

/-- The 4 MiB from bar2Base on are BAR 2 (R137). -/
theorem exec_readClearStatus_bar2 {s : State} {o : Origin} {f : FnId} {off : Nat} (size : Nat) (hs : Running s)
    (hf : originFn o = some f) (hoff : off < 0x400000) :
    exec (.readClearStatus o (0x8000000 + off) size) s = .next (after s (bar2Read f off size s.dev)) := by
  have hsub : 0x8000000 + off - bar2Base = off := by simp [bar2Base]
  rw [exec_readClearStatus, execReadClearStatus, run_running _ _ hs, if_neg (by omega)]
  simp only [hf]
  rw [if_neg (by simp only [bar2Base]; omega), if_pos (by simp only [hdmBase]; omega), hsub, if_pos hoff]

/-- The 512 MiB from hdmBase on are the CXL.mem range of the function's port (R518). -/
theorem exec_readClearStatus_hdm {s : State} {o : Origin} {f : FnId} {off : Nat} (size : Nat) (hs : Running s)
    (hf : originFn o = some f) (hoff : off < 0x20000000) :
    exec (.readClearStatus o (0x10000000 + off) size) s = .next (after s (hdmRead f.port off size s.dev)) := by
  have hsub : 0x10000000 + off - hdmBase = off := by simp [hdmBase]
  rw [exec_readClearStatus, execReadClearStatus, run_running _ _ hs, if_neg (by omega)]
  simp only [hf]
  rw [if_neg (by simp only [bar2Base]; omega), if_neg (by simp only [hdmBase]; omega), if_pos (by simp only [cfgBase]; omega),
    hsub, if_pos hoff]

/-- A read of the whole of word 2 shows the class code and the revision (R2). -/
theorem cfgRead_class (f : FnId) (d : Dev) : cfgRead f 8 4 d = emit (.window f (leBytes 4 0x120000B1)) d := rfl

/-- A read of the whole of word 0 shows the vendor and the device (R2). -/
theorem cfgRead_vendor (f : FnId) (d : Dev) :
    cfgRead f 0 4 d = emit (.window f (leBytes 4 (0x1F4B + 0x10000 * (if f.fn = 0 then 0x9640 else 0x9641)))) d := by
  by_cases hf : f.fn = 0 <;> simp [cfgRead, cfgWord, hf, fieldN, leBytes]

/-- A read of a whole entry of the status window shows the entry (R137, R164). -/
theorem bar2Read_entry (f : FnId) (n : Nat) (d : Dev) :
    bar2Read f (0x200000 + 8 * n) 8 d = emit (.window f (leBytes 8 (swWord d f n))) d := by
  have hres : bar2Reserved (0x200000 + 8 * n) 8 = false := by simp [bar2Reserved]; omega
  have hline : ¬ (8 = 0 ∨ 64 < (0x200000 + 8 * n) % 64 + 8) := by omega
  have hbyte : (0x200000 + 8 * n) % 8 = 0 := by omega
  have hword : (0x200000 + 8 * n) / 8 = 0x40000 + n := by omega
  have hentry : bar2Word f (0x40000 + n) d = (swWord d f n, d) := by
    rw [bar2Word, if_neg (by omega), if_neg (by omega), if_pos (by omega), Nat.add_sub_cancel_left]
  rw [bar2Read, hres, if_neg Bool.false_ne_true, if_neg hline, hbyte, hword]
  simp [bar2Words, hentry, leBytes]

/-- A VF reads zeros in the entries of subchannels that it does not own (R164). -/
theorem swWord_unowned {d : Dev} {f : FnId} {n : Nat} (ho : subOwner (subGet d n) ≠ some f) (hf : f.fn ≠ 0) :
    swWord d f n = 0 := by
  have hown : swOwned f (subGet d n) = false := by
    unfold swOwned
    split
    · rfl
    · next g hg =>
      have hne : g ≠ f := fun e => ho (by rw [hg, e])
      simp [hne, hf]
  simp [swWord, hown]

/-- The k-th 4 MiB of the CXL.mem range are the BAR 2 of function k (R518). -/
theorem hdmRead_function (port size : Nat) {k off : Nat} (d : Dev) (hk : k ≤ 64) (hoff : off < 0x400000) :
    hdmRead port (0x400000 * k + off) size d = bar2Read ⟨port, k⟩ off size d := by
  have hdiv : (0x400000 * k + off) / 0x400000 = k := by omega
  have hmod : (0x400000 * k + off) % 0x400000 = off := by omega
  simp [hdmRead, hdmMap, hdiv, hmod, hk]

/-- Beyond function 64 it reads as zeros (R518). -/
theorem hdmRead_beyond (port size : Nat) {off : Nat} (d : Dev) (hoff : 0x10400000 ≤ off) :
    hdmRead port off size d = emit (.window ⟨port, 0⟩ (List.replicate size 0)) d := by
  have hdiv : ¬ off / 0x400000 ≤ 64 := by omega
  simp [hdmRead, hdmMap, hdiv]

end Sys2Proof.Machine
end

section
/-!
THEOREM. Reads of BAR 0 and of the other address spaces, the time registers, and accesses that wait (O20).
-/
namespace Sys2Proof.Machine

open Sys2Proof

theorem readsOfBar0 : ReadsOfBar0 := by
  intro s o page h hp
  have hword : exec (.readClearStatus o (4096 * page + 0x14) 4) s
      = .next (after s (readAnswer o (readAt o page 0x14 4 s.dev).1 (readAt o page 0x14 4 s.dev).2)) := by
    rw [exec_readClearStatus_bar0 4 h.1 (by omega), barReadOp_now h (sizeOk_word hp (by omega) (by omega)),
      barRead_word o s.dev (by omega)]
  refine ⟨fun t i hpg hr ht => ?_, fun t i hpg hr ht => ?_, fun hpg => ?_, fun off size h4 h8 hoff ho => ?_⟩
  · rw [hword, readAt_seen 4 (regFind_pgStat hpg) hr (inLimits_pgStat ..), readOne_pgStat o i page s.dev ht]
  · rw [hword, readAt_unseen 4 hpg ht (regFind_pgStat hpg) hr]
  · rw [hword, readAt_reserved o 0x14 4 s.dev hpg]
  · have hs : sizeOk off size = false := by simp [sizeOk, h4, h8]
    rw [exec_readClearStatus_bar0 size h.1 hoff, barReadOp_badSize s.dev hs ho]

theorem otherSpaces : OtherSpaces := by
  intro s o f hs hf
  refine ⟨?_, ?_, fun n hn => ?_, fun off size hlo hhi => ?_⟩
  · exact (exec_readClearStatus_cfg 8 4 hs hf).trans (by rw [cfgRead_class])
  · exact (exec_readClearStatus_cfg 0 4 hs hf).trans (by rw [cfgRead_vendor])
  · have hoff : 0x200000 + 8 * n < 0x400000 := by simp only [Config.subchannels] at hn; omega
    refine ⟨?_, swWord_unowned, fun k hk => ?_⟩
    · rw [exec_readClearStatus_bar2 8 hs hf hoff, bar2Read_entry]
    · rw [Nat.add_assoc, exec_readClearStatus_hdm 8 hs hf (by omega), hdmRead_function f.port 8 s.dev hk hoff, bar2Read_entry]
  · rw [exec_readClearStatus_hdm size hs hf hhi, hdmRead_beyond f.port size s.dev hlo]

theorem timeReads : TimeReads := by
  intro s o h hr
  have hexec : exec (.devtimeLowRead o) s = execDevtimeLowRead o s := rfl
  rw [hexec, execDevtimeLowRead, run_running _ _ h.1, barReadOp_now h (sizeOk_word (by omega) (by omega) (by omega)),
    barRead_word o s.dev (by omega), readAt_seen 4 regFind_tbTimeLow hr (inLimits_tbTimeLow ..), readOne_tbTimeLow]
  rfl

/-- A write that needs a record waits while the feed is full (R424). -/
theorem mustWait_of_full {d : Dev} (o : Origin) {off : Nat} (hn : needsRecord off = true) (hfull : feedCap d 4177 ≤ d.auFeed) :
    mustWait d o off = true := by
  simp [mustWait, hn, hfull]

/-- With one write waiting, the feed that has emptied lets that write go on (R424). -/
theorem auditResume_one {d : Dev} {o : Origin} {off size : Nat} {v : DWord} (hw : d.auWait = [⟨false, o, off, size, v⟩]) :
    auditResume d = barWrite o off size v { d with auFeed := 0, auWait := [] } := by
  simp [auditResume, hw]

theorem waitingAccesses : WaitingAccesses := by
  intro s o page x v hs hp hx h4 hn
  have hwrite : ∀ u : State, Running u → exec (.registerWrite o (4096 * page + x) 4 (v.zeroExtend 64)) u
      = .next (after u (barWrite o (4096 * page + x) 4 (v.zeroExtend 64) u.dev)) := fun u hu => run_running u _ hu
  refine ⟨fun hfull => ?_, fun hw => ?_⟩
  · rw [hwrite s hs, barWrite, if_pos (mustWait_of_full o hn hfull)]
  · have hresume : exec .auditWriteResume s = .next (after s (auditResume s.dev)) := run_running s _ hs
    rw [hresume, auditResume_one hw, hwrite { s with dev := { s.dev with auFeed := 0, auWait := [] } } hs]
    rfl

/-- Settles O20: PG_STAT stands for the registers whose read clears them; each other space is met at its offsets; of the
accesses that wait, one that is let go on is made on the device whose feed is empty. -/
theorem registerReads : Obligations.RegisterReads :=
  ⟨readsOfBar0, otherSpaces, timeReads, waitingAccesses⟩

end Sys2Proof.Machine
end

section
/-!
THEOREM. What a reset leaves (O18): each table of the device is empty, so that every object reads as the reset value of its kind.
-/
namespace Sys2Proof.Machine

open Sys2Proof

/-- An element of a list of equal values, or the default of the same value beyond its end. -/
theorem lget_replicate {α : Type} (n i : Nat) (v : α) : lget (List.replicate n v) i v = v := by
  by_cases h : i < n <;> simp [lget, h]

theorem cpGet_reset (i : Nat) : cpGet Dev.reset i = cpReset i := rfl
theorem subGet_reset (n : Nat) : subGet Dev.reset n = subReset n := rfl
theorem chGet_reset (c : Nat) : chGet Dev.reset c = chReset := rfl
theorem srcGet_reset (n : Nat) : srcGet Dev.reset n = srcReset n := rfl
theorem regGet_reset (r : Reg) (i : Nat) : regGet Dev.reset r i = r.resetValue i := rfl

/-- The general registers of a CP read as 0 after reset, whichever bank is in use (log entry 2). -/
theorem gRead_cpReset (k i : Nat) : gRead k (cpReset i) = 0 := by
  unfold gRead
  split
  · rfl
  · split <;> exact lget_replicate _ _ _

/-- A channel is one of firmware after reset (R179, R217). -/
theorem chOwner_chReset : chOwner chReset = none := by decide

/-- A root port's DP_CTL.LDIS is 1 after reset (R530). -/
theorem regFld_dpCtl_reset (p : Nat) : regFld Dev.reset .dpCtl p 31 31 = 1 := by
  have hval : Reg.resetValue .dpCtl p = Reg.resetValue .dpCtl 0 := rfl
  rw [regFld, regGet_reset, hval]
  decide

/-- GL_STAT shows no READY after reset (R28). -/
theorem isReady_reset : isReady Dev.reset = false := by decide

/-- Settles O18: what reads a table finds the reset value of its kind, the rest are fields of `Dev.reset`. -/
theorem resetState : Obligations.ResetState := by
  refine ⟨rfl, rfl, isReady_reset, rfl, rfl, rfl, rfl, rfl, rfl, rfl, rfl, fun i _ => ?_, fun n _ => ?_, fun c _ => ?_,
    fun n _ => ?_, fun p _ => regFld_dpCtl_reset p⟩
  · exact ⟨rfl, rfl, fun k => (congrArg (gRead k) (cpGet_reset i)).trans (gRead_cpReset k i)⟩
  · exact ⟨rfl, rfl, rfl, rfl⟩
  · exact ⟨rfl, chOwner_chReset⟩
  · exact ⟨rfl, rfl⟩

end Sys2Proof.Machine
end

section
/-!
SUPPORT. The CRC-16 of a flit (R236) tells any two messages that differ in one bit apart: each step of it keeps distinct remainders
distinct, and answers distinct remainders to distinct bits.
-/
namespace Sys2Proof.Machine

open Sys2Proof

section
variable {α β : Type} {f : β → α → β}

/-- A fold over one list keeps distinct starts distinct when each step does. -/
theorem foldl_injective (hf : ∀ x, Function.Injective (fun b => f b x)) (l : List α) :
    Function.Injective (fun b => l.foldl f b) := by
  induction l with
  | nil => exact fun _ _ h => h
  | cons x t ih => exact fun _ _ h => hf x (ih h)

/-- Such a fold sees the change of one element of its list. -/
theorem foldl_modify_ne {g : α → α} (hf : ∀ x, Function.Injective (fun b => f b x)) (hg : ∀ b x, f b (g x) ≠ f b x)
    {l : List α} {j : Nat} (hj : j < l.length) (b : β) : (l.modify j g).foldl f b ≠ l.foldl f b := by
  induction l generalizing j b with
  | nil => simp at hj
  | cons x t ih =>
    cases j with
    | zero => exact fun h => hg b x (foldl_injective hf t h)
    | succ j => exact ih (Nat.lt_of_succ_lt_succ hj) (f b x)

end

/-- Bit 0 of the remainder shows whether the polynomial was added (R236). -/
theorem getElem_zero_crc16Bit (r : Half) (b : Bool) : (crc16Bit r b)[0] = (r.msb != b) := by
  unfold crc16Bit
  split <;> simp_all

/-- One step of the CRC-16 keeps distinct remainders distinct: bit 0 gives the highest bit, the others the rest. -/
theorem crc16Bit_injective (b : Bool) : Function.Injective (fun r => crc16Bit r b) := by
  intro r t h
  have hmsb : r.msb = t.msb := by
    have h0 : (crc16Bit r b)[0] = (crc16Bit t b)[0] := congrArg (fun x : Half => x[0]) h
    simpa only [getElem_zero_crc16Bit, Bool.bne_left_inj, Bool.bne_right_inj] using h0
  have hshift : r <<< 1 = t <<< 1 := by
    simp only [crc16Bit, hmsb] at h
    split at h
    · exact (BitVec.xor_left_inj _).mp h
    · exact h
  have htop : decide (2 ^ 15 ≤ r.toNat) = decide (2 ^ 15 ≤ t.toNat) := by simpa only [BitVec.msb_eq_decide] using hmsb
  have hlow : r.toNat <<< 1 % 2 ^ 16 = t.toNat <<< 1 % 2 ^ 16 := congrArg BitVec.toNat hshift
  apply BitVec.eq_of_toNat_eq
  rw [decide_eq_decide] at htop
  omega

/-- One step of the CRC-16 answers distinct remainders to distinct bits. -/
theorem crc16Bit_not_ne (r : Half) (b : Bool) : crc16Bit r (!b) ≠ crc16Bit r b := by
  intro h
  have h0 : (crc16Bit r (!b))[0] = (crc16Bit r b)[0] := congrArg (fun x : Half => x[0]) h
  simp [getElem_zero_crc16Bit] at h0

/-- The bits of a byte in the order in which the CRC-16 takes them. -/
def byteBits (x : Byte) : List Bool := (List.range 8).map (fun i => bit x (7 - i))

theorem byteBits_xor {k : Nat} (x : Byte) (hk : k < 8) : byteBits (x ^^^ (1#8 <<< k)) = (byteBits x).modify (7 - k) not := by
  rw [show 1#8 <<< k = BitVec.twoPow 8 k from (BitVec.twoPow_eq 8 k).symm]
  apply List.ext_getElem
  · simp [byteBits]
  · intro i hi _
    have hi8 : i < 8 := by simpa [byteBits] using hi
    rw [List.getElem_modify]
    by_cases h : 7 - k = i
    · have hki : 7 - i = k := by omega
      simp [byteBits, bit, BitVec.getLsbD_twoPow, h, hki, hk]
    · have hki : k ≠ 7 - i := by omega
      simp [byteBits, bit, BitVec.getLsbD_twoPow, h, hki]

/-- The CRC-16 of a message whose remainder so far is r, one byte further. -/
def crc16Byte (r : Half) (x : Byte) : Half := (byteBits x).foldl crc16Bit r

theorem crc16_eq_foldl (l : List Byte) : crc16 l = l.foldl crc16Byte 0 := by
  have h : ∀ r x, (List.range 8).foldl (fun r i => crc16Bit r (bit x (7 - i))) r = crc16Byte r x := fun r x => by
    rw [crc16Byte, byteBits, List.foldl_map]
  simp only [crc16, h]

theorem crc16Byte_injective (x : Byte) : Function.Injective (fun r => crc16Byte r x) :=
  foldl_injective crc16Bit_injective (byteBits x)

theorem crc16Byte_xor_ne {k : Nat} (hk : k < 8) (r : Half) (x : Byte) :
    crc16Byte r (x ^^^ (1#8 <<< k)) ≠ crc16Byte r x := by
  rw [crc16Byte, byteBits_xor x hk]
  exact foldl_modify_ne crc16Bit_injective crc16Bit_not_ne (by simp [byteBits]; omega) r

/-- A string of the wanted length is neither cut nor filled up. -/
theorem fitBytes_length (l : List Byte) : fitBytes l.length l = l := by simp [fitBytes]

/-- A flit that passes its check fails it with one payload bit inverted (R236). -/
theorem flitGood_payload_flip {f : Flit} {i : Nat} (hg : flitGood f = true) (hl : f.payload.length = 128) (hi : i < 1024) :
    flitGood { f with payload := f.payload.modify (i / 8) (fun b => b ^^^ (1#8 <<< (i % 8))) } = false := by
  have hfit : ∀ l : List Byte, l.length = 128 → fitBytes 128 l = l := fun l h => h ▸ fitBytes_length l
  simp only [flitGood, flitBytes, hfit _ hl, decide_eq_true_eq] at hg
  simp only [flitGood, flitBytes, hfit _ ((List.length_modify ..).trans hl), decide_eq_false_iff_not, ← hg, crc16_eq_foldl,
    List.foldl_append]
  exact foldl_modify_ne crc16Byte_injective (crc16Byte_xor_ne (by omega)) (by omega) _

end Sys2Proof.Machine
end

section
/-!
SUPPORT. Boulevard's replays and port faults, the mover's lane groups, and the starvation watch (R16, R17, R237, R238, R247).
-/
namespace Sys2Proof.Machine

open Sys2Proof

/-! ### Replays (R237, R238) -/

theorem exec_boulevardFlitError {s : State} {h : FlitHop} (f : FlitRun) (hs : Running s) (hp : h.port < 40) :
    exec (.boulevardFlitError h f) s = .next (after s (flitError h f s.dev)) := by
  have hexec : exec (.boulevardFlitError h f) s = execBoulevardFlitError h f s := rfl
  rw [hexec, execBoulevardFlitError, run_running _ _ hs, if_pos hp]

/-- The buffer of a hop keeps the last 32 flits of what it held and what was sent (R237). -/
theorem hopGet_hopSend (h : FlitHop) (l : List Flit) (d : Dev) :
    hopGet (hopSend h l d) h = (hopGet d h ++ l).drop ((hopGet d h ++ l).length - 32) := by
  simp [hopGet, hopSend]

/-- The device after n failures of a flit in a row at port p: each counted and Corrected, and the page told (R238). -/
def flitReplayed (p n : Nat) (d : Dev) : Dev :=
  pageEvent 2 4 ((List.range n).foldl (fun d _ => deviceFault 0 4 p (dbEvent 8 (regBump .rplCnt p d))) d)

/-- What the receiver of a hop takes in of a run of k flits, l the images behind the failing ones: the image that passes, and the later
flits as the buffer has them. -/
def flitTaken (h : FlitHop) (k : Nat) (l : List Flit) (d : Dev) : Dev :=
  match l with
  | [] => d
  | g :: _ => hopTake h (g :: (hopReplay d h k).drop 1) d

/-- Where the port does not fail, what is taken in follows; e is the device behind the replays. -/
theorem flitError_below {h : FlitHop} {f : FlitRun} {d e : Dev}
    (he : e = if flitFails f.tries = 0 then hopSend h f.sent d else flitReplayed h.port (flitFails f.tries) (hopSend h f.sent d))
    (hlim : flitFails f.tries < max 1 (regFld e .rplLim 0 3 0)) :
    flitError h f d = flitTaken h f.sent.length (f.tries.drop (flitFails f.tries)) e := by
  subst he
  by_cases hn : flitFails f.tries = 0
  · simp only [hn, if_true] at hlim
    simp only [flitError, hn, List.range_zero, List.foldl_nil, if_true, if_neg (Nat.not_le_of_gt hlim)]
    rfl
  · simp only [hn, if_false, flitReplayed] at hlim
    simp only [flitError, flitReplayed, hn, if_false, if_neg (Nat.not_le_of_gt hlim)]
    rfl

/-- At the limit the port of the hop fails. -/
theorem flitError_atLimit (h : FlitHop) (f : FlitRun) {d : Dev} (hn : flitFails f.tries ≠ 0)
    (hlim : max 1 (regFld (flitReplayed h.port (flitFails f.tries) (hopSend h f.sent d)) .rplLim 0 3 0) ≤ flitFails f.tries) :
    flitError h f d = boulevardFail h.port (flitReplayed h.port (flitFails f.tries) (hopSend h f.sent d)) := by
  simp only [flitReplayed] at hlim
  simp only [flitError, flitReplayed, hn, if_false, if_pos hlim]

/-! ### Port faults (R16) -/

theorem exec_boulevardPortFault {s : State} {p : Nat} (hs : Running s) (hp : p < 40) :
    exec (.boulevardPortFault p) s = .next (after s (boulevardFail p s.dev)) := by
  have hexec : exec (.boulevardPortFault p) s = execBoulevardPortFault p s := rfl
  rw [hexec, execBoulevardPortFault, run_running _ _ hs, if_pos hp]

/-- A further fault of a port that has failed (log entry 89). -/
theorem boulevardFail_again {p : Nat} {d : Dev} (hb : p ∈ d.blvBad) : boulevardFail p d = injectReal 4 p d := by
  simp [boulevardFail, hb]

section
variable {p : Nat} {d : Dev} (hb : p ∉ d.blvBad)
include hb

/-- The fault of a spare port that carries no block (log entry 89). -/
theorem boulevardFail_idleSpare
    (hi : p = 38 ∧ ¬ regFld d .blvSteer 0 15 15 = 1 ∨ p = 39 ∧ ¬ regFld d .blvSteer 0 31 31 = 1) :
    boulevardFail p d = deviceFault 2 4 p { d with blvBad := d.blvBad ++ [p] } := by
  have hidle : ((decide (p = 38) && !use38 d) || (decide (p = 39) && !use39 d)) = true := by simpa [use38, use39] using hi
  simp [boulevardFail, hb, hidle]

/-- The fault of a port that carries a block: the block moves to port 38, else to port 39, else the fault is Fatal (R16). -/
theorem boulevardFail_carrying
    (hc : p < 38 ∨ p = 38 ∧ regFld d .blvSteer 0 15 15 = 1 ∨ p = 39 ∧ regFld d .blvSteer 0 31 31 = 1) :
    boulevardFail p d =
      let e := { d with blvBad := d.blvBad ++ [p] }
      let src := if p = 38 then regFld d .blvSteer 0 13 8 else if p = 39 then regFld d .blvSteer 0 29 24 else p
      if ¬ regFld d .blvSteer 0 15 15 = 1 ∧ 38 ∉ d.blvBad ∧ p ≠ 38 then
        deviceFault 1 4 p (repairUse 5 (regSetFld .blvSteer 0 15 15 1 (regSetFld .blvSteer 0 13 8 src e)))
      else if ¬ regFld d .blvSteer 0 31 31 = 1 ∧ 39 ∉ d.blvBad ∧ p ≠ 39 then
        deviceFault 1 4 p (repairUse 5 (regSetFld .blvSteer 0 31 31 1 (regSetFld .blvSteer 0 29 24 src e)))
      else deviceFault 4 4 p e := by
  rcases hc with h | ⟨rfl, h⟩ | ⟨rfl, h⟩
  · have h38 : p ≠ 38 := by omega
    have h39 : p ≠ 39 := by omega
    simp [boulevardFail, use38, use39, hb, h38, h39]
  · simp [boulevardFail, use38, use39, hb, h]
  · simp [boulevardFail, use38, use39, hb, h]

end

/-! ### Lane groups (R17) -/

theorem exec_moverLaneGroupFault {s : State} (g : Nat) (hs : Running s) :
    exec (.moverLaneGroupFault g) s = .next (after s (laneFault g s.dev)) := by
  have hexec : exec (.moverLaneGroupFault g) s = execMoverLaneGroupFault g s := rfl
  rw [hexec, execMoverLaneGroupFault, run_running _ _ hs]

section
variable {g : Nat} {d : Dev} (hg : g < 6)
include hg

/-- A further fault of a group that has failed (log entry 91). -/
theorem laneFault_again (hb : g ∈ d.laneBad) : laneFault g d = injectReal 5 g d := by
  simp [laneFault, Nat.not_le_of_lt hg, hb]

variable (hb : g ∉ d.laneBad)
include hb

/-- The fault of ML5 while it stands by (log entry 91). -/
theorem laneFault_standby (hl : g ∉ d.lanes) :
    laneFault g d = deviceFault 2 5 g { d with laneBad := d.laneBad ++ [g] } := by
  simp [laneFault, Nat.not_le_of_lt hg, hb, hl]

/-- ML5 takes the bursts of a failed group (R17). -/
theorem laneFault_spare (hl : g ∈ d.lanes) (h5 : 5 ∉ d.lanes) (hs : 5 ∉ d.laneBad) :
    laneFault g d = deviceFault 1 5 g (repairUse 6 (laneReplay g (d.lanes.filter (· ≠ g) ++ [5])
      { d with laneBad := d.laneBad ++ [g], lanes := d.lanes.filter (· ≠ g) ++ [5] })) := by
  have hne : 5 ≠ g := fun e => h5 (e ▸ hl)
  simp [laneFault, Nat.not_le_of_lt hg, hb, hl, h5, hs, hne]

/-- Without ML5 the groups that are left take the bursts; the fault of the last is Fatal (R17). -/
theorem laneFault_fewer (hl : g ∈ d.lanes) (h5 : 5 ∈ d.lanes ∨ 5 ∈ d.laneBad) :
    laneFault g d = deviceFault (if d.lanes.filter (· ≠ g) = [] then 4 else 2) 5 g (laneReplay g (d.lanes.filter (· ≠ g))
      { d with laneBad := d.laneBad ++ [g], lanes := d.lanes.filter (· ≠ g) }) := by
  rcases h5 with h | h <;> simp [laneFault, Nat.not_le_of_lt hg, hb, hl, h]

end

/-! ### The starvation watch (R247) -/

/-- The number of a Roundabout: that of output i is 64 + i, that of bank i is i. -/
def rbtNo (o : Bool) (i : Nat) : Nat := if o then 64 + i else i

/-- Is a request of source src one that the watch of bank or output i counts for class c (R247)? -/
def watchDue (o : Bool) (i c src : Nat) (d : Dev) (q : RReq) : Bool :=
  overdue (regFld d (if o then .blvWatchThr else .plzWatchThr) (4 * i + c) 31 0) c q && decide (q.src = src)

theorem exec_watchThreshold {s : State} (o : Bool) (i c src : Nat) (hs : Running s) :
    exec (.watchThreshold o i c src) s = .next (after s (watch (rbtNo o i) c src s.dev)) := by
  have hexec : exec (.watchThreshold o i c src) s = execWatchThreshold o i c src s := rfl
  rw [hexec, execWatchThreshold, run_running _ _ hs, rbtNo]

section
variable {o : Bool} {i : Nat} (hi : i < (if o then 40 else 64))
include hi

theorem rbtNo_lt : rbtNo o i < 104 := by
  cases o <;> simp [rbtNo] at hi ⊢ <;> omega

theorem rbtNo_lt_bank : rbtNo o i < 64 ↔ o = false := by
  cases o <;> simp [rbtNo] at hi ⊢; omega

theorem watchRegs_rbtNo (c : Nat) :
    watchRegs (rbtNo o i) c
      = ((if o then .blvWatchMax else .plzWatchMax, if o then .blvWatchThr else .plzWatchThr,
          if o then .blvWatchOvr else .plzWatchOvr), 4 * i + c) := by
  cases o <;> simp [rbtNo, watchRegs] at hi ⊢; omega

/-- The page and the event of the watch of a Roundabout (R247). -/
theorem watchEvent_rbtNo (c : Nat) (d : Dev) :
    (if rbtNo o i < 64 then pageEvent (0x80 + rbtNo o i) (4 + c) d else pageEvent 2 c d)
      = pageEvent (if o then 2 else 0x80 + i) (if o then c else 4 + c) d := by
  cases o <;> simp [rbtNo] at hi ⊢; omega

variable {c src : Nat} {d : Dev} (hc : c < 4)
include hc

/-- Where no request of the source is overdue, the watch does nothing. -/
theorem watch_quiet (hq : (rbtGet d (rbtNo o i)).reqs.any (watchDue o i c src d) = false) : watch (rbtNo o i) c src d = d := by
  have hr := rbtNo_lt hi
  unfold watchDue at hq
  rw [watch, if_neg (by omega), watchRegs_rbtNo hi]
  simp only [hq, if_false, Bool.false_eq_true]

/-- An overdue request is counted once, with the event (R247). -/
theorem watch_overdue (hq : (rbtGet d (rbtNo o i)).reqs.any (watchDue o i c src d) = true) :
    watch (rbtNo o i) c src d = pageEvent (if o then 2 else 0x80 + i) (if o then c else 4 + c) (rbtSet (rbtNo o i)
      { rbtGet d (rbtNo o i) with
        reqs := (rbtGet d (rbtNo o i)).reqs.map (fun q => if watchDue o i c src d q then { q with counted := true } else q) }
      (regBump (if o then .blvWatchOvr else .plzWatchOvr) (4 * i + c) d)) := by
  have hr := rbtNo_lt hi
  unfold watchDue at hq ⊢
  rw [watch, if_neg (by omega), watchRegs_rbtNo hi]
  simp only [hq, if_true, watchEvent_rbtNo hi]

end

end Sys2Proof.Machine
end

section
/-!
THEOREM. Boulevard's faults (O39).
-/
namespace Sys2Proof.Machine

open Sys2Proof

theorem boulevardFaults : BoulevardFaults := by
  refine ⟨fun f i hg hl hi => flitGood_payload_flip hg hl hi, fun s hs => ⟨?_, ?_, ?_, ?_, ?_, ?_⟩⟩
  · intro p out sent tries hp n row d0 d kept taken
    have hrow : row = .next (after s (flitError ⟨p, out⟩ ⟨sent, tries⟩ s.dev)) := exec_boulevardFlitError _ hs hp
    have hd : d = flitReplayed p n d0 := rfl
    rw [hrow, hd]
    refine ⟨hopGet_hopSend ⟨p, out⟩ sent s.dev, fun hn => ?_, fun hn hlim => ?_, fun hn hlim => ?_⟩
    · have hlim : n < max 1 (regFld d0 .rplLim 0 3 0) := by omega
      rw [flitError_below (if_pos hn).symm hlim]
      rfl
    · rw [flitError_below (if_neg (Nat.ne_of_gt hn)).symm hlim]
      rfl
    · rw [flitError_atLimit ⟨p, out⟩ ⟨sent, tries⟩ (Nat.ne_of_gt hn) hlim]
  · exact fun p hp hb => by rw [exec_boulevardPortFault hs hp, boulevardFail_again hb]
  · intro p hp hb
    refine ⟨fun hi => ?_, fun hc => ⟨fun h38 => ?_, fun h38 h39 => ?_, fun h38 h39 => ?_⟩⟩
    · rw [exec_boulevardPortFault hs hp, boulevardFail_idleSpare hb hi]
    · rw [exec_boulevardPortFault hs hp, boulevardFail_carrying hb hc, if_pos h38]
    · rw [exec_boulevardPortFault hs hp, boulevardFail_carrying hb hc, if_neg h38, if_pos h39]
    · rw [exec_boulevardPortFault hs hp, boulevardFail_carrying hb hc, if_neg h38, if_neg h39]
  · intro g hg hb
    refine ⟨fun hl h5 h5b => ?_, fun hl h5 => ?_, fun hl => ?_⟩
    · rw [exec_moverLaneGroupFault g hs, laneFault_spare hg hb hl h5 h5b]
    · rw [exec_moverLaneGroupFault g hs, laneFault_fewer hg hb hl h5]
    · rw [exec_moverLaneGroupFault g hs, laneFault_standby hg hb hl]
  · exact fun g hg hb => by rw [exec_moverLaneGroupFault g hs, laneFault_again hg hb]
  · intro o i c src hc hi
    refine ⟨fun hq => ?_, fun hq => ?_⟩
    · rw [exec_watchThreshold o i c src hs, watch_quiet hi hc hq]
    · rw [exec_watchThreshold o i c src hs, watch_overdue hi hc hq]
      rfl

end Sys2Proof.Machine
end

section
/-!
SUPPORT. The cycle of a Roundabout (R239 to R244): what each of its steps does, and what they do together.
-/
namespace Sys2Proof.Machine

open Sys2Proof

/-! ### Requests -/

/-- The least class of requests is no higher than the first one, nor than that of any of them. -/
theorem foldl_min_cls_le (l : List RReq) (m : Nat) :
    l.foldl (fun m r => min m r.cls) m ≤ m ∧ ∀ y ∈ l, l.foldl (fun m r => min m r.cls) m ≤ y.cls := by
  induction l generalizing m with
  | nil => simp
  | cons z l ih =>
    obtain ⟨hm, hl⟩ := ih (min m z.cls)
    exact ⟨hm.trans (Nat.min_le_left ..), List.forall_mem_cons.mpr ⟨hm.trans (Nat.min_le_right ..), hl⟩⟩

/-- A decision is for the first request of the lowest class (R241). -/
theorem rbtBest_some {l : List RReq} {q : RReq} (h : rbtBest l = some q) :
    ∃ a b, l = a ++ q :: b ∧ (∀ y ∈ a, q.cls < y.cls) ∧ ∀ y ∈ b, q.cls ≤ y.cls := by
  cases l with
  | nil => cases h
  | cons x t =>
    obtain ⟨hfound, a, b, hl, ha⟩ := List.find?_eq_some_iff_append.mp h
    have hq : q.cls = t.foldl (fun m r => min m r.cls) x.cls := of_decide_eq_true hfound
    have hle : ∀ y ∈ a ++ q :: b, q.cls ≤ y.cls := by
      rw [← hl, hq]
      exact List.forall_mem_cons.mpr (foldl_min_cls_le t x.cls)
    refine ⟨a, b, hl, fun y hy => ?_, fun y hy => hle y (List.mem_append_right _ (List.mem_cons_of_mem _ hy))⟩
    have hne : y.cls ≠ q.cls := by simpa [hq] using ha y hy
    exact Nat.lt_of_le_of_ne (hle y (List.mem_append_left _ hy)) hne.symm

/-- Every waiting request is a cycle older (R247). -/
def rbtOlder (l : List RReq) : List RReq := l.map (fun q => { q with age := q.age + 1 })

@[simp] theorem rbtRaise_nil (l : List RReq) : rbtRaise l [] = l := rfl

/-- A requester that does not request yet takes the lowest rank (R239, R241). -/
theorem rbtRaise_new {l : List RReq} {q : RReq} (hu : 0 < q.units) (hn : ∀ y ∈ l, ¬ (y.src = q.src ∧ y.cls = q.cls)) :
    rbtRaise (rbtOlder l) [q] = rbtOlder l ++ [q] := by
  have hany : (rbtOlder l).any (fun y => q.same y) = false := by
    rw [List.any_eq_false]
    intro y hy
    obtain ⟨z, hz, rfl⟩ := List.mem_map.mp hy
    have := hn z hz
    simp only [RReq.same, Bool.and_eq_true, decide_eq_true_eq]
    exact fun e => this ⟨e.1.symm, e.2.symm⟩
  simp only [rbtRaise, List.foldl_cons, List.foldl_nil, hany, Nat.ne_of_gt hu, Bool.false_eq_true, or_self, if_false]

/-! ### The steps of a cycle -/

section
variable {x : Rbt}

theorem rbtUse_undecided (hd : x.decision = none) : rbtUse x = x := by simp only [rbtUse, hd]

/-- A grant of the free resource (R241). -/
theorem rbtUse_grant {p q : RReq} (hd : x.decision = some p) (hh : x.holder = none)
    (hq : x.reqs.find? (fun z => p.same z) = some q) :
    rbtUse x = { x with decision := none, preempt := false, holder := some q, moved := 0, reqs := x.reqs.filter (fun z => z ≠ q) } := by
  simp [rbtUse, Rbt.chosen, hd, hh, hq]

/-- A preemption: the request of the holder restarts at the highest rank (R243). -/
theorem rbtUse_preempt {p q h : RReq} (hd : x.decision = some p) (hp : x.preempt = true) (hh : x.holder = some h)
    (hq : x.reqs.find? (fun z => p.same z) = some q) :
    rbtUse x = { x with decision := none, preempt := false, holder := some q, moved := 0
                        reqs := { h with units := h.units + x.moved } :: x.reqs.filter (fun z => z ≠ q) } := by
  simp [rbtUse, Rbt.chosen, hd, hp, hh, hq]

/-- A null grant of the free resource (R242). -/
theorem rbtUse_null {p : RReq} (hd : x.decision = some p) (hp : x.preempt = false) (hh : x.holder = none)
    (hq : x.reqs.find? (fun z => p.same z) = none) : rbtUse x = { x with decision := none, preempt := false } := by
  simp [rbtUse, Rbt.chosen, hd, hp, hh, hq]

/-- A null grant that stops the holder it preempts (R242, R243). -/
theorem rbtUse_null_preempt {p h : RReq} (hd : x.decision = some p) (hp : x.preempt = true) (hh : x.holder = some h)
    (hq : x.reqs.find? (fun z => p.same z) = none) :
    rbtUse x = { x with decision := none, preempt := false, holder := none, moved := 0
                        reqs := { h with units := h.units + x.moved } :: x.reqs } := by
  simp [rbtUse, Rbt.chosen, hd, hp, hh, hq]

theorem rbtMove_free (hh : x.holder = none) : rbtMove x = x := by simp only [rbtMove, hh]

theorem rbtMove_last {h : RReq} (hh : x.holder = some h) (hu : h.units ≤ 1) : rbtMove x = { x with holder := none, moved := 0 } := by
  simp only [rbtMove, hh, if_pos hu]

theorem rbtMove_more {h : RReq} (hh : x.holder = some h) (hu : 1 < h.units) :
    rbtMove x = { x with holder := some { h with units := h.units - 1 }, moved := x.moved + 1 } := by
  simp only [rbtMove, hh, if_neg (Nat.not_le_of_gt hu)]

/-- A free resource takes the best request (R241, R242). -/
theorem rbtDecide_free (pre : Bool) (hh : x.holder = none) :
    rbtDecide pre x = { x with decision := rbtBest x.reqs, preempt := false } := by
  cases hb : rbtBest x.reqs <;> simp only [rbtDecide, hb, hh]

/-- Nothing preempts a holder of class 0, nor one where PRE_EN is 0: there is no decision while the burst lasts (R242, R243). -/
theorem rbtDecide_held {pre : Bool} {h : RReq} (hh : x.holder = some h) (hp : pre = false ∨ h.cls = 0) :
    rbtDecide pre x = { x with decision := none, preempt := false } := by
  have hnot : ∀ c, preempts pre h c = false := fun c => by rcases hp with hp | hp <;> simp [preempts, hp]
  cases hb : rbtBest x.reqs <;> simp [rbtDecide, hb, hh, hnot]

/-- A request of class 0 preempts a holder of another class where PRE_EN is 1 (R243). -/
theorem rbtDecide_preempt {pre : Bool} {h q : RReq} (hpre : pre = true) (hh : x.holder = some h) (hc : h.cls ≠ 0)
    (hb : rbtBest x.reqs = some q) (hq : q.cls = 0) : rbtDecide pre x = { x with decision := some q, preempt := true } := by
  simp [rbtDecide, preempts, hpre, hb, hh, hc, hq]

/-! ### The three steps together -/

/-- The last decision is used, a unit moves, and the next decision is taken (R241 to R243). -/
def rbtTurn (pre : Bool) (x : Rbt) : Rbt := rbtDecide pre (rbtMove (rbtUse x))

theorem rbtTurn_eq {pre : Bool} {y z w : Rbt} (hu : rbtUse x = y) (hm : rbtMove y = z) (hd : rbtDecide pre z = w) :
    rbtTurn pre x = w := by rw [rbtTurn, hu, hm, hd]

theorem rbtTurn_free (pre : Bool) (hd : x.decision = none) (hh : x.holder = none) :
    rbtTurn pre x = { x with decision := rbtBest x.reqs, preempt := false } :=
  rbtTurn_eq (rbtUse_undecided hd) (rbtMove_free hh) (rbtDecide_free pre hh)

theorem rbtTurn_grant {pre : Bool} {p q : RReq} (hpre : pre = false) (hd : x.decision = some p) (hh : x.holder = none)
    (hq : x.reqs.find? (fun z => p.same z) = some q) (hu : 1 < q.units) :
    rbtTurn pre x = { x with decision := none, preempt := false, holder := some { q with units := q.units - 1 }, moved := 1
                             reqs := x.reqs.filter (fun z => z ≠ q) } :=
  rbtTurn_eq (rbtUse_grant hd hh hq) (rbtMove_more rfl hu) (rbtDecide_held rfl (.inl hpre))

theorem rbtTurn_preempt (pre : Bool) {p q h : RReq} (hd : x.decision = some p) (hp : x.preempt = true) (hh : x.holder = some h)
    (hq : x.reqs.find? (fun z => p.same z) = some q) (hc : q.cls = 0) (hu : 1 < q.units) :
    rbtTurn pre x = { x with decision := none, preempt := false, holder := some { q with units := q.units - 1 }, moved := 1
                             reqs := { h with units := h.units + x.moved } :: x.reqs.filter (fun z => z ≠ q) } :=
  rbtTurn_eq (rbtUse_preempt hd hp hh hq) (rbtMove_more rfl hu) (rbtDecide_held rfl (.inr hc))

theorem rbtTurn_null (pre : Bool) {p : RReq} (hd : x.decision = some p) (hp : x.preempt = false) (hh : x.holder = none)
    (hq : x.reqs.find? (fun z => p.same z) = none) : rbtTurn pre x = { x with decision := rbtBest x.reqs, preempt := false } :=
  rbtTurn_eq (rbtUse_null hd hp hh hq) (rbtMove_free hh) (rbtDecide_free pre hh)

theorem rbtTurn_null_preempt (pre : Bool) {p h : RReq} (hd : x.decision = some p) (hp : x.preempt = true)
    (hh : x.holder = some h) (hq : x.reqs.find? (fun z => p.same z) = none) :
    rbtTurn pre x = { x with decision := rbtBest ({ h with units := h.units + x.moved } :: x.reqs), preempt := false
                             holder := none, moved := 0, reqs := { h with units := h.units + x.moved } :: x.reqs } :=
  rbtTurn_eq (rbtUse_null_preempt hd hp hh hq) (rbtMove_free rfl) (rbtDecide_free pre rfl)

theorem rbtTurn_last (pre : Bool) {h : RReq} (hd : x.decision = none) (hh : x.holder = some h) (hu : h.units ≤ 1) :
    rbtTurn pre x = { x with decision := rbtBest x.reqs, preempt := false, holder := none, moved := 0 } :=
  rbtTurn_eq (rbtUse_undecided hd) (rbtMove_last hh hu) (rbtDecide_free pre rfl)

theorem rbtTurn_more {pre : Bool} {h : RReq} (hpre : pre = false) (hd : x.decision = none) (hh : x.holder = some h) (hu : 1 < h.units) :
    rbtTurn pre x
      = { x with decision := none, preempt := false, holder := some { h with units := h.units - 1 }, moved := x.moved + 1 } :=
  rbtTurn_eq (rbtUse_undecided hd) (rbtMove_more hh hu) (rbtDecide_held rfl (.inl hpre))

theorem rbtTurn_more_preempted {pre : Bool} {h q : RReq} (hpre : pre = true) (hd : x.decision = none) (hh : x.holder = some h)
    (hu : 1 < h.units) (hc : h.cls ≠ 0) (hb : rbtBest x.reqs = some q) (hq : q.cls = 0) :
    rbtTurn pre x = { x with decision := some q, preempt := true, holder := some { h with units := h.units - 1 }
                             moved := x.moved + 1 } :=
  rbtTurn_eq (rbtUse_undecided hd) (rbtMove_more hh hu) (rbtDecide_preempt hpre rfl hc hb hq)

end

/-! ### A whole cycle -/

/-- The events of a cycle's first step: a null grant (R242) and a preemption (R243). -/
def rbtEvents (r : Nat) (d : Dev) : Dev :=
  match (rbtGet d r).decision, (rbtGet d r).chosen, (rbtGet d r).holder with
  | none, _, _ => d
  | some _, none, _ => dbEvent 5 d
  | some _, some _, some h => if (rbtGet d r).preempt then dbEvent 6 (traceEvent 4 none r h.cls d) else d
  | some _, some _, none => d

/-- Before class changes a cycle uses the last decision, moves a unit and decides anew; e is the device with the events. -/
theorem rbtCycle_eq {r : Nat} (hr : r < 104) (raise : List (Nat × Traffic × Nat)) (bursts : List (Nat × Nat × Nat)) {d e : Dev}
    {x : Rbt} (he : rbtEvents r d = e) (hx : rbtTurn (preEn e r) (rbtGet d r) = x) :
    rbtCycle r raise bursts d =
      let z := x.late.foldl (fun x c => rbtReclass c.1 c.2 x) { x with late := x.chg, chg := [] }
      rbtSet r { z with reqs := rbtRaise (rbtOlder z.reqs) (raise.filterMap (trafficReq r) ++ bursts.filterMap (burstReq r e)) }
        (watchMax r (rbtOlder z.reqs) e) := by
  subst he hx
  rw [rbtCycle, if_neg (Nat.not_le_of_gt hr)]
  rfl

section
variable {r : Nat} (hr : r < 104) {d e : Dev} {x : Rbt} (he : rbtEvents r d = e) (hx : rbtTurn (preEn e r) (rbtGet d r) = x)
  (hl : x.late = [])
include hr he hx hl

/-- With no class change due and no request raised, the waiting requests grow older. -/
theorem rbtCycle_quiet :
    rbtCycle r [] [] d
      = rbtSet r { x with late := x.chg, chg := [], reqs := rbtOlder x.reqs } (watchMax r (rbtOlder x.reqs) e) := by
  simp only [rbtCycle_eq hr [] [] he hx, hl, List.foldl_nil, List.filterMap_nil, List.append_nil, rbtRaise_nil]

/-- With no class change due, one new request takes its place behind the waiting ones, which grow older. -/
theorem rbtCycle_raised {raise : List (Nat × Traffic × Nat)} {bursts : List (Nat × Nat × Nat)} {q : RReq}
    (hq : raise.filterMap (trafficReq r) ++ bursts.filterMap (burstReq r e) = [q]) (hu : 0 < q.units)
    (hn : ∀ y ∈ x.reqs, ¬ (y.src = q.src ∧ y.cls = q.cls)) :
    rbtCycle r raise bursts d
      = rbtSet r { x with late := x.chg, chg := [], reqs := rbtOlder x.reqs ++ [q] } (watchMax r (rbtOlder x.reqs) e) := by
  simp only [rbtCycle_eq hr raise bursts he hx, hl, List.foldl_nil, hq, rbtRaise_new hu hn]

theorem rbtCycle_traffic {a : Nat × Traffic × Nat} {q : RReq} (hq : trafficReq r a = some q) (hu : 0 < q.units)
    (hn : ∀ y ∈ x.reqs, ¬ (y.src = q.src ∧ y.cls = q.cls)) :
    rbtCycle r [a] [] d
      = rbtSet r { x with late := x.chg, chg := [], reqs := rbtOlder x.reqs ++ [q] } (watchMax r (rbtOlder x.reqs) e) :=
  rbtCycle_raised hr he hx hl (by simp [hq]) hu hn

theorem rbtCycle_burst {b : Nat × Nat × Nat} {q : RReq} (hq : burstReq r e b = some q) (hu : 0 < q.units)
    (hn : ∀ y ∈ x.reqs, ¬ (y.src = q.src ∧ y.cls = q.cls)) :
    rbtCycle r [] [b] d
      = rbtSet r { x with late := x.chg, chg := [], reqs := rbtOlder x.reqs ++ [q] } (watchMax r (rbtOlder x.reqs) e) :=
  rbtCycle_raised hr he hx hl (by simp [hq]) hu hn

end

section
variable {r : Nat} {d : Dev}

theorem rbtEvents_undecided (hd : (rbtGet d r).decision = none) : rbtEvents r d = d := by simp only [rbtEvents, hd]

theorem rbtEvents_grant {p : RReq} (hd : (rbtGet d r).decision = some p) (hh : (rbtGet d r).holder = none)
    {q : RReq} (hq : (rbtGet d r).reqs.find? (fun z => p.same z) = some q) : rbtEvents r d = d := by
  simp [rbtEvents, Rbt.chosen, hd, hh, hq]

theorem rbtEvents_null {p : RReq} (hd : (rbtGet d r).decision = some p)
    (hq : (rbtGet d r).reqs.find? (fun z => p.same z) = none) : rbtEvents r d = dbEvent 5 d := by
  simp [rbtEvents, Rbt.chosen, hd, hq]

theorem rbtEvents_preempt {p q h : RReq} (hd : (rbtGet d r).decision = some p) (hp : (rbtGet d r).preempt = true)
    (hh : (rbtGet d r).holder = some h) (hq : (rbtGet d r).reqs.find? (fun z => p.same z) = some q) :
    rbtEvents r d = dbEvent 6 (traceEvent 4 none r h.cls d) := by
  simp [rbtEvents, Rbt.chosen, hd, hp, hh, hq]

end

/-- No request that stands belongs to the requester p: it has withdrawn (R242). -/
theorem find?_same_eq_none {p : RReq} {l : List RReq} (h : ∀ z ∈ l, ¬ (p.src = z.src ∧ p.cls = z.cls)) :
    l.find? (fun z => p.same z) = none := by
  rw [List.find?_eq_none]
  intro z hz
  simpa [RReq.same] using h z hz

/-- The change of the class of a channel whose request is the only one and chosen (R244). -/
theorem rbtReclass_only {x : Rbt} {q : RReq} {c new : Nat} (hd : x.decision = some q) (hh : x.holder = none) (hq : x.reqs = [q])
    (hc : q.chan = some c) (hn : q.cls ≠ new) :
    rbtReclass c new x = { x with reqs := [{ q with cls := new }], decision := some { q with cls := new } } := by
  simp [rbtReclass, hd, hh, hq, hc, hn]

/-- A grant covers at most 32 flits at an output and 64 beats at a bank (R239). -/
theorem rbtCap_rbtNo {o : Bool} {i : Nat} (hi : i < (if o then 40 else 64)) (k : Nat) :
    rbtCap (rbtNo o i) k = min (if o then 32 else 64) k := by
  simp only [rbtCap, rbtNo_lt_bank hi]
  cases o <;> rfl

theorem trafficReq_rbtNo {o : Bool} {i n m : Nat} {t : Traffic} (hi : i < (if o then 40 else 64))
    (hm : trafficSource (rbtNo o i) n t = some m) (k : Nat) :
    trafficReq (rbtNo o i) (n, t, k) = some ⟨m, trafficCls t, min (if o then 32 else 64) k, none, 0, false⟩ := by
  simp [trafficReq, hm, rbtCap_rbtNo hi]

theorem burstReq_rbtNo {o : Bool} {i n : Nat} {d : Dev} (hi : i < (if o then 40 else 64))
    (hn : ∃ g ∈ d.lanes, groupPort d g = n) (c k : Nat) :
    burstReq (rbtNo o i) d (n, c, k) = some ⟨n, bits (chGet d c).cfg 28 27, min (if o then 32 else 64) k, some c, 0, false⟩ := by
  simp [burstReq, hn, rbtCap_rbtNo hi]

/-! ### What changes every Roundabout -/

theorem rbtGet_rbtSet_self (r : Nat) (x : Rbt) (d : Dev) : rbtGet (rbtSet r x d) r = x := by simp [rbtGet, rbtSet]

theorem rbtGet_rbtSet_other {r q : Nat} (x : Rbt) (d : Dev) (h : r ≠ q) : rbtGet (rbtSet q x d) r = rbtGet d r := by
  simp [rbtGet, rbtSet, tget_tset_other _ _ _ _ h]

/-- A key that a table does not list reads as the default. -/
theorem tget_of_not_mem {α : Type} {t : Tbl α} {k : Nat} (d : α) (h : k ∉ t.map (·.1)) : tget t k d = d := by
  induction t with
  | nil => rfl
  | cons e t ih =>
    obtain ⟨hk, ht⟩ : k ≠ e.1 ∧ k ∉ t.map (·.1) := by simpa using h
    rw [tget, if_neg hk.symm, ih ht]

section
variable {f : Rbt → Rbt} (hf : ∀ x, f (f x) = f x)
include hf

/-- Changing the Roundabouts of a list, by a change that made twice is made once. -/
theorem rbtGet_foldl_rbtSet (l : List Nat) (r : Nat) (d : Dev) :
    rbtGet (l.foldl (fun d q => rbtSet q (f (rbtGet d q)) d) d) r = if r ∈ l then f (rbtGet d r) else rbtGet d r := by
  induction l generalizing d with
  | nil => simp
  | cons q t ih =>
    rw [List.foldl_cons, ih]
    by_cases hq : r = q
    · subst hq
      simp [rbtGet_rbtSet_self, hf]
    · simp [rbtGet_rbtSet_other _ _ hq, hq]

theorem rbtGet_rbtAll (hi : f Rbt.idle = Rbt.idle) (r : Nat) (d : Dev) : rbtGet (rbtAll f d) r = f (rbtGet d r) := by
  rw [rbtAll, rbtGet_foldl_rbtSet hf]
  split
  · rfl
  · next h => rw [rbtGet, tget_of_not_mem _ h, hi]

end

/-- The requests of a channel withdraw (R242). -/
theorem rbtGet_rbtDrop (c r : Nat) (d : Dev) :
    rbtGet (rbtDrop c d) r = { rbtGet d r with reqs := (rbtGet d r).reqs.filter (fun q => q.chan ≠ some c) } :=
  rbtGet_rbtAll (fun x => by simp [List.filter_filter]) rfl r d

theorem exec_roundaboutDecision {s : State} (o : Bool) (i : Nat) (raise : List (Nat × Traffic × Nat))
    (bursts : List (Nat × Nat × Nat)) (hs : Running s) :
    exec (.roundaboutDecision o i raise bursts) s = .next (after s (rbtCycle (rbtNo o i) raise bursts s.dev)) := by
  have hexec : exec (.roundaboutDecision o i raise bursts) s = execRoundaboutDecision o i raise bursts s := rfl
  rw [hexec, execRoundaboutDecision, run_running _ _ hs, rbtNo]

end Sys2Proof.Machine
end

section
/-!
THEOREM. Roundabout's cycles, and with them Boulevard and Roundabout (O39).
-/
namespace Sys2Proof.Machine

open Sys2Proof

theorem roundaboutCycles : RoundaboutCycles := by
  refine ⟨fun l q => rbtBest_some, ?_⟩
  intro s o i hs hi r x cap older seen cycle
  have hr : r < 104 := rbtNo_lt hi
  have hrow : ∀ raise bursts, exec (.roundaboutDecision o i raise bursts) s = .next (after s (rbtCycle r raise bursts s.dev)) :=
    fun raise bursts => exec_roundaboutDecision o i raise bursts hs
  have hcycle : cycle = .next (after s (rbtCycle r [] [] s.dev)) := hrow [] []
  refine ⟨?_, ?_, fun c => congrArg Rbt.reqs (rbtGet_rbtDrop c r s.dev)⟩
  · intro c new q hl hd hh hq hc hn z
    have hbest : rbtBest x.reqs = some q := by rw [hq]; simp [rbtBest]
    have hclass : rbtReclass c new { x with decision := some q, preempt := false, late := x.chg, chg := [] }
        = { x with reqs := [z], decision := some z, preempt := false, late := x.chg, chg := [] } :=
      rbtReclass_only rfl hh hq hc hn
    have hturn := rbtTurn_free (preEn s.dev r) hd hh
    rw [hbest] at hturn
    rw [hcycle, rbtCycle_eq hr [] [] (rbtEvents_undecided hd) hturn]
    simp only [hl, List.foldl_cons, List.foldl_nil, hclass]
    rfl
  · intro hl y
    have hcap : 0 < cap := by cases o <;> decide
    refine ⟨?_, ?_, ?_, ?_, ?_, ?_⟩
    · intro n t k m hd hh hk hm hnew
      have hreq : trafficReq r (n, t, k) = some ⟨m, trafficCls t, min cap k, none, 0, false⟩ := trafficReq_rbtNo hi hm k
      rw [hrow, rbtCycle_traffic hr (rbtEvents_undecided hd) (rbtTurn_free _ hd hh) hl hreq (lt_min hcap hk) hnew]
      rfl
    · intro n c k hd hh hk hg cls hnew
      have hreq : burstReq r s.dev (n, c, k) = some ⟨n, cls, min cap k, some c, 0, false⟩ := burstReq_rbtNo hi hg c k
      rw [hrow, rbtCycle_burst hr (rbtEvents_undecided hd) (rbtTurn_free _ hd hh) hl hreq (lt_min hcap hk) hnew]
      rfl
    · intro p q hd hp hh hu hpre hq rest
      rw [hcycle, rbtCycle_quiet hr (rbtEvents_grant hd hh hq) (rbtTurn_grant hpre hd hh hq hu) hl]
      rfl
    · intro p hd hgone
      have hq := find?_same_eq_none hgone
      constructor
      · intro hh hp
        rw [hcycle, rbtCycle_quiet hr (rbtEvents_null hd hq) (rbtTurn_null _ hd hp hh hq) hl]
        rfl
      · intro h hh hp back
        rw [hcycle, rbtCycle_quiet hr (rbtEvents_null hd hq) (rbtTurn_null_preempt _ hd hp hh hq) hl]
        rfl
    · intro p q h hd hp hh hc hu hq rest
      rw [hcycle, rbtCycle_quiet hr (rbtEvents_preempt hd hp hh hq) (rbtTurn_preempt _ hd hp hh hq hc hu) hl]
      rfl
    · intro h hd hh
      refine ⟨fun hu => ?_, fun hu hpre => ?_, fun q hu hpre hc hb hq => ?_⟩
      · rw [hcycle, rbtCycle_quiet hr (rbtEvents_undecided hd) (rbtTurn_last _ hd hh hu) hl]
        rfl
      · rw [hcycle, rbtCycle_quiet hr (rbtEvents_undecided hd) (rbtTurn_more hpre hd hh hu) hl, ← hd]
        rfl
      · rw [hcycle, rbtCycle_quiet hr (rbtEvents_undecided hd) (rbtTurn_more_preempted hpre hd hh hu hc hb hq) hl]
        rfl

/-- Settles O39: a flit error is caught as each step of its CRC keeps messages apart; a fault and a cycle of a Roundabout go by
the case their unit is in. -/
theorem boulevardAndRoundabout : Obligations.BoulevardAndRoundabout := ⟨boulevardFaults, roundaboutCycles⟩

end Sys2Proof.Machine
end

section
/-!
SUPPORT. Meanings of the engine and the mover while no Fatal fault stands (R436), and reading programs and subchannels back after a
change.
-/
namespace Sys2Proof.Machine

open Sys2Proof

/-! ### Meanings of the engine, the handlers and the mover (R436) -/

theorem run_liveC {s : State} (f : Dev → Dev) (h : Engine s) : run s (liveC f) = .next (sweptC s (f s.dev)) := by
  obtain ⟨hrun, hfatal⟩ := h
  rw [run_running _ _ hrun, liveC, liveA, live, if_neg (by simp [hfatal])]
  rfl

theorem run_liveM {s : State} (f : Dev → Dev) (h : Engine s) : run s (liveM f) = .next (sweptM s (f s.dev)) :=
  run_liveC (fun d => dispatchAll (f d)) h

theorem run_liveP {s : State} (f : Dev → Dev) (h : Engine s) : run s (liveP f) = .next (sweptP s (f s.dev)) :=
  run_liveC _ h

/-! ### Programs -/

theorem find?_tins_self {α : Type} {t : Tbl α} {k : Nat} (v : α) (h : ∀ e ∈ t, e.1 ≠ k) :
    (tins t k v).find? (fun e => e.1 = k) = some (k, v) := by
  induction t with
  | nil => simp [tins]
  | cons e t ih =>
    obtain ⟨j, u⟩ := e
    have hj : j ≠ k := h (j, u) (by simp)
    by_cases hk : k < j
    · simp [tins, hk]
    · simp [tins, hk, hj, ih (fun e he => h e (by simp [he]))]

/-- A program reads as it was stored. -/
@[simp] theorem progOf_progSet_self (n : Nat) (p : Prog) (d : Dev) : progOf (progSet n p d) n = some p := by
  simp [progOf, progSet, find?_tins_self p (tdel_keys d.progs n)]

@[simp] theorem progSet_progSet (n : Nat) (p q : Prog) (d : Dev) : progSet n q (progSet n p d) = progSet n q d := by
  simp [progSet, tdel_tins _ _ p (tdel_keys d.progs n)]

theorem progOf_congr {d e : Dev} (h : e.progs = d.progs) (n : Nat) : progOf e n = progOf d n := by rw [progOf, h, progOf]

/-- Storing a program changes the programs and nothing else. -/
theorem progSet_frame (n : Nat) (p : Prog) (d : Dev) : ∃ t, progSet n p d = { d with progs := t } := ⟨_, rfl⟩

@[simp] theorem subGet_progSet (n k : Nat) (p : Prog) (d : Dev) : subGet (progSet n p d) k = subGet d k := rfl

/-! ### Subchannels -/

@[simp] theorem subSet_progs (n : Nat) (v : Sub) (d : Dev) : (subSet n v d).progs = d.progs := by
  obtain ⟨t, h⟩ := subSet_frame n v d
  rw [h]

/-- What a store leaves of a subchannel, SEQ of its window entry apart, reads as before on every subchannel; on one that does not exist
nothing is stored. -/
theorem subGet_subSet_keeps {β : Type} (φ : Sub → β) (hseq : ∀ x q, φ { x with swSeq := q } = φ x) {n : Nat} {v : Sub} {d : Dev}
    (hv : φ v = φ (subGet d n)) (k : Nat) : φ (subGet (subSet n v d) k) = φ (subGet d k) := by
  by_cases hk : k = n
  · subst hk
    by_cases hn : k < Config.subchannels
    · obtain ⟨q, hq⟩ := subGet_subSet_self v d hn
      rw [hq, hseq, hv]
    · simp [subSet, hn]
  · rw [subGet_subSet_other v d hk]

end Sys2Proof.Machine
end

section
/-!
SUPPORT. What the accesses of a command's stream leave alone: the programs, and of every subchannel all but its latest choice of an
upstream port (R256, R261, R271, R515).
-/
namespace Sys2Proof.Machine

open Sys2Proof

/-- The devices agree on every program, and on every subchannel but for its latest upstream port and SEQ of its window entry. -/
def SameRecords (d e : Dev) : Prop :=
  e.progs = d.progs ∧ ∀ k, ∃ u q, subGet e k = { subGet d k with sgUp := u, swSeq := q }

theorem SameRecords.of_eq {d e : Dev} (hp : e.progs = d.progs) (hs : e.subs = d.subs) : SameRecords d e :=
  ⟨hp, fun k => ⟨(subGet d k).sgUp, (subGet d k).swSeq, by simp [subGet, hs]⟩⟩

theorem SameRecords.refl (d : Dev) : SameRecords d d := .of_eq rfl rfl

theorem SameRecords.trans {a b c : Dev} (h : SameRecords a b) (k : SameRecords b c) : SameRecords a c := by
  refine ⟨k.1.trans h.1, fun n => ?_⟩
  obtain ⟨u, q, hb⟩ := h.2 n
  obtain ⟨v, r, hc⟩ := k.2 n
  exact ⟨v, r, by rw [hc, hb]⟩

theorem SameRecords.progOf {d e : Dev} (h : SameRecords d e) (n : Nat) : progOf e n = progOf d n := progOf_congr h.1 n

theorem SameRecords.ownerOf {d e : Dev} (h : SameRecords d e) (n : Nat) : ownerOf (subGet e n) = ownerOf (subGet d n) := by
  obtain ⟨u, q, hn⟩ := h.2 n
  rw [hn]
  rfl

theorem SameRecords.groupMember {d e : Dev} (h : SameRecords d e) (n : Nat) (t : Handler) (p : Prog) :
    groupMember (subGet e n) t p = groupMember (subGet d n) t p := by
  obtain ⟨u, q, hn⟩ := h.2 n
  rw [hn]
  rfl

/-! ### Accesses to host memory (R271, R515) -/

theorem sameRecords_emit (o : Out) (d : Dev) : SameRecords d (emit o d) := .refl d

theorem sameRecords_sgUp (n : Nat) (u : Option Nat) (d : Dev) : SameRecords d (subSet n { subGet d n with sgUp := u } d) := by
  refine ⟨subSet_progs _ _ _, fun k => ?_⟩
  by_cases hk : k = n
  · subst hk
    by_cases hn : k < Config.subchannels
    · obtain ⟨q, hq⟩ := subGet_subSet_self { subGet d k with sgUp := u } d hn
      exact ⟨u, q, hq⟩
    · exact ⟨(subGet d k).sgUp, (subGet d k).swSeq, by simp [subSet, hn]⟩
  · exact ⟨(subGet d k).sgUp, (subGet d k).swSeq, by rw [subGet_subSet_other _ d hk]⟩

theorem sameRecords_notePort (v : Via) (p : Nat) (d : Dev) : SameRecords d (notePort v p d) := by
  unfold notePort
  dsimp only
  split
  · split
    · exact .of_eq rfl rfl
    · exact (SameRecords.of_eq rfl rfl).trans (sameRecords_sgUp _ _ _)
  · exact .of_eq rfl rfl

theorem sameRecords_takePort (v : Via) (f : FnId) (a : Nat) (d : Dev) : SameRecords d (takePort v f a d).2 := by
  unfold takePort
  dsimp only
  split
  · exact .refl d
  · exact .refl d
  · exact sameRecords_notePort _ _ _

theorem sameRecords_sendHost (v : Via) (f : FnId) (o : HostReq) (d : Dev) : SameRecords d (sendHost v f o d) := by
  unfold sendHost
  dsimp only
  split
  · exact sameRecords_takePort ..
  · exact sameRecords_takePort ..

theorem sameRecords_askXlate (f : FnId) (ps : List Nat) (d : Dev) : SameRecords d (askXlate f ps d) := by
  unfold askXlate
  induction ps generalizing d with
  | nil => exact .refl d
  | cons p t ih =>
    rw [List.foldl_cons]
    refine SameRecords.trans ?_ (ih _)
    split
    · exact .refl d
    · exact .of_eq rfl rfl

/-- A request to host memory, sent or held. -/
theorem sameRecords_hostOut (v : Via) (f : FnId) (o : HostReq) (d : Dev) : SameRecords d (hostOut v f o d) := by
  unfold hostOut
  split
  · exact .of_eq rfl rfl
  · split
    · exact sameRecords_sendHost ..
    · exact (SameRecords.of_eq rfl rfl).trans (sameRecords_askXlate ..)

theorem sameRecords_takeStream (n : Nat) (l : List Seg) (d : Dev) : SameRecords d (takeStream n l d).2 := by
  unfold takeStream
  split
  · exact .refl d
  · exact sameRecords_takePort ..

/-! ### Slices and mover channels of a stream (R225, R256, R274) -/

theorem sameRecords_beginBanks (n : Nat) (ends : List Nat) (d : Dev) : SameRecords d (beginBanks n ends d) := .of_eq rfl rfl

theorem sameRecords_takeSlices {elig : List Nat} {v : Slice} {ends set l rest : List Nat} {n : Nat} {d e : Dev}
    (h : takeSlices elig v ends set n d = some (l, rest, e)) : SameRecords d e := by
  induction n generalizing set d l with
  | zero => cases h; exact .refl _
  | succ n ih =>
    simp only [takeSlices] at h
    split at h
    · cases h
    · obtain ⟨⟨l', rest', e'⟩, ht, he⟩ := Option.map_eq_some_iff.mp h
      cases he
      refine SameRecords.trans ?_ (ih ht)
      exact .of_eq rfl rfl

theorem sameRecords_pzGrant {n cls count : Nat} {ends l : List Nat} {d e : Dev} (h : pzGrant n cls count ends d = some (l, e)) :
    SameRecords d e := by
  unfold pzGrant at h
  split at h
  · obtain ⟨⟨l', rest, e'⟩, ht, he⟩ := Option.map_eq_some_iff.mp h
    cases he
    exact (sameRecords_takeSlices ht).trans (.of_eq rfl rfl)
  · cases h

/-- Slices asked for: what is granted, and the device that has queued the reservation. -/
theorem sameRecords_pzAsk (n cls count : Nat) (ends : List Nat) (d : Dev) :
    SameRecords d (pzAsk n cls count ends d).2 ∧ ∀ g, (pzAsk n cls count ends d).1 = some g → SameRecords d g.2 := by
  have hb : SameRecords d (if (tget d.bankSets n []).isEmpty then beginBanks n ends d else d) := by
    split
    · exact sameRecords_beginBanks ..
    · exact .refl d
  unfold pzAsk
  dsimp only
  generalize (if (tget d.bankSets n []).isEmpty then beginBanks n ends d else d) = e at hb
  split
  · exact ⟨hb.trans (.of_eq rfl rfl), fun g h => nomatch h⟩
  · split
    · rename_i g hg
      refine ⟨hb, fun g' h => ?_⟩
      cases h
      exact hb.trans (sameRecords_pzGrant hg)
    · exact ⟨hb.trans (.of_eq rfl rfl), fun g h => nomatch h⟩

/-- Slices of the command in hand: held, granted or waited for. -/
theorem sameRecords_streamHold (n cls count : Nat) (ends : List Nat) (d : Dev) : SameRecords d (streamHold n cls count ends d).2 := by
  unfold streamHold
  split
  · exact .refl d
  · split
    · exact .refl d
    · have h0 : SameRecords d { d with bankSets := tdel d.bankSets n } := .of_eq rfl rfl
      obtain ⟨hq, hg⟩ := sameRecords_pzAsk n cls count ends { d with bankSets := tdel d.bankSets n }
      generalize pzAsk n cls count ends { d with bankSets := tdel d.bankSets n } = r at hq hg
      obtain ⟨_ | g, e⟩ := r
      · exact h0.trans hq
      · exact h0.trans (hg g rfl)

/-- Mover channels asked for, received or waited for. -/
theorem sameRecords_chanHold (n k : Nat) (d : Dev) : SameRecords d (chanHold n k d).2 := by
  rcases chanHold_cases n k d with h | ⟨e, he, -, h⟩ | h | h <;> rw [h]
  · exact .refl d
  · rw [takeChans_frame he]; exact .of_eq rfl rfl
  · exact .refl d
  · exact .of_eq rfl rfl

/-! ### The end of a stream (R222, R234, R274) -/

theorem pageEvent_progs_subs (p b : Nat) (d : Dev) : (pageEvent p b d).progs = d.progs ∧ (pageEvent p b d).subs = d.subs := by
  unfold pageEvent pageSummary
  obtain ⟨⟨_, _, _, _, _, _, _, h⟩, -⟩ := sameButLog_srcLevel (0x2800 + p)
    (decide ((regGet (evtCount p b (regSetFld .evtPending p b b 1 d)) .evtPending p &&&
      regGet (evtCount p b (regSetFld .evtPending p b b 1 d)) .evtEnable p) ≠ 0)) (evtCount p b (regSetFld .evtPending p b b 1 d))
  rw [h]
  exact ⟨rfl, rfl⟩

theorem sameRecords_pageEvent (p b : Nat) (d : Dev) : SameRecords d (pageEvent p b d) :=
  .of_eq (pageEvent_progs_subs p b d).1 (pageEvent_progs_subs p b d).2

theorem sameRecords_regSetFld (r : Reg) (i hi lo v : Nat) (d : Dev) : SameRecords d (regSetFld r i hi lo v d) := .of_eq rfl rfl

theorem sameRecords_qshortCheck (d : Dev) : SameRecords d (qshortCheck d) := by
  unfold qshortCheck
  dsimp only
  split
  · split
    · exact .refl d
    · exact (sameRecords_regSetFld ..).trans (sameRecords_pageEvent ..)
  · exact sameRecords_regSetFld ..

theorem sameRecords_fenceNow (s : Nat) (d : Dev) : SameRecords d (fenceNow s d) := by
  unfold fenceNow
  refine SameRecords.trans ?_ (sameRecords_qshortCheck _)
  exact .of_eq rfl rfl

theorem sameRecords_foldl {α : Type} {f : Dev → α → Dev} (hf : ∀ d a, SameRecords d (f d a)) (l : List α) (d : Dev) :
    SameRecords d (l.foldl f d) := by
  induction l generalizing d with
  | nil => exact .refl d
  | cons a t ih => exact (hf d a).trans (ih _)

theorem sameRecords_freeSlices (gone : Nat → StreamHolder → Bool) (d : Dev) : SameRecords d (freeSlices gone d) := by
  unfold freeSlices fenceSweep
  refine SameRecords.trans ?_ (sameRecords_foldl (fun d s => sameRecords_fenceNow s d) _ _)
  exact .of_eq rfl rfl

theorem sameRecords_releaseSlices (n : Nat) (d : Dev) : SameRecords d (releaseSlices n d) := by
  unfold releaseSlices
  refine SameRecords.trans ?_ (sameRecords_freeSlices _ _)
  exact .of_eq rfl rfl

theorem sameRecords_releaseRun (n id : Nat) (d : Dev) : SameRecords d (releaseRun n id d) := sameRecords_freeSlices _ _

end Sys2Proof.Machine
end

section
/-!
SUPPORT. The command of one CCW in hand: when its row acts, what its data area is, and how it ends (R40, R69, R72, R76, R79).
-/
namespace Sys2Proof.Machine

open Sys2Proof

section
variable {s : State} {n : Nat} {x : Sub} {h : Handler} {p : Prog} {a : DWord} {w : QWord} (H : InHand s n x h p a w)
include H

theorem InHand.engine : Engine s := by obtain ⟨h, -⟩ := H; exact h
theorem InHand.sub : subGet s.dev n = x := by obtain ⟨-, h, -⟩ := H; exact h
theorem InHand.active : x.st = .active := by obtain ⟨-, -, h, -⟩ := H; exact h
theorem InHand.prog : progOf s.dev n = some p := by obtain ⟨-, -, -, h, -⟩ := H; exact h
theorem InHand.handler : handlerOf s.dev x = some h := by obtain ⟨-, -, -, -, h, -⟩ := H; exact h
theorem InHand.ready : p.stage = .ready := by obtain ⟨-, -, -, -, -, h, -⟩ := H; exact h
theorem InHand.chain : p.chain = [(a, w)] := by obtain ⟨-, -, -, -, -, -, h, -⟩ := H; exact h
theorem InHand.stopAt : p.stopAt = none := by obtain ⟨-, -, -, -, -, -, -, h, -⟩ := H; exact h
theorem InHand.alone : groupMember x h p = false := by obtain ⟨-, -, -, -, -, -, -, -, -, h, -⟩ := H; exact h
theorem InHand.marks : p.marks = [] := by obtain ⟨-, -, -, -, -, -, -, -, -, -, h, -⟩ := H; exact h
theorem InHand.lastPort : p.lastPort = none := by obtain ⟨-, -, -, -, -, -, -, -, -, -, -, h, -⟩ := H; exact h

/-- The row of the command in hand acts on it. -/
theorem InHand.withCommand {codes : List Nat} (f : Sub → Handler → Prog → Dev → Dev) (hc : ccwCode w ∈ codes) :
    withCommand n codes f s.dev = f x h p s.dev := by
  obtain ⟨-, rfl, hact, hp, hh, hst, hch, -, hgrp, -, -, -, hw, hr⟩ := H
  have hc' : codes.contains (ccwCode w) = true := by simpa using hc
  simp only [Machine.withCommand, hp, hh, hact, hst, hch, hw, hr, mayStart, hgrp, hc']
  simp

/-- A row whose meaning is one of a command's codes answers what it does to the device. -/
theorem InHand.row {i : Instr} {codes : List Nat} {f : Sub → Handler → Prog → Dev → Dev} {d : Dev}
    (hi : exec i s = run s (liveC (Machine.withCommand n codes f))) (hc : ccwCode w ∈ codes) (hf : f x h p s.dev = d) :
    exec i s = .next (sweptC s d) := by
  rw [hi, run_liveC _ H.engine, H.withCommand f hc, hf]

end

/-- With its slots, slices and channels there, its row acts on the device that holds them. -/
theorem Room.whenRoom {s : State} {n : Nat} {p : Prog} {k bytes ch : Nat} {ends : List Nat} {d : Dev}
    (R : Room s n p k bytes ch ends d) (f : Dev → Dev) : whenRoom n p k bytes ch ends f s.dev = f d := by
  obtain ⟨hk, hs, hc⟩ := R
  exact whenRoom_room f hk hs hc

theorem Room.sameRecords {s : State} {n : Nat} {p : Prog} {k bytes ch : Nat} {ends : List Nat} {d : Dev}
    (R : Room s n p k bytes ch ends d) : SameRecords s.dev d := by
  obtain ⟨-, -, hc⟩ := R
  have h1 := sameRecords_streamHold n 1 (min 64 ((bytes + 4095) / 4096)) ends s.dev
  have h2 := sameRecords_chanHold n ch (streamHold n 1 (min 64 ((bytes + 4095) / 4096)) ends s.dev).2
  rw [hc] at h2
  exact h1.trans h2

/-! ### The end of a command that no group holds (R69, R77) -/

theorem endNow_alone {n : Nat} {x : Sub} {h : Handler} {p : Prog} (hg : groupMember x h p = false) (e : Ended) (pos : Option DWord)
    (d : Dev) : endNow n x h p e pos d = commandEnd n p p.chain e pos d := by
  simp [endNow, hg]

section
variable {s : State} {n : Nat} {x : Sub} {h : Handler} {p : Prog} {a : DWord} {w : QWord} (H : InHand s n x h p a w)
include H

/-- A row that ends its command at once. -/
theorem InHand.endsBy {i : Instr} {codes : List Nat} {f : Sub → Handler → Prog → Dev → Dev} {e : Ended} {pos : Option DWord} {d : Dev}
    (hi : exec i s = run s (liveC (Machine.withCommand n codes f))) (hc : ccwCode w ∈ codes)
    (hf : f x h p s.dev = endNow n x h p e pos d) : exec i s = .next (ended s n p e pos d) := by
  rw [H.row hi hc hf, endNow_alone H.alone]
  rfl

end

/-! ### The data area of one CCW (R37, R68, R72, R75) -/

section
variable {w : QWord} (A : HostArea w)
include A

theorem HostArea.buildSegs (d : Dev) (f : FnId) (a : DWord) (ida : List HostRead) :
    buildSegs d f [(a, w)] ida = ([⟨0, ccwAddr w, ccwCount w⟩], none) := by
  obtain ⟨hasel, hida, hskip, -⟩ := A
  simp [Machine.buildSegs, hasel, hida, hskip]

theorem HostArea.idaReads (d : Dev) (f : FnId) (a : DWord) (ida : List HostRead) : idaReads d f [(a, w)] ida = [] := by
  obtain ⟨-, hida, hskip, -⟩ := A
  simp [Machine.idaReads, hida, hskip]

theorem HostArea.count_pos : 0 < ccwCount w := by
  obtain ⟨-, -, -, hc⟩ := A
  exact hc

theorem HostArea.asel : ccwAsel w = 0 := by
  obtain ⟨h, -⟩ := A
  exact h

end

@[simp] theorem chainCount_single (a : DWord) (w : QWord) : chainCount [(a, w)] = ccwCount w := by simp [chainCount]

@[simp] theorem emitIda_nil (n : Nat) (d : Dev) : emitIda n [] d = d := rfl

@[simp] theorem hostWaits_nil (d : Dev) (f : FnId) : hostWaits d f [] = false := rfl

@[simp] theorem hostGo_nil (f : FnId) (g : Dev → Dev) (d : Dev) : hostGo f [] g d = g d := hostGo_now g rfl

theorem segCut_single {k : Nat} {g : Seg} (hk : 0 < k) (hg : k ≤ g.len) : segCut k [g] = [{ g with len := k }] := by
  have h0 : k ≠ 0 := by omega
  simp [segCut, h0, hg]

/-- A read of segments none of which lies in a scratch area is held on no check block (R228). -/
theorem scratchGo_host {n : Nat} {l : List Seg} (hl : ∀ g ∈ l, g.space ≠ 1) (f : Dev → Dev) (d : Dev) : scratchGo n l f d = f d := by
  have hf : l.filter (fun g => decide (g.space = 1)) = [] := by
    rw [List.filter_eq_nil_iff]
    intro g hg
    simpa using hl g hg
  simp [scratchGo, segBlocks, hf, inRefill]

/-- A stream waits for no other port when no stream before it wrote host memory (R272). -/
theorem portGo_first {n : Nat} {p : Prog} (hp : p.lastPort = none) (port : Option Nat) (f : Dev → Dev) (d : Dev) :
    portGo n p port f d = f d := by
  simp [portGo, portWaits, hp]

theorem markPut_nil {n : Nat} {p : Prog} {d : Dev} (hm : p.marks = []) (hp : progOf d n = some p) : markPut n [] d = progSet n p d := by
  cases p
  subst hm
  simp [markPut, hp, markGo]

/-- The command of one CCW has no later CCWs that begin with its data (R76). -/
theorem chainMarks_single {n : Nat} {p : Prog} {a : DWord} {w : QWord} {d : Dev} (hc : p.chain = [(a, w)]) (hm : p.marks = [])
    (hp : progOf d n = some p) (len : Nat) (stop : Option Ended) : chainMarks n p len stop d = (p, progSet n p d) := by
  have hkeep : withMarks n p (progSet n p d) = p := by simp [withMarks]
  unfold chainMarks
  rw [hc]
  dsimp only [chainBegun]
  rw [markPut_nil hm hp, hkeep]

/-- Bytes as many as asked for are taken as they are. -/
theorem fitBytes_of_length {k : Nat} {b : List Byte} (h : b.length = k) : fitBytes k b = b := by
  subst h
  simp [fitBytes]

end Sys2Proof.Machine
end

section
/-!
SUPPORT. The rows of the vendor handlers on a data area in host memory: what each does with its slots, slices and translations there, and
the ends its checks give (R48 to R55, R79, R515).
-/
namespace Sys2Proof.Machine

open Sys2Proof

/-! ### A stream of one host segment -/

/-- A row that reads one host segment, with its room and its translations there, acts on the device that holds its room. -/
theorem Room.readsHost {s : State} {n : Nat} {p : Prog} {k bytes ch : Nat} {ends : List Nat} {d' : Dev} {a : DWord} {len : Nat}
    {f : FnId} {l : List (DWord × Nat × Bool)} (R : Room s n p k bytes ch ends d') (hw : hostWaits d' f l = false)
    (row : Dev → Dev) : scratchGo n [⟨0, a, len⟩] (Machine.whenRoom n p k bytes ch ends (hostGo f l row)) s.dev = row d' := by
  rw [scratchGo_host (by simp), R.whenRoom, hostGo_now row hw]

@[simp] theorem gather_host_ok (d : Dev) (f : FnId) (a : DWord) (k off : Nat) (b : List Byte) :
    gather d f [⟨0, a, k⟩] [.ok b] off = (fitBytes k b, none) := by simp [gather]

@[simp] theorem gather_host_err (d : Dev) (f : FnId) (a : DWord) (k off : Nat) (e : BusErr) :
    gather d f [⟨0, a, k⟩] [.err e] off = ([], some off) := by simp [gather]

@[simp] theorem gatherTouch_host_ok (a : DWord) (k : Nat) (b : List Byte) : gatherTouch [⟨0, a, k⟩] [.ok b] = [(a, k, true)] := by
  simp [gatherTouch]

@[simp] theorem gatherTouch_host_err (a : DWord) (k : Nat) (e : BusErr) : gatherTouch [⟨0, a, k⟩] [.err e] = [(a, k, false)] := by
  simp [gatherTouch]

/-- A segment cut to its own length is whole. -/
theorem segCut_all {a : DWord} {k : Nat} (hk : 0 < k) : segCut k [(⟨0, a, k⟩ : Seg)] = [⟨0, a, k⟩] := segCut_single hk (Nat.le_refl k)

/-- A transfer as long as its count gives no IL (R73). -/
theorem ilOf_even {r : Run} (h : r.devLen = r.total) : ilOf r = 0 := by simp [ilOf, h]

/-! ### The namespace's checks (R49) -/

theorem nvmeRefuse_none {x : Sub} {a : DWord} {c pos k : Nat} (hid : x.hpriv.nsid ≠ 0) (hfit : pos + k ≤ x.hpriv.blocks) :
    nvmeRefuse x a c pos k = none := by simp [nvmeRefuse, hid, hfit]

theorem nvmeRefuse_past {x : Sub} {a : DWord} {c pos k : Nat} (hid : x.hpriv.nsid ≠ 0) (hpast : x.hpriv.blocks < pos + k) :
    nvmeRefuse x a c pos k = some (endUc a c 3 x.hpriv.nsid pos) := by simp [nvmeRefuse, hid, hpast]

theorem nvmeRefuse_noNamespace {x : Sub} {a : DWord} {c pos k : Nat} (hid : x.hpriv.nsid = 0) :
    nvmeRefuse x a c pos k = some (endUc a c 4 0 pos) := by simp [nvmeRefuse, hid]

theorem bsOf_pos (x : Sub) : 0 < bsOf x := Nat.two_pow_pos _

/-- As many bytes as k blocks, rounded up to blocks, are k blocks. -/
theorem blocks_roundUp (x : Sub) (k : Nat) : (k * bsOf x + bsOf x - 1) / bsOf x = k := by
  have hb := bsOf_pos x
  rw [show k * bsOf x + bsOf x - 1 = (bsOf x - 1) + bsOf x * k by rw [Nat.mul_comm]; omega, Nat.add_mul_div_left _ _ hb,
    Nat.div_eq_of_lt (by omega), Nat.zero_add]

/-- A row that moves blocks of its namespace moves at least one. -/
theorem HostArea.blocks_pos {x : Sub} {w : QWord} (A : HostArea w) {k : Nat} (hk : ccwCount w = k * bsOf x) : 0 < k := by
  have hpos := A.count_pos
  rw [hk] at hpos
  exact Nat.pos_of_mul_pos_right hpos

section
variable {s : State} {n : Nat} {x : Sub} {p : Prog} {a : DWord} {w : QWord} (H : InHand s n x .nvme p a w)
include H

/-- Without a namespace the data commands end with UC 4 (R49). -/
theorem InHand.write_noNamespace (io : CmdIo) (hid : x.hpriv.nsid = 0) (d : Dev) :
    writeRow n io x .nvme p d = endNow n x .nvme p (endUc a (ccwCount w) 4 0 p.pos.toNat) none d := by
  simp [writeRow, H.chain, hid]

theorem InHand.read_noNamespace (io : CmdIo) (hid : x.hpriv.nsid = 0) (d : Dev) :
    readRow n io x .nvme p d = endNow n x .nvme p (endUc a (ccwCount w) 4 0 p.pos.toNat) none d := by
  simp [readRow, H.chain, nvmeRefuse_noNamespace hid]

theorem InHand.blocks_noNamespace (mk : Nat → Nat → Nat → OpKind) (hid : x.hpriv.nsid = 0) (d : Dev) :
    blocksRow n mk x .nvme p d = endNow n x .nvme p (endUc a (ccwCount w) 4 0 p.pos.toNat) none d := by
  simp [blocksRow, H.chain, hid]

theorem InHand.compare_noNamespace (io : CmdIo) (hid : x.hpriv.nsid = 0) (d : Dev) :
    compareRow n io x .nvme p d = endNow n x .nvme p (endUc a (ccwCount w) 4 0 p.pos.toNat) none d := by
  simp [compareRow, H.chain, hid]

variable {k : Nat} (hid : x.hpriv.nsid ≠ 0) (hk : ccwCount w = k * bsOf x)
include hid hk

/-- Past the end of the namespace they end with UC 3, which names it (R49). -/
theorem InHand.blocks_past (mk : Nat → Nat → Nat → OpKind) (hpast : x.hpriv.blocks < p.pos.toNat + k) (d : Dev) :
    blocksRow n mk x .nvme p d = endNow n x .nvme p (endUc a (ccwCount w) 3 x.hpriv.nsid p.pos.toNat) none d := by
  simp only [blocksRow, H.chain, hk, Nat.mul_div_cancel _ (bsOf_pos x), Nat.mul_mod_left, if_neg hid, List.headD_cons,
    nvmeRefuse_past hid hpast, ne_eq, not_true_eq_false, if_false]

theorem InHand.compare_past (hpast : x.hpriv.blocks < p.pos.toNat + k) (d : Dev) :
    compareRow n ⟨[], []⟩ x .nvme p d = endNow n x .nvme p (endUc a (ccwCount w) 3 x.hpriv.nsid p.pos.toNat) none d := by
  simp only [compareRow, H.chain, H.stopAt, chainCount_single, hk, Nat.mul_div_cancel _ (bsOf_pos x), Nat.mul_mod_left,
    if_neg hid, List.headD_cons, nvmeRefuse_past hid hpast, ne_eq, not_true_eq_false, decide_false, Bool.and_false,
    Bool.false_eq_true, if_false]

/-- DEALLOCATE and WRITE-ZEROES issue their operation, which transfers no data (R48, R70). -/
theorem InHand.blocks_issue (mk : Nat → Nat → Nat → OpKind) (hfit : p.pos.toNat + k ≤ x.hpriv.blocks) (d : Dev) :
    blocksRow n mk x .nvme p d = whenRoom n p 1 0 0 [] (runOne n x .nvme p
      { newRun p [] (ccwCount w) (ccwCount w) (p.pos + BitVec.ofNat 64 k) none with ownResid := some (ccwCount w) } false
      (mk x.hpriv.nsid p.pos.toNat k)) d := by
  simp only [blocksRow, H.chain, hk, Nat.mul_div_cancel _ (bsOf_pos x), Nat.mul_mod_left, if_neg hid, List.headD_cons,
    nvmeRefuse_none hid hfit, ne_eq, not_true_eq_false, if_false]

variable (A : HostArea w)
include A

theorem InHand.write_past (hpast : x.hpriv.blocks < p.pos.toNat + k) (io : List HostRead) (d : Dev) :
    writeRow n ⟨[], io⟩ x .nvme p d = endNow n x .nvme p (endUc a (ccwCount w) 3 x.hpriv.nsid p.pos.toNat) none d := by
  have hpos := A.blocks_pos hk
  have hbs := bsOf_pos x
  have hle : ¬ k * bsOf x < bsOf x := by simpa using Nat.le_mul_of_pos_left _ hpos
  simp only [writeRow, H.chain, H.stopAt, A.buildSegs, chainCount_single, hk, Nat.mul_div_cancel _ hbs, if_neg hid, List.headD_cons,
    Option.orElse, hle, hpos.ne', if_false, nvmeRefuse_past hid hpast, decide_false, Bool.and_false, Bool.false_eq_true]

theorem InHand.read_past (hpast : x.hpriv.blocks < p.pos.toNat + k) (d : Dev) :
    readRow n ⟨[], []⟩ x .nvme p d = endNow n x .nvme p (endUc a (ccwCount w) 3 x.hpriv.nsid p.pos.toNat) none d := by
  simp only [readRow, H.chain, H.stopAt, A.buildSegs, chainCount_single, hk, blocks_roundUp, List.headD_cons, Option.orElse,
    nvmeRefuse_past hid hpast]

/-- Without its slot READ waits (R79). -/
theorem InHand.read_full (hfit : p.pos.toNat + k ≤ x.hpriv.blocks) (hs : slotsFree s.dev p.cp 1 = false) :
    readRow n ⟨[], []⟩ x .nvme p s.dev = s.dev := by
  have hpos := (A.blocks_pos hk).ne'
  simp only [readRow, H.chain, H.stopAt, A.buildSegs, chainCount_single, hk, blocks_roundUp, List.headD_cons, Option.orElse,
    nvmeRefuse_none hid hfit, hpos, if_false, whenRoom_full _ hs]

section
variable {d' : Dev} (hfit : p.pos.toNat + k ≤ x.hpriv.blocks)
  (R : Room s n p 1 (ccwCount w) 1 (rowEnds s.dev n [⟨0, ccwAddr w, ccwCount w⟩] [n]) d')
include hfit R

theorem InHand.read_issue : readRow n ⟨[], []⟩ x .nvme p s.dev
    = runOne n x .nvme p (newRun p [⟨0, ccwAddr w, ccwCount w⟩] (ccwCount w) (ccwCount w) (p.pos + BitVec.ofNat 64 k) none) false
        (.nvmeRead x.hpriv.nsid p.pos.toNat k) (progSet n p d') := by
  have hpos := (A.blocks_pos hk).ne'
  have hp' : progOf d' n = some p := by rw [R.sameRecords.progOf, H.prog]
  rw [hk] at R
  simp only [readRow, H.chain, H.stopAt, A.buildSegs, A.idaReads, chainCount_single, hk, blocks_roundUp, List.headD_cons, Option.orElse,
    nvmeRefuse_none hid hfit, hpos, if_false, hostGo_nil, emitIda_nil, R.whenRoom, chainMarks_single H.chain H.marks hp']

theorem InHand.write_issue {b : List Byte} (hb : b.length = ccwCount w)
    (hw : hostWaits d' (ownerOf x) [(ccwAddr w, ccwCount w, true)] = false) : writeRow n ⟨[], [.ok b]⟩ x .nvme p s.dev
      = runOne n x .nvme p (newRun p [⟨0, ccwAddr w, ccwCount w⟩] (ccwCount w) (ccwCount w) (p.pos + BitVec.ofNat 64 k) none) false
          (.nvmeWrite x.hpriv.nsid p.pos.toNat k x.hpriv.fua b) (emitReads n [⟨0, ccwAddr w, ccwCount w⟩] (progSet n p d')) := by
  have hpos := A.blocks_pos hk
  have hbs := bsOf_pos x
  have hc : 0 < k * bsOf x := Nat.mul_pos hpos hbs
  have hle : ¬ k * bsOf x < bsOf x := by simpa using Nat.le_mul_of_pos_left _ hpos
  have hp' : progOf d' n = some p := by rw [R.sameRecords.progOf, H.prog]
  rw [hk] at R hw hb
  simp only [writeRow, H.chain, H.stopAt, A.buildSegs, A.idaReads, chainCount_single, hk, Nat.mul_div_cancel _ hbs, if_neg hid,
    List.headD_cons, Option.orElse, hle, hpos.ne', if_false, nvmeRefuse_none hid hfit, decide_false, Bool.and_false, Bool.false_eq_true,
    hc.ne', segCut_all hc, List.nil_append, gatherTouch_host_ok, R.readsHost hw, emitIda_nil, chainMarks_single H.chain H.marks hp',
    gather_host_ok, fitBytes_of_length hb]

/-- A WRITE whose read fails ends with CDC, at the CCW whose data could not be read (R81). -/
theorem InHand.write_unread {e : BusErr} (hw : hostWaits d' (ownerOf x) [(ccwAddr w, ccwCount w, false)] = false) :
    writeRow n ⟨[], [.err e]⟩ x .nvme p s.dev
      = endNow n x .nvme p (endC csCdc a (ccwCount w)) none (emitReads n [⟨0, ccwAddr w, ccwCount w⟩] (progSet n p d')) := by
  have hpos := A.blocks_pos hk
  have hbs := bsOf_pos x
  have hc : 0 < k * bsOf x := Nat.mul_pos hpos hbs
  have hle : ¬ k * bsOf x < bsOf x := by simpa using Nat.le_mul_of_pos_left _ hpos
  have hp' : progOf d' n = some p := by rw [R.sameRecords.progOf, H.prog]
  rw [hk] at R hw
  simp only [writeRow, H.chain, H.stopAt, A.buildSegs, A.idaReads, chainCount_single, hk, Nat.mul_div_cancel _ hbs, if_neg hid,
    List.headD_cons, Option.orElse, hle, hpos.ne', if_false, nvmeRefuse_none hid hfit, decide_false, Bool.and_false, Bool.false_eq_true,
    hc.ne', segCut_all hc, List.nil_append, gatherTouch_host_err, R.readsHost hw, emitIda_nil, chainMarks_single H.chain H.marks hp',
    gather_host_err]
  simp [newRun, H.chain, Machine.stopAt, ilOf_even, hk]

theorem InHand.compare_issue {b : List Byte} (hb : b.length = ccwCount w)
    (hw : hostWaits d' (ownerOf x) [(ccwAddr w, ccwCount w, true)] = false) : compareRow n ⟨[], [.ok b]⟩ x .nvme p s.dev
      = runOne n x .nvme p (newRun p [⟨0, ccwAddr w, ccwCount w⟩] (ccwCount w) (ccwCount w) (p.pos + BitVec.ofNat 64 k) none) false
          (.nvmeCompare x.hpriv.nsid p.pos.toNat k b) (emitReads n [⟨0, ccwAddr w, ccwCount w⟩] (progSet n p d')) := by
  have hpos := A.blocks_pos hk
  have hbs := bsOf_pos x
  have hc : 0 < k * bsOf x := Nat.mul_pos hpos hbs
  have hp' : progOf d' n = some p := by rw [R.sameRecords.progOf, H.prog]
  rw [hk] at R hw hb
  simp only [compareRow, H.chain, H.stopAt, A.buildSegs, A.idaReads, chainCount_single, hk, Nat.mul_div_cancel _ hbs, if_neg hid,
    List.headD_cons, Option.orElse, hpos.ne', if_false, nvmeRefuse_none hid hfit, Nat.mul_mod_left, ne_eq, not_true_eq_false,
    decide_false, Bool.and_false, Bool.false_eq_true, segCut_all hc, List.nil_append, gatherTouch_host_ok, R.readsHost hw, emitIda_nil,
    chainMarks_single H.chain H.marks hp', gather_host_ok, fitBytes_of_length hb]

end

end

end Sys2Proof.Machine
end

section
/-!
SUPPORT. CONTROL: the parameter block, the checks of its bytes, and what it applies (R52, R53, R55).
-/
namespace Sys2Proof.Machine

open Sys2Proof

theorem leNat_lt (b : List Byte) : leNat b < 256 ^ b.length := by
  induction b with
  | nil => simp [leNat]
  | cons c t ih =>
    have hc := c.isLt
    simp only [leNat, List.length_cons, Nat.pow_succ]
    omega

/-- The number of a block of 32 bytes fits a parameter block. -/
theorem toNat_block {b : List Byte} (hb : b.length = 32) : (BitVec.ofNat 256 (leNat b)).toNat = leNat b := by
  have hlt := leNat_lt b
  rw [hb] at hlt
  exact Nat.mod_eq_of_lt (by simpa using hlt)

/-- TYPE and LEN of a parameter block are its bytes 0 and 1 (R52). -/
theorem block_head {b : List Byte} (hb : b.length = 32) :
    leNat (b.take 1) = bits (BitVec.ofNat 256 (leNat b)) 7 0 ∧ leNat ((b.drop 1).take 1) = bits (BitVec.ofNat 256 (leNat b)) 15 8 := by
  unfold bits
  rw [toNat_block hb]
  obtain _ | ⟨t, _ | ⟨l, r⟩⟩ := b
  · simp at hb
  · simp at hb
  · have ht := t.isLt
    have hl := l.isLt
    simp only [leNat, List.take_succ_cons, List.take_zero, List.drop_succ_cons, List.drop_zero]
    omega

/-- A block of TYPE and LEN as asked, none of whose further checks fails, passes. -/
theorem blockFault_none {b : List Byte} {type len : Nat} {more : List (Bool × Nat)} (hb : b.length = 32)
    (ht : bits (BitVec.ofNat 256 (leNat b)) 7 0 = type) (hl : bits (BitVec.ofNat 256 (leNat b)) 15 8 = len)
    (hm : ∀ c ∈ more, c.1 = false) : blockFault b type len more = none := by
  obtain ⟨h0, h1⟩ := block_head hb
  have hf : more.find? (·.1) = none := by
    rw [List.find?_eq_none]
    intro c hc
    simp [hm c hc]
  simp only [blockFault, h0, h1, ht, hl, hf, ne_eq, not_true_eq_false, if_false, Option.map_none]

theorem readBlock_host_ok {b : List Byte} {k : Nat} (hb : b.length = k) (d : Dev) (f : FnId) (a : DWord) :
    readBlock d f 0 k a (.ok b) = some b := by simp [readBlock, fitBytes_of_length hb]

/-- One segment of host memory is held on no check block (R228). -/
@[simp] theorem scratchGo_oneHost (n : Nat) (a : DWord) (k : Nat) (f : Dev → Dev) (d : Dev) : scratchGo n [⟨0, a, k⟩] f d = f d :=
  scratchGo_host (by simp) f d

section
variable {s : State} {n : Nat} {x : Sub} {h : Handler} {p : Prog} {a : DWord} {w : QWord} (H : InHand s n x h p a w)
include H

/-- The request for the block leaves the command one that no group holds. -/
theorem InHand.alone_hostOut (o : HostReq) : groupMember (subGet (hostOut (.sub n) (ownerOf x) o s.dev) n) h p = false := by
  rw [(sameRecords_hostOut _ _ _ _).groupMember, H.sub, H.alone]

end

section
variable {s : State} {n : Nat} {x : Sub} {p : Prog} {a : DWord} {w : QWord} {b : List Byte} {v : BitVec 256}
  (A : HostArea w) (hc : ccwCount w = 32) (hw : hostWaits s.dev (ownerOf x) [(ccwAddr w, 32, true)] = false)
  (hb : b.length = 32) (hv : v = BitVec.ofNat 256 (leNat b))
include A hc hw hb hv

/-- CONTROL of an NVMe subchannel that names a namespace (R52, R53). -/
theorem InHand.control_namespace (H : InHand s n x .nvme p a w) (ns : NsInfo) (ht : bits v 7 0 = 1) (hl : bits v 15 8 = 0x20)
    (hm : bits v 31 19 = 0) (hz : bits v 255 128 = 0) (hset : bit v 16 = true) (hid : bits v 63 32 ≠ 0) :
    let d1 := hostOut (.sub n) (ownerOf x) (.read (ccwAddr w) 32) s.dev
    let after := controlRow n (.ok b) ns x .nvme p s.dev
    (ns.active = false → after = commandEnd n p p.chain (endUc a (ccwCount w) 4 (bits v 63 32) p.pos.toNat) none d1)
    ∧ (ns.active = true → bit v 17 = true → ns.blocks < bits v 127 64 →
      after = commandEnd n p p.chain (endUc a (ccwCount w) 3 (bits v 63 32) p.pos.toNat) none d1)
    ∧ (ns.active = true → (bit v 17 = true → bits v 127 64 ≤ ns.blocks) →
      after = commandEnd n p p.chain (endC 0 a 0) (some (if bit v 17 then BitVec.ofNat 64 (bits v 127 64) else p.pos))
        (subSet n { x with hpriv := { x.hpriv with
          nsid := bits v 63 32, blocks := ns.blocks, fua := bit v 18, bsLog := ns.bsLog } } d1)) := by
  subst hv
  have hf := blockFault_none (more := [(decide (bits (BitVec.ofNat 256 (leNat b)) 31 19 ≠ 0), 2),
    (decide (bits (BitVec.ofNat 256 (leNat b)) 255 128 ≠ 0), 16)]) hb ht hl (by simp [hm, hz])
  simp only [controlRow, H.chain, List.headD_cons, hc, A.asel, scratchGo_oneHost, Nat.lt_irrefl, if_false, if_true, readOk, hostGo_now _ hw,
    readBlock_host_ok hb, endNow_alone H.alone, endNow_alone (H.alone_hostOut _), Nat.sub_self]
  rw [hf]
  simp only [hset, if_true, if_neg hid]
  refine ⟨fun hact => ?_, fun hact hlba hpast => ?_, fun hact hin => ?_⟩
  · simp [hid, hact]
  · simp [hact, hlba, hpast]
  · have hlba : (bit (BitVec.ofNat 256 (leNat b)) 17 && decide (ns.blocks < bits (BitVec.ofNat 256 (leNat b)) 127 64)) = false := by
      simpa using hin
    simp [hact, hlba]

/-- CONTROL of a memory-window subchannel (R52, R55). -/
theorem InHand.control_window (H : InHand s n x .window p a w) (ns : NsInfo) (ht : bits v 7 0 = 2) (hl : bits v 15 8 = 0x20)
    (hwidth : bits v 18 17 ≠ 3) (hm : bits v 63 20 = 0) (hz : bits v 255 128 = 0)
    (hoff : bit v 16 = true → bits v 127 64 < x.hpriv.size) :
    controlRow n (.ok b) ns x .window p s.dev
      = commandEnd n p p.chain (endC 0 a 0) (some (if bit v 16 then BitVec.ofNat 64 (bits v 127 64) else p.pos))
          (subSet n { x with hpriv := { x.hpriv with width := bits v 18 17, rlx := bit v 19 } }
            (hostOut (.sub n) (ownerOf x) (.read (ccwAddr w) 32) s.dev)) := by
  subst hv
  have hf := blockFault_none (more := [(decide (bits (BitVec.ofNat 256 (leNat b)) 18 17 = 3), 2),
    (decide (bits (BitVec.ofNat 256 (leNat b)) 63 20 ≠ 0), 2),
    (bit (BitVec.ofNat 256 (leNat b)) 16 && decide (x.hpriv.size ≤ bits (BitVec.ofNat 256 (leNat b)) 127 64), 8),
    (decide (bits (BitVec.ofNat 256 (leNat b)) 255 128 ≠ 0), 16)]) hb ht hl (by simpa [hwidth, hm, hz] using hoff)
  simp only [controlRow, H.chain, List.headD_cons, hc, A.asel, scratchGo_oneHost, Nat.lt_irrefl, if_false, if_true, readOk, hostGo_now _ hw,
    readBlock_host_ok hb, endNow_alone (H.alone_hostOut _), Nat.sub_self]
  rw [hf]

end

end Sys2Proof.Machine
end

section
/-!
SUPPORT. The rows of the memory window, of PEER and of the sets on data that is there (R54, R55, R57, R58, R67).
-/
namespace Sys2Proof.Machine

open Sys2Proof

/-- The bytes of one access of a memory window by its WIDTH; 1 where the window may choose (R55). -/
def accessBytes (x : Sub) : Nat := if x.hpriv.width = 1 then 4 else if x.hpriv.width = 2 then 8 else 1

theorem widthBad_eq_false {x : Sub} {pos c : Nat} : widthBad x pos c = false ↔ pos % accessBytes x = 0 ∧ c % accessBytes x = 0 := by
  simp [widthBad, accessBytes]

theorem widthBad_eq_true {x : Sub} {pos c : Nat} : widthBad x pos c = true ↔ pos % accessBytes x ≠ 0 ∨ c % accessBytes x ≠ 0 := by
  simp [widthBad, accessBytes]

/-- A whole transfer within the window is issued as it is. -/
theorem widthCut_within {x : Sub} {pos c : Nat} (hfit : pos + c ≤ x.hpriv.size) : widthCut x false (min c (x.hpriv.size - pos)) = c := by
  simp only [widthCut, Bool.false_eq_true, if_false]
  omega

section
variable {s : State} {n : Nat} {x : Sub} {p : Prog} {a : DWord} {w : QWord} (H : InHand s n x .window p a w)
include H

theorem InHand.windowWrite_misaligned (io : CmdIo) (hbad : widthBad x p.pos.toNat (ccwCount w) = true) (d : Dev) :
    writeRow n io x .window p d = endNow n x .window p (endUc a (ccwCount w) 2 0xFFFFFFFF p.pos.toNat) none d := by
  simp [writeRow, H.chain, H.stopAt, hbad]

theorem InHand.windowRead_misaligned (io : CmdIo) (hbad : widthBad x p.pos.toNat (ccwCount w) = true) (d : Dev) :
    readRow n io x .window p d = endNow n x .window p (endUc a (ccwCount w) 2 0xFFFFFFFF p.pos.toNat) none d := by
  simp [readRow, H.chain, H.stopAt, hbad]

section
variable (A : HostArea w) (hgood : widthBad x p.pos.toNat (ccwCount w) = false) (hfit : p.pos.toNat + ccwCount w ≤ x.hpriv.size)
  {d' : Dev} (R : Room s n p 1 (ccwCount w) 1 (rowEnds s.dev n [⟨0, ccwAddr w, ccwCount w⟩] [n]) d')
include A hgood hfit R

theorem InHand.windowWrite_issue {b : List Byte} (hb : b.length = ccwCount w)
    (hw : hostWaits d' (ownerOf x) [(ccwAddr w, ccwCount w, true)] = false) : writeRow n ⟨[], [.ok b]⟩ x .window p s.dev
      = runOne n x .window p (newRun p [⟨0, ccwAddr w, ccwCount w⟩] (ccwCount w) (ccwCount w) (p.pos + BitVec.ofNat 64 (ccwCount w)) none)
          false (.winWrite (x.hpriv.base + p.pos.toNat) x.hpriv.width x.hpriv.rlx b)
          (emitReads n [⟨0, ccwAddr w, ccwCount w⟩] (progSet n p d')) := by
  have hp' : progOf d' n = some p := by rw [R.sameRecords.progOf, H.prog]
  simp only [writeRow, H.chain, H.stopAt, A.buildSegs, A.idaReads, chainCount_single, List.headD_cons, Option.orElse, Option.isSome_none,
    Bool.false_eq_true, if_false, hgood, widthCut_within hfit, A.count_pos.ne', segCut_all A.count_pos, List.nil_append,
    gatherTouch_host_ok, R.readsHost hw, emitIda_nil, chainMarks_single H.chain H.marks hp', gather_host_ok, fitBytes_of_length hb]

theorem InHand.windowRead_issue : readRow n ⟨[], []⟩ x .window p s.dev
    = runOne n x .window p (newRun p [⟨0, ccwAddr w, ccwCount w⟩] (ccwCount w) (ccwCount w) (p.pos + BitVec.ofNat 64 (ccwCount w)) none)
        false (.winRead (x.hpriv.base + p.pos.toNat) (ccwCount w) x.hpriv.width) (progSet n p d') := by
  have hp' : progOf d' n = some p := by rw [R.sameRecords.progOf, H.prog]
  simp only [readRow, H.chain, H.stopAt, A.buildSegs, A.idaReads, chainCount_single, List.headD_cons, Option.orElse, Option.isSome_none,
    Bool.false_eq_true, if_false, hgood, widthCut_within hfit, A.count_pos.ne', R.whenRoom, hostGo_nil, emitIda_nil,
    chainMarks_single H.chain H.marks hp']

end

end

/-! ### PEER (R67) -/

section
variable {s : State} {n : Nat} {x : Sub} {h : Handler} {p : Prog} {a : DWord} {w : QWord} (H : InHand s n x h p a w)
include H

/-- PEER of a namespace or a memory window. -/
theorem InHand.peer (hcode : ccwCode w = 0xA) (hh : h = .nvme ∨ h = .window) :
    exec (.peer n) s = .next (sweptC s (peerRow n x h p s.dev)) := by
  obtain rfl | rfl := hh
  · exact H.row rfl (by simp [hcode]) rfl
  · exact H.row rfl (by simp [hcode]) rfl

/-- A target that is gone, has no handler, or is a set is not written (R67). -/
theorem InHand.peer_noTarget (hgone : handlerOf s.dev (subGet s.dev (bits (ccwAddr w) 63 46)) = none
      ∨ (subGet s.dev (bits (ccwAddr w) 63 46)).st = .notOperational
      ∨ handlerOf s.dev (subGet s.dev (bits (ccwAddr w) 63 46)) = some .peer) :
    peerRow n x h p s.dev = endNow n x h p (endUc a (ccwCount w) 6 (bits (ccwAddr w) 63 46) p.pos.toNat) none s.dev := by
  simp only [peerRow, H.chain, List.headD_cons, if_pos hgone]

end

section
variable {s : State} {n : Nat} {x : Sub} {p : Prog} {a : DWord} {w : QWord} {y : Sub} {off ch : Nat} {d' : Dev}
  (hc : 0 < ccwCount w) (hy : subGet s.dev (bits (ccwAddr w) 63 46) = y) (hoff : bits (ccwAddr w) 45 0 = off)
  (hst : y.st ≠ .notOperational)
include hc hy hoff hst

/-- PEER from a namespace to a memory window reads whole blocks (R67). -/
theorem InHand.peer_toWindow (H : InHand s n x .nvme p a w) {k : Nat}
    (R : Room s n p 1 (ccwCount w) 2 (rowEnds s.dev n [] [n, bits (ccwAddr w) 63 46]) d')
    (hid : x.hpriv.nsid ≠ 0) (hk : ccwCount w = k * bsOf x) (hfit : p.pos.toNat + k ≤ x.hpriv.blocks)
    (hh : handlerOf s.dev y = some .window) (hgood : widthBad y off (ccwCount w) = false) (hin : off + ccwCount w ≤ y.hpriv.size) :
    peerRow n x .nvme p s.dev = runOne n x .nvme p
      { newRun p [] (ccwCount w) (ccwCount w) (p.pos + BitVec.ofNat 64 k) none with ownResid := some 0 } false
      (.nvmeRead x.hpriv.nsid p.pos.toNat k) d' := by
  have hmin : min (ccwCount w) (y.hpriv.size - off) = ccwCount w := by omega
  have hadv : (ccwCount w + bsOf x - 1) / bsOf x = k := by rw [hk, blocks_roundUp]
  have hmod : ccwCount w % bsOf x = 0 := by rw [hk, Nat.mul_mod_left]
  have hblk : ¬ x.hpriv.blocks < p.pos.toNat + k := by omega
  simp [peerRow, H.chain, hy, hoff, hh, hst, hid, hmod, hgood, hmin, hadv, hblk, hc.ne', R.whenRoom]

/-- PEER from a memory window to a namespace writes whole blocks (R67). -/
theorem InHand.peer_toNamespace (H : InHand s n x .window p a w) {k : Nat}
    (R : Room s n p 1 (ccwCount w) 1 (rowEnds s.dev n [] [n, bits (ccwAddr w) 63 46]) d')
    (hgood : widthBad x p.pos.toNat (ccwCount w) = false) (hin : p.pos.toNat + ccwCount w ≤ x.hpriv.size)
    (hh : handlerOf s.dev y = some .nvme) (hid : y.hpriv.nsid ≠ 0) (hk : ccwCount w = k * bsOf y) (hal : off % bsOf y = 0)
    (hfit : off / bsOf y + k ≤ y.hpriv.blocks) :
    peerRow n x .window p s.dev = runOne n x .window p
      { newRun p [] (ccwCount w) (ccwCount w) (p.pos + BitVec.ofNat 64 (ccwCount w)) none with ownResid := some 0 } false
      (.winRead (x.hpriv.base + p.pos.toNat) (ccwCount w) x.hpriv.width) d' := by
  have hmin : min (ccwCount w) (x.hpriv.size - p.pos.toNat) = ccwCount w := by omega
  have hmod : ccwCount w % bsOf y = 0 := by rw [hk, Nat.mul_mod_left]
  have hend : (off + ccwCount w) / bsOf y = off / bsOf y + k := by rw [hk, Nat.add_mul_div_right _ _ (bsOf_pos y)]
  have hblk : ¬ y.hpriv.blocks < (off + ccwCount w) / bsOf y := by omega
  simp [peerRow, H.chain, hy, hoff, hh, hst, hid, hmod, hal, hgood, hmin, hblk, hc.ne', R.whenRoom]

end

/-! ### STRIPE and READ of a set, for one row (R57, R58) -/

section
variable {s : State} {n : Nat} {x : Sub} {p : Prog} {a : DWord} {w : QWord} (H : InHand s n x .peer p a w) (A : HostArea w)
  {k uu : Nat} (hm : x.hpriv.members.length = k + 2) (hu : uu = 2 ^ x.hpriv.uLog) (hk : ccwCount w = k * uu) {d' : Dev}
include H A hm hu hk

theorem InHand.stripe_row
    (R : Room s n p (k + 2) ((k + 2) * uu) 2 (rowEnds s.dev n [⟨0, ccwAddr w, ccwCount w⟩] (x.hpriv.members.map (·.1))) d')
    (hw : hostWaits d' (ownerOf x) [(ccwAddr w, ccwCount w, true)] = false) {b : List Byte} (hb : b.length = ccwCount w) :
    let strips := (List.range k).map (fun i => (b.drop (i * uu)).take uu)
    stripeRow n ⟨[], [.ok b]⟩ x .peer p s.dev
      = startSet n x .peer p (newRun p [⟨0, ccwAddr w, ccwCount w⟩] (ccwCount w) (ccwCount w) (p.pos + 1) none)
          [(strips.zipIdx).map (fun y => (y.2, y.1)) ++ [(k, parityP uu strips), (k + 1, parityQ uu strips)]]
          (emitReads n [⟨0, ccwAddr w, ccwCount w⟩] (progSet n p d')) := by
  have hp' : progOf d' n = some p := by rw [R.sameRecords.progOf, H.prog]
  have hpos := A.count_pos
  have hsk : setK x = k := by simp [setK, hm]
  have hsu : setU x = uu := hu.symm
  rw [hk] at hpos hb R hw
  have hrow : k * uu / (k * uu) = 1 := Nat.div_self hpos
  simp only [stripeRow, H.chain, H.stopAt, A.buildSegs, A.idaReads, chainCount_single, hk, Option.orElse, hsk, hsu, hrow, one_ne_zero,
    if_false, one_mul, segCut_all hpos, List.nil_append, gatherTouch_host_ok, R.readsHost hw, emitIda_nil,
    chainMarks_single H.chain H.marks hp', gather_host_ok, fitBytes_of_length hb]
  simp

theorem InHand.readSet_row
    (R : Room s n p k (ccwCount w) 1 (rowEnds s.dev n [⟨0, ccwAddr w, ccwCount w⟩] ((x.hpriv.members.take k).map (·.1))) d') :
    readRow n ⟨[], []⟩ x .peer p s.dev
      = startSet n x .peer p (newRun p [⟨0, ccwAddr w, ccwCount w⟩] (ccwCount w) (ccwCount w) (p.pos + 1) none)
          [(List.range k).map (fun i => (i, []))] (progSet n p d') := by
  have hp' : progOf d' n = some p := by rw [R.sameRecords.progOf, H.prog]
  have hpos := A.count_pos
  have hsk : setK x = k := by simp [setK, hm]
  have hsu : setU x = uu := hu.symm
  rw [hk] at hpos R
  have hrow : (k * uu + k * uu - 1) / (k * uu) = 1 := by
    rw [Nat.add_sub_assoc hpos, Nat.add_div_left _ hpos, Nat.div_eq_of_lt (by omega)]
  simp only [readRow, H.chain, H.stopAt, A.buildSegs, A.idaReads, chainCount_single, hk, Option.orElse, hsk, hsu, hrow, one_ne_zero,
    if_false, one_mul, R.whenRoom, hostGo_nil, emitIda_nil, chainMarks_single H.chain H.marks hp']
  rfl

end

end Sys2Proof.Machine
end

section
/-!
SUPPORT. The commands of the engine itself: the subchannel after a command is over, and writes to one host segment (R61 to R65, R69).
-/
namespace Sys2Proof.Machine

open Sys2Proof

/-! ### The subchannel after its command (R69, R437) -/

/-- What no access of a stream changes of a subchannel reads as before. -/
theorem SameRecords.keeps {β : Type} {d e : Dev} (h : SameRecords d e) (φ : Sub → β)
    (hφ : ∀ y u q, φ { y with sgUp := u, swSeq := q } = φ y) (n : Nat) : φ (subGet e n) = φ (subGet d n) := by
  obtain ⟨u, q, hn⟩ := h.2 n
  rw [hn, hφ]

/-- What the end of a command goes by: the subchannel's state, its RP and its position. -/
def courseOf (x : Sub) : SubState × Bool × DWord := (x.st, x.rp, x.position)

theorem courseOf_checkpoint (n : Nat) (last : DWord) (resid : Word) (d : Dev) (k : Nat) :
    courseOf (subGet (checkpoint n last resid d) k) = courseOf (subGet d k) := by
  refine subGet_subSet_keeps courseOf (fun _ _ => rfl) ?_ k
  rfl

/-- The end of a command leaves what it goes by. -/
theorem courseOf_commandOver {n : Nat} {x : Sub} {d : Dev} (hx : subGet d n = x) (last : DWord) (resid : Nat) :
    courseOf (subGet (commandOver n x last resid d) n) = courseOf x := by
  unfold commandOver
  set e := subSet n { x with scPri := true, scSec := true, scAlert := false } d with he
  calc courseOf (subGet (dropCalls n (releaseSlices n (releaseChans n (checkpoint n last (BitVec.ofNat 32 resid) e)))) n)
      = courseOf (subGet (checkpoint n last (BitVec.ofNat 32 resid) e) n) :=
        (sameRecords_releaseSlices n (releaseChans n (checkpoint n last (BitVec.ofNat 32 resid) e))).keeps courseOf (fun _ _ _ => rfl) n
    _ = courseOf (subGet e n) := courseOf_checkpoint ..
    _ = courseOf (subGet d n) := by rw [he]; exact subGet_subSet_keeps courseOf (fun _ _ => rfl) (by rw [hx]; rfl) n
    _ = courseOf x := by rw [hx]

/-- LTOL suppresses IL alone: an end without channel status is left as it is. -/
theorem ltolEnd_clean {l : List (DWord × QWord)} {e : Ended} (h : e.c = 0) : ltolEnd l e = e := by
  obtain ⟨c, dv, last, resid, ou, sense⟩ := e
  subst h
  simp [ltolEnd]

/-- How the command of one CCW goes on when it has ended with CE and DE (R69, R82). -/
theorem commandEnd_clean {n : Nat} {x : Sub} {p : Prog} {a : DWord} {w : QWord} {d : Dev} (hx : subGet d n = x) (hst : x.st = .active)
    (resid : Nat) : commandEnd n p [(a, w)] (endC 0 a resid) none d =
      let past := commandOver n x a resid d
      let q : Prog := { p with chain := [], stopAt := none, run := none, own := none, pos := x.position, lastEnd := endC 0 a resid }
      if ccwS w then suspendDecision n q a (releaseLedger n past)
      else if ccwCC w then fetchCcw n q (a + 16) .byCmd false (releaseLedger n past)
      else postFinal n q (endC 0 a resid) none past := by
  have hkeep := courseOf_commandOver hx a resid
  simp only [courseOf, Prod.mk.injEq] at hkeep
  obtain ⟨hs, -, hpos⟩ := hkeep
  have hhalt : halting (commandOver n x a resid d) n = false := by simp [halting, hs, hst]
  have hover : dropCalls n (releaseSlices n (releaseChans n (checkpoint n (endC 0 a resid).last (endC 0 a resid).resid
      (subSet n { x with scPri := true, scSec := true, scAlert := false } d)))) = commandOver n x a resid d := rfl
  simp only [commandEnd, ltolEnd_clean (e := endC 0 a resid) rfl, hx, hover, hhalt, hpos, lastCcw]
  simp [endC]

/-! ### Writes to one segment of host memory -/

theorem scatter_host_ok {port : Nat} {f : FnId} {a : DWord} {k : Nat} {b : List Byte} (hb : b.length = k) (hk : 0 < k) (off : Nat)
    (d : Dev) : scatter port f .ok [⟨0, a, k⟩] b off d = (none, hostOut (.kept port) f (.write a b) d) := by
  have hne : b ≠ [] := by
    rintro rfl
    simp at hb
    omega
  have ht : b.take k = b := by rw [← hb, List.take_length]
  simp [scatter, ht, hne]

@[simp] theorem writeTouch_host (a : DWord) (k : Nat) : writeTouch [⟨0, a, k⟩] .ok = [(a, k, true)] := by simp [writeTouch]

/-! ### SENSE (R62) -/

theorem leBytes_length (k v : Nat) : (leBytes k v).length = k := by
  induction k generalizing v with
  | zero => rfl
  | succ k ih => simp [leBytes, ih]

@[simp] theorem streamPort_host (d : Dev) (n : Nat) (a : DWord) (k : Nat) : streamPort d n [⟨0, a, k⟩] = some (portFor d n a) := by
  simp [streamPort]

/-- Data written to a run's one host segment all arrives, by the stream's port. -/
theorem deliver_host {n : Nat} {p : Prog} {r : Run} {bytes : List Byte} {d : Dev} {a : DWord} {k q : Nat} (hs : r.segs = [⟨0, a, k⟩])
    (ht : r.total = k) (hp : r.port = some q) (hk : 0 < k) (hb : 0 < bytes.length) : deliver n p r bytes .ok d
      = (wrotePort p (some q), runEnd r,
          hostOut (.kept q) (ownerOf (subGet d n)) (.write a (bytes.take (min k bytes.length))) d) := by
  have hmin : 0 < min k bytes.length := by omega
  have hlen : (bytes.take (min k bytes.length)).length = min k bytes.length := by
    rw [List.length_take]
    omega
  have hcut : segCut (min k bytes.length) [(⟨0, a, k⟩ : Seg)] = [⟨0, a, min k bytes.length⟩] := segCut_single hmin (Nat.min_le_left ..)
  simp [deliver, hs, ht, hp, hcut, scatter_host_ok hlen hmin]

/-- The device length against the count of one CCW (R70, R73). -/
theorem lengthEnd_single {r : Run} {a : DWord} {w : QWord} (hc : r.ccws = [(a, w)]) (hs : r.sm = false) :
    lengthEnd r = ⟨if r.devLen = r.total then 0 else csIl, dsEnd, a, BitVec.ofNat 32 (ccwCount w - min r.devLen r.total), false, none⟩ := by
  simp [lengthEnd, hc, hs, stopAt]

/-- A run without failure, of a command whose lengths count, ends with its lengths (R73). -/
theorem runEnd_lengths {r : Run} (hf : r.fails = []) (hs : r.stop = none) (ho : r.ownResid = none) (hn : noIl r.code = false) :
    runEnd r = lengthEnd r := by simp [runEnd, hf, hs, ho, hn]

section
variable {s : State} {n : Nat} {x : Sub} {h : Handler} {p : Prog} {a : DWord} {w : QWord} (H : InHand s n x h p a w)
include H

theorem InHand.sense_empty (io : CmdIo) (hc : ccwCount w = 0) : senseRow n io .ok x h p s.dev
    = commandEnd n p p.chain (endC csIl a 0) none (subSet n { x with sense := Sense.none } s.dev) := by
  simp [senseRow, H.chain, H.sub, hc]

/-- SENSE moves as many bytes of its data as both have, and clears it. -/
theorem InHand.sense_moves (A : HostArea w) (hcode : ccwCode w = 4)
    (hw : hostWaits s.dev (ownerOf x) [(ccwAddr w, min (ccwCount w) 32, true)] = false) :
    senseRow n ⟨[], []⟩ .ok x h p s.dev
      = (let port := portFor s.dev n (ccwAddr w)
         let d1 := hostOut (.kept port) (ownerOf x) (.write (ccwAddr w) ((leBytes 32 (senseWord x.sense)).take (min 32 (ccwCount w))))
           (takeStream n [⟨0, ccwAddr w, ccwCount w⟩] (progSet n p s.dev)).2
         commandEnd n (wrotePort p (some port)) [(a, w)]
          ⟨if ccwCount w = 32 then 0 else csIl, dsEnd, a, BitVec.ofNat 32 (ccwCount w - min 32 (ccwCount w)), false, none⟩ none
          (subSet n { subGet d1 n with sense := Sense.none } d1)) := by
  have hpos := A.count_pos
  have hmin : 0 < min (ccwCount w) 32 := by omega
  have hcut : segCut (min (ccwCount w) 32) [(⟨0, ccwAddr w, ccwCount w⟩ : Seg)] = [⟨0, ccwAddr w, min (ccwCount w) 32⟩] :=
    segCut_single hmin (Nat.min_le_left ..)
  have hown : ownerOf (subGet (takeStream n [⟨0, ccwAddr w, ccwCount w⟩] (progSet n p s.dev)).2 n) = ownerOf x := by
    rw [(sameRecords_takeStream ..).ownerOf, subGet_progSet, H.sub]
  have hrun : runEnd { newRun p [⟨0, ccwAddr w, ccwCount w⟩] (ccwCount w) 32 p.pos none with port := some (portFor s.dev n (ccwAddr w)) }
      = ⟨if ccwCount w = 32 then 0 else csIl, dsEnd, a, BitVec.ofNat 32 (ccwCount w - min 32 (ccwCount w)), false, none⟩ := by
    rw [runEnd_lengths rfl rfl rfl (by simp [newRun, H.chain, hcode, noIl]), lengthEnd_single H.chain rfl]
    congr 1
    exact if_congr eq_comm rfl rfl
  simp only [senseRow, H.chain, H.sub, H.stopAt, hpos.ne', A.buildSegs, A.idaReads, chainCount_single, Option.orElse, List.headD_cons,
    and_false, if_false, List.nil_append, hcut, writeTouch_host, hostGo_now _ hw, portGo_first H.lastPort, emitIda_nil,
    chainMarks_single H.chain H.marks H.prog, streamPort_host]
  rw [deliver_host (k := ccwCount w) rfl rfl rfl hpos (by simp [leBytes_length]), hrun, leBytes_length, hown, Nat.min_comm (ccwCount w) 32]
  simp only [newRun, H.chain]

end

end Sys2Proof.Machine
end

section
/-!
SUPPORT. COPY: its descriptor, its read and its bursts (R63, R103, R272).
-/
namespace Sys2Proof.Machine

open Sys2Proof

theorem copyBurst_pos {g : Seg} {len done : Nat} (h : done < len) : 0 < copyBurst g len done := by
  unfold copyBurst
  omega

theorem copyBurst_le (g : Seg) (len done : Nat) : copyBurst g len done ≤ len - done := Nat.min_le_left ..

/-- A burst to host memory, by its port: the last one ends the command. -/
theorem copyStep_host {n : Nat} {x : Sub} {h : Handler} {p : Prog} {a : DWord} {w : QWord} {dst : Seg} {v : List Byte} {done port : Nat}
    {d : Dev} (hc : p.chain = [(a, w)]) (hp : portWaits p (some port) = false) (hs : dst.space = 0) (hd : done < v.length)
    (hw : hostWaits d (ownerOf x) [(dst.addr + BitVec.ofNat 64 done, copyBurst dst v.length done, true)] = false) :
    copyStep n .ok x h p dst v done port d =
      (let k := copyBurst dst v.length done
       let e := hostOut (.kept port) (ownerOf x) (.write (dst.addr + BitVec.ofNat 64 done) ((v.drop done).take k)) d
       let q := wrotePort p (some port)
       if v.length ≤ done + k then endNow n x h q (endC 0 a 0) none e
       else progSet n { q with stage := .copying dst v (done + k) port } e) := by
  have hk := copyBurst_pos (g := dst) hd
  have hlen : ((v.drop done).take (copyBurst dst v.length done)).length = copyBurst dst v.length done := by
    have := copyBurst_le dst v.length done
    simp only [List.length_take, List.length_drop]
    omega
  simp only [copyStep, hc, List.headD_cons, hs, if_true, portGo, hp, writeTouch_host, hostGo_now _ hw, Bool.false_eq_true, if_false,
    scatter_host_ok hlen hk]

/-- The first burst of a COPY. -/
theorem copyStep_first {n : Nat} {x : Sub} {h : Handler} {p : Prog} {a : DWord} {w : QWord} {dst : DWord} {len : Nat} {v : List Byte}
    {port : Nat} {d : Dev} (hc : p.chain = [(a, w)]) (hp : p.lastPort = none) (hv : v.length = len) (hl : 0 < len)
    (hw : hostWaits d (ownerOf x) [(dst, copyBurst ⟨0, dst, len⟩ len 0, true)] = false) :
    copyStep n .ok x h p ⟨0, dst, len⟩ v 0 port d =
      (let k := copyBurst ⟨0, dst, len⟩ len 0
       let e := hostOut (.kept port) (ownerOf x) (.write dst (v.take k)) d
       let q := wrotePort p (some port)
       if len ≤ k then endNow n x h q (endC 0 a 0) none e else progSet n { q with stage := .copying ⟨0, dst, len⟩ v k port } e) := by
  subst hv
  have hstep := copyStep_host (n := n) (x := x) (h := h) (dst := ⟨0, dst, v.length⟩) (done := 0) (port := port) (d := d) hc
    (by simp [portWaits, hp]) rfl hl (by simpa using hw)
  simpa using hstep

/-- The command after its stream's first host write is in no group either. -/
theorem groupMember_wrotePort (x : Sub) (h : Handler) (p : Prog) (q : Option Nat) :
    groupMember x h (wrotePort p q) = groupMember x h p := by
  cases q <;> rfl

/-! ### The descriptor (R63) -/

/-- In a descriptor whose upper half is 0 every field of that half is 0. -/
theorem bits_upper_zero {e : BitVec 256} (h : bits e 255 128 = 0) {hi lo : Nat} (hlo : 128 ≤ lo) : bits e hi lo = 0 := by
  unfold bits at h ⊢
  have he := e.isLt
  have hlt : e.toNat < 2 ^ 128 := by
    have h' : e.toNat / 2 ^ 128 % 2 ^ 128 = 0 := h
    omega
  have hle : 2 ^ 128 ≤ 2 ^ lo := Nat.pow_le_pow_right (by omega) hlo
  rw [Nat.div_eq_of_lt (Nat.lt_of_lt_of_le hlt hle), Nat.zero_mod]

section
variable {s : State} {n : Nat} {x : Sub} {h : Handler} {p : Prog} {a : DWord} {w : QWord} (H : InHand s n x h p a w)
  (hasel : ccwAsel w = 0)
include H hasel

theorem InHand.copy_unread (e : BusErr) (r : HostRead) (hw : hostWaits s.dev (ownerOf x) [(ccwAddr w, 32, false)] = false) :
    copyRow n (.err e) r .ok x h p s.dev = endNow n x h p (endC csCcc a (ccwCount w)) none
      (hostOut (.sub n) (ownerOf x) (.read (ccwAddr w) 32) s.dev) := by
  simp [copyRow, H.chain, hasel, readBlock, readOk, hostGo_now _ hw]

variable {b : List Byte} (hb : b.length = 32)
include hb

/-- A descriptor with a reserved field set, or a space that there is not, is a program check. -/
theorem InHand.copy_badDescriptor (r : HostRead) (hw : hostWaits s.dev (ownerOf x) [(ccwAddr w, 32, true)] = false)
    (hbad : bits (BitVec.ofNat 256 (leNat b)) 255 194 ≠ 0 ∨ bits (BitVec.ofNat 256 (leNat b)) 191 130 ≠ 0
      ∨ 2 ≤ bits (BitVec.ofNat 256 (leNat b)) 193 192 ∨ 2 ≤ bits (BitVec.ofNat 256 (leNat b)) 129 128) :
    copyRow n (.ok b) r .ok x h p s.dev = endNow n x h p (endC csPgm a (ccwCount w)) none
      (hostOut (.sub n) (ownerOf x) (.read (ccwAddr w) 32) s.dev) := by
  simp only [copyRow, H.chain, List.headD_cons, hasel, scratchGo_oneHost, readBlock_host_ok hb, readOk, if_true, if_pos hbad,
    hostGo_now _ hw]

section
variable (hz : bits (BitVec.ofNat 256 (leNat b)) 255 128 = 0) {src dst : DWord}
  (hsrc : src = BitVec.ofNat 64 (bits (BitVec.ofNat 256 (leNat b)) 63 0))
  (hdst : dst = BitVec.ofNat 64 (bits (BitVec.ofNat 256 (leNat b)) 127 64))
  {d' : Dev} (R : Room s n p 0 (ccwCount w) 1 (rowEnds s.dev n [⟨0, src, ccwCount w⟩, ⟨0, dst, ccwCount w⟩] []) d')
include hz hsrc hdst R

/-- A COPY whose source cannot be read ends with CDC (R81). -/
theorem InHand.copy_noSource (r : BusErr)
    (hw : hostWaits d' (ownerOf x) [(ccwAddr w, 32, true), (src, ccwCount w, false)] = false) :
    copyRow n (.ok b) (.err r) .ok x h p s.dev = endNow n x h p (endC csCdc a (ccwCount w)) none
      (emitReads n [⟨0, src, ccwCount w⟩] (hostOut (.sub n) (ownerOf x) (.read (ccwAddr w) 32) d')) := by
  subst hsrc hdst
  have hz0 : ∀ hi lo, 128 ≤ lo → bits (BitVec.ofNat 256 (leNat b)) hi lo = 0 := fun _ _ => bits_upper_zero hz
  simp only [copyRow, H.chain, List.headD_cons, hasel, scratchGo_oneHost, readBlock_host_ok hb, readOk, if_true]
  simp [hz0, segFits, R.whenRoom, hostGo_now _ hw, readBlock]

/-- A COPY that reads its source goes on with its first burst. -/
theorem InHand.copy_begins {v : List Byte} (hv : v.length = ccwCount w) (hw : hostWaits d' (ownerOf x) [(ccwAddr w, 32, true),
      (src, ccwCount w, true), (dst, copyBurst ⟨0, dst, ccwCount w⟩ (ccwCount w) 0, true)] = false) {port : Option Nat} {d2 : Dev}
    (hts : takeStream n [⟨0, dst, ccwCount w⟩] (emitReads n [⟨0, src, ccwCount w⟩]
      (hostOut (.sub n) (ownerOf x) (.read (ccwAddr w) 32) d')) = (port, d2)) :
    copyRow n (.ok b) (.ok v) .ok x h p s.dev = copyStep n .ok x h { p with stage := .copying ⟨0, dst, ccwCount w⟩ v 0 (port.getD 0) }
      ⟨0, dst, ccwCount w⟩ v 0 (port.getD 0) (progSet n { p with stage := .copying ⟨0, dst, ccwCount w⟩ v 0 (port.getD 0) } d2) := by
  subst hsrc hdst
  have hz0 : ∀ hi lo, 128 ≤ lo → bits (BitVec.ofNat 256 (leNat b)) hi lo = 0 := fun _ _ => bits_upper_zero hz
  simp only [copyRow, H.chain, List.headD_cons, hasel, scratchGo_oneHost, readBlock_host_ok hb, readOk, if_true]
  simp [hz0, segFits, R.whenRoom, hostGo_now _ hw, readBlock_host_ok hv, hts]

end

end

/-! ### COPY as it is executed (R63) -/

/-- A COPY in hand begins. -/
theorem InHand.copy {s : State} {n : Nat} {x : Sub} {h : Handler} {p : Prog} {a : DWord} {w : QWord} (H : InHand s n x h p a w)
    (hcode : ccwCode w = 9) (desc data : HostRead) (wr : WriteRes) :
    exec (.copy n desc data wr) s = .next (sweptC s (copyRow n desc data wr x h p s.dev)) := by
  have hrow := H.withCommand (copyRow n desc data wr) (codes := [9]) (by simp [hcode])
  refine (run_liveC _ H.engine).trans ?_
  simp only [H.sub, H.prog, H.handler, H.ready, hrow]

/-- A COPY that runs is at its next burst. -/
theorem exec_copy_running {s : State} {n : Nat} {x : Sub} {h : Handler} {p : Prog} {dst : Seg} {v : List Byte} {done port : Nat}
    (heng : Engine s) (hx : subGet s.dev n = x) (hst : x.st = .active) (hp : progOf s.dev n = some p) (hh : handlerOf s.dev x = some h)
    (hstage : p.stage = .copying dst v done port) (hw : waits156 s.dev n = false) (desc data : HostRead) (wr : WriteRes) :
    exec (.copy n desc data wr) s = .next (sweptC s (copyStep n wr x h p dst v done port s.dev)) := by
  refine (run_liveC _ heng).trans ?_
  simp only [hx, hp, hh, hstage, hst, hw, and_self, if_true]

/-! ### Event counters (R64, R65) -/

theorem stageOf_eq (d : Dev) (n : Nat) : stageOf d n = (progOf d n).map (·.stage) := by simp [stageOf, progOf, Function.comp_def]

theorem signalEvent_stays {f : FnId} {c : Nat} {d : Dev} (h : evtWaiter d f c = none) :
    signalEvent f c d = evtSet f c (min 65535 (evtValue d f c + 1)) d := by simp [signalEvent, h]

theorem signalEvent_releases {f : FnId} {c m : Nat} {d : Dev} (h : evtWaiter d f c = some m) :
    signalEvent f c d = endWait m dsEnd d := by simp [signalEvent, h]

end Sys2Proof.Machine
end

section
/-!
SUPPORT. Posting an intermediate entry leaves every program as it was, and what a subchannel's entries wait for (R76, R98, R156).
-/
namespace Sys2Proof.Machine

open Sys2Proof

/-! ### Programs across a posted entry -/

@[simp] theorem pageEvent_progs (p b : Nat) (d : Dev) : (pageEvent p b d).progs = d.progs := (pageEvent_progs_subs p b d).1

@[simp] theorem noteHwm_progs (n count : Nat) (d : Dev) : (noteHwm n count d).progs = d.progs := by
  unfold noteHwm
  split <;> rfl

@[simp] theorem dbEvent_progs (code : Nat) (d : Dev) : (dbEvent code d).progs = d.progs := by
  obtain ⟨r, h⟩ := dbEvents_frame code 1 d
  rw [dbEvent, h]

@[simp] theorem traceEvent_progs (kind : Nat) (agent : Option Nat) (x y : Nat) (d : Dev) : (traceEvent kind agent x y d).progs = d.progs := by
  unfold traceEvent feedIn
  dsimp only
  cases agent with
  | none => split_ifs <;> simp
  | some a => split_ifs <;> simp

@[simp] theorem sendHost_progs (v : Via) (f : FnId) (o : HostReq) (d : Dev) : (sendHost v f o d).progs = d.progs :=
  (sameRecords_sendHost v f o d).1

@[simp] theorem askXlate_progs (f : FnId) (ps : List Nat) (d : Dev) : (askXlate f ps d).progs = d.progs := (sameRecords_askXlate f ps d).1

@[simp] theorem zeroOut_progs (f : FnId) (p : Nat) (d : Dev) : (zeroOut f p d).progs = d.progs := by
  unfold zeroOut
  split <;> rfl

@[simp] theorem countNopost_progs (f : FnId) (d : Dev) : (countNopost f d).progs = d.progs := rfl

@[simp] theorem sendMessage_progs (n : Nat) (d : Dev) : (sendMessage n d).progs = d.progs := by
  unfold sendMessage ringError
  dsimp only
  split
  · rfl
  · split_ifs <;> simp

@[simp] theorem armRing_progs (n : Nat) (x : FifoItem) (d : Dev) : (armRing n x d).progs = d.progs := by
  unfold armRing
  dsimp only
  split_ifs <;> simp

@[simp] theorem fifoPlace_progs (n : Nat) (x : FifoItem) (d : Dev) : (fifoPlace n x d).progs = d.progs := by
  unfold fifoPlace
  dsimp only
  split_ifs <;> simp

@[simp] theorem ringAskXlate_progs (n : Nat) (d : Dev) : (ringAskXlate n d).progs = d.progs := by
  unfold ringAskXlate
  dsimp only
  split <;> simp

@[simp] theorem ringWrite_progs (n : Nat) (x : FifoItem) (shows : Bool) (d : Dev) : (ringWrite n x shows d).progs = d.progs := by
  unfold ringWrite
  dsimp only
  split
  · rfl
  · split_ifs <;> simp

/-- An entry that changes no state leaves the programs. -/
theorem placeEnt_progs {e : Ent} (he : e.change = .none) (d : Dev) : (placeEnt e d).progs = d.progs := by
  unfold placeEnt
  simp only [he, applyChange]
  split
  · simp
  · split_ifs <;> simp

@[simp] theorem stallEnt_progs (e : Ent) (d : Dev) : (stallEnt e d).progs = d.progs := by
  unfold stallEnt
  dsimp only
  split <;> simp

theorem postEnt_progs {e : Ent} (he : e.change = .none) (d : Dev) : (postEnt e d).progs = d.progs := by
  unfold postEnt
  split
  · simp
  · exact placeEnt_progs he d

theorem postAfter_progs (ports : List Nat) {e : Ent} (he : e.change = .none) (d : Dev) : (postAfter ports e d).progs = d.progs := by
  unfold postAfter
  dsimp only
  split
  · exact postEnt_progs (by exact he) d
  · rw [postEnt_progs (by exact he), zeroOut_progs]

/-- An intermediate entry leaves the programs (R76). -/
@[simp] theorem postMark_progs (n : Nat) (p : Prog) (a : DWord) (count : Nat) (d : Dev) : (postMark n p a count d).progs = d.progs := by
  unfold postMark
  dsimp only
  split
  · simp
  · exact postAfter_progs _ rfl d

/-! ### What a subchannel's entries wait for (R156) -/

/-- What the wait of an entry reads of its subchannel: its district and slot (R312), its owner and its completion ring (R99). -/
def entryKey (x : Sub) : Nat × Nat × Nat × Nat × Nat := (x.home, x.slot, x.ownPort, x.ownFn, x.cring)

/-- The wait of an entry reads no program, and of subchannels only that. -/
theorem waits156_congr {d : Dev} {n : Nat} {t : Tbl Sub} {q : Tbl Prog}
    (h : entryKey (subGet { d with subs := t, progs := q } n) = entryKey (subGet d n)) :
    waits156 { d with subs := t, progs := q } n = waits156 d n := by
  simp only [entryKey, Prod.mk.injEq] at h
  obtain ⟨hhome, hslot, hport, hfn, hring⟩ := h
  unfold waits156
  cases hf : d.stalled.find? (fun e => decide (e.item.sub = n)) with
  | none => rfl
  | some e =>
    have hn : e.item.sub = n := by simpa using List.find?_some hf
    simp only [entHeld, entRoom, entRing, chooseRing, subOwner, hn, hhome, hslot, hport, hfn, hring]
    rfl

@[simp] theorem waits156_progSet (n k : Nat) (p : Prog) (d : Dev) : waits156 (progSet k p d) n = waits156 d n :=
  waits156_congr (d := d) rfl

theorem waits156_subSet {n k : Nat} {v : Sub} {d : Dev} (h : entryKey v = entryKey (subGet d k)) :
    waits156 (subSet k v d) n = waits156 d n := by
  have hkey : entryKey (subGet (subSet k v d) n) = entryKey (subGet d n) := subGet_subSet_keeps entryKey (fun _ _ => rfl) h n
  obtain ⟨t, ht⟩ := subSet_frame k v d
  rw [ht] at hkey ⊢
  exact waits156_congr (d := d) hkey

@[simp] theorem waits156_checkpoint (n k : Nat) (a : DWord) (r : Word) (d : Dev) : waits156 (checkpoint k a r d) n = waits156 d n :=
  waits156_subSet rfl

end Sys2Proof.Machine
end

section
/-!
SUPPORT. A fetched CCW of a program that has none in hand: its checks, its command, and how it ends or goes on (R38, R68, R71, R74, R81).
-/
namespace Sys2Proof.Machine

open Sys2Proof

/-! ### The command that begins (R74, R76, R90) -/

/-- The device in which the command of CCW w at a begins: CE and DE are shown no more, and the mark of w is posted. -/
def begun (n : Nat) (p : Prog) (a : DWord) (w : QWord) (d : Dev) : Dev :=
  let d2 := subSet n { subGet d n with scPri := false, scSec := false } d
  if ccwMark w then postMark n p a (ccwCount w) (progSet n p d2) else progSet n p d2

theorem progOf_begun (n : Nat) (p : Prog) (a : DWord) (w : QWord) (d : Dev) : progOf (begun n p a w d) n = some p := by
  unfold begun
  dsimp only
  split
  · rw [progOf_congr (postMark_progs ..), progOf_progSet_self]
  · rw [progOf_progSet_self]

/-- The mark of a command's first CCW is posted at once: no member of a group and no entry that waits stands before it (R76, R156). -/
theorem markPut_first {n : Nat} {p : Prog} {a : DWord} {w : QWord} {d : Dev} (hm : p.marks = []) (hg : p.grp = [])
    (hw : waits156 d n = false) :
    markPut n [(a, w)] (progSet n p (subSet n { subGet d n with scPri := false, scSec := false } d)) = begun n p a w d := by
  have hwait : waits156 (subSet n { subGet d n with scPri := false, scSec := false } d) n = false :=
    (waits156_subSet (by rfl)).trans hw
  cases p
  subst hm hg
  by_cases hmark : ccwMark w = true
  · simp [markPut, begun, hmark, markGo, hwait, membersEnded]
    rfl
  · simp [markPut, begun, hmark, markGo]

theorem withMarks_begun {n : Nat} {p : Prog} (a : DWord) (w : QWord) (d : Dev) : withMarks n p (begun n p a w d) = p := by
  simp [withMarks, progOf_begun]

theorem chain_of_ready {q r : Prog} {l : List (DWord × QWord)} (hr : { q with stage := .ready } = r) (hc : r.chain = l) : q.chain = l := by
  rw [← hc, ← hr]

section
variable {n : Nat} {h : Handler} {q r : Prog} {a : DWord} {w : QWord} {d : Dev} (hr : { q with stage := .ready } = r)
  (hc : r.chain = [(a, w)]) (hm : r.marks = []) (hg : r.grp = []) (hw : waits156 d n = false) (htic : ccwCode w ≠ 8)
include hr hc hm hg hw htic

/-- A code that neither the engine nor the handler implements is rejected (R46), also with COUNT 0. -/
theorem dispatchCmd_rejected (heng : engineCode (ccwCode w) = false) (himp : implements h (ccwCode w) = false) :
    dispatchCmd n h q d = endNow n (subGet (begun n r a w d) n) h r (endUc a (ccwCount w) 1 (ccwCode w) r.pos.toNat) none
      (begun n r a w d) := by
  simp only [dispatchCmd, hr]
  simp only [chain_of_ready hr hc, if_neg htic, markPut_first hm hg hw, withMarks_begun, heng, himp, Bool.not_false, Bool.and_self, if_true]

/-- A command with COUNT 0 that moves data ends at once (R74). -/
theorem dispatchCmd_empty (hcode : engineCode (ccwCode w) = true ∨ implements h (ccwCode w) = true) (hcd : ccwCD w = false)
    (h0 : ccwCount w = 0) (he : endsEmpty h (ccwCode w) = true) :
    dispatchCmd n h q d = endNow n (subGet (begun n r a w d) n) h r (endC 0 a 0) none (begun n r a w d) := by
  have hkept : (!(engineCode (ccwCode w)) && !(implements h (ccwCode w))) = false := by
    obtain hcode | hcode := hcode <;> simp [hcode]
  simp only [dispatchCmd, hr]
  simp only [chain_of_ready hr hc, if_neg htic, markPut_first hm hg hw, withMarks_begun, hkept, hcd, h0, he, List.isEmpty_nil, Bool.not_false,
    decide_true, Bool.and_self, if_true, Bool.false_eq_true, if_false]

/-- A command of the engine, or of a vendor handler, that is not ended at once is in hand (R40). -/
theorem dispatchCmd_inHand (hcode : engineCode (ccwCode w) = true ∨ implements h (ccwCode w) = true ∧ ∀ o, h ≠ .owner o)
    (h0 : ccwCount w ≠ 0) : dispatchCmd n h q d = progSet n r (begun n r a w d) := by
  have hkept : (!(engineCode (ccwCode w)) && !(implements h (ccwCode w))) = false := by
    obtain hcode | ⟨hcode, -⟩ := hcode <;> simp [hcode]
  simp only [dispatchCmd, hr]
  simp only [chain_of_ready hr hc, if_neg htic, markPut_first hm hg hw, withMarks_begun, hkept, h0, decide_false, Bool.and_false,
    Bool.false_and, Bool.false_eq_true, if_false]
  cases h with
  | owner pk =>
    obtain hcode | ⟨-, howner⟩ := hcode
    · exact if_pos hcode
    · exact absurd rfl (howner pk)
  | nvme => rfl
  | window => rfl
  | peer => rfl

end

/-! ### A fetched CCW becomes current (R38, R71, R81) -/

section
variable {s : State} {n : Nat} {p : Prog} {a : DWord} {how : Reach} {tic : Bool} (heng : Engine s) (hp : progOf s.dev n = some p)
  (hw : waits156 s.dev n = false) (hstage : p.stage = .fetch a how tic) (hpref : p.pref = [])
include heng hp hw hstage hpref

/-- The CCW the program waits for has been read. -/
theorem exec_fetched (res : HostRead) : exec (.ccwFetchComplete n res) s
    = .next (sweptC s (ccwRead1 n { p with prefAt := none } a how tic res s.dev)) := by
  refine (run_liveC (ccwFetched n res) heng).trans ?_
  simp [ccwFetched, hp, hstage, hpref, hw]

/-- Without a group it becomes current. -/
theorem exec_fetched_ok (hg : p.grp = []) (b : List Byte) :
    exec (.ccwFetchComplete n (.ok b)) s
      = .next (sweptC s (ccwCurrent n { p with prefAt := none } a how tic (ccwOfRead a b) s.dev)) := by
  rw [exec_fetched heng hp hw hstage hpref]
  simp [ccwRead1, ccwArrived, hg]

end

/-- A check or a fetch that fails with nothing in hand and no group open ends the program (R81). -/
theorem ccwFails_idle {n : Nat} {p : Prog} (hc : p.chain = []) (hg : p.grp = []) (e : Ended) (d : Dev) :
    ccwFails n p e d = postFinal n p e none d := by simp [ccwFails, hc, hg]

section
variable {n : Nat} {p : Prog} {a : DWord} {how : Reach} {w : QWord} {d : Dev} {h : Handler}
  (hh : handlerOf d (subGet d n) = some h) (hc : p.chain = [])
include hh hc

theorem ccwCurrent_tic (htic : ccwCode w = 8) :
    ccwCurrent n p a how false w d = progSet n { p with chain := [(a, w)], stage := .ready, how := how } d := by
  simp [ccwCurrent, hh, htic, hc]

theorem ccwCurrent_ticAtTic (hg : p.grp = []) (htic : ccwCode w = 8) :
    ccwCurrent n p a how true w d = postFinal n p (endC csChn p.ticAt.1 p.ticAt.2) none d := by
  simp [ccwCurrent, hh, htic, ccwFails_idle hc hg]

variable (hhow : how ≠ .byData) (htic : ccwCode w ≠ 8)
include hhow htic

theorem ccwCurrent_fails (hg : p.grp = []) (tic : Bool) {c : Byte} (hcheck : ccwCheck d n h p (ccwCode w) false w = some c) :
    ccwCurrent n p a how tic w d = postFinal n p (endC c a (ccwCount w)) none d := by
  simp [ccwCurrent, hh, htic, hhow, hcheck, ccwFails_idle hc hg]

/-- A CCW that passes is the command's first, or its only one. -/
theorem ccwCurrent_passes (tic : Bool) (hcheck : ccwCheck d n h p (ccwCode w) false w = none) :
    ccwCurrent n p a how tic w d = (let q : Prog := { p with how := how, chain := [(a, w)] }
      let d1 := checkpoint n a (BitVec.ofNat 32 (ccwCount w)) d
      if ccwCD w then fetchCcw n q (a + 16) .byData false d1 else dispatchCmd n h q d1) := by
  simp [ccwCurrent, hh, htic, hhow, hcheck, ccwTaken, hc]

end

end Sys2Proof.Machine
end

section
/-!
THEOREM. O27 (FetchedCcws): what a fetched CCW does, case by case of its checks, and TIC.
-/
namespace Sys2Proof.Machine

open Sys2Proof

/-- The CCW in what its read returned: all 16 bytes, or its part of a 64-byte line (R38). -/
theorem ccwOfRead_of_length (a : DWord) (b : List Byte) :
    (b.length = 16 → ccwOfRead a b = BitVec.ofNat 128 (leNat b))
    ∧ (b.length = 64 → bits a 3 0 = 0 → ccwOfRead a b = BitVec.ofNat 128 (leNat ((b.drop (a.toNat % 64)).take 16))) := by
  refine ⟨fun hb => ?_, fun hb ha => ?_⟩
  · simp [ccwOfRead, hb, fitBytes_of_length hb]
  · have h16 : 16 ≤ b.length - a.toNat % 64 := by
      simp [bits] at ha
      omega
    simp only [ccwOfRead, hb, if_true, fitBytes]
    rw [List.take_append_of_le_length (by simpa using h16)]

theorem ccwFetches : CcwFetches := by
  refine ⟨ccwOfRead_of_length, fun s n p a heng hp hm hw => ?_⟩
  intro d
  refine ⟨?fetch, fun b res hstage hpre => ?ahead, fun hstage b => ?refetch⟩
  case ahead =>
    refine (run_liveC (ccwFetched n res) heng).trans ?_
    simp [ccwFetched, hp, hstage, hpre]
    rfl
  case refetch =>
    have hex : exec (.ccwFetchComplete n (.ok b)) s = .next (sweptC s (refetched n p a (ccwOfRead a b) d)) := by
      refine (run_liveC (ccwFetched n (.ok b)) heng).trans ?_
      simp [ccwFetched, hp, hstage]
      rfl
    refine ⟨fun hS => ?_, fun hS hC => ?_, fun hS hC => ?_⟩
    · rw [hex, refetched, if_pos hS]
    · rw [hex, refetched, if_neg (by simp [hS]), if_pos hC]
    · rw [hex, refetched, if_neg (by simp [hS]), if_neg (by simp [hC])]
  case fetch =>
    intro how tic hstage hpref hc hg p0
    refine ⟨fun e => ?_, fun b h hh hhow => ?_⟩
    · rw [exec_fetched heng hp hw hstage hpref, ccwRead1, ccwFails_idle (p := p0) hc hg]
    · intro w k
      have hex := exec_fetched_ok heng hp hw hstage hpref hg b
      refine ⟨fun htic hfirst => ?_, fun htic hagain => ?_, fun c htic hcheck => ?_, fun htic hcheck => ?_⟩
      · rw [hex, hfirst, ccwCurrent_tic (p := p0) hh hc htic]
      · rw [hex, hagain, ccwCurrent_ticAtTic (p := p0) hh hc hg htic]
      · rw [hex, ccwCurrent_fails (p := p0) hh hc hhow htic hg tic hcheck]
      · intro q r d1 d2 d3
        have hpass := hex.trans (congrArg (fun e => Host.Outcome.next (sweptC s e))
          (ccwCurrent_passes (p := p0) hh hc hhow htic tic hcheck))
        have hw1 : waits156 d1 n = false := by rw [waits156_checkpoint, hw]
        have hdisp : ccwCD w = false → exec (.ccwFetchComplete n (.ok b)) s = .next (sweptC s (dispatchCmd n h q d1)) := by
          intro hcd
          exact hpass.trans (congrArg (fun e => Host.Outcome.next (sweptC s e)) (if_neg (by rw [hcd]; decide)))
        refine ⟨fun hcd => ?_, fun hcd h0 hcode => ?_, fun hcd hne himp hgrp => ?_, fun hcd h0 hcode he hgrp => ?_⟩
        · exact hpass.trans (congrArg (fun e => Host.Outcome.next (sweptC s e)) (if_pos hcd))
        · rw [hdisp hcd, dispatchCmd_inHand (q := q) (r := r) rfl rfl hm hg hw1 htic hcode h0]
          rfl
        · rw [hdisp hcd, dispatchCmd_rejected (q := q) (r := r) rfl rfl hm hg hw1 htic hne himp]
          exact congrArg (fun e => Host.Outcome.next (sweptC s e)) (endNow_alone hgrp _ _ _)
        · rw [hdisp hcd, dispatchCmd_empty (q := q) (r := r) rfl rfl hm hg hw1 htic hcode hcd h0 he]
          exact congrArg (fun e => Host.Outcome.next (sweptC s e)) (endNow_alone hgrp _ _ _)

theorem tics : Tics := by
  intro s n p a w heng hp hact hstage hc hg hcode good
  have hex : exec (.tic n) s = .next (sweptC s (ticRow n p s.dev)) := by
    refine (run_liveC _ heng).trans ?_
    simp [hp, hact, hstage, hc, hcode]
  have hbad_iff : (bits w 27 24 ≠ 0 ∨ bits w 23 18 ≠ 0 ∨ ccwAsel w ≠ 0 ∨ p.how = .first ∨ bits (ccwAddr w) 3 0 ≠ 0) ↔ ¬ good := by
    simp only [good]
    tauto
  refine ⟨fun hgood => ?_, fun hbad => ?_⟩
  · rw [hex]
    simp [ticRow, hc, mt hbad_iff.mp (not_not.mpr hgood)]
  · rw [hex]
    simp [ticRow, hc, hbad_iff.mpr hbad, ccwFails_idle (p := { p with chain := [] }) rfl hg]

/-- Settles O27. -/
theorem fetchedCcws : Obligations.FetchedCcws := ⟨ccwFetches, tics⟩

end Sys2Proof.Machine
end

section
/-!
THEOREM. O28 (EngineCommands): the engine's own commands and what follows the end of one.
-/
namespace Sys2Proof.Machine

open Sys2Proof

theorem nopAndChaining : NopAndChaining := by
  intro s n x h p a w H hcode past d q
  have hnop : exec (.nop n) s = .next (sweptC s (if ccwS w then suspendDecision n q a d
      else if ccwCC w then fetchCcw n q (a + 16) .byCmd false d else postFinal n q (endC 0 a (ccwCount w)) none past)) := by
    rw [H.endsBy (i := .nop n) (e := endC 0 a (ccwCount w)) (pos := none) (d := s.dev) rfl (by simp [hcode])
      (by simp only [H.chain, List.headD_cons]), ended, H.chain, commandEnd_clean H.sub H.active]
  have hrp : (subGet d n).rp = x.rp := by
    have hkeep := courseOf_commandOver H.sub a (ccwCount w)
    simp only [courseOf, Prod.mk.injEq] at hkeep
    exact hkeep.2.1
  refine ⟨fun hS hC => ?_, fun hS hR => ?_, fun hS hR => ?_, fun hS hC => ?_⟩
  · simp [hnop, hS, hC]
  · simp [hnop, hS, suspendDecision, hrp, hR]
  · simp [hnop, hS, suspendDecision, hrp, hR]
  · simp [hnop, hS, hC]

theorem engineOwnCommands : EngineOwnCommands := by
  intro s n x h p a w H d f c k
  refine ⟨fun hcode => ⟨fun hc io => ?_, fun A hw => ?_⟩, fun hcode hasel hc => ?_, fun hcode => ⟨fun hnone => ?_, fun m hm => ?_⟩,
    fun hcode => ⟨fun hv => ?_, fun hv hc => ?_, fun hv hc => ?_⟩⟩
  · exact H.row rfl (by simp [hcode]) (H.sense_empty io hc)
  · exact H.row rfl (by simp [hcode]) (H.sense_moves A hcode hw)
  · refine ⟨fun e r hw => ?_, fun b v hb hv => ⟨fun hw hbad => ?_, fun hz d' R => ⟨fun r hw => ?_, fun hw => ?_⟩⟩⟩
    · rw [H.copy hcode, H.copy_unread hasel e r hw, endNow_alone H.alone]
      rfl
    · rw [H.copy hcode, H.copy_badDescriptor hasel hb _ hw hbad, endNow_alone H.alone]
      rfl
    · rw [H.copy hcode, H.copy_noSource hasel hb hz rfl rfl R r hw, endNow_alone H.alone]
      rfl
    · intro g
      generalize hts : takeStream n _ _ = t
      obtain ⟨port, d2⟩ := t
      intro hwait
      have hq : groupMember x h (wrotePort { p with stage := .copying g v 0 (port.getD 0) } (some (port.getD 0))) = false := by
        rw [groupMember_wrotePort]
        exact H.alone
      rw [H.copy hcode, H.copy_begins hasel hb hz rfl rfl R hv hw hts]
      rw [copyStep_first (p := { p with stage := .copying g v 0 (port.getD 0) }) H.chain H.lastPort hv hc hwait]
      refine ⟨fun hlast => ?_, fun hmore => ?_⟩
      · rw [if_pos hlast, endNow_alone hq]
        rfl
      · rw [if_neg (Nat.not_le.mpr hmore)]
  · exact H.endsBy rfl (by simp [hcode]) (by simp only [H.chain, List.headD_cons]; rw [signalEvent_stays hnone])
  · exact H.endsBy rfl (by simp [hcode]) (by simp only [H.chain, List.headD_cons]; rw [signalEvent_releases hm])
  · exact H.endsBy rfl (by simp [hcode]) (by simp only [waitEventRow, H.chain, List.headD_cons]; exact if_pos hv)
  · exact H.endsBy rfl (by simp [hcode]) (by
      simp only [waitEventRow, H.chain, List.headD_cons]
      exact (if_neg (by rw [Nat.not_lt]; exact hv.le)).trans (if_pos hc))
  · exact H.row rfl (by simp [hcode]) (by
      simp only [waitEventRow, H.chain, List.headD_cons, Nat.mul_comm _ 1000]
      exact (if_neg (by rw [Nat.not_lt]; exact hv.le)).trans (if_neg hc))

theorem copyBursts : CopyBursts := by
  intro s n x h p a w dst v done port heng hx hst hp hh hstage hc hg hw156 hport hs hd d f at_ k e q hw y z
  have hq : groupMember x h q = false := by rw [groupMember_wrotePort, hg]
  rw [exec_copy_running heng hx hst hp hh hstage hw156, copyStep_host hc hport hs hd hw]
  refine ⟨fun hlast => ?_, fun hmore => ?_⟩
  · rw [if_pos hlast, endNow_alone hq]
    rw [show q.chain = [(a, w)] from hc]
  · rw [if_neg (Nat.not_le.mpr hmore)]

theorem waitEventTimesOut : WaitEventTimesOut := by
  intro s n k due p a w heng hp hstage hc hdue
  obtain ⟨u, r, hadv, -⟩ := advanceTo_frame due s.dev
  have hs : stageOf s.dev n = some (.waitEvent k (some due)) := by rw [stageOf_eq, hp, Option.map_some, hstage]
  have hp' : progOf (advanceTo due s.dev) n = some p := by rw [hadv]; exact hp
  refine (run_liveC _ heng).trans ?_
  simp only [hs, endWait, hp', hc, List.headD_cons]
  simp only [hadv]
  rfl

/-- Settles O28. -/
theorem engineCommands : Obligations.EngineCommands := ⟨nopAndChaining, engineOwnCommands, copyBursts, waitEventTimesOut⟩

end Sys2Proof.Machine
end

section
/-!
THEOREM. O29 (NvmeCommands): each command of the NVMe handler goes through its row's lemma.
-/
namespace Sys2Proof.Machine

open Sys2Proof

section
variable {s : State} {n : Nat} {x : Sub} {p : Prog} {a : DWord} {w : QWord} (H : InHand s n x .nvme p a w)
include H

theorem InHand.nvme_noNamespace (hid : x.hpriv.nsid = 0) (io : CmdIo) :
    let end_ := Host.Outcome.next (ended s n p (endUc a (ccwCount w) 4 0 p.pos.toNat) none s.dev)
    (ccwCode w = 1 → exec (.write n io) s = end_) ∧ (ccwCode w = 2 → exec (.read n io) s = end_)
      ∧ (ccwCode w = 0x11 → exec (.deallocate n) s = end_) ∧ (ccwCode w = 0x12 → exec (.writeZeroes n) s = end_)
      ∧ (ccwCode w = 0x14 → exec (.compare n io) s = end_) :=
  ⟨fun hc => H.endsBy rfl (by simp [hc]) (H.write_noNamespace io hid s.dev),
   fun hc => H.endsBy rfl (by simp [hc]) (H.read_noNamespace io hid s.dev),
   fun hc => H.endsBy rfl (by simp [hc]) (H.blocks_noNamespace .nvmeDealloc hid s.dev),
   fun hc => H.endsBy rfl (by simp [hc]) (H.blocks_noNamespace .nvmeZero hid s.dev),
   fun hc => H.endsBy rfl (by simp [hc]) (H.compare_noNamespace io hid s.dev)⟩

theorem InHand.nvme_unaligned (hid : x.hpriv.nsid ≠ 0) (hodd : ccwCount w % bsOf x ≠ 0) (mk : Nat → Nat → Nat → OpKind) (d : Dev) :
    blocksRow n mk x .nvme p d = endNow n x .nvme p (endUc a (ccwCount w) 2 0xFFFFFFFF p.pos.toNat) none d := by
  simp [blocksRow, H.chain, hid, hodd]

end

/-- Settles O29: row by row. -/
theorem nvmeCommands : Obligations.NvmeCommands := by
  intro s n x p a w H d f c bs pos seg id uc
  refine ⟨fun hid io => H.nvme_noNamespace hid io, fun hid k A hk => ⟨fun hpast => ?past, fun hfit => ⟨fun d' R => ⟨fun hw b hb => ?fromHost,
    fun e hw hc => ?unread, fun hc => ?read⟩, fun hs => ?noData, fun hs => ?waits⟩⟩, fun hid hodd => ?unaligned,
    fun hc h0 => ⟨fun hid => ?flushNone, fun hid hs => ?flush⟩, fun hc A d' R => ?identify, fun hc A h32 hw b ns hb => ?control⟩
  case past =>
    exact ⟨fun hc => H.endsBy rfl (by simp [hc]) (H.write_past hid hk A hpast [] d),
      fun hc => H.endsBy rfl (by simp [hc]) (H.read_past hid hk A hpast d),
      fun hc => H.endsBy rfl (by simp [hc]) (H.blocks_past hid hk .nvmeDealloc hpast d),
      fun hc => H.endsBy rfl (by simp [hc]) (H.blocks_past hid hk .nvmeZero hpast d),
      fun hc => H.endsBy rfl (by simp [hc]) (H.compare_past hid hk hpast d)⟩
  case fromHost =>
    exact ⟨fun hc => H.row rfl (by simp [hc]) (H.write_issue hid hk A hfit R hb hw),
      fun hc => H.row rfl (by simp [hc]) (H.compare_issue hid hk A hfit R hb hw)⟩
  case unread => exact H.endsBy rfl (by simp [hc]) (H.write_unread hid hk A hfit R hw)
  case read => exact H.row rfl (by simp [hc]) (H.read_issue hid hk A hfit R)
  case noData =>
    exact ⟨fun hc => H.row rfl (by simp [hc]) ((H.blocks_issue hid hk _ hfit d).trans (whenRoom_slots _ hs)),
      fun hc => H.row rfl (by simp [hc]) ((H.blocks_issue hid hk _ hfit d).trans (whenRoom_slots _ hs))⟩
  case waits =>
    exact ⟨fun hc => H.row rfl (by simp [hc]) (H.read_full hid hk A hfit hs),
      fun hc => H.row rfl (by simp [hc]) ((H.blocks_issue hid hk _ hfit d).trans (whenRoom_full _ hs))⟩
  case unaligned =>
    exact ⟨fun hc => H.endsBy rfl (by simp [hc]) (H.nvme_unaligned hid hodd .nvmeDealloc d),
      fun hc => H.endsBy rfl (by simp [hc]) (H.nvme_unaligned hid hodd .nvmeZero d)⟩
  case flushNone =>
    exact H.endsBy rfl (by simp [hc]) (by simp only [H.chain, List.headD_cons]; exact (if_pos hid).trans (by rw [h0]))
  case flush =>
    exact H.row rfl (by simp [hc]) (by simp only [H.chain, List.headD_cons]; exact (if_neg hid).trans (whenRoom_slots _ hs))
  case identify => exact H.row rfl (by simp [hc]) (by simp only [H.chain, List.headD_cons, A.asel]; exact R.whenRoom _)
  case control =>
    intro v ht hl hm hz hset hid d1
    obtain ⟨hgone, hpast, hgood⟩ := H.control_namespace A h32 hw hb rfl ns ht hl hm hz hset hid
    exact ⟨fun hact => H.row rfl (by simp [hc]) (hgone hact), fun hact hlba hend => H.row rfl (by simp [hc]) (hpast hact hlba hend),
      fun hact hin => H.row rfl (by simp [hc]) (hgood hact hin)⟩

end Sys2Proof.Machine
end

section
/-!
THEOREM. O30 (WindowPeerAndSetCommands): the memory window, PEER, and one row of a set, each through its row's lemma.
-/
namespace Sys2Proof.Machine

open Sys2Proof

/-- Settles O30: row by row. -/
theorem windowPeerAndSetCommands : Obligations.WindowPeerAndSetCommands := by
  intro s n x h p a w H d f c pos seg hp u
  refine ⟨?window, ?peer, ?set⟩
  case window =>
    rintro rfl
    refine ⟨fun hpos hc => ⟨fun A hfit d' R => ⟨fun hw b hb hcode => ?write, fun hcode => ?read⟩, fun hcode hfit hs => ?imm⟩,
      fun hbad A io => ⟨fun hcode => ?writeBad, fun hcode => ?readBad⟩, fun hcode hpast => ?immPast, fun hcode hs => ?fence,
      fun hcode A h32 hw b ns hb => ?control⟩
    case write =>
      exact H.row rfl (by simp [hcode]) (H.windowWrite_issue A (widthBad_eq_false.mpr ⟨hpos, hc⟩) hfit R hb hw)
    case read => exact H.row rfl (by simp [hcode]) (H.windowRead_issue A (widthBad_eq_false.mpr ⟨hpos, hc⟩) hfit R)
    case imm =>
      have hgood : ¬ (x.hpriv.size < p.pos.toNat + ccwCount w ∨ widthBad x p.pos.toNat (ccwCount w) = true) := by
        rw [widthBad_eq_false.mpr ⟨hpos, hc⟩]
        simpa using hfit
      exact H.row rfl (by simp [hcode]) (by simp only [H.chain, List.headD_cons, if_neg hgood]; exact whenRoom_slots _ hs)
    case writeBad => exact H.endsBy rfl (by simp [hcode]) (H.windowWrite_misaligned io (widthBad_eq_true.mpr hbad) d)
    case readBad => exact H.endsBy rfl (by simp [hcode]) (H.windowRead_misaligned io (widthBad_eq_true.mpr hbad) d)
    case immPast =>
      exact H.endsBy rfl (by simp [hcode]) (by simp only [H.chain, List.headD_cons]; exact if_pos (.inl hpast))
    case fence => exact H.row rfl (by simp [hcode]) (whenRoom_slots _ hs)
    case control =>
      intro v y ht hl hwidth hm hz hoff
      exact H.row rfl (by simp [hcode]) (H.control_window A h32 hw hb rfl ns ht hl hwidth hm hz hoff)
  case peer =>
    intro hcode hc hh t y off uy
    refine ⟨fun hgone => ?gone, fun d' R => ⟨fun k hnvme hid hk hfit hy hst hoff hlen hin => ?toWindow,
      fun k hwin hpos hlen hin hy hst hid hk hoff hfit => ?toNamespace⟩⟩
    case gone => rw [H.peer hcode hh, H.peer_noTarget hgone, endNow_alone H.alone]; rfl
    case toWindow =>
      subst hnvme
      rw [H.peer hcode hh, InHand.peer_toWindow hc rfl rfl hst H (by simpa [y, t, hy] using R) hid hk hfit hy
        (widthBad_eq_false.mpr ⟨hoff, hlen⟩) hin]
    case toNamespace =>
      subst hwin
      rw [H.peer hcode hh, InHand.peer_toNamespace hc rfl rfl hst H (by simpa [y, t, hy] using R)
        (widthBad_eq_false.mpr ⟨hpos, hlen⟩) hin hy hid hk hoff hfit]
  case set =>
    rintro rfl A k uu hm hu - hk
    refine ⟨fun b d' hb hcode R hw => ?_, fun hcode d' R => ?_⟩
    · exact H.row rfl (by simp [hcode]) (H.stripe_row A hm hu hk R hw hb)
    · exact H.row rfl (by simp [hcode]) (H.readSet_row A hm hu hk R)

end Sys2Proof.Machine
end

section
/-!
THEOREM. O31 (OperationEvents): a refutation. `timedOut` settles the machine when the completion timeout is latched, and only then does the
operation fail; the model latches the timeout and fails the operation in one step, which settles once, at its end. A call of the
subchannel's pack that waits for a control processor tells the two apart: the statement's first settling makes the call, and the end of
the command comes too late to drop it (R437), while in the model the command's end has dropped it before any call is made.
-/
namespace Sys2Proof.Machine

open Sys2Proof

/-- A FENCE of the memory window: code 10 (hex), COUNT 0 (R57). -/
def fenceWord : QWord := 0x10

/-- The run of that command: one operation, number 9, is in flight. -/
def fenceRun : Run :=
  { id := 1, code := 0x10, isSet := false, ccws := [(0x1000, fenceWord)], segs := [], total := 0, devLen := 0, ops := [9], got := []
    row := 0, todo := [], startPos := 0, endPos := 1, stop := none, fails := [], sm := false, ownResid := none, ended := none
    port := none, paths := [], banks := [] }

/-- The program of subchannel 7, which executes it. -/
def fenceProg : Prog :=
  { jseq := 0, tag := 0, key := 0, ring := none, idem := none, first := 0x1000, cp := 0, stage := .running, how := .first, chain := []
    stopAt := none, pos := 0, run := some fenceRun, grp := [], grpLast := false, lastEnd := ⟨0, 0, 0, 0, false, none⟩, recov := false
    ports := [], own := none, ticAt := (0, 0), pref := [], prefAt := none, lastPort := none, sync := none, marks := [] }

/-- Operation 9: that FENCE, which is not idempotent. -/
def fenceOp : Op :=
  { sub := 7, jseq := 0, dev := 7, dport := 0, member := 0, cls := 2, idem := false, kind := .winFence, from_ := 0, info := 0
    cond := .uncertain, reissued := false, detached := false, cp := 0 }

/-- The operation in flight while a call of subchannel 7's pack 1 waits, and control processor 0, which serves no one, may take it. -/
def fenceState : State :=
  { State.reset with dev := cpSet 0 { cpReset 0 with run := .run } { Dev.reset with
      subs := [(7, { subReset 7 with st := .active })], packs := [(1, ⟨0, 1, 0, 0, 0, true, [], [], 0, 0, 0, 0, 0, 0, 0, 0, 0, 0⟩)]
      progs := [(7, fenceProg)], ops := [(9, fenceOp)], packCalls := [⟨0, 7, 1, 4, 0, 0, 0, 0⟩] } }

/-- The number of free values a result has used: a pack's call takes four of them for the registers it does not name. -/
def freeUsed (r : Host.Outcome State Fault Refusal) : Nat :=
  match r with
  | .next t => t.dev.freeCtr
  | _ => 0

theorem inFlight_fenceState :
    InFlight fenceState 9 7 fenceOp { subReset 7 with st := .active } fenceProg fenceRun 0x1000 fenceWord := by
  unfold InFlight Engine
  decide +kernel

/-- In the model the end of the command drops the call: no free value is used. -/
theorem freeUsed_timeout_fenceState : freeUsed (exec (.handlerTimeout 9 .uncertain) fenceState) = 0 := by
  decide +kernel

/-- Settled at the latch, the machine has made the call before the command ends. -/
theorem freeUsed_opOver_timedOut_fenceState :
    freeUsed (Host.Outcome.next (opOver (timedOut fenceState fenceOp) 9 7 fenceProg { fenceRun with fails := [⟨0, 1, 1, true, 0, 0, 0⟩] }
      ⟨0x80, dsEnd, 0x1000, BitVec.ofNat 32 0, true, some ⟨9, 1, 0, 0, false, some 0⟩⟩ 1)) = 4 := by
  decide +kernel

/-- Refutes O31: for a memory-window operation that times out while a call of its subchannel's pack waits, the machine `timedOut` has
made the call, which the model's command end drops before it is made. The state lies outside the invariant's clause that calls which can be
made are made; O31 speaks of every state with the operation in flight. -/
theorem not_operationEvents : ¬ Obligations.OperationEvents := by
  intro h
  obtain ⟨-, -, -, -, -, huncertain, -⟩ := h fenceState 9 7 _ _ _ _ _ _ inFlight_fenceState
  obtain ⟨hfails, -⟩ := huncertain rfl
  have hused := congrArg freeUsed hfails
  rw [freeUsed_timeout_fenceState] at hused
  exact absurd (hused.trans freeUsed_opOver_timedOut_fenceState) (by decide)
end Sys2Proof.Machine
end

section
/-!
THEOREM. O34 (MoverCommands): a refutation. Who may write a channel is stated of the device before the write, while R405's step 4 judges it
after the expert modes whose idle time has passed have closed (R413). For the functions there are the two agree. But the statement speaks
of every origin, also of a function that no port has, whose GL_FN_PERM copy the model keeps where EVT_PENDING of page 7 lies: the mark
that the records of the closing raise there (R425) gives it XMOV (R417), and its write, which the statement says is denied, is accepted.
-/
namespace Sys2Proof.Machine

open Sys2Proof

/-- The copy of GL_FN_PERM that has the key of EVT_PENDING of page 7. -/
def strayPerm : Nat := (Reg.evtPending.ctorIdx - Reg.glFnPerm.ctorIdx) * 1048576 + 7

/-- The function, of a port that does not exist, with that copy. -/
def strayFn : FnId := ⟨strayPerm / 65, strayPerm % 65⟩

def strayOrigin : Origin := .hostVf strayFn.port strayFn.fn

/-- It holds channel 0, which is HALTED, without XMOV and has expert mode on the channel's page; JTAG's mode there has been idle too long,
and one record more raises the audit's mark. -/
def strayState : State :=
  { State.reset with dev := regSet .evtPending 7 2 { Dev.reset with
      devtime := 0x1000000000000, auHead := 1048575, commits := [(resKey 3 0, ⟨.fn strayFn, 0⟩)]
      chans := [(0, { chReset with st := .halted })]
      xmodes := [⟨strayOrigin, chanPage 0, 0x1000000000000⟩, ⟨.jtag, chanPage 0, 0⟩] } }

/-- The state of channel 0 in what a command answers. -/
def channelAfter (r : Host.Outcome State Fault Refusal) : Option ChSt :=
  match r with
  | .next t => some (chGet t.dev 0).st
  | _ => none

theorem passes_strayState : Passes strayState strayOrigin (chanPage 0) (chanRegs 0) [3, 2, 1, 0] := by
  unfold Passes Running
  decide +kernel

theorem mayChan_strayState : mayChan strayState.dev strayOrigin 0 = false := by decide +kernel

/-- The model accepts its CLR_ERR. -/
theorem channelAfter_clrErr : channelAfter (exec (.moverDisable strayOrigin 0 0x20000000) strayState) = some .idle := by
  decide +kernel

/-- A denied write leaves the channel HALTED. -/
theorem channelAfter_denied : channelAfter (Host.Outcome.next
    (deniedWrite strayState strayOrigin (chanPage 0) (chanRegs 0) 4 ((0x20000000 : Word).zeroExtend 64))) = some .halted := by
  decide +kernel

/-- Refutes O34: the write of CH_CTL by a function that may not write the channel is not denied, since an expert mode that closes
first gives it XMOV. Only an origin that does not exist shows it: the statement asks for none of the bounds of an origin. -/
theorem not_moverCommands : ¬ Obligations.MoverCommands := by
  rintro ⟨hcontrol, -⟩
  obtain ⟨hctl, -⟩ := hcontrol strayState 0 (by decide)
  obtain ⟨hdenied, -⟩ := hctl strayOrigin 0x20000000 (.ok []) passes_strayState
  have hsame := congrArg channelAfter (hdenied mayChan_strayState).1
  rw [channelAfter_clrErr] at hsame
  exact absurd (hsame.trans channelAfter_denied) (by decide)

end Sys2Proof.Machine
end

section
/-!
THEOREM. Port resets, function-level resets and the clearing of VF Enable (O50, R130, R422, R452, R453, R549).
-/
namespace Sys2Proof.Machine
open Sys2Proof

section
variable {s : State} (hs : Running s) (begun : List Nat)
include hs

theorem exec_perstAssert (u : Nat) (how : PortResetBy) :
    exec (.perstAssert u how begun) s = .next (after s (portReset u how begun s.dev)) := run_running s _ hs

theorem exec_perstRelease (u : Nat) : exec (.perstRelease u) s = .next (after s (portRelease u s.dev)) := run_running s _ hs

theorem exec_functionLevelReset (f : FnId) :
    exec (.functionLevelReset f begun) s = .next (after s (fnLevelReset f begun s.dev)) := run_running s _ hs

theorem exec_vfEnableClear (u : Nat) :
    exec (.vfEnableClear u begun) s = .next (after s (vfEnableClear u begun s.dev)) := run_running s _ hs

end

section
variable {u : Nat} {d : Dev} (begun : List Nat)

/-- A port that is in reset is reset no further (R549). -/
theorem portReset_inReset (how : PortResetBy) (h : regFld d .upStat u 15 15 = 1) : portReset u how begun d = d := if_pos (.inr h)

/-- Nor is a function of it. -/
theorem fnLevelReset_inReset (v : Nat) (h : regFld d .upStat u 15 15 = 1) : fnLevelReset ⟨u, v⟩ begun d = d :=
  if_pos (.inr (.inr h))

variable (hu : u < 2) (h : regFld d .upStat u 15 15 = 0)
include hu h

/-- UP_STAT of a port that is reset shows a link in Detect, or in Hot Reset, and PERST; a change of it is an event of the port. -/
theorem portReset_out (how : PortResetBy) : portReset u how begun d =
    let d := resetAudit 3 ⟨u, 0x7F⟩ d
    let w := upStatWord { linkDetect with ltssm := if how = .hotReset then 8 else 0 } (if how = .perst then 1 else 0)
    let d1 := regSet .upStat u w d
    let d2 := if bits w 31 20 ≠ regFld d .upStat u 31 20 then pageEvent (0x10 + u) 2 d1 else d1
    resetNote 3 ⟨u, 0x7F⟩ (resetFns (portFns u) begun (upPortIs u false d2)) := by
  have hin : ¬ (2 ≤ u ∨ regFld d .upStat u 15 15 = 1) := by omega
  refine (if_neg hin).trans ?_
  dsimp only
  rw [regGet_regSet_self]
  cases how <;> rfl

theorem fnLevelReset_out {v : Nat} (hv : v ≤ 64) : fnLevelReset ⟨u, v⟩ begun d =
    resetNote 4 ⟨u, v⟩ (resetFns (if v = 0 then portFns u else [⟨u, v⟩]) begun (resetAudit 4 ⟨u, v⟩ d)) := by
  have hin : ¬ (2 ≤ u ∨ 64 < v ∨ regFld d .upStat u 15 15 = 1) := by omega
  exact if_neg hin

theorem vfEnableClear_out (hvf : (fnGet d ⟨u, 0⟩).vfEnable = true) : vfEnableClear u begun d =
    let d := resetNote 5 ⟨u, 0⟩ (resetFns ((portFns u).drop 1) begun d)
    fnSet ⟨u, 0⟩ { fnGet d ⟨u, 0⟩ with vfEnable := false, numVfs := 0 } d := by
  have hin : ¬ (2 ≤ u ∨ regFld d .upStat u 15 15 = 1 ∨ (fnGet d ⟨u, 0⟩).vfEnable = false) := by
    simp [hvf, h, hu]
  rw [vfEnableClear, if_neg hin]

end

/-- Settles O50: a port in reset is reset no further, one that is not goes through the actions of the reset that reaches it. -/
theorem portAndFunctionResets : Obligations.PortAndFunctionResets := by
  intro s u how v begun hs hu
  refine ⟨fun hin hv => ⟨?_, ?_⟩, fun hout => ⟨?_, ?_, fun h1 hv => ?_, fun hvf => ?_⟩, ?_⟩
  · rw [exec_perstAssert hs, portReset_inReset begun how hin]
  · rw [exec_functionLevelReset hs, fnLevelReset_inReset begun v hin]
  · rw [exec_perstAssert hs, portReset_out begun hu hout how]
  · rw [exec_functionLevelReset hs, fnLevelReset_out begun hu hout (Nat.zero_le 64), if_pos rfl]
  · rw [exec_functionLevelReset hs, fnLevelReset_out begun hu hout hv, if_neg (by omega)]
  · rw [exec_vfEnableClear hs, vfEnableClear_out begun hu hout hvf]
  · rw [exec_perstRelease hs, portRelease, if_pos hu]

end Sys2Proof.Machine
end

section
/-!
SUPPORT. What happens to an upstream port and its functions (R168, R513, R515, R519): the events, as the device meets them.
-/
namespace Sys2Proof.Machine

open Sys2Proof

section
variable {s : State} (hs : Running s)
include hs

theorem exec_upstreamLinkStateChange (u : Nat) (st : LinkState) :
    exec (.upstreamLinkStateChange u st) s = .next (after s (upLink u st s.dev)) := run_running s _ hs

theorem exec_atsInvalidation (f : FnId) (a : DWord) (pages : Nat) :
    exec (.atsInvalidation f a pages) s = .next (after s (atsInvalidate f a pages s.dev)) := run_running s _ hs

theorem exec_configurationWrite (f : FnId) (w : CfgWrite) :
    exec (.configurationWrite f w) s = .next (after s (cfgWrite f w s.dev)) := run_running s _ hs

end

/-- Equal devices are equal machines after a command. -/
theorem next_after_congr (s : State) {d e : Dev} (h : d = e) :
    (.next (after s d) : Host.Outcome State Fault Refusal) = .next (after s e) := by rw [h]

/-! ### Link states (R519) -/

theorem ltssmUp_eq (n : Nat) : ltssmUp n = decide (3 ≤ n ∧ n ≤ 6) := by simp [ltssmUp]

/-- A link state that does not exist, or that comes while the port is in reset, changes nothing (R519). -/
theorem upLink_ignored {u : Nat} {st : LinkState} {d : Dev} (h : 8 < st.ltssm ∨ regFld d .upStat u 15 15 = 1) :
    upLink u st d = d := if_pos (.inr h)

/-- The link state that a port enters: without its reference clock a link that retrains goes to Detect (R547). -/
def entered (u : Nat) (st : LinkState) (d : Dev) : LinkState :=
  let now := regFld d .upStat u 31 28
  if regFld d .thClk 0 u u = 0 ∧ (st.ltssm = 6 ∨ ¬ (3 ≤ now ∧ now ≤ 6)) then linkDetect else st

theorem upLink_enters {u : Nat} {st : LinkState} {d : Dev} (hu : u < 2) (hl : st.ltssm ≤ 8) (h : regFld d .upStat u 15 15 = 0) :
    upLink u st d =
      let w := upStatWord (entered u st d) 0
      let e := regSet .upStat u w d
      let e := if bits w 31 20 ≠ regFld d .upStat u 31 20 then pageEvent (0x10 + u) 2 e else e
      let e := if (entered u st d).ltssm = 6 ∧ regFld d .upStat u 31 28 ≠ 6 then pageEvent (0x10 + u) 3 (regBump .upRecov u e) else e
      upPortIs u (decide (3 ≤ (entered u st d).ltssm ∧ (entered u st d).ltssm ≤ 6)) e := by
  have hin : ¬ (2 ≤ u ∨ 8 < st.ltssm ∨ regFld d .upStat u 15 15 = 1) := by omega
  have hst : (if regFld d .thClk 0 u u = 0 ∧ (st.ltssm = 6 ∨ (!(ltssmUp (bits (regGet d .upStat u) 31 28))) = true) then linkDetect else st)
      = entered u st d := by
    simp only [ltssmUp_eq, Bool.not_eq_true', decide_eq_false_iff_not]
    rfl
  refine (if_neg hin).trans ?_
  dsimp only
  rw [hst, regGet_regSet_self, ltssmUp_eq]
  rfl

/-! ### Invalidations (R515) -/

theorem atsInvalidate_eq (f : FnId) (a : DWord) (pages : Nat) (d : Dev) :
    atsInvalidate f a pages d =
      let e := regBump .upAtsinv f.port { d with xlate := d.xlate.filter (fun e =>
        !(decide (e.1 = fnKey f) && decide (a.toNat / 4096 ≤ e.2.1) && decide (e.2.1 < a.toNat / 4096 + pages))) }
      let under := (hostReads d).filter (fun r => decide (r.1 = f) && (fnGet d f).ats
        && decide (r.2.1.toNat / 4096 < a.toNat / 4096 + pages) && decide (a.toNat / 4096 ≤ (r.2.1.toNat + r.2.2 - 1) / 4096))
      if under = [] then emit (.message f.port "ATS Invalidate Completion") e
      else { e with invals := d.invals ++ [⟨f.port, false, under⟩] } := by
  have hunder : readsUnder d (fun g => decide (g = f)) (a.toNat / 4096) (a.toNat / 4096 + pages)
      = (hostReads d).filter (fun r => decide (r.1 = f) && (fnGet d f).ats
        && decide (r.2.1.toNat / 4096 < a.toNat / 4096 + pages) && decide (a.toNat / 4096 ≤ (r.2.1.toNat + r.2.2 - 1) / 4096)) := by
    refine List.filter_congr fun r _ => ?_
    by_cases hr : r.1 = f <;> simp [hr]
  have hinv : ∀ e : Dev, (regBump .upAtsinv f.port e).invals = e.invals := fun e => by
    unfold regBump
    dsimp only
    split <;> rfl
  unfold atsInvalidate
  dsimp only
  rw [hunder, hinv]
  simp only [List.isEmpty_iff]

/-- A flush of a port's translations waits for the reads sent under them (R519). -/
theorem atcFlush_eq (u : Nat) (d : Dev) : atcFlush u d =
    let under := (hostReads d).filter (fun r => decide (r.1.port = u) && (fnGet d r.1).ats
      && decide (r.2.1.toNat / 4096 < 2 ^ 52) && decide (0 ≤ (r.2.1.toNat + r.2.2 - 1) / 4096))
    let e := { d with xlate := d.xlate.filter (fun x => x.1 / 65 ≠ u) }
    if under = [] then e else { e with invals := d.invals ++ [⟨u, true, under⟩] } := by
  unfold atcFlush
  dsimp only
  simp only [List.isEmpty_iff]
  rfl

section
variable {d : Dev} {i : Inval} (hd : d.invals = [i])
include hd

/-- The invalidations as a sweep finds them: each with the reads that are still out. -/
theorem map_stillOut {l : List (FnId × DWord × Nat)} (hl : i.reads.filter ((hostReads d).contains ·) = l) :
    d.invals.map (fun v => { v with reads := v.reads.filter ((hostReads d).contains ·) }) = [{ i with reads := l }] := by
  rw [hd, List.map_singleton, hl]

/-- An invalidation whose reads have been answered is completed. -/
theorem invalSweep_answered (h : ∀ r ∈ i.reads, r ∉ hostReads d) : invalSweep d =
    if i.flush then { d with invals := [] } else emit (.message i.port "ATS Invalidate Completion") { d with invals := [] } := by
  have hnone : i.reads.filter ((hostReads d).contains ·) = [] := by
    rw [List.filter_eq_nil_iff]
    intro r hr
    simpa using h r hr
  unfold invalSweep
  dsimp only
  rw [map_stillOut hd hnone]
  rfl

/-- One whose reads are all out waits on. -/
theorem invalSweep_waits (hne : i.reads ≠ []) (h : ∀ r ∈ i.reads, r ∈ hostReads d) : invalSweep d = d := by
  have hall : i.reads.filter ((hostReads d).contains ·) = i.reads := by
    rw [List.filter_eq_self]
    intro r hr
    simpa using h r hr
  have hover : [i].filter (fun v => v.reads.isEmpty) = [] := by simp [hne]
  have hleft : [i].filter (fun v => !v.reads.isEmpty) = [i] := by simp [hne]
  unfold invalSweep
  dsimp only
  rw [map_stillOut hd hall]
  rw [hover, hleft, ← hd]
  rfl

end

/-! ### Pending messages (R168, R170) -/

/-- Sending a pending message leaves the power state and PME_En of its function. -/
theorem vecOut_power (f : FnId) (v : Nat) (d : Dev) :
    (fnGet (vecOut f v d) f).d3hot = (fnGet d f).d3hot ∧ (fnGet (vecOut f v d) f).pmeEn = (fnGet d f).pmeEn := by
  have hemit : ∀ (o : Out) (e : Dev), fnGet (emit o e) f = fnGet e f := fun _ _ => rfl
  unfold vecOut
  dsimp only
  split
  · split
    · simp [hemit]
    · exact ⟨rfl, rfl⟩
  · simp [hemit]

/-- Pending messages are sent one after another in the power state in which the first is. -/
theorem foldl_vecOut (f : FnId) (l : List Nat) {d : Dev} {off pme : Bool} (h3 : (fnGet d f).d3hot = off) (hp : (fnGet d f).pmeEn = pme) :
    l.foldl (fun d v => vecOut f v d) d = l.foldl (fun d v =>
      if off = false then emit (.msix f v) (fnSet f { fnGet d f with pba := (fnGet d f).pba.filter (· ≠ v) } d)
      else if pme = true then emit (.pme f) (fnSet f { fnGet d f with pmeStatus := true } d) else d) d := by
  induction l generalizing d with
  | nil => rfl
  | cons v l ih =>
    have hstep : vecOut f v d =
        if off = false then emit (.msix f v) (fnSet f { fnGet d f with pba := (fnGet d f).pba.filter (· ≠ v) } d)
        else if pme = true then emit (.pme f) (fnSet f { fnGet d f with pmeStatus := true } d) else d := by
      cases off <;> simp [vecOut, h3, hp]
    obtain ⟨k3, kp⟩ := vecOut_power f v d
    rw [List.foldl_cons, List.foldl_cons, ← hstep]
    exact ih (k3.trans h3) (kp.trans hp)

theorem upstreamPorts : UpstreamPorts := by
  intro s u v hs hu hv
  have hcfg := fun w => exec_configurationWrite hs ⟨u, v⟩ w
  refine ⟨fun st => ⟨fun hign => ?_, fun hl hout => ?_⟩, fun a pages => ⟨fun hnone => ?_, fun hsome => ?_⟩,
    fun i hi => ⟨invalSweep_answered hi, invalSweep_waits hi⟩, fun n => ⟨exec_configurationWrite hs _ _, fun h0 => ?_⟩,
    hcfg (.ats true), hcfg (.ats false), fun on => ⟨hcfg (.pasid on), ?_, hcfg (.busMaster on), hcfg (.pmeEn on)⟩,
    hcfg .pmeClear, ?_, ?_, fun n => ⟨fun hin => ?_, fun hin => ?_⟩⟩
  · rw [exec_upstreamLinkStateChange hs, upLink_ignored hign]
  · rw [exec_upstreamLinkStateChange hs, upLink_enters hu hl hout]
    rfl
  · rw [exec_atsInvalidation hs, atsInvalidate_eq]
    exact next_after_congr s (if_pos hnone)
  · rw [exec_atsInvalidation hs, atsInvalidate_eq]
    exact next_after_congr s (if_neg hsome)
  · rw [hcfg]
    exact next_after_congr s (if_neg (by simp only; omega))
  · exact hcfg (.ptm on)
  · rw [hcfg]
    simp only [cfgWrite, unmasked, fnGet_fnSet_self, if_true, List.foldl_nil]
  · rw [hcfg]
    simp only [cfgWrite, unmasked, fnGet_fnSet_self]
    rw [foldl_vecOut (off := (fnGet s.dev ⟨u, v⟩).d3hot) (pme := (fnGet s.dev ⟨u, v⟩).pmeEn) _ _ (by simp) (by simp)]
    simp
  · rw [hcfg]
    exact next_after_congr s (if_pos (by simpa using hin))
  · rw [hcfg]
    exact next_after_congr s (if_neg (by simpa using hin))

end Sys2Proof.Machine
end

section
/-!
SUPPORT. DP_CTL, DP_LRETRY, AV_CFG and UP_ATC as a write of their pages meets them, and what such a write leaves of their fields
(R515, R519, R520, R527 to R530).
-/
namespace Sys2Proof.Machine

open Sys2Proof

/-! ### Bits of a written value -/

/-- A bit of the writable ones is the written one, any other the old one. -/
theorem getLsbD_merge (old val mask : DWord) (k : Nat) :
    ((old &&& ~~~mask) ||| (val &&& mask)).getLsbD k = if mask.getLsbD k then val.getLsbD k else old.getLsbD k && decide (k < 64) := by
  rw [BitVec.getLsbD_or, BitVec.getLsbD_and, BitVec.getLsbD_and, BitVec.getLsbD_not]
  cases mask.getLsbD k <;> simp [Bool.and_comm]

/-- A field is made of its bits. -/
theorem testBit_bits {w : Nat} (x : BitVec w) (hi lo j : Nat) :
    (bits x hi lo).testBit j = (decide (j < hi + 1 - lo) && x.getLsbD (lo + j)) := by
  rw [bits, Nat.testBit_mod_two_pow, Nat.testBit_div_two_pow, ← BitVec.testBit_toNat, Nat.add_comm j lo]

/-- Two words with the same bits in a field have the same field. -/
theorem bits_congr {v w : Nat} {x : BitVec v} {y : BitVec w} {hi lo : Nat}
    (h : ∀ k, lo ≤ k → k ≤ hi → x.getLsbD k = y.getLsbD k) : bits x hi lo = bits y hi lo := by
  apply Nat.eq_of_testBit_eq
  intro j
  rw [testBit_bits, testBit_bits]
  by_cases hj : j < hi + 1 - lo
  · rw [h (lo + j) (by omega) (by omega)]
  · simp [hj]

/-- Setting a field leaves the bits outside it. -/
theorem getLsbD_setBits_of_outside {w : Nat} (x : BitVec w) {hi lo v k : Nat} (hk : k < lo ∨ hi < k) :
    (setBits x hi lo v).getLsbD k = x.getLsbD k := by
  have hmask : ∀ n : Nat, n < 2 ^ (hi + 1 - lo) → (BitVec.ofNat w (n * 2 ^ lo)).getLsbD k = false := by
    intro n hn
    rw [BitVec.getLsbD_ofNat, Nat.testBit_mul_two_pow]
    rcases hk with hk | hk
    · simp [Nat.not_le.mpr hk]
    · have hz : n.testBit (k - lo) = false :=
        Nat.testBit_lt_two_pow (Nat.lt_of_lt_of_le hn (Nat.pow_le_pow_right (by omega) (by omega)))
      simp [hz]
  have hpos := Nat.two_pow_pos (hi + 1 - lo)
  unfold setBits
  dsimp only
  rw [BitVec.getLsbD_or, BitVec.getLsbD_and, BitVec.getLsbD_not, hmask _ (by omega), hmask _ (Nat.mod_lt _ hpos)]
  by_cases hw : k < w
  · simp [hw]
  · simp [hw, BitVec.getLsbD_of_ge x k (by omega)]

/-! ### The registers at their places (R398) -/

theorem pageOf_dpt : ∀ p, p < 32 → pageOf (0x40 + p) = some (.dpt, p) := by decide
theorem pageOf_ave : ∀ a, a < 8 → pageOf (0x18 + a) = some (.ave, a) := by decide
theorem pageOf_upt : ∀ u, u < 2 → pageOf (0x10 + u) = some (.upt, u) := by decide

/-- The fields of DP_CTL (R530). -/
def dpCtlInfo : RegInfo := ⟨.dpt, 0x60, 0, 1, 4, [⟨31, 31, .rw, 1⟩, ⟨30, 30, .sc, 0⟩, ⟨29, 27, .rw, 6⟩, ⟨26, 26, .rw, 0⟩,
  ⟨25, 25, .rw, 0⟩, ⟨24, 24, .rw, 0⟩, ⟨23, 23, .rw, 0⟩, ⟨22, 22, .sc, 0⟩]⟩

/-- DP_CTL of root port p, as an access meets it. -/
def dpCtlAt (p : Nat) : RegAt := ⟨.dpt, p, 0x40 + p, .dpCtl, dpCtlInfo, 0, 0⟩
/-- DP_LRETRY of root port p. -/
def dpLretryAt (p : Nat) : RegAt := ⟨.dpt, p, 0x40 + p, .dpLretry, ⟨.dpt, 0x800, 0, 1, 4, [⟨0, 0, .sc, 0⟩]⟩, 0, 0⟩
/-- AV_CFG of avenue a. -/
def avCfgAt (a : Nat) : RegAt := ⟨.ave, a, 0x18 + a, .avCfg, ⟨.ave, 0x800, 0, 1, 4, [⟨31, 30, .rw, 0⟩]⟩, 0, 0⟩
/-- UP_ATC of upstream port u. -/
def upAtcAt (u : Nat) : RegAt := ⟨.upt, u, 0x10 + u, .upAtc, ⟨.upt, 0x804, 0, 1, 4, [⟨31, 31, .sc, 0⟩]⟩, 0, 0⟩

/-- A register of a page is found where the page's table has it. -/
theorem regFind_of_page {page x i : Nat} {t : PageTy} {e : Reg × RegInfo × Nat × Nat} (hp : pageOf page = some (t, i)) (ht : t ≠ .plz)
    (hx : ¬ x < 0x40) (he : regAtOff x (pageRegs t) = some e) : regFind page x = some ⟨t, i, page, e.1, e.2.1, e.2.2.1, e.2.2.2⟩ := by
  simp [regFind, hp, ht, hx, he]

theorem regFind_dpCtl {p : Nat} (hp : p < 32) : regFind (0x40 + p) 0x060 = some (dpCtlAt p) :=
  regFind_of_page (e := (.dpCtl, dpCtlInfo, 0, 0)) (pageOf_dpt p hp) (by decide) (by decide) (by decide)

theorem regFind_dpLretry {p : Nat} (hp : p < 32) : regFind (0x40 + p) 0x800 = some (dpLretryAt p) :=
  regFind_of_page (e := (.dpLretry, (dpLretryAt 0).info, 0, 0)) (pageOf_dpt p hp) (by decide) (by decide) (by decide)

theorem regFind_avCfg {a : Nat} (ha : a < 8) : regFind (0x18 + a) 0x800 = some (avCfgAt a) :=
  regFind_of_page (e := (.avCfg, (avCfgAt 0).info, 0, 0)) (pageOf_ave a ha) (by decide) (by decide) (by decide)

theorem regFind_upAtc {u : Nat} (hu : u < 2) : regFind (0x10 + u) 0x804 = some (upAtcAt u) :=
  regFind_of_page (e := (.upAtc, (upAtcAt 0).info, 0, 0)) (pageOf_upt u hu) (by decide) (by decide) (by decide)

theorem writeMask_dpCtl (p : Nat) : writeMask (dpCtlAt p).info = 0xFFC00000 :=
  (by decide : writeMask (dpCtlAt 0).info = 0xFFC00000)
theorem writeMask_dpLretry (p : Nat) : writeMask (dpLretryAt p).info = 1 :=
  (by decide : writeMask (dpLretryAt 0).info = 1)
theorem writeMask_avCfg (a : Nat) : writeMask (avCfgAt a).info = 0xC0000000 :=
  (by decide : writeMask (avCfgAt 0).info = 0xC0000000)
theorem writeMask_upAtc (u : Nat) : writeMask (upAtcAt u).info = 0x80000000 :=
  (by decide : writeMask (upAtcAt 0).info = 0x80000000)

/-! ### What a write of them does (R405) -/

/-- DP_CTL keeps all but the bits that act once. -/
theorem store_dpCtl (d0 : Dev) (o : Origin) (p : Nat) (v : DWord) (d : Dev) :
    store d0 o (dpCtlAt p) v d = regSet .dpCtl p (v &&& ~~~0x40400000#64) d := by
  have hmask : accMask dpCtlInfo (fun x => x = .wo || x = .sc) = 0x40400000#64 := by decide
  rw [← hmask]
  rfl

theorem regEffect_dpCtl (d : Dev) (o : Origin) (p : Nat) (v : DWord) : regEffect d o (dpCtlAt p) v =
    .ok (fun e => clkNote e (dpCtlWrite p (regGet e .dpCtl p) (maxSpd v 29 27) (store d o (dpCtlAt p) (maxSpd v 29 27) e))) := rfl

theorem regEffect_dpLretry (d : Dev) (o : Origin) (p : Nat) (v : DWord) : regEffect d o (dpLretryAt p) v =
    if bit v 0 then .ok (fun d => { d with lretry := d.lretry.filter (· ≠ p) ++ [p] }) else .quiet := rfl

theorem regEffect_avCfg (d : Dev) (o : Origin) (a : Nat) (v : DWord) : regEffect d o (avCfgAt a) v =
    unlessErr (decide (bits v 31 30 = 3) || (decide (bits v 31 30 ≠ regFld d .avCfg a 31 30) && !(bifFree d a)))
      (.ok (store d o (avCfgAt a) v)) := rfl

theorem store_avCfg (d0 : Dev) (o : Origin) (a : Nat) (v : DWord) (d : Dev) : store d0 o (avCfgAt a) v d = regSet .avCfg a v d := by
  have hkept : kept (avCfgAt a) v = v := by
    have hmask : accMask (avCfgAt a).info (fun x => x = .wo || x = .sc) = 0#64 :=
      (by decide : accMask (avCfgAt 0).info (fun x => x = .wo || x = .sc) = 0#64)
    rw [kept, hmask, BitVec.not_zero, BitVec.and_allOnes]
  rw [store, hkept]
  rfl

theorem regEffect_upAtc (d : Dev) (o : Origin) (u : Nat) (v : DWord) (ho : originClass o ≠ 3) : regEffect d o (upAtcAt u) v =
    if bit v 31 then .ok (atcFlush u) else .quiet := by
  have hmine : (originClass o ≠ 3 || isPf o u) = true := by simp [ho]
  have heff : regEffect d o (upAtcAt u) v = if (!(originClass o ≠ 3 || isPf o u)) = true then .denied id
    else if bit v 31 then .ok (atcFlush u) else .quiet := rfl
  rw [heff, hmine]
  rfl

/-! ### The value written to DP_CTL -/

/-- The writable bits of DP_CTL are those of the value written. -/
theorem getLsbD_merged_dpCtl (s : State) (o : Origin) (p : Nat) (v : Word) {k : Nat} (hlo : 22 ≤ k) (hhi : k ≤ 31) :
    (merged s o (0x40 + p) 0x060 (v.zeroExtend 64) 0xFFC00000).getLsbD k = v.getLsbD k := by
  have hmask : ∀ k, 22 ≤ k → k ≤ 31 → (0xFFC00000 : DWord).getLsbD k = true := by decide
  rw [merged, getLsbD_merge, hmask k hlo hhi, if_pos rfl, BitVec.getLsbD_setWidth]
  simp [(by omega : k < 64)]

/-- DP_CTL after a write: MAXSPD 0 and 7 are 6 (R530). -/
def dpCtlValue (s : State) (o : Origin) (p : Nat) (v : Word) : DWord :=
  let m := merged s o (0x40 + p) 0x060 (v.zeroExtend 64) 0xFFC00000
  if bits v 29 27 = 0 ∨ bits v 29 27 = 7 then setBits m 29 27 6 else m

theorem maxSpd_merged_dpCtl (s : State) (o : Origin) (p : Nat) (v : Word) :
    maxSpd (merged s o (0x40 + p) 0x060 (v.zeroExtend 64) 0xFFC00000) 29 27 = dpCtlValue s o p v := by
  have hfield : bits (merged s o (0x40 + p) 0x060 (v.zeroExtend 64) 0xFFC00000) 29 27 = bits v 29 27 :=
    bits_congr fun k hlo hhi => getLsbD_merged_dpCtl s o p v (by omega) (by omega)
  rw [maxSpd, hfield]
  rfl

/-- The bits of DP_CTL that act when they change, or once, are those of the value written. -/
theorem bit_dpCtlValue (s : State) (o : Origin) (p : Nat) (v : Word) {k : Nat} (hlo : 22 ≤ k) (hhi : k ≤ 31) (hout : k < 27 ∨ 29 < k) :
    bit (dpCtlValue s o p v) k = bit v k := by
  have hm := getLsbD_merged_dpCtl s o p v hlo hhi
  unfold dpCtlValue bit
  dsimp only
  split
  · rw [getLsbD_setBits_of_outside _ hout, hm]
  · exact hm

/-- RELEASE ends containment where there is one (R527). -/
theorem dpRelease_eq (p : Nat) (d : Dev) : dpRelease p d = if regFld d .dpStat p 16 16 = 1 then
    emit (.link p "retrain") (slotPerst p false (regSetFld .dpStat p 16 16 0 (dpLink p linkDetect false d))) else d := by
  have h2 : regFld d .dpStat p 16 16 < 2 := Nat.mod_lt _ (by decide)
  unfold dpRelease
  by_cases h : regFld d .dpStat p 16 16 = 0
  · rw [if_pos h, if_neg (by omega)]
  · rw [if_neg h, if_pos (by omega)]

/-- What a write of DP_CTL does, in the order of its bits LDIS, PWRON, RELEASE and RETRAIN (R520, R526, R527, R530). -/
theorem dpCtlWrite_eq (p : Nat) (old v : DWord) (d : Dev) : dpCtlWrite p old v d =
    let d := if bit v 31 = bit old 31 then d
      else if bit v 31 = true then emit (.link p "disabled") (dpDown p 7 d)
      else emit (.link p "train") (dpLink p linkDetect false
        (regSetFld .avStat (p / 4) 31 30 (regFld d .avCfg (p / 4) 31 30) d))
    let d := if bit v 23 = bit old 23 then d else slotPower p (bit v 23) d
    let d := if bit v 22 = true ∧ regFld d .dpStat p 16 16 = 1 then
        emit (.link p "retrain") (slotPerst p false (regSetFld .dpStat p 16 16 0 (dpLink p linkDetect false d)))
      else d
    if bit v 30 = true then
      (let d := emit (.link p "retrain") { d with scWait := d.scWait.filter (· ≠ (1, p)) ++ [(1, p)] }
       if regFld d .dpStat p 18 18 = 1 then regSetFld .dpStat p 31 28 6 d else d)
    else d := by
  unfold dpCtlWrite
  simp only [dpRelease_eq, ← ite_and]
  rfl

/-! ### The writes (R405) -/

/-- Writes outside the mover's pages and to registers of no export or event are audited (R422). -/
theorem unaudited_eq_false {a : RegAt} (d : Dev) (o : Origin) (he : a.reg ≠ .evtPending) (hc : a.reg ≠ .auExpCons) (ht : a.ty ≠ .mov) :
    unaudited d o a = false := by simp [unaudited, he, hc, ht]

section
variable {s : State} {o : Origin} {v : Word}

theorem answerOf_ok {page x size : Nat} {val : DWord} {a : RegAt} (f : Dev → Dev) (he : a.reg ≠ .evtPending) (hc : a.reg ≠ .auExpCons)
    (ht : a.ty ≠ .mov) : answerOf s o page x size val a (.ok f) = wrote s o page x size val f := by
  simp [answerOf, unaudited_eq_false _ _ he hc ht]

theorem answerOf_quiet (page x size : Nat) (val : DWord) (a : RegAt) :
    answerOf s o page x size val a .quiet = idleWrite s o page x size val := rfl

theorem answerOf_cfgerr (page x size : Nat) (val : DWord) (a : RegAt) (f : Dev → Dev) :
    answerOf s o page x size val a (.cfgerr f) = ignoredWrite s o page x size val f := rfl

theorem write_dpCtl {p : Nat} (hp : p < 32) (P : Passes s o (0x40 + p) 0x060 [4, 1]) :
    run s (write32 o (0x40 + p) 0x060 v) = .next (wrote s o (0x40 + p) 0x060 4 (v.zeroExtend 64) (fun d =>
      clkNote d (dpCtlWrite p (regGet d .dpCtl p) (dpCtlValue s o p v)
          (regSet .dpCtl p (dpCtlValue s o p v &&& ~~~0x40400000#64) d)))) := by
  rw [write32_passed P (regFind_dpCtl hp) rfl (by simp [dpCtlAt]) rfl
    (by decide : ∀ c ∈ [4, 1], inSet (writers (dpCtlAt 0) 0x060) c = true)
    (by rw [writeMask_dpCtl]; decide) (by decide) (by omega) (by decide) (by decide) (by omega)
    (by rw [writeMask_dpCtl]; decide), writeMask_dpCtl, regEffect_dpCtl, maxSpd_merged_dpCtl,
    answerOf_ok _ (by simp [dpCtlAt]) (by simp [dpCtlAt]) (by simp [dpCtlAt])]
  simp only [store_dpCtl]

theorem write_dpLretry {p : Nat} (hp : p < 32) (P : Passes s o (0x40 + p) 0x800 [4, 1, 0]) :
    run s (write32 o (0x40 + p) 0x800 v) = .next (if bit v 0 = true then wrote s o (0x40 + p) 0x800 4 (v.zeroExtend 64) (fun d =>
      { d with lretry := d.lretry.filter (· ≠ p) ++ [p] }) else idleWrite s o (0x40 + p) 0x800 4 (v.zeroExtend 64)) := by
  have hbit : bit (merged s o (0x40 + p) 0x800 (v.zeroExtend 64) 1) 0 = bit v 0 := by
    have hmask : (1 : DWord).getLsbD 0 = true := by decide
    rw [merged, bit, getLsbD_merge, hmask, if_pos rfl, BitVec.getLsbD_setWidth]
    simp [bit]
  rw [write32_passed P (regFind_dpLretry hp) rfl (by simp [dpLretryAt]) rfl
    (by decide : ∀ c ∈ [4, 1, 0], inSet (writers (dpLretryAt 0) 0x800) c = true)
    (by rw [writeMask_dpLretry]; decide) (by decide) (by omega) (by decide) (by decide) (by omega)
    (by rw [writeMask_dpLretry]; decide), writeMask_dpLretry, regEffect_dpLretry, hbit]
  split
  · rw [answerOf_ok _ (by simp [dpLretryAt]) (by simp [dpLretryAt]) (by simp [dpLretryAt])]
  · rw [answerOf_quiet]

/-- The checks before a write leave every register but those of events and logs. -/
theorem regGet_judged (o : Origin) (page x : Nat) (d : Dev) {q : Reg} {i : Nat} (hi : i < 1048576) (h1 : q ≠ .evtPending)
    (h2 : q ≠ .evtCnt) (h3 : q ≠ .pgAuditSeq) (h4 : q ≠ .ffHwm) : regGet (judged o page x d) q i = regGet d q i := by
  unfold judged
  split
  · rw [regGet_xExpire _ hi h1 h2 h3 h4]
    rfl
  · rfl

/-- The bifurcation of an avenue may change when each of its root ports that exist is disabled (R520). -/
theorem bifFree_eq_false (d : Dev) (a : Nat) : bifFree d a = false ↔
    ∃ p, 4 * a ≤ p ∧ p < 4 * a + 4 ∧ bifAbsent (regFld d .avStat a 31 30) p = false ∧ regFld d .dpCtl p 31 31 = 0 := by
  have hbit : ∀ p, regFld d .dpCtl p 31 31 ≠ 1 ↔ regFld d .dpCtl p 31 31 = 0 := fun p => by
    have h2 : regFld d .dpCtl p 31 31 < 2 := Nat.mod_lt _ (by decide)
    omega
  rw [bifFree, List.all_eq_false]
  constructor
  · rintro ⟨p, hp, h⟩
    obtain ⟨k, hk, rfl⟩ := List.mem_map.mp hp
    have hk4 := List.mem_range.mp hk
    simp only [Bool.or_eq_true, decide_eq_true_eq, not_or, Bool.not_eq_true] at h
    exact ⟨4 * a + k, by omega, by omega, h.1, (hbit _).mp h.2⟩
  · rintro ⟨p, hlo, hhi, habs, hdis⟩
    refine ⟨p, List.mem_map.mpr ⟨p - 4 * a, List.mem_range.mpr (by omega), by omega⟩, ?_⟩
    simp [habs, hdis]

theorem write_avCfg {a : Nat} (ha : a < 8) (P : Passes s o (0x18 + a) 0x800 [4, 1, 0]) :
    run s (write32 o (0x18 + a) 0x800 v) = .next (
      if bits v 31 30 = 3 ∨ bits v 31 30 ≠ regFld s.dev .avCfg a 31 30 ∧ bifFree s.dev a = false
      then ignoredWrite s o (0x18 + a) 0x800 4 (v.zeroExtend 64) id
      else wrote s o (0x18 + a) 0x800 4 (v.zeroExtend 64)
        (regSet .avCfg a (merged s o (0x18 + a) 0x800 (v.zeroExtend 64) 0xC0000000))) := by
  have hfield : bits (merged s o (0x18 + a) 0x800 (v.zeroExtend 64) 0xC0000000) 31 30 = bits v 31 30 := by
    refine bits_congr fun k hlo hhi => ?_
    have hmask : ∀ k, 30 ≤ k → k ≤ 31 → (0xC0000000 : DWord).getLsbD k = true := by decide
    rw [merged, getLsbD_merge, hmask k hlo hhi, if_pos rfl, BitVec.getLsbD_setWidth]
    simp [(by omega : k < 64)]
  have hreg : ∀ (q : Reg) (i : Nat), (q = .avCfg ∨ q = .avStat ∨ q = .dpCtl) → i < 1048576 →
      regGet (judged o (0x18 + a) 0x800 s.dev) q i = regGet s.dev q i := by
    rintro q i (rfl | rfl | rfl) hi <;> exact regGet_judged _ _ _ _ hi (by decide) (by decide) (by decide) (by decide)
  have hcfg : regFld (judged o (0x18 + a) 0x800 s.dev) .avCfg a 31 30 = regFld s.dev .avCfg a 31 30 := by
    rw [regFld, hreg _ _ (.inl rfl) (by omega), regFld]
  have hfree : bifFree (judged o (0x18 + a) 0x800 s.dev) a = bifFree s.dev a := by
    unfold bifFree regFld
    rw [hreg _ _ (.inr (.inl rfl)) (by omega)]
    refine Bool.eq_iff_iff.mpr (List.all_eq_true.trans ((forall₂_congr fun p hp => ?_).trans List.all_eq_true.symm))
    obtain ⟨k, hk, rfl⟩ := List.mem_map.mp hp
    have hk4 := List.mem_range.mp hk
    rw [hreg _ _ (.inr (.inr rfl)) (by omega)]
  rw [write32_passed P (regFind_avCfg ha) rfl (by simp [avCfgAt]) rfl
    (by decide : ∀ c ∈ [4, 1, 0], inSet (writers (avCfgAt 0) 0x800) c = true)
    (by rw [writeMask_avCfg]; decide) (by decide) (by omega) (by decide) (by decide) (by omega)
    (by rw [writeMask_avCfg]; decide), writeMask_avCfg, regEffect_avCfg, hfield, hcfg, hfree, funext (store_avCfg _ o a _)]
  by_cases hbad : bits v 31 30 = 3 ∨ bits v 31 30 ≠ regFld s.dev .avCfg a 31 30 ∧ bifFree s.dev a = false
  · rw [if_pos hbad, unlessErr, if_pos (by simpa using hbad), answerOf_cfgerr]
  · rw [if_neg hbad, unlessErr, if_neg (by simpa using hbad),
      answerOf_ok _ (by simp [avCfgAt]) (by simp [avCfgAt]) (by simp [avCfgAt])]

theorem write_upAtc {u : Nat} (hu : u < 2) (P : Passes s o (0x10 + u) 0x804 [4, 1, 0]) :
    run s (write32 o (0x10 + u) 0x804 v) = .next (if bit v 31 = true then wrote s o (0x10 + u) 0x804 4 (v.zeroExtend 64) (atcFlush u)
      else idleWrite s o (0x10 + u) 0x804 4 (v.zeroExtend 64)) := by
  have hbit : bit (merged s o (0x10 + u) 0x804 (v.zeroExtend 64) 0x80000000) 31 = bit v 31 := by
    have hmask : (0x80000000 : DWord).getLsbD 31 = true := by decide
    rw [merged, bit, getLsbD_merge, hmask, if_pos rfl, BitVec.getLsbD_setWidth]
    simp [bit]
  have hclass : originClass o ≠ 3 := by
    obtain ⟨-, -, hc, -⟩ := P
    intro h
    rw [h] at hc
    simp at hc
  rw [write32_passed P (regFind_upAtc hu) rfl (by simp [upAtcAt]) rfl
    (by decide : ∀ c ∈ [4, 1, 0], inSet (writers (upAtcAt 0) 0x804) c = true)
    (by rw [writeMask_upAtc]; decide) (by decide) (by omega) (by decide) (by decide) (by omega)
    (by rw [writeMask_upAtc]; decide), writeMask_upAtc, regEffect_upAtc _ _ _ _ hclass, hbit]
  split
  · rw [answerOf_ok _ (by simp [upAtcAt]) (by simp [upAtcAt]) (by simp [upAtcAt])]
  · rw [answerOf_quiet]

end

end Sys2Proof.Machine
end

section
/-!
THEOREM. Upstream ports, configuration space, and the link registers (O58).
-/
namespace Sys2Proof.Machine

open Sys2Proof

theorem linkRegisters : LinkRegisters := by
  intro s o v
  refine ⟨fun p hp P => ?_, fun p hp P => ⟨fun hgo => ?_, fun hgo => ?_⟩, fun a ha P => ⟨fun hbad => ?_, fun hok => ?_⟩,
    fun u hu P => ⟨fun hgo => ?_, fun hgo => ?_⟩⟩
  · have hrun := write_dpCtl (v := v) hp P
    have hbit := fun k => @bit_dpCtlValue s o p v k
    simp only [dpCtlWrite_eq, hbit 31 (by decide) (by decide) (by decide), hbit 30 (by decide) (by decide) (by decide),
      hbit 23 (by decide) (by decide) (by decide), hbit 22 (by decide) (by decide) (by decide)] at hrun
    exact ⟨hrun, hrun⟩
  · exact (write_dpLretry hp P).trans (by rw [if_pos hgo])
  · exact (write_dpLretry hp P).trans (by rw [if_neg (by simp [hgo])])
  · rw [← bifFree_eq_false] at hbad
    exact (write_avCfg ha P).trans (by rw [if_pos hbad])
  · rw [← bifFree_eq_false] at hok
    exact (write_avCfg ha P).trans (by rw [if_neg hok])
  · exact (write_upAtc hu P).trans (by rw [if_pos hgo, funext (atcFlush_eq u)])
  · exact (write_upAtc hu P).trans (by rw [if_neg (by simp [hgo])])

/-- Settles O58: the events of an upstream port one by one, then the writes of the four registers. -/
theorem portRegisters : Obligations.PortRegisters := ⟨upstreamPorts, linkRegisters⟩

end Sys2Proof.Machine
end

section
/-!
THEOREM. O32 (LossAttentionLease): a refutation. As in O31, `timedOut` settles the machine when the completion timeout is latched, while the
model latches the timeout, ends the operation and settles once, at its end. Between the two lie the sweeps of the end of an operation: they
end a command whose last completion was held, and with it a call of its pack that still waited for a control processor (R437). Where the
statement settles first, the call has been made before.
-/
namespace Sys2Proof.Machine

open Sys2Proof

/-- A FENCE of subchannel 5 that went on detached from its program (R132). -/
def detachedFence : Op := { fenceOp with sub := 5, dev := 5, detached := true }

/-- Besides what `fenceState` holds, the completion of operation 9 is held, and the detached operation 10 is in flight. -/
def heldFenceState : State :=
  { fenceState with dev := { fenceState.dev with ops := fenceState.dev.ops ++ [(10, detachedFence)], opHeld := [(9, .ok [], .ok)] } }

/-- The model takes the held completion, which ends the command and drops the call: no free value is used. -/
theorem freeUsed_timeout_heldFenceState : freeUsed (exec (.handlerTimeout 10 .uncertain) heldFenceState) = 0 := by
  decide +kernel

/-- Settled at the latch, the machine has made the call before the held completion is taken. -/
theorem freeUsed_sweptP_timedOut_heldFenceState :
    freeUsed (Host.Outcome.next (sweptP heldFenceState
      (detachedDone 5 detachedFence.jseq (opFree 10 (timedOut heldFenceState detachedFence).dev)))) = 4 := by
  decide +kernel

/-- Refutes O32: the first clause fails for a detached memory-window operation that times out while a completion of another command is
held and a call of that command's pack waits. The state lies outside the invariant's clause that calls which can be made are made; O32
speaks of every state. -/
theorem not_lossAttentionLease : ¬ Obligations.LossAttentionLease := by
  intro h
  have hengine : Engine heldFenceState := ⟨rfl, rfl⟩
  obtain ⟨hdetached, -⟩ := h heldFenceState 5 hengine
  obtain ⟨-, htimeout⟩ := hdetached 10 detachedFence (by decide +kernel) rfl rfl (by decide)
  have hused := congrArg freeUsed htimeout
  rw [freeUsed_timeout_heldFenceState] at hused
  exact absurd (hused.trans freeUsed_sweptP_timedOut_heldFenceState) (by decide)

end Sys2Proof.Machine
end

section
/-!
SUPPORT. What the machine's bookkeeping can change: the registers, sources and presentations that page events and counters reach, the
journal and the audit log (R389, R405, R450, R453).
-/
namespace Sys2Proof.Machine

open Sys2Proof

/-- Only registers, interrupt sources, presentations and the logs changed, and no CP changed its role. -/
def Logged (d e : Dev) : Prop :=
  (∃ r s p c j jh jf fe a ah af, e = { d with regs := r, srcs := s, pres := p, cps := c, journal := j, jnHead := jh, jnFeed := jf
                                              feeds := fe, audit := a, auHead := ah, auFeed := af })
  ∧ ∀ i, (cpGet e i).role = (cpGet d i).role

theorem Logged.refl (d : Dev) : Logged d d := ⟨⟨_, _, _, _, _, _, _, _, _, _, _, rfl⟩, fun _ => rfl⟩

theorem Logged.trans {a b c : Dev} (h : Logged a b) (k : Logged b c) : Logged a c := by
  obtain ⟨⟨_, _, _, _, _, _, _, _, _, _, _, rfl⟩, hr⟩ := h
  obtain ⟨⟨_, _, _, _, _, _, _, _, _, _, _, rfl⟩, kr⟩ := k
  exact ⟨⟨_, _, _, _, _, _, _, _, _, _, _, rfl⟩, fun i => (kr i).trans (hr i)⟩

theorem SameButLog.logged {d e : Dev} (h : SameButLog d e) : Logged d e := by
  obtain ⟨⟨_, _, _, _, _, _, _, rfl⟩, -, hc⟩ := h
  refine ⟨⟨_, _, _, _, _, _, _, _, _, _, _, rfl⟩, fun i => ?_⟩
  obtain ⟨_, _, hi⟩ := hc i
  rw [hi]

/-- A part of the machine that bookkeeping does not reach. -/
theorem Logged.keeps {β : Type} (φ : Dev → β) (hφ : ∀ d r s p c j jh jf fe a ah af, φ { d with
      regs := r, srcs := s, pres := p, cps := c, journal := j, jnHead := jh, jnFeed := jf
      feeds := fe, audit := a, auHead := ah, auFeed := af } = φ d) {d e : Dev} (h : Logged d e) : φ e = φ d := by
  obtain ⟨⟨_, _, _, _, _, _, _, _, _, _, _, rfl⟩, -⟩ := h
  exact hφ _ _ _ _ _ _ _ _ _ _ _ _

theorem logged_regSet (r : Reg) (i : Nat) (v : DWord) (d : Dev) : Logged d (regSet r i v d) :=
  ⟨⟨_, _, _, _, _, _, _, _, _, _, _, rfl⟩, fun _ => rfl⟩

theorem logged_regSetFld (r : Reg) (i hi lo v : Nat) (d : Dev) : Logged d (regSetFld r i hi lo v d) := logged_regSet _ _ _ _

theorem logged_regBump (r : Reg) (i : Nat) (d : Dev) : Logged d (regBump r i d) := by
  unfold regBump
  dsimp only
  split
  · exact .refl d
  · exact logged_regSetFld _ _ _ _ _ _

theorem logged_pageEvent (p b : Nat) (d : Dev) : Logged d (pageEvent p b d) :=
  ((logged_regSetFld .evtPending p b b 1 d).trans ((logged_regSet _ _ _ _).trans (logged_regSet _ _ _ _))).trans
    (sameButLog_srcLevel _ _ _).logged

theorem logged_noteHwm (n k : Nat) (d : Dev) : Logged d (noteHwm n k d) := by
  unfold noteHwm
  split
  · exact logged_regSet _ _ _ _
  · exact .refl d

theorem logged_feedIn (f : Nat) (d : Dev) : Logged d (feedIn f d) :=
  Logged.trans ⟨⟨_, _, _, _, _, _, _, _, _, _, _, rfl⟩, fun _ => rfl⟩
    (logged_noteHwm f (feedCount d f (tget d.feeds f 0 + 1)) { d with feeds := tset d.feeds f (tget d.feeds f 0 + 1) 0 })

theorem logged_jenter (r : JRec) (d : Dev) : Logged d (jenter r d) := by
  have entered (e : Dev) : Logged e
      { noteHwm 4178 (feedCount e 4178 (e.jnFeed + 1)) { e with jnFeed := e.jnFeed + 1 } with
        journal := (noteHwm 4178 (feedCount e 4178 (e.jnFeed + 1)) { e with jnFeed := e.jnFeed + 1 }).journal
          ++ [{ r with time := (noteHwm 4178 (feedCount e 4178 (e.jnFeed + 1)) { e with jnFeed := e.jnFeed + 1 }).devtime }] } :=
    (Logged.trans ⟨⟨_, _, _, _, _, _, _, _, _, _, _, rfl⟩, fun _ => rfl⟩ (logged_noteHwm _ _ { e with jnFeed := e.jnFeed + 1 })).trans
      ⟨⟨_, _, _, _, _, _, _, _, _, _, _, rfl⟩, fun _ => rfl⟩
  unfold jenter
  dsimp only
  split
  · exact (((logged_regSetFld .jnStat 0 30 30 1 d).trans (logged_regBump _ _ _)).trans (logged_pageEvent _ _ _)).trans (entered _)
  · exact entered d

theorem logged_jput (r : JRec) (d : Dev) : Logged d (jput r d) := by
  refine Logged.trans ?_ (logged_jenter _ _)
  have headed : Logged d { d with jnHead := d.jnHead + 1 } := ⟨⟨_, _, _, _, _, _, _, _, _, _, _, rfl⟩, fun _ => rfl⟩
  split
  · exact headed.trans (logged_pageEvent _ _ _)
  · exact headed

/-- An event enters the trace and its feed, and takes a free value for an agent the spec does not name (R505). -/
theorem traceEvent_frame (kind : Nat) (agent : Option Nat) (a b : Nat) (d : Dev) :
    ∃ l h c, Logged { d with trace := l, trHead := h, freeCtr := c } (traceEvent kind agent a b d) := by
  have put (l : List (BitVec 256)) (h : Nat) (e : Dev) : Logged { e with trace := l, trHead := h }
      (let f := feedIn 4179 { e with trace := l, trHead := h }
       if f.trHead % 1048576 = 0 then pageEvent 12 1 f else f) := by
    dsimp only
    split
    · exact (logged_feedIn _ _).trans (logged_pageEvent _ _ _)
    · exact logged_feedIn _ _
  unfold traceEvent
  split
  · cases agent with
    | none => exact ⟨_, _, (freeNext d).2.freeCtr, put _ _ (freeNext d).2⟩
    | some _ => exact ⟨_, _, d.freeCtr, put _ _ d⟩
  · exact ⟨d.trace, d.trHead, d.freeCtr, .refl d⟩

end Sys2Proof.Machine
end
section
/-!
SUPPORT. An accepted function of a subchannel (R97, R101): what its record leaves alone, and how it is applied.
-/
namespace Sys2Proof.Machine

open Sys2Proof

/-! ### Acceptance -/

theorem fnFree_subs (t : TakeIn) (d : Dev) : (fnFree t d).subs = d.subs := by
  unfold fnFree
  dsimp only
  split <;> rfl

theorem fnFree_cps (t : TakeIn) (d : Dev) : (fnFree t d).cps = d.cps := by
  unfold fnFree
  dsimp only
  split <;> rfl

/-- Acceptance leaves of a subchannel all but LAST_FN (R101), and every CP in its role. -/
theorem fnAccept_keeps {β : Type} (φ : Sub → β) (hseq : ∀ x q, φ { x with swSeq := q } = φ x)
    (hlast : ∀ x k, φ { x with lastFn := k } = φ x) (t : TakeIn) (d : Dev) (k : Nat) :
    φ (subGet (fnAccept t d) k) = φ (subGet d k) := by
  unfold fnAccept
  dsimp only
  refine (subGet_subSet_keeps φ hseq (hlast _ _) k).trans (congrArg φ ?_)
  have hrec : (fnRecord 1 0 t d).subs = d.subs := (logged_jenter _ d).keeps (·.subs) (fun _ _ _ _ _ _ _ _ _ _ _ _ => rfl)
  split
  · simp [subGet, hrec]
  · simp [subGet, fnFree_subs, hrec]

theorem roleIn_congr {d e : Dev} (h : ∀ i, (cpGet e i).role = (cpGet d i).role) (k : Nat) (r : CpRole) :
    roleIn e k r = roleIn d k r := by simp [roleIn, h]

theorem roleIn_fnAccept (t : TakeIn) (d : Dev) (k : Nat) (r : CpRole) : roleIn (fnAccept t d) k r = roleIn d k r := by
  refine roleIn_congr (fun i => ?_) k r
  have hrec : (cpGet (fnRecord 1 0 t d) i).role = (cpGet d i).role := (logged_jenter _ d).2 i
  rw [← hrec]
  unfold fnAccept
  dsimp only
  split
  · obtain ⟨_, h⟩ := subSet_frame (seSub t.entry) _ { fnRecord 1 0 t d with
      waiting := (fnRecord 1 0 t d).waiting.filter (fun u => u.jseq ≠ t.jseq) }
    rw [h]
    rfl
  · obtain ⟨_, h⟩ := subSet_frame (seSub t.entry) { subGet (fnFree t (fnRecord 1 0 t d)) (seSub t.entry) with
      lastFn := seFcode t.entry } (fnFree t (fnRecord 1 0 t d))
    rw [h]
    exact congrArg (fun c => (tget c i (cpReset i)).role) (fnFree_cps _ _)

/-- A function that stands and passes every check is applied to the device it finds, when its accesses to host memory can be made. -/
theorem run_fnApply_accepted {s : State} {jseq code : Nat} {t : TakeIn} (touch : TakeIn → Dev → List (DWord × Nat × Bool))
    (f : TakeIn → Dev → Dev) (h : Accepted s jseq code t) :
    run s (liveP (fnApply jseq code touch f))
      = .next (sweptP s (hostGo t.fn (touch t (found s t)) (f t) (found s t))) := by
  obtain ⟨⟨hengine, hfind, hact, hbind, hroom⟩, hcheck⟩ := h
  rw [run_liveP _ hengine]
  have hgoes : fnApply jseq code touch f s.dev = hostGo t.fn (touch t (found s t)) (f t) (found s t) := by
    simp only [fnApply, hfind]
    rw [if_neg (by simp [hact, hbind]; omega)]
    exact if_pos hcheck
  rw [hgoes]

theorem run_fnApply_noTouch {s : State} {jseq code : Nat} {t : TakeIn} {f : TakeIn → Dev → Dev} (h : Accepted s jseq code t)
    {e : Dev} (he : f t (found s t) = e) : run s (liveP (fnApply jseq code noTouch f)) = .next (sweptP s e) := by
  rw [run_fnApply_accepted noTouch f h, ← he]
  exact congrArg (fun d => Host.Outcome.next (sweptP s d)) (hostGo_nil _ _ _)

theorem run_fnApply_now {s : State} {jseq code : Nat} {t : TakeIn} {touch : TakeIn → Dev → List (DWord × Nat × Bool)}
    {f : TakeIn → Dev → Dev} (h : Accepted s jseq code t) (hw : hostWaits (found s t) t.fn (touch t (found s t)) = false)
    {e : Dev} (he : f t (found s t) = e) : run s (liveP (fnApply jseq code touch f)) = .next (sweptP s e) := by
  rw [run_fnApply_accepted touch f h, hostGo_now _ hw, he]

end Sys2Proof.Machine
end

section
/-!
SUPPORT. What RESUME, HALT, CLEAR and TEST do, state by state (R102 to R104, R113), and the second read of a suspending CCW (R83, R93).
-/
namespace Sys2Proof.Machine

open Sys2Proof

section

variable {t : TakeIn} {d : Dev}

/-- The subchannel enters the state in which HALT or CLEAR ends its program, and the function waits for that end (R100). -/
def stopHeld (t : TakeIn) (st : SubState) (clear : Bool) (d : Dev) : Dev :=
  { subSet (seSub t.entry) ((subGet d (seSub t.entry)).enter st) d with fnHeld := d.fnHeld ++ [⟨seSub t.entry, t, clear⟩] }

theorem stopHeld_eq (t : TakeIn) (st : SubState) (clear : Bool) (d : Dev) :
    (let e := subSet (seSub t.entry) ((subGet d (seSub t.entry)).enter st) d
     { e with fnHeld := e.fnHeld ++ [⟨seSub t.entry, t, clear⟩] }) = stopHeld t st clear d := by
  obtain ⟨u, hu⟩ := subSet_frame (seSub t.entry) ((subGet d (seSub t.entry)).enter st) d
  rw [stopHeld, hu]

theorem resumeFn_suspended (h : (subGet (fnAccept t d) (seSub t.entry)).st = .suspended) :
    resumeFn t d = fnEntry t 0 0 0 .resume [] (fnAccept t d) := by
  unfold resumeFn
  dsimp only
  rw [h]

theorem resumeFn_other (h : (subGet (fnAccept t d) (seSub t.entry)).st ≠ .suspended) :
    resumeFn t d = fnEntry t 0 0 0 .none [] (subSet (seSub t.entry)
      { subGet (fnAccept t d) (seSub t.entry) with rp := true } (fnAccept t d)) := by
  unfold resumeFn
  dsimp only
  split
  · next hs => exact absurd hs h
  · rfl

theorem haltFn_over (h : (subGet (fnAccept t d) (seSub t.entry)).st = .idle ∨ (subGet (fnAccept t d) (seSub t.entry)).st = .statusPending) :
    haltFn t d = fnEntry t 0 0 0 .none [] (fnAccept t d) := by
  unfold haltFn
  dsimp only
  rcases h with h | h <;> rw [h]

theorem haltFn_startPending (h : (subGet (fnAccept t d) (seSub t.entry)).st = .startPending) :
    haltFn t d = withdrawStart (seSub t.entry) 0 none none (stopHeld t .haltPending false (fnAccept t d)) := by
  unfold haltFn
  dsimp only
  rw [h]
  exact congrArg (withdrawStart (seSub t.entry) 0 none none) (stopHeld_eq _ _ _ _)

theorem haltFn_begun (h : (subGet (fnAccept t d) (seSub t.entry)).st = .active ∨ (subGet (fnAccept t d) (seSub t.entry)).st = .suspended) :
    haltFn t d = stopProg (seSub t.entry) 0 (stopHeld t .haltPending false (fnAccept t d)) := by
  unfold haltFn
  dsimp only
  rcases h with h | h <;> rw [h] <;> exact congrArg (stopProg (seSub t.entry) 0) (stopHeld_eq _ _ _ _)

theorem clearFn_over (a : Bool)
    (h : (subGet (fnAccept t d) (seSub t.entry)).st = .idle ∨ (subGet (fnAccept t d) (seSub t.entry)).st = .statusPending) :
    clearFn a t d = clearDone false t (fnAccept t d) := by
  unfold clearFn
  dsimp only
  rcases h with h | h <;> rw [h]

theorem clearFn_startPending (a : Bool) (h : (subGet (fnAccept t d) (seSub t.entry)).st = .startPending) :
    clearFn a t d = withdrawStart (seSub t.entry) 0 none none (stopHeld t .clearPending true (fnAccept t d)) := by
  unfold clearFn
  dsimp only
  rw [h]
  exact congrArg (withdrawStart (seSub t.entry) 0 none none) (stopHeld_eq _ _ _ _)

theorem clearFn_notOperational (a : Bool) (h : (subGet (fnAccept t d) (seSub t.entry)).st = .notOperational) :
    clearFn a t d = if a then fnEntry t 0 0 0 (.toState .idle) [] (clearActions (seSub t.entry) (fnAccept t d))
      else clearDone false t (fnAccept t d) := by
  unfold clearFn
  dsimp only
  rw [h]

theorem clearFn_begun (a : Bool) (h : (subGet (fnAccept t d) (seSub t.entry)).st = .active
      ∨ (subGet (fnAccept t d) (seSub t.entry)).st = .suspended ∨ (subGet (fnAccept t d) (seSub t.entry)).st = .haltPending) :
    clearFn a t d = stopProg (seSub t.entry) 1 (stopHeld t .clearPending true (fnAccept t d)) := by
  unfold clearFn
  dsimp only
  rcases h with h | h | h <;> rw [h] <;> exact congrArg (stopProg (seSub t.entry) 1) (stopHeld_eq _ _ _ _)

end

/-! ### The suspending CCW is read again (R83, R93) -/

section

variable {d : Dev} {n : Nat} {p : Prog} {a : DWord}

theorem refetch_atSuspend (hp : d.progs.find? (fun e => e.1 = n) = some (n, p)) (hs : p.stage = .atSuspend a) :
    refetch n d = ccwRead n a { d with progs := d.progs.map (fun e => if e.1 = n then (n, { p with stage := .refetch a }) else e) } := by
  simp only [refetch, hp, hs]

theorem refetch_subSet (x : Sub) (hp : d.progs.find? (fun e => e.1 = n) = some (n, p)) (hs : p.stage = .atSuspend a) :
    refetch n (subSet n x d) = ccwRead n a { subSet n x d with
      progs := (subSet n x d).progs.map (fun e => if e.1 = n then (n, { p with stage := .refetch a }) else e) } := by
  refine refetch_atSuspend ?_ hs
  obtain ⟨u, hu⟩ := subSet_frame n x d
  rw [hu]
  exact hp

theorem applyChange_resume (h : (subGet d n).st = .suspended) :
    applyChange n .resume d = refetch n (subSet n { subGet d n with st := .active } d) := if_pos h

theorem applyChange_suspend_resumed (h : (subGet d n).st = .active) (hrp : (subGet d n).rp = true) :
    applyChange n .suspend d = refetch n (subSet n { subGet d n with cstat := 0, dstat := 3, rp := false } d) := by
  unfold applyChange
  dsimp only
  rw [if_neg (by simp [h]), if_pos hrp, ← h]

theorem applyChange_suspend (h : (subGet d n).st = .active) (hrp : (subGet d n).rp = false) :
    applyChange n .suspend d = subSet n (({ subGet d n with cstat := 0, dstat := 3 } : Sub).enter .suspended) d := by
  unfold applyChange
  dsimp only
  rw [if_neg (by simp [h]), if_neg (by simp [hrp])]

end

/-- Each accepted function by the state it finds; the suspending CCW by what its program stands at. -/
theorem functionsAccepted : FunctionsAccepted := by
  intro s jseq t a n d x
  refine ⟨fun h => run_fnApply_noTouch h rfl,
    fun h => ⟨fun hs => run_fnApply_noTouch h (resumeFn_other hs), fun hs => run_fnApply_noTouch h (resumeFn_suspended hs)⟩,
    fun h => ⟨fun hs => run_fnApply_noTouch h (haltFn_over hs), fun hs => run_fnApply_noTouch h (haltFn_startPending hs),
      fun hs => run_fnApply_noTouch h (haltFn_begun hs)⟩,
    fun h => ⟨fun hs => run_fnApply_noTouch h (clearFn_over a hs), fun hs => run_fnApply_noTouch h (clearFn_startPending a hs),
      fun hs => ⟨run_fnApply_noTouch h (clearFn_notOperational true hs), run_fnApply_noTouch h (clearFn_notOperational false hs)⟩,
      fun hs => run_fnApply_noTouch h (clearFn_begun a hs)⟩,
    fun h => ⟨fun hs => run_fnApply_noTouch h (if_pos hs), fun hs => run_fnApply_noTouch h (if_neg hs)⟩,
    fun e p k at_ hp hstage => ⟨fun hs => ?resumes, fun hs => ⟨fun hrp => ?resumed, fun hrp => applyChange_suspend hs hrp⟩⟩⟩
  case resumes => exact (applyChange_resume hs).trans (refetch_subSet _ hp hstage)
  case resumed => exact (applyChange_suspend_resumed hs hrp).trans (refetch_subSet _ hp hstage)

end Sys2Proof.Machine
end

section
/-!
SUPPORT. MODIFY and STORE (R110, R112): the accesses they make, the blocks they refuse, and what a good one does.
-/
namespace Sys2Proof.Machine

open Sys2Proof

section

variable {t : TakeIn} {d : Dev}

theorem modifyTouch_misaligned (h : HostRead) (ha : bits (seAddr t.entry) 3 0 ≠ 0) : modifyTouch h t d = [] := if_pos ha

theorem modifyTouch_aligned (h : HostRead) (ha : bits (seAddr t.entry) 3 0 = 0) :
    modifyTouch h t d = [(seAddr t.entry, 32, readOk h)] := if_neg (by simp [ha])

theorem modifyFn_misaligned (h : HostRead) (ha : bits (seAddr t.entry) 3 0 ≠ 0) : modifyFn h t d = fnRefuse t 9 d := if_pos ha

theorem modifyFn_err (e : BusErr) (ha : bits (seAddr t.entry) 3 0 = 0) :
    modifyFn (.err e) t d = fnRefuse t 9 (hostOut .any t.fn (.read (seAddr t.entry) 32) d) := if_neg (by simp [ha])

/-- A MODIFY block that R110 lets be applied. -/
def ModifyGood (v : BitVec 256) (o : Option FnId) (d : Dev) : Prop :=
  bits v 7 0 = 0x11 ∧ bits v 15 8 = 0x20 ∧ bits v 111 24 = 0 ∧ bits v 159 128 = 0 ∧ bits v 255 192 = 0
    ∧ bits v 191 160 ≤ 60000 ∧ (bit v 23 = true → o.isSome = true ∧ crOwner d (bits v 127 116) = o)

/-- The subchannel with the groups the block names applied (R110). -/
def modified (v : BitVec 256) (x : Sub) : Sub :=
  { x with
    cring := if bit v 23 then bits v 127 116 else x.cring
    key := if bit v 22 then bits v 115 112 else x.key
    imm := if bit v 21 then bit v 19 else x.imm
    isup := if bit v 21 then bit v 18 else x.isup
    unordDef := if bit v 20 then bit v 17 else x.unordDef
    idemDef := if bit v 20 then bit v 16 else x.idemDef }

/-- The block is refused exactly when it is not good. -/
theorem modifyBad_iff (v : BitVec 256) (o : Option FnId) (d : Dev) :
    (decide (bits v 7 0 ≠ 0x11) || decide (bits v 15 8 ≠ 0x20) || decide (bits v 255 192 ≠ 0)
      || decide (bits v 159 128 ≠ 0) || decide (bits v 111 24 ≠ 0) || decide (60000 < bits v 191 160)
      || (bit v 23 && !(o.isSome && decide (crOwner d (bits v 127 116) = o)))) = true ↔ ¬ ModifyGood v o d := by
  simp only [ModifyGood, Bool.or_eq_true, Bool.and_eq_true, decide_eq_true_eq, Bool.not_eq_true', Bool.and_eq_false_iff,
    decide_eq_false_iff_not]
  grind

theorem modified_eq (v : BitVec 256) (s : Sub) :
    (let s := if bit v 23 then { s with cring := bits v 127 116 } else s
     let s := if bit v 22 then { s with key := bits v 115 112 } else s
     let s := if bit v 21 then { s with imm := bit v 19, isup := bit v 18 } else s
     if bit v 20 then { s with unordDef := bit v 17, idemDef := bit v 16 } else s) = modified v s := by
  unfold modified
  cases bit v 23 <;> cases bit v 22 <;> cases bit v 21 <;> cases bit v 20 <;> rfl

variable {b : List Byte} {v : BitVec 256} {e : Dev}

theorem modifyFn_bad (ha : bits (seAddr t.entry) 3 0 = 0) (hv : BitVec.ofNat 256 (leNat (fitBytes 32 b)) = v)
    (he : hostOut .any t.fn (.read (seAddr t.entry) 32) d = e) (hbad : ¬ ModifyGood v (subOwner (subGet e (seSub t.entry))) e) :
    modifyFn (.ok b) t d = fnRefuse t 9 e := by
  subst hv he
  exact (if_neg (by simp [ha])).trans (if_pos ((modifyBad_iff _ _ _).mpr hbad))

theorem modifyFn_good (ha : bits (seAddr t.entry) 3 0 = 0) (hv : BitVec.ofNat 256 (leNat (fitBytes 32 b)) = v)
    (he : hostOut .any t.fn (.read (seAddr t.entry) 32) d = e) (hgood : ModifyGood v (subOwner (subGet e (seSub t.entry))) e) :
    modifyFn (.ok b) t d = fnEntry t 0 0 0 .none [] (subSet (seSub t.entry)
      (setLease (bits v 191 160) t.fn (fnAccept t e).devtime (modified v (subGet (fnAccept t e) (seSub t.entry)))) (fnAccept t e)) := by
  subst hv he
  rw [← modified_eq]
  exact (if_neg (by simp [ha])).trans (if_neg (fun hbad => (modifyBad_iff _ _ _).mp hbad hgood))

/-! ### STORE -/

theorem storeTouch_misaligned (r : WriteRes) (ha : bits (seAddr t.entry) 3 0 ≠ 0) : storeTouch r t d = [] := if_pos ha

theorem storeTouch_aligned (r : WriteRes) (ha : bits (seAddr t.entry) 3 0 = 0) :
    storeTouch r t d = [(seAddr t.entry, 128, decide (r = .ok))] := if_neg (by simp [ha])

/-- An access that could be made is one that fails, too: its pages need no translation (R515). -/
theorem hostWaits_failed {f : FnId} {a : DWord} {n : Nat} {k : Bool} (h : hostWaits d f [(a, n, true)] = false) :
    hostWaits d f [(a, n, k)] = false := by
  cases k
  · simp_all [hostWaits]
  · exact h

theorem storeFn_misaligned (r : WriteRes) (ha : bits (seAddr t.entry) 3 0 ≠ 0) : storeFn r t d = fnRefuse t 9 d := if_pos ha

theorem storeFn_ok (ha : bits (seAddr t.entry) 3 0 = 0) :
    storeFn .ok t d =
      (let e := recordBits (seSub t.entry) (fnAccept t d)
       fnEntry t 0 0 0 .none [portOf e.2 .any t.fn (seAddr t.entry).toNat]
        (sendHost .any t.fn (.write (seAddr t.entry) (leBytes 128 e.1)) e.2)) := if_neg (by simp [ha])

/-- A write that failed before its first byte was made writes nothing. -/
theorem storeFn_fail (ha : bits (seAddr t.entry) 3 0 = 0) :
    storeFn (.fail []) t d =
      (let e := (recordBits (seSub t.entry) (fnAccept t d)).2
       fnEntry t 9 0 0 .none [(takePort .any t.fn (seAddr t.entry).toNat e).1] (takePort .any t.fn (seAddr t.entry).toNat e).2) := by
  have none (g : Nat → Dev → Dev) (l : List Nat) (e : Dev) :
      l.foldl (fun d i => if List.contains ([] : List Nat) i then g i d else d) e = e := by
    induction l with
    | nil => rfl
    | cons i l ih => exact ih
  refine (if_neg (by simp [ha])).trans ?_
  exact congrArg (fnEntry t 9 0 0 .none _) (none _ _ _)

end

end Sys2Proof.Machine
end

section
/-!
SUPPORT. BIND (R107 to R109, R265, R333): the blocks it takes, the handler's part of one, and what unbinding and binding do.
-/
namespace Sys2Proof.Machine

open Sys2Proof

theorem unbindCall_subs (n i : Nat) (d : Dev) : (unbindCall n i d).subs = d.subs := by
  unfold unbindCall
  dsimp only
  split <;> rfl

theorem st_unbindCall_fnAccept (t : TakeIn) (i n : Nat) (d : Dev) :
    (subGet (unbindCall n i (fnAccept t d)) n).st = (subGet d n).st := by
  have haccept := fnAccept_keeps (·.st) (fun _ _ => rfl) (fun _ _ => rfl) t d n
  simpa [subGet, unbindCall_subs] using haccept

theorem home_fnAccept (t : TakeIn) (d : Dev) (n : Nat) : (subGet (fnAccept t d) n).home = (subGet d n).home :=
  fnAccept_keeps (·.home) (fun _ _ => rfl) (fun _ _ => rfl) t d n

section

variable {t : TakeIn} {d e : Dev} {b : List Byte} {env : BindEnv} {v : BitVec 512}

theorem bindWord_of_length (hb : b.length = 64) : bindWord b = BitVec.ofNat 512 (leNat b) := by
  rw [bindWord, fitBytes_of_length hb]

/-- The record without its binding (R107, R109). -/
def unbound (x : Sub) : Sub :=
  { x with
    ownPort := 0, ownFn := 0x7F, hpack := 0xFF, hpriv := HPriv.none, bindPriv := HPriv.none
    sense := Sense.none, position := 0, heldAttn := false, scAlert := false }

/-- The CP that serves the UNBIND entry of the pack whose binding goes (R333). -/
def unbindCp (n : Nat) (d : Dev) : Nat := (roleIn d (subGet d n).home .inService).headD 0

theorem unbindCp_fnAccept (t : TakeIn) (n : Nat) (d : Dev) : unbindCp n (fnAccept t d) = unbindCp n d := by
  rw [unbindCp, home_fnAccept, roleIn_fnAccept, unbindCp]

theorem unbind_fnAccept (t : TakeIn) (n : Nat) (d : Dev) :
    unbind n (fnAccept t d) = subSet n (unbound (subGet (unbindCall n (unbindCp n d) (fnAccept t d)) n))
      (unbindCall n (unbindCp n d) (fnAccept t d)) := by
  rw [← unbindCp_fnAccept t]
  rfl

theorem bindFn_unbind (ha : bits (seAddr t.entry) 3 0 = 0) (hv : bindWord b = v)
    (he : hostOut .any t.fn (.read (seAddr t.entry) 64) d = e) (hid : bits v 7 0 = 0x10) (hlen : bits v 15 8 = 0x40)
    (hun : bit v 23 = true) :
    bindFn (.ok b) env t d = fnEntry t 0 0 0
      (if (subGet (unbindCall (seSub t.entry) (unbindCp (seSub t.entry) e) (fnAccept t e)) (seSub t.entry)).st = .idle then .none
        else .toState .idle) []
      (subSet (seSub t.entry) (unbound (subGet (unbindCall (seSub t.entry) (unbindCp (seSub t.entry) e) (fnAccept t e)) (seSub t.entry)))
        (unbindCall (seSub t.entry) (unbindCp (seSub t.entry) e) (fnAccept t e))) := by
  subst hv he
  rw [st_unbindCall_fnAccept, ← unbind_fnAccept]
  exact (if_neg (by simp [ha])).trans ((if_neg (by simp [hid, hlen])).trans (if_pos hun))

/-- A block that R109 takes goes to its handler's part. -/
theorem bindFn_bind (ha : bits (seAddr t.entry) 3 0 = 0) (hv : bindWord b = v)
    (he : hostOut .any t.fn (.read (seAddr t.entry) 64) d = e) (hid : bits v 7 0 = 0x10) (hlen : bits v 15 8 = 0x40)
    (hbind : bit v 23 = false) (hgood : bindBad v env t e = false) {h : HPriv} {e' : Dev}
    (hp : bindHpriv (seSub t.entry) v ⟨bits v 103 103, bits v 102 96⟩ env e = (some h, e')) :
    bindFn (.ok b) env t d = if bits v 111 104 < 3 then bindAccept t v h (if bits v 111 104 = 0 then env.alt else none) e'
      else bindAsk t v h (if bits v 111 104 = 0 then env.alt else none) e' := by
  subst hv he
  refine (if_neg (by simp [ha])).trans ((if_neg (by simp [hid, hlen])).trans ((if_neg (by simp [hbind])).trans
    ((if_neg (by simp [hgood])).trans ?_)))
  rw [hp]

theorem bindBad_eq_false {own : FnId} (ho : own = ⟨bits v 103 103, bits v 102 96⟩) (hzero : bits v 63 24 = 0)
    (hresv : bits v 18 16 = 0) (hlease : bits v 191 160 ≤ 60000) (hport : own.port = t.fn.port)
    (hvf : own.fn ≠ 0 → (fnGet d ⟨own.port, 0⟩).vfEnable = true ∧ own.fn ≤ (fnGet d ⟨own.port, 0⟩).numVfs)
    (hpack : d.packs.any (fun e => e.1 = bits v 111 104) = true) (hacc : env.accepts = true)
    (hring : crOwner d (bits v 127 116) = some own) : bindBad v env t d = false := by
  subst ho
  have hfields : ¬ (bits v 63 24 ≠ 0 ∨ bits v 18 16 ≠ 0 ∨ 60000 < bits v 191 160 ∨ bits v 103 103 ≠ t.fn.port) := by
    have hp : bits v 103 103 = t.fn.port := hport
    omega
  have howner : (decide (bits v 102 96 ≠ 0) && (!(fnGet d ⟨bits v 103 103, 0⟩).vfEnable
      || decide ((fnGet d ⟨bits v 103 103, 0⟩).numVfs < bits v 102 96))) = false := by
    by_cases hpf : bits v 102 96 = 0
    · simp [hpf]
    · obtain ⟨hon, hle⟩ := hvf hpf
      have hin : ¬ (fnGet d ⟨bits v 103 103, 0⟩).numVfs < bits v 102 96 := Nat.not_lt.mpr hle
      simp [show (fnGet d ⟨bits v 103 103, 0⟩).vfEnable = true from hon, hin]
  unfold bindBad
  dsimp only
  rw [howner, hpack, hacc, hring, decide_eq_false hfields]
  simp

/-! ### The handler's part (R108, R109) -/

variable {n : Nat} {owner : FnId}

theorem bindHpriv_nvme (hp : bits v 111 104 = 0) (hdev : env.enumerated = true) (hdp : bits v 135 128 ≤ 31) (hlist : bits v 255 192 = 0)
    (hrest : bits v 511 256 = 0) (hq : bits v 143 136 ≠ 0) (harg : bits v 95 64 = 0) :
    bindHpriv n v owner env d = (some HPriv.none, d) := by
  unfold bindHpriv
  dsimp only
  rw [if_pos hp, if_neg (by simp [hrest, hq, hdev, hdp, hlist, harg])]
  simp [harg, HPriv.none]

theorem bindHpriv_window (hp : bits v 111 104 = 1) (hdev : env.enumerated = true) (hdp : bits v 135 128 ≤ 31) (hlist : bits v 255 192 = 0)
    (hrest : bits v 511 384 = 0) (hq : bits v 143 136 ≤ 5) (harg : bits v 95 64 = 0) (hw : bits v 383 320 ≠ 0)
    (h4 : bits v 383 320 % 4 = 0) (hbar : bits v 319 256 + bits v 383 320 ≤ env.barSize) :
    bindHpriv n v owner env d = (some { HPriv.none with base := bits v 319 256, size := bits v 383 320 }, d) := by
  have hbad : ¬ (bits v 511 384 ≠ 0 ∨ 5 < bits v 143 136
      ∨ (!(env.enumerated && decide (bits v 135 128 ≤ 31) && decide (bits v 255 192 = 0))) = true ∨ bits v 95 64 ≠ 0
      ∨ bits v 383 320 = 0 ∨ bits v 383 320 % 4 ≠ 0 ∨ env.barSize < bits v 319 256 + bits v 383 320) := by
    simp only [hrest, hdev, hdp, hlist, harg, hw, h4]
    simpa using ⟨hq, hbar⟩
  unfold bindHpriv
  dsimp only
  rw [if_neg (by omega), if_pos hp, if_neg hbad]

theorem bindHpriv_vendor (hp : 3 ≤ bits v 111 104) (hdev : env.enumerated = true) (hdp : bits v 135 128 ≤ 31) (hlist : bits v 255 192 = 0) :
    bindHpriv n v owner env d = (some { HPriv.none with raw := (freeNext d).1 ++ (freeNext (freeNext d).2).1 },
      (freeNext (freeNext d).2).2) := by
  unfold bindHpriv
  dsimp only
  rw [if_neg (by omega), if_neg (by omega), if_neg (by omega), if_neg (by simp [hdev, hdp, hlist])]

/-! ### The binding (R109, R111) -/

/-- The record with the fields of a BIND block (R109); a DPORT fills 5 bits. -/
def bound (v : BitVec 512) (h : HPriv) (alt : Option Nat) (x : Sub) : Sub :=
  { x with
    devId := BitVec.ofNat 16 (bits v 159 144), queue := bits v 143 136, dport := bits v 135 128
    cring := bits v 127 116, key := bits v 115 112, hpack := bits v 111 104, ownPort := bits v 103 103, ownFn := bits v 102 96
    bindArg := BitVec.ofNat 32 (bits v 95 64), imm := bit v 22, isup := bit v 21, unordDef := bit v 20
    idemDef := bit v 19, position := 0, sense := Sense.none, hpriv := h, bindPriv := h
    altPort := alt, heldAttn := false, scAlert := false }

theorem st_setLease (ms : Nat) (f : FnId) (time : DWord) (x : Sub) : (setLease ms f time x).st = x.st := by
  unfold setLease
  split <;> rfl

/-- Taking the lease leaves the state of the subchannel (R111). -/
theorem st_subSet_setLease (n ms : Nat) (f : FnId) (time : DWord) {x : Sub} {u : Dev} (hx : x.st = (subGet u n).st) :
    (subGet (subSet n (setLease ms f time x) u) n).st = (subGet u n).st :=
  subGet_subSet_keeps (·.st) (fun _ _ => rfl) ((st_setLease ms f time x).trans hx) n

theorem bindAccept_eq (hdp : bits v 135 128 ≤ 31) (h : HPriv) (alt : Option Nat) {u : Dev}
    (hu : unbindCall (seSub t.entry) (unbindCp (seSub t.entry) d) (fnAccept t d) = u) :
    bindAccept t v h alt d = fnEntry t 0 0 0 (if (subGet u (seSub t.entry)).st = .idle then .none else .toState .idle) []
      (placeAtBind (seSub t.entry) (subSet (seSub t.entry)
        (setLease (bits v 191 160) t.fn u.devtime (bound v h alt (subGet u (seSub t.entry)))) u)) := by
  have hmod : bits v 135 128 = bits v 135 128 % 32 := (Nat.mod_eq_of_lt (by omega)).symm
  have hst := st_subSet_setLease (seSub t.entry) (bits v 191 160) t.fn u.devtime
    (show (bound v h alt (subGet u (seSub t.entry))).st = (subGet u (seSub t.entry)).st from rfl)
  rw [← hst, bound, hmod, ← hu]
  rfl

end

end Sys2Proof.Machine
end

section
/-!
THEOREM. O26 (FunctionEffects): the accepted functions, the blocks of MODIFY, STORE and BIND, and the hand-off FIFO (R384).
-/
namespace Sys2Proof.Machine

open Sys2Proof

/-! ### The hand-off FIFO (R384) -/

theorem fieldN_le (hi lo v : Nat) (h : lo ≤ hi + 1) : fieldN hi lo v + 2 ^ lo ≤ 2 ^ (hi + 1) := by
  have hv : v % 2 ^ (hi + 1 - lo) + 1 ≤ 2 ^ (hi + 1 - lo) := Nat.mod_lt _ (Nat.two_pow_pos _)
  calc fieldN hi lo v + 2 ^ lo = (v % 2 ^ (hi + 1 - lo) + 1) * 2 ^ lo := by rw [fieldN, Nat.add_mul, Nat.one_mul]
    _ ≤ 2 ^ (hi + 1 - lo) * 2 ^ lo := Nat.mul_le_mul_right _ hv
    _ = 2 ^ (hi + 1) := by rw [← Nat.pow_add]; congr 1; omega

/-- What stands above bit 192 of an entry is JSEQ: its other fields fill lower bits. -/
theorem workWord_eq (w : Work) : ∃ low < 2 ^ 192, workWord w = BitVec.ofNat 256 (w.take.jseq % 2 ^ 64 * 2 ^ 192 + low) := by
  have h1 := fieldN_le 191 128 (seAddr w.take.entry).toNat (by decide)
  have h2 := fieldN_le 127 96 (seTag w.take.entry).toNat (by decide)
  have h3 := fieldN_le 95 84 (seCring w.take.entry) (by decide)
  have h4 := fieldN_le 83 64 w.sub (by decide)
  have h5 := fieldN_le 63 60 (seFcode w.take.entry) (by decide)
  have h6 := fieldN_le 59 56 (seKey w.take.entry) (by decide)
  have h7 := fieldN_le 55 55 (seInl w.take.entry).toNat (by decide)
  have h8 := fieldN_le 54 54 (seIdo w.take.entry).toNat (by decide)
  have h9 := fieldN_le 53 53 (seIdv w.take.entry).toNat (by decide)
  have h10 := fieldN_le 52 52 w.take.ring.isSome.toNat (by decide)
  have h11 := fieldN_le 51 40 w.take.srcIx (by decide)
  have h12 := fieldN_le 39 39 w.take.ds.toNat (by decide)
  have h13 := fieldN_le 38 38 w.take.fn.port (by decide)
  have h14 := fieldN_le 37 31 w.take.fn.fn (by decide)
  have h15 := fieldN_le 0 0 1 (by decide)
  unfold workWord
  dsimp only
  simp only [Nat.add_assoc]
  refine ⟨_, ?_, rfl⟩
  omega

theorem bits_workWord (w : Work) : bits (workWord w) 255 224 = w.take.jseq % 2 ^ 64 / 2 ^ 32 := by
  obtain ⟨low, hlow, hw⟩ := workWord_eq w
  have hj : w.take.jseq % 2 ^ 64 < 2 ^ 64 := Nat.mod_lt _ (by decide)
  rw [hw, bits, BitVec.toNat_ofNat]
  generalize w.take.jseq % 2 ^ 64 = j at hj ⊢
  omega

theorem workPop_nil {i : Nat} {d : Dev} (h : (cpGet d i).handoff = []) : workPop i d = emit (.cpValue i 0) d := by
  unfold workPop
  dsimp only
  rw [h]

theorem workPop_cons {i : Nat} {d : Dev} {w : Work} {rest : List Work} (h : (cpGet d i).handoff = w :: rest) :
    workPop i d = emit (.cpValue i (BitVec.ofNat 32 (w.take.jseq % 2 ^ 64 / 2 ^ 32))) (cpSet i { cpGet d i with handoff := rest } d) := by
  unfold workPop
  dsimp only
  rw [h, ← bits_workWord]

/-- Each block by what its MODIFY, STORE or BIND makes of it. -/
theorem functionBlocks : FunctionBlocks := by
  intro s jseq t n at_ issuer d0
  refine ⟨fun h ha r => ?misaligned, fun h ha => ⟨fun e hw => ?unread, fun r hw => ?waits, fun b hb hw => ⟨?bad, ?good⟩⟩,
    fun h => ⟨fun ha => ?storeMisaligned, fun ha hw => ⟨?stored, ?failed⟩⟩,
    fun h ha b env hb hw => ⟨?unbinds, ?binds⟩,
    fun hrun i => ⟨fun hnone => ?empty, fun w rest hsome => ?head⟩⟩
  case misaligned =>
    exact run_fnApply_now h (by rw [modifyTouch_misaligned r ha]; rfl) (modifyFn_misaligned r ha)
  case unread =>
    exact run_fnApply_now h (by rw [modifyTouch_aligned _ ha]; exact hw) (modifyFn_err e ha)
  case waits =>
    refine (run_fnApply_accepted _ _ h).trans ?_
    rw [modifyTouch_aligned r ha, hostGo_waits _ hw]
  case bad =>
    exact fun hbad => run_fnApply_now h (by rw [modifyTouch_aligned _ ha]; exact hw)
      (modifyFn_bad ha (by rw [fitBytes_of_length hb]) rfl hbad)
  case good =>
    exact fun hgood => run_fnApply_now h (by rw [modifyTouch_aligned _ ha]; exact hw)
      (modifyFn_good ha (by rw [fitBytes_of_length hb]) rfl hgood)
  case storeMisaligned =>
    exact run_fnApply_now h (by rw [storeTouch_misaligned _ ha]; rfl) (storeFn_misaligned _ ha)
  case stored =>
    exact run_fnApply_now h (by rw [storeTouch_aligned _ ha]; exact hostWaits_failed hw) (storeFn_ok ha)
  case failed =>
    exact run_fnApply_now h (by rw [storeTouch_aligned _ ha]; exact hostWaits_failed hw) (storeFn_fail ha)
  case unbinds =>
    exact fun hid hlen hun => run_fnApply_now h hw (bindFn_unbind ha (bindWord_of_length hb) rfl hid hlen hun)
  case binds =>
    intro own ho hid hlen hbind hzero hresv hlist hlease hport hvf hpack hacc hring hdev hdp
    have hgood := bindBad_eq_false ho hzero hresv hlease hport hvf hpack hacc hring
    have hfn {hp : HPriv} {e : Dev} := bindFn_bind ha (bindWord_of_length hb) rfl hid hlen hbind hgood (h := hp) (e' := e)
    subst ho
    refine ⟨fun hp hrest hq harg => ?nvme, fun hp hrest hq harg hw4 h4 hbar => ?window, fun hp hz => ?vendor⟩
    case nvme =>
      refine run_fnApply_now h hw ((hfn (bindHpriv_nvme hp hdev hdp hlist hrest hq harg)).trans ((if_pos (by omega)).trans ?_))
      rw [if_pos hp]
      exact bindAccept_eq hdp _ _ rfl
    case window =>
      refine run_fnApply_now h hw ((hfn (bindHpriv_window hp hdev hdp hlist hrest hq harg hw4 h4 hbar)).trans
        ((if_pos (by omega)).trans ?_))
      rw [if_neg (by omega)]
      exact bindAccept_eq hdp _ _ rfl
    case vendor =>
      refine run_fnApply_now h hw ((hfn (bindHpriv_vendor hp hdev hdp hlist)).trans ((if_neg (by omega)).trans ?_))
      rw [if_neg (by omega)]
      rfl
  case empty =>
    exact (run_running s _ hrun).trans (by rw [workPop_nil hnone])
  case head =>
    exact (run_running s _ hrun).trans (by rw [workPop_cons hsome])

/-- Settles O26: the functions, and the blocks of MODIFY, STORE and BIND. -/
theorem functionEffects : Obligations.FunctionEffects := ⟨functionsAccepted, functionBlocks⟩

end Sys2Proof.Machine
end

section
/-!
SUPPORT. What a reset clear leaves alone on its way (R131, R132, R219): every subchannel's record, and the entries that wait.
-/
namespace Sys2Proof.Machine

open Sys2Proof

/-- The devices agree on the subchannels and on the entries that wait. -/
def SameSubs (d e : Dev) : Prop := e.subs = d.subs ∧ e.stalled = d.stalled

theorem SameSubs.refl (d : Dev) : SameSubs d d := ⟨rfl, rfl⟩

theorem SameSubs.trans {a b c : Dev} (h : SameSubs a b) (k : SameSubs b c) : SameSubs a c := ⟨k.1.trans h.1, k.2.trans h.2⟩

theorem SameSubs.foldl {α : Type} {f : Dev → α → Dev} (hf : ∀ d a, SameSubs d (f d a)) (l : List α) (d : Dev) :
    SameSubs d (l.foldl f d) := by
  induction l generalizing d with
  | nil => exact .refl d
  | cons a t ih => exact (hf d a).trans (ih _)

theorem SameSubs.subGet {d e : Dev} (h : SameSubs d e) (k : Nat) : subGet e k = subGet d k := by
  simp [Machine.subGet, h.1]

theorem Logged.sameSubs {d e : Dev} (h : Logged d e) : SameSubs d e := by
  obtain ⟨⟨_, _, _, _, _, _, _, _, _, _, _, rfl⟩, -⟩ := h
  exact ⟨rfl, rfl⟩

/-! ### The parts of a reset clear -/

theorem sameSubs_callEv (n entry ev g3 : Nat) (d : Dev) : SameSubs d (callEv n entry ev g3 d) := by
  unfold callEv
  split
  · exact .refl d
  · split <;> exact ⟨rfl, rfl⟩

theorem sameSubs_fnFree (t : TakeIn) (d : Dev) : SameSubs d (fnFree t d) := by
  unfold fnFree
  dsimp only
  split <;> exact ⟨rfl, rfl⟩

theorem sameSubs_trimQueue (q : Nat) (d : Dev) : SameSubs d (trimQueue q d) := (sameButLog_dropPres _ _).logged.sameSubs

theorem sameSubs_withdrawWork (n : Nat) (d : Dev) : SameSubs d (withdrawWork n d).2 := by
  unfold withdrawWork
  dsimp only
  have trimmed := SameSubs.foldl (fun e q => sameSubs_trimQueue (0x2480 + q) e) (List.range 8) { d with
    workq := (d.workq.map (fun e => (e.1, e.2.filter (fun w => w.sub ≠ n)))).filter (fun e => !e.2.isEmpty)
    startWait := d.startWait.filter (fun w => w.sub ≠ n) }
  split
  · exact trimmed
  · exact trimmed.trans (sameSubs_fnFree _ _)

theorem sameSubs_clearRecord (n jseq : Nat) (tag : Word) (named : Option Nat) (recov : Bool) (e : Ended) (d : Dev) :
    SameSubs d (clearRecord n jseq tag named recov e d) := (logged_jput _ d).sameSubs

theorem sameSubs_detachOps (n : Nat) (d : Dev) : SameSubs d (detachOps n d) := by
  unfold detachOps
  dsimp only
  split
  · split <;> exact ⟨rfl, rfl⟩
  · exact ⟨rfl, rfl⟩

theorem sameSubs_qshortCheck (d : Dev) : SameSubs d (qshortCheck d) := by
  unfold qshortCheck
  dsimp only
  split
  · split
    · exact .refl d
    · exact ((logged_regSetFld _ _ _ _ _ d).trans (logged_pageEvent _ _ _)).sameSubs
  · exact (logged_regSetFld _ _ _ _ _ d).sameSubs

theorem sameSubs_fenceNow (s : Nat) (d : Dev) : SameSubs d (fenceNow s d) := by
  unfold fenceNow
  refine SameSubs.trans ?_ (sameSubs_qshortCheck _)
  exact ⟨rfl, rfl⟩

theorem sameSubs_freeSlices (gone : Nat → StreamHolder → Bool) (d : Dev) : SameSubs d (freeSlices gone d) := by
  unfold freeSlices fenceSweep
  refine SameSubs.trans ?_ (SameSubs.foldl (fun d s => sameSubs_fenceNow s d) _ _)
  exact ⟨rfl, rfl⟩

theorem sameSubs_releaseSlices (n : Nat) (d : Dev) : SameSubs d (releaseSlices n d) :=
  (show SameSubs d (dropReserve n d) from ⟨rfl, rfl⟩).trans (sameSubs_freeSlices _ _)

/-! ### Channels of a function that is reset (R219) -/

theorem sameSubs_traceEvent (kind : Nat) (agent : Option Nat) (a b : Nat) (d : Dev) :
    SameSubs d (traceEvent kind agent a b d) := by
  obtain ⟨l, h, c, ht⟩ := traceEvent_frame kind agent a b d
  exact (show SameSubs d { d with trace := l, trHead := h, freeCtr := c } from ⟨rfl, rfl⟩).trans ht.sameSubs

theorem sameSubs_chans (l : Tbl Chan) (d : Dev) : SameSubs d { d with chans := l } := ⟨rfl, rfl⟩

theorem sameSubs_chSet (c : Nat) (v : Chan) (d : Dev) : SameSubs d (chSet c v d) := by
  unfold chSet
  dsimp only
  split
  · exact sameSubs_chans _ _
  · exact (sameSubs_traceEvent _ _ _ _ _).trans (sameSubs_chans _ _)

theorem sameSubs_freeWords (k : Nat) (d : Dev) : SameSubs d (freeWords k d).2 := by
  induction k generalizing d with
  | zero => exact .refl d
  | succ k ih => exact (show SameSubs d (freeNext d).2 from ⟨rfl, rfl⟩).trans (ih _)

theorem sameSubs_rbtSet (r : Nat) (x : Rbt) (d : Dev) : SameSubs d (rbtSet r x d) := ⟨rfl, rfl⟩

theorem sameSubs_rbtDrop (c : Nat) (d : Dev) : SameSubs d (rbtDrop c d) := by
  unfold rbtDrop rbtAll
  exact SameSubs.foldl (fun e r => sameSubs_rbtSet r _ e) _ _

theorem sameSubs_releaseHand (n : Nat) (d : Dev) : SameSubs d (releaseHand n d) :=
  (show SameSubs d (dropReserve n d) from ⟨rfl, rfl⟩).trans (sameSubs_freeSlices _ _)

/-- The values that a dropped channel shows are free (R215). -/
theorem dropWork_eq (c : Nat) (d : Dev) : ∃ v, dropWork c d = chSet c v (rbtDrop c (releaseHand (chanStream c) (chUnhold c
    (freeWords 4 (freeWords 8 (freeWords 1 (freeWords 1 d).2).2).2).2))) := ⟨_, rfl⟩

theorem sameSubs_dropWork (c : Nat) (d : Dev) : SameSubs d (dropWork c d) := by
  obtain ⟨v, h⟩ := dropWork_eq c d
  rw [h]
  have freed := (((sameSubs_freeWords 1 d).trans (sameSubs_freeWords 1 _)).trans (sameSubs_freeWords 8 _)).trans (sameSubs_freeWords 4 _)
  have unheld (e : Dev) : SameSubs e (chUnhold c e) := ⟨rfl, rfl⟩
  exact (((freed.trans (unheld _)).trans (sameSubs_releaseHand _ _)).trans (sameSubs_rbtDrop _ _)).trans (sameSubs_chSet _ _ _)

theorem sameSubs_chFnReset (f : FnId) (d : Dev) : SameSubs d (chFnReset f d) := by
  refine SameSubs.foldl (fun e x => ?_) _ _
  dsimp only
  split
  · exact (sameSubs_dropWork _ _).trans (sameSubs_chSet _ _ _)
  · exact sameSubs_chSet _ _ _

end Sys2Proof.Machine
end

section
/-!
SUPPORT. A reset clear of one subchannel (R114, R131, R132): what it discards, and the record it leaves.
-/
namespace Sys2Proof.Machine

open Sys2Proof

theorem sameSubs_dropChans (n : Nat) (d : Dev) : SameSubs d (dropChans n d) := ⟨rfl, rfl⟩

theorem sameSubs_releaseLedger (n : Nat) (d : Dev) : SameSubs d (releaseLedger n d) := ⟨rfl, rfl⟩

theorem sameSubs_evtWait (l : List Nat) (d : Dev) : SameSubs d { d with evtWait := l } := ⟨rfl, rfl⟩

/-- What a reset clear discards: the subchannel's functions, its program, and what waits for either. -/
def discarded (n : Nat) (d : Dev) : Dev :=
  { d with
    waiting := d.waiting.filter (fun t => seSub t.entry ≠ n)
    dsWait := d.dsWait.filter (fun t => seSub t.entry ≠ n)
    progs := d.progs.filter (fun e => e.1 ≠ n)
    stalled := d.stalled.filter (fun e => e.item.sub ≠ n)
    opHeld := d.opHeld.filter (fun h => !((d.ops.find? (fun e => e.1 = h.1)).any (fun e => decide (e.2.sub = n))))
    fnHeld := d.fnHeld.filter (fun h => h.sub ≠ n) }

/-- The record of a subchannel that nothing holds any more. -/
def released (s : Sub) : Sub :=
  { s with lease := none, leaseEnd := 0, fcStart := false, swStl := false, swHold := none, swHeld := false }

/-- The state a reset clear leaves, by the state it found (R114). -/
def clearedFrom (n : Nat) (was : SubState) (d : Dev) : Dev :=
  match was with
  | .notOperational => subSet n (released (subGet d n)) d
  | .idle => subSet n ((released (subGet d n)).enter .idle) d
  | .suspended => subSet n ((released (subGet d n)).enter .idle) d
  | .statusPending => subSet n ((released (subGet d n)).enter .idle) d
  | _ => subSet n ((released (subGet d n)).enter .clearPending) { d with clearing := d.clearing ++ [n] }

/-- A reset clear discards, makes the clear actions, and sets the state; what goes before changes no record and no entry that waits. -/
theorem resetClear_eq (begun : List Nat) (n : Nat) (d : Dev) :
    ∃ e, SameSubs d e ∧ resetClear begun n d = clearedFrom n (subGet d n).st (clearActions n (discarded n e)) := by
  refine ⟨_, ?_, rfl⟩
  have called : SameSubs d (match progOf d n with | some p => if p.own.isSome then callEv n 6 5 2 d else d | none => d) := by
    split
    · split
      · exact sameSubs_callEv _ _ _ _ _
      · exact .refl d
    · exact .refl d
  have recorded (t : Option TakeIn) (e : Dev) : SameSubs e (match t with
      | some t => clearRecord n t.jseq (seTag t.entry) t.ring false ⟨0, dsTrm, seAddr t.entry, 0, false, none⟩ e
      | none => e) := by
    split
    · exact sameSubs_clearRecord _ _ _ _ _ _ _
    · exact .refl e
  have ended (e : Dev) : SameSubs e (match progOf e n with
      | some p =>
          if finalMade p then e
          else clearRecord n p.jseq p.tag p.ring p.recov
            { detachEnd n p begun e with dv := (detachEnd n p begun e).dv ||| dsEnd ||| dsTrm } e
      | none => e) := by
    split
    · split
      · exact .refl e
      · exact sameSubs_clearRecord _ _ _ _ _ _ _
    · exact .refl e
  refine SameSubs.trans ?_ (sameSubs_releaseSlices n _)
  refine SameSubs.trans ?_ (sameSubs_dropChans n _)
  refine SameSubs.trans ?_ (sameSubs_releaseLedger n _)
  refine SameSubs.trans ?_ (sameSubs_detachOps n _)
  refine SameSubs.trans ?_ (sameSubs_evtWait _ _)
  refine SameSubs.trans ?_ (SameSubs.foldl (fun e t => sameSubs_fnFree t e) _ _)
  exact ((called.trans (sameSubs_withdrawWork n _)).trans (recorded _ _)).trans (ended _)

section

variable {n : Nat} {d : Dev}

theorem subOwner_subSet {x : Sub} (h : subOwner x = subOwner (subGet d n)) (k : Nat) :
    subOwner (subGet (subSet n x d) k) = subOwner (subGet d k) :=
  subGet_subSet_keeps subOwner (fun _ _ => rfl) h k

theorem subSet_stalled (x : Sub) (d : Dev) : (subSet n x d).stalled = d.stalled := by
  obtain ⟨_, h⟩ := subSet_frame n x d
  rw [h]

theorem clearActions_stalled : (clearActions n d).stalled = d.stalled := subSet_stalled _ _

theorem subOwner_clearActions (k : Nat) : subOwner (subGet (clearActions n d) k) = subOwner (subGet d k) := subOwner_subSet (by rfl) k

theorem clearedFrom_stalled (was : SubState) : (clearedFrom n was d).stalled = d.stalled := by
  cases was <;> exact subSet_stalled _ _

theorem subOwner_clearedFrom (was : SubState) (k : Nat) : subOwner (subGet (clearedFrom n was d) k) = subOwner (subGet d k) := by
  cases was <;> exact subOwner_subSet (by rfl) k

/-- A reset clear takes the subchannel's entries out of those that wait. -/
theorem resetClear_stalled (begun : List Nat) : (resetClear begun n d).stalled = d.stalled.filter (fun e => e.item.sub ≠ n) := by
  obtain ⟨e, he, h⟩ := resetClear_eq begun n d
  rw [h, clearedFrom_stalled, clearActions_stalled, discarded, he.2]

/-- A reset clear takes no subchannel from its owner. -/
theorem subOwner_resetClear (begun : List Nat) (k : Nat) :
    subOwner (subGet (resetClear begun n d) k) = subOwner (subGet d k) := by
  obtain ⟨e, he, h⟩ := resetClear_eq begun n d
  rw [h, subOwner_clearedFrom, subOwner_clearActions, ← he.subGet k]
  rfl

end

end Sys2Proof.Machine
end

section
/-!
SUPPORT. The subchannel after its reset clear, and after the reset clear has completed (R114, R131, R132).
-/
namespace Sys2Proof.Machine

open Sys2Proof

section

variable {n : Nat} {d : Dev}

theorem clearActions_sub (hn : n < Config.subchannels) :
     (subGet (clearActions n d) n).rp = false ∧ (subGet (clearActions n d) n).heldAttn = false
    ∧ (subGet (clearActions n d) n).st = (subGet d n).st := by
  obtain ⟨q, hq⟩ := subGet_subSet_self (n := n) { subGet d n with
    sense := Sense.none, rp := false, heldAttn := false, position := 0, hpriv := (subGet d n).bindPriv, scAlert := false } d hn
  rw [clearActions, hq]
  exact ⟨rfl, rfl, rfl⟩

/-- The record a reset clear leaves: released, and in a state that it may leave. -/
theorem clearedFrom_eq {was : SubState} (hst : (subGet d n).st = was) (hrp : (subGet d n).rp = false)
    (hattn : (subGet d n).heldAttn = false) :
    ∃ s l, clearedFrom n was d = subSet n s { d with clearing := l } ∧ s.lease = none ∧ s.rp = false ∧ s.heldAttn = false
      ∧ (s.st = .notOperational ∨ s.st = .idle ∨ (s.st = .clearPending ∧ n ∈ l)) := by
  cases was with
  | notOperational => exact ⟨_, d.clearing, rfl, rfl, hrp, hattn, .inl hst⟩
  | idle | suspended | statusPending => exact ⟨_, d.clearing, rfl, rfl, rfl, hattn, .inr (.inl rfl)⟩
  | startPending | active | haltPending | clearPending =>
    exact ⟨_, d.clearing ++ [n], rfl, rfl, rfl, hattn, .inr (.inr ⟨rfl, List.mem_append_right _ (List.mem_singleton_self n)⟩)⟩

/-- The reset clear of one subchannel completes. -/
def clearingStep (d : Dev) (k : Nat) : Dev :=
  if (subGet d k).st = .clearPending then subSet k ((subGet d k).enter .idle) d else d

theorem clearingStep_self (hn : n < Config.subchannels) (h : (subGet d n).st = .clearPending) :
    (subGet (clearingStep d n) n).st = .idle := by
  obtain ⟨q, hq⟩ := subGet_subSet_self ((subGet d n).enter .idle) d hn
  rw [clearingStep, if_pos h, hq]
  rfl

theorem clearingStep_other {k : Nat} (h : n ≠ k ∨ (subGet d k).st ≠ .clearPending) :
    subGet (clearingStep d k) n = subGet d n := by
  unfold clearingStep
  split
  · next hp => exact subGet_subSet_other _ _ (h.resolve_right (not_not_intro hp))
  · rfl

/-- Subchannel n is in neither of the states but NOT_OPERATIONAL and IDLE once all reset clears have completed. -/
theorem clearingSteps_done (hn : n < Config.subchannels) (l : List Nat) (d : Dev)
    (h : (subGet d n).st = .notOperational ∨ (subGet d n).st = .idle ∨ ((subGet d n).st = .clearPending ∧ n ∈ l)) :
    (subGet (l.foldl clearingStep d) n).st = .notOperational ∨ (subGet (l.foldl clearingStep d) n).st = .idle := by
  induction l generalizing d with
  | nil => simpa using h
  | cons k l ih =>
    refine ih (clearingStep d k) ?_
    by_cases hself : k = n ∧ (subGet d n).st = .clearPending
    · obtain ⟨rfl, hp⟩ := hself
      exact .inr (.inl (clearingStep_self hn hp))
    · have hkeeps : subGet (clearingStep d k) n = subGet d n := by
        by_cases hk : k = n
        · subst hk
          exact clearingStep_other (.inr fun hp => hself ⟨rfl, hp⟩)
        · exact clearingStep_other (.inl (Ne.symm hk))
      rw [hkeeps]
      rcases h with h | h | ⟨hp, hmem⟩
      · exact .inl h
      · exact .inr (.inl h)
      · refine .inr (.inr ⟨hp, (List.mem_cons.mp hmem).resolve_left fun hk => hself ⟨hk.symm, hp⟩⟩)

theorem resetClearsDone_sub (hn : n < Config.subchannels)
    (h : (subGet d n).st = .notOperational ∨ (subGet d n).st = .idle ∨ ((subGet d n).st = .clearPending ∧ n ∈ d.clearing)) :
    (subGet (resetClearsDone d) n).st = .notOperational ∨ (subGet (resetClearsDone d) n).st = .idle :=
  clearingSteps_done hn d.clearing { d with clearing := [] } h

/-- A reset clear discards what its subchannel had to do, and leaves it in a state of R114's reset-clear column. -/
theorem resetClear_leaves (begun : List Nat) (d : Dev) (hn : n < Config.subchannels) :
    let t := resetClear begun n d
    progOf t n = none ∧ (subGet t n).lease = none ∧ (subGet t n).rp = false ∧ (subGet t n).heldAttn = false
    ∧ ((subGet t n).st = .notOperational ∨ (subGet t n).st = .idle ∨ ((subGet t n).st = .clearPending ∧ n ∈ t.clearing))
    ∧ ((subGet (resetClearsDone t) n).st = .notOperational ∨ (subGet (resetClearsDone t) n).st = .idle)
    ∧ (∀ x ∈ t.waiting ++ t.dsWait, seSub x.entry ≠ n) ∧ (∀ e ∈ t.stalled, e.item.sub ≠ n) := by
  obtain ⟨e, he, hclear⟩ := resetClear_eq begun n d
  obtain ⟨hrp, hattn, hst⟩ := clearActions_sub (d := discarded n e) hn
  have hwas : (subGet (clearActions n (discarded n e)) n).st = (subGet d n).st := by rw [hst, ← he.subGet n]; rfl
  obtain ⟨s, l, hs, hlease, hsrp, hsattn, hsst⟩ := clearedFrom_eq hwas hrp hattn
  obtain ⟨u, hu⟩ := subSet_frame n s { clearActions n (discarded n e) with clearing := l }
  obtain ⟨v, hv⟩ := subSet_frame n { subGet (discarded n e) n with
    sense := Sense.none, rp := false, heldAttn := false, position := 0, hpriv := (subGet (discarded n e) n).bindPriv
    scAlert := false } (discarded n e)
  obtain ⟨q, hq⟩ := subGet_subSet_self s { clearActions n (discarded n e) with clearing := l } hn
  have hsub : subGet (resetClear begun n d) n = { s with swSeq := q } := by rw [hclear, hs, hq]
  have hrest : resetClear begun n d = { discarded n e with subs := u, clearing := l } := by
    rw [hclear, hs, hu, clearActions, hv]
  have hstate : (subGet (resetClear begun n d) n).st = .notOperational ∨ (subGet (resetClear begun n d) n).st = .idle
      ∨ ((subGet (resetClear begun n d) n).st = .clearPending ∧ n ∈ (resetClear begun n d).clearing) := by
    rw [hsub, hrest]
    exact hsst
  refine ⟨?prog, ?lease, ?rp, ?attn, hstate, resetClearsDone_sub hn hstate, ?waiting, ?stalled⟩
  case prog =>
    rw [hrest]
    simp [progOf, discarded]
  case lease => rw [hsub]; exact hlease
  case rp => rw [hsub]; exact hsrp
  case attn => rw [hsub]; exact hsattn
  case waiting =>
    rw [hrest]
    intro x hx
    simp only [discarded, List.mem_append, List.mem_filter, decide_eq_true_eq] at hx
    rcases hx with ⟨-, h⟩ | ⟨-, h⟩ <;> exact h
  case stalled =>
    intro x hx
    rw [resetClear_stalled] at hx
    simpa using (List.mem_filter.mp hx).2

end

end Sys2Proof.Machine
end

section
/-!
SUPPORT. What posting an entry leaves alone apart from the ring that takes it (R99, R151, R154): the rings, the entries that wait, and the
owners of subchannels.
-/
namespace Sys2Proof.Machine

open Sys2Proof

/-- The devices agree on the rings and on the entries that wait, and no subchannel changed its owner. -/
def SameRings (d e : Dev) : Prop :=
  e.srings = d.srings ∧ e.stalled = d.stalled ∧ e.crings = d.crings ∧ ∀ k, subOwner (subGet e k) = subOwner (subGet d k)

theorem SameRings.of_eq {d e : Dev} (hr : e.srings = d.srings) (hw : e.stalled = d.stalled) (hc : e.crings = d.crings)
    (hs : e.subs = d.subs) : SameRings d e := ⟨hr, hw, hc, fun k => by simp [subGet, hs]⟩

theorem SameRings.refl (d : Dev) : SameRings d d := .of_eq rfl rfl rfl rfl

theorem SameRings.trans {a b c : Dev} (h : SameRings a b) (k : SameRings b c) : SameRings a c := by
  obtain ⟨h1, h2, h3, h4⟩ := h
  obtain ⟨k1, k2, k3, k4⟩ := k
  exact ⟨k1.trans h1, k2.trans h2, k3.trans h3, fun n => (k4 n).trans (h4 n)⟩

theorem SameRings.foldl {α : Type} {f : Dev → α → Dev} (hf : ∀ d a, SameRings d (f d a)) (l : List α) (d : Dev) :
    SameRings d (l.foldl f d) := by
  induction l generalizing d with
  | nil => exact .refl d
  | cons a t ih => exact (hf d a).trans (ih _)

theorem SameRings.crGet {d e : Dev} (h : SameRings d e) (n : Nat) : crGet e n = crGet d n := by
  obtain ⟨-, -, hc, -⟩ := h
  simp [Machine.crGet, hc]

theorem Logged.sameRings {d e : Dev} (h : Logged d e) : SameRings d e := by
  obtain ⟨⟨_, _, _, _, _, _, _, _, _, _, _, rfl⟩, -⟩ := h
  exact .of_eq rfl rfl rfl rfl

theorem sameRings_emit (o : Out) (d : Dev) : SameRings d (emit o d) := .of_eq rfl rfl rfl rfl

theorem sameRings_fnSet (f : FnId) (x : Fn) (d : Dev) : SameRings d (fnSet f x d) := .of_eq rfl rfl rfl rfl

theorem sameRings_outHeld (l : List (FnId × Via × HostReq)) (d : Dev) : SameRings d { d with outHeld := l } := .of_eq rfl rfl rfl rfl

theorem sameRings_progs (l : Tbl Prog) (d : Dev) : SameRings d { d with progs := l } := .of_eq rfl rfl rfl rfl

theorem sameRings_subSet {n : Nat} {x : Sub} {d : Dev} (h : subOwner x = subOwner (subGet d n)) : SameRings d (subSet n x d) := by
  obtain ⟨u, hu⟩ := subSet_frame n x d
  refine ⟨?_, ?_, ?_, subOwner_subSet h⟩ <;> rw [hu]

theorem sameRings_countNopost (f : FnId) (d : Dev) : SameRings d (countNopost f d) := sameRings_fnSet _ _ _

theorem sameRings_dbEvent (c : Nat) (d : Dev) : SameRings d (dbEvent c d) := by
  obtain ⟨r, h⟩ := dbEvents_frame c 1 d
  rw [dbEvent, h]
  exact .of_eq rfl rfl rfl rfl

theorem sameRings_traceEvent (kind : Nat) (agent : Option Nat) (a b : Nat) (d : Dev) :
    SameRings d (traceEvent kind agent a b d) := by
  obtain ⟨l, h, c, ht⟩ := traceEvent_frame kind agent a b d
  exact (show SameRings d { d with trace := l, trHead := h, freeCtr := c } from .of_eq rfl rfl rfl rfl).trans ht.sameRings

/-! ### Accesses to host memory (R170, R271, R515) -/

theorem sameRings_notePort (v : Via) (p : Nat) (d : Dev) : SameRings d (notePort v p d) := by
  have noted : SameRings d { d with sgLast := tset d.sgLast 2 p 63 } := .of_eq rfl rfl rfl rfl
  unfold notePort
  dsimp only
  split
  · split
    · exact noted
    · exact noted.trans (sameRings_subSet (by rfl))
  · exact noted

theorem sameRings_takePort (v : Via) (f : FnId) (a : Nat) (d : Dev) : SameRings d (takePort v f a d).2 := by
  unfold takePort
  dsimp only
  split
  · exact .refl d
  · exact .refl d
  · exact sameRings_notePort _ _ _

theorem sameRings_sendHost (v : Via) (f : FnId) (o : HostReq) (d : Dev) : SameRings d (sendHost v f o d) := by
  refine (sameRings_takePort v f o.addr.toNat d).trans ?_
  unfold sendHost
  dsimp only
  split
  · exact (sameRings_emit _ _).trans (sameRings_emit _ _)
  · exact sameRings_emit _ _

theorem sameRings_askXlate (f : FnId) (ps : List Nat) (d : Dev) : SameRings d (askXlate f ps d) := by
  refine SameRings.foldl (fun e p => ?_) ps d
  split
  · exact .refl e
  · exact .of_eq rfl rfl rfl rfl

theorem sameRings_hostOut (v : Via) (f : FnId) (o : HostReq) (d : Dev) : SameRings d (hostOut v f o d) := by
  unfold hostOut
  split
  · exact sameRings_outHeld _ _
  · split
    · exact sameRings_sendHost _ _ _ _
    · exact (sameRings_outHeld _ _).trans (sameRings_askXlate _ _ _)

/-! ### The change an entry reports (R156) -/

theorem sameRings_refetch (n : Nat) (d : Dev) : SameRings d (refetch n d) := by
  unfold refetch
  split
  · split
    · exact (sameRings_progs _ d).trans (sameRings_hostOut _ _ _ _)
    · exact .refl d
  · exact .refl d

theorem sameRings_endProg (n : Nat) (st : SubState) (c dv : Byte) (ou : Bool) (d : Dev) : SameRings d (endProg n st c dv ou d) := by
  have ended (l : Tbl Prog) (m : Tbl Op) : SameRings d { d with progs := l, ops := m } := .of_eq rfl rfl rfl rfl
  exact (ended _ _).trans (sameRings_subSet (by rfl))

theorem sameRings_applyChange (n : Nat) (c : Change) (d : Dev) : SameRings d (applyChange n c d) := by
  cases c with
  | none => exact .refl d
  | status st cs ds ou => exact sameRings_endProg _ _ _ _ _ _
  | alert st ds =>
    unfold applyChange
    dsimp only
    split
    · exact sameRings_subSet (by rfl)
    · exact .refl d
  | toState st => exact sameRings_subSet (by rfl)
  | suspend =>
    unfold applyChange
    dsimp only
    split
    · exact sameRings_subSet (by rfl)
    · split
      · exact (sameRings_subSet (by rfl)).trans (sameRings_refetch _ _)
      · exact sameRings_subSet (by rfl)
  | resume =>
    unfold applyChange
    dsimp only
    split
    · exact (sameRings_subSet (by rfl)).trans (sameRings_refetch _ _)
    · exact .refl d

end Sys2Proof.Machine
end

section
/-!
SUPPORT. What the completion rings keep while entries that waited are posted (R99, R154, R156, R158): their owners, a disabled ring's place,
and the deep FIFO of a ring that no entry is bound for.
-/
namespace Sys2Proof.Machine

open Sys2Proof

/-- No ring and no subchannel changed its owner, no start ring changed, and no further entry waits. -/
structure KeepsOwners (d e : Dev) : Prop where
  srings : e.srings = d.srings
  waits : ∀ x ∈ e.stalled, x ∈ d.stalled
  subOwner : ∀ k, subOwner (subGet e k) = subOwner (subGet d k)
  ringOwner : ∀ n, (crGet e n).own = (crGet d n).own

theorem KeepsOwners.refl (d : Dev) : KeepsOwners d d := ⟨rfl, fun _ h => h, fun _ => rfl, fun _ => rfl⟩

theorem KeepsOwners.trans {a b c : Dev} (h : KeepsOwners a b) (k : KeepsOwners b c) : KeepsOwners a c :=
  ⟨k.srings.trans h.srings, fun x hx => h.waits x (k.waits x hx), fun n => (k.subOwner n).trans (h.subOwner n),
    fun n => (k.ringOwner n).trans (h.ringOwner n)⟩

theorem KeepsOwners.crOwner {d e : Dev} (h : KeepsOwners d e) (n : Nat) : crOwner e n = crOwner d n := by
  rw [Machine.crOwner, h.ringOwner, Machine.crOwner]

/-- Besides, a disabled ring stands where it stood, and the rings that P picks hold the same entries in their deep FIFOs. -/
structure KeepsRings (P : Nat → Prop) (d e : Dev) : Prop extends KeepsOwners d e where
  place : ∀ n, bit (crGet d n).ctl 31 = false → (crGet e n).ctl = (crGet d n).ctl ∧ (crGet e n).prod = (crGet d n).prod
    ∧ (crGet e n).cons = (crGet d n).cons ∧ (crGet e n).phase = (crGet d n).phase
  fifo : ∀ n, P n → (crGet e n).fifo = (crGet d n).fifo

theorem SameRings.keepsOwners {d e : Dev} (h : SameRings d e) : KeepsOwners d e := by
  have hcr := h.crGet
  obtain ⟨hs, hw, -, ho⟩ := h
  exact ⟨hs, fun x hx => hw ▸ hx, ho, fun n => by rw [hcr]⟩

theorem SameRings.keepsRings {P : Nat → Prop} {d e : Dev} (h : SameRings d e) : KeepsRings P d e :=
  ⟨h.keepsOwners, fun n _ => by simp [h.crGet], fun n _ => by rw [h.crGet]⟩

theorem KeepsRings.refl (P : Nat → Prop) (d : Dev) : KeepsRings P d d := (SameRings.refl d).keepsRings

section

variable {P : Nat → Prop}

theorem KeepsRings.trans {a b c : Dev} (h : KeepsRings P a b) (k : KeepsRings P b c) : KeepsRings P a c := by
  refine ⟨h.toKeepsOwners.trans k.toKeepsOwners, fun n hn => ?_, fun n hn => (k.fifo n hn).trans (h.fifo n hn)⟩
  obtain ⟨hctl, hprod, hcons, hphase⟩ := h.place n hn
  obtain ⟨kctl, kprod, kcons, kphase⟩ := k.place n (by rw [hctl]; exact hn)
  exact ⟨kctl.trans hctl, kprod.trans hprod, kcons.trans hcons, kphase.trans hphase⟩

theorem KeepsRings.foldl {α : Type} {f : Dev → α → Dev} (hf : ∀ d a, KeepsRings P d (f d a)) (l : List α) (d : Dev) :
    KeepsRings P d (l.foldl f d) := by
  induction l generalizing d with
  | nil => exact .refl P d
  | cons a t ih => exact (hf d a).trans (ih _)

/-- A change of one ring: its owner stays, and its place when it is disabled. -/
theorem keepsRings_crSet {n : Nat} {r : CRing} {d : Dev} (hown : r.own = (crGet d n).own)
    (hplace : bit (crGet d n).ctl 31 = false → r.ctl = (crGet d n).ctl ∧ r.prod = (crGet d n).prod ∧ r.cons = (crGet d n).cons
      ∧ r.phase = (crGet d n).phase)
    (hfifo : P n → r.fifo = (crGet d n).fifo) : KeepsRings P d (crSet n r d) := by
  have self : crGet (crSet n r d) n = r := tget_tset_self _ _ _ _
  have other (m : Nat) (hm : m ≠ n) : crGet (crSet n r d) m = crGet d m := tget_tset_other _ _ _ _ hm
  refine ⟨⟨rfl, fun _ h => h, fun _ => rfl, fun m => ?_⟩, fun m hm => ?_, fun m hm => ?_⟩
  all_goals by_cases h : m = n
  · subst h; rw [self]; exact hown
  · rw [other m h]
  · subst h; rw [self]; exact hplace hm
  · simp [other m h]
  · subst h; rw [self]; exact hfifo hm
  · rw [other m h]

theorem keepsRings_sendMessage (n : Nat) (d : Dev) : KeepsRings P d (sendMessage n d) := by
  have sent : KeepsRings P d (crSet n { crGet d n with armed := false, armCnt := 0 } d) :=
    keepsRings_crSet (by rfl) (fun _ => by exact ⟨rfl, rfl, rfl, rfl⟩) (fun _ => by rfl)
  refine sent.trans ?_
  generalize hd : crSet n { crGet d n with armed := false, armCnt := 0 } d = e
  unfold sendMessage
  dsimp only
  rw [hd]
  split
  · exact .refl P e
  · split
    · exact (keepsRings_crSet (by rfl) (fun _ => by exact ⟨rfl, rfl, rfl, rfl⟩) (fun _ => by rfl)).trans
        (logged_pageEvent _ _ _).sameRings.keepsRings
    · split
      · split
        · exact ((sameRings_fnSet _ _ _).trans (sameRings_emit _ _)).keepsRings
        · exact (sameRings_fnSet _ _ _).keepsRings
      · split
        · exact (sameRings_fnSet _ _ _).keepsRings
        · exact (sameRings_emit _ _).keepsRings

theorem keepsRings_armRing (n : Nat) (x : FifoItem) (d : Dev) : KeepsRings P d (armRing n x d) := by
  have armed (r : CRing) (hown : r.own = (crGet d n).own) (hctl : r.ctl = (crGet d n).ctl) (hprod : r.prod = (crGet d n).prod)
      (hcons : r.cons = (crGet d n).cons) (hphase : r.phase = (crGet d n).phase) (hfifo : r.fifo = (crGet d n).fifo) :
      KeepsRings P d (crSet n r d) := keepsRings_crSet hown (fun _ => ⟨hctl, hprod, hcons, hphase⟩) (fun _ => hfifo)
  unfold armRing
  split
  · exact .refl P d
  · dsimp only
    split <;> split
    · exact (armed _ (by rfl) (by rfl) (by rfl) (by rfl) (by rfl) (by rfl)).trans (keepsRings_sendMessage _ _)
    · exact armed _ (by rfl) (by rfl) (by rfl) (by rfl) (by rfl) (by rfl)
    · exact (armed _ (by rfl) (by rfl) (by rfl) (by rfl) (by rfl) (by rfl)).trans (keepsRings_sendMessage _ _)
    · exact armed _ (by rfl) (by rfl) (by rfl) (by rfl) (by rfl) (by rfl)

/-! ### Placing an entry (R151, R154) -/

theorem ringOpen_enabled {d : Dev} {r : CRing} (h : ringOpen d r = true) : bit r.ctl 31 = true := by
  by_contra hdis
  simp [ringOpen, ringFull, hdis] at h

/-- An entry that is written goes into an enabled ring. -/
theorem keepsRings_ringWrite {n : Nat} (x : FifoItem) (shows : Bool) {d : Dev} (hen : bit (crGet d n).ctl 31 = true) :
    KeepsRings P d (ringWrite n x shows d) := by
  have put (e : Dev) (he : SameRings d e) (r : CRing) (hown : r.own = (crGet d n).own) (hfifo : r.fifo = (crGet d n).fifo) :
      KeepsRings P d (crSet n r e) := by
    refine he.keepsRings.trans (keepsRings_crSet ?_ ?_ ?_)
    · rw [he.crGet, hown]
    · rw [he.crGet, hen]; simp
    · rw [he.crGet, hfifo]; exact fun _ => rfl
  have delayed (e : Dev) : SameRings e (if x.dly then dbEvent 3 e else e) := by
    split
    · exact sameRings_dbEvent _ _
    · exact .refl e
  have sent (f : FnId) (e : Dev) (b : List Byte) (a : DWord) : SameRings e (if bit (crGet d n).ctl 30
      then sendHost (.kept (crGet d n).port) f (.write a (b.take 8)) (sendHost (.kept (crGet d n).port) f (.write (a + 8) (b.drop 8)) e)
      else sendHost (.kept (crGet d n).port) f (.write a b) e) := by
    split
    · exact (sameRings_sendHost _ _ _ _).trans (sameRings_sendHost _ _ _ _)
    · exact sameRings_sendHost _ _ _ _
  have shown (f : FnId) (w : Sub → DWord) (e : Dev) (q : Nat) : SameRings e (if shows && decide (q ≠ f.port)
      then emit (.zeroRead q) (if (subGet e x.sub).swHold.isSome then e else subSet x.sub
        { subGet e x.sub with swHold := some (q, w (subGet e x.sub)) } e)
      else e) := by
    split
    · refine SameRings.trans ?_ (sameRings_emit _ _)
      split
      · exact .refl e
      · exact sameRings_subSet (by rfl)
    · exact .refl e
  unfold ringWrite
  dsimp only
  split
  · exact .refl P d
  · next f _ =>
    refine KeepsRings.trans ?_ (keepsRings_armRing _ _ _)
    refine KeepsRings.trans ?_ (shown f (fun s => BitVec.ofNat 64 (fieldN 63 40 s.swSeq.toNat + swFields s)) _ _).keepsRings
    refine put _ ?_ _ (by rfl) (by rfl)
    exact (((sameRings_traceEvent _ _ _ _ _).trans (sameRings_dbEvent _ _)).trans (delayed _)).trans (sent _ _ _ _)

theorem keepsRings_ringAskXlate (n : Nat) (d : Dev) : KeepsRings P d (ringAskXlate n d) := by
  unfold ringAskXlate
  dsimp only
  split
  · exact .refl P d
  · exact (keepsRings_crSet (by rfl) (fun _ => by exact ⟨rfl, rfl, rfl, rfl⟩) (fun _ => by rfl)).trans
      (sameRings_askXlate _ _ _).keepsRings

theorem keepsRings_fifoPlace {n : Nat} (hn : ¬ P n) (x : FifoItem) (d : Dev) : KeepsRings P d (fifoPlace n x d) := by
  have event (b : Bool) (e : Dev) : KeepsRings P e (if b then pageEvent (0x200 + n / 16) (n % 16) e else e) := by
    split
    · exact (logged_pageEvent _ _ _).sameRings.keepsRings
    · exact .refl P e
  have full (b c : Bool) (e : Dev) : KeepsRings P e (if b then
      (if c then sendMessage n (pageEvent (0x200 + n / 16) (n % 16) e) else pageEvent (0x200 + n / 16) (n % 16) e) else e) := by
    split
    · refine (logged_pageEvent (0x200 + n / 16) (n % 16) e).sameRings.keepsRings.trans ?_
      split
      · exact keepsRings_sendMessage _ _
      · exact .refl P _
    · exact .refl P e
  unfold fifoPlace
  dsimp only
  refine KeepsRings.trans ?_ (event _ _)
  refine KeepsRings.trans ?_ (full _ _ _)
  refine KeepsRings.trans ?_ (logged_noteHwm _ _ _).sameRings.keepsRings
  exact keepsRings_crSet (by rfl) (fun _ => by exact ⟨rfl, rfl, rfl, rfl⟩) (fun h => absurd h hn)

/-- An entry that is placed changes the deep FIFO of no ring but the one it goes to. -/
theorem keepsRings_placeEnt {e : Ent} {d : Dev} (he : ∀ n, P n → entRing d e ≠ some n) : KeepsRings P d (placeEnt e d) := by
  have note (held : Bool) (c : Dev) : KeepsRings P c (if e.shows then
      subSet e.item.sub { subGet (applyChange e.item.sub e.change c) e.item.sub with swHeld := held } (applyChange e.item.sub e.change c)
      else applyChange e.item.sub e.change c) := by
    split
    · exact ((sameRings_applyChange _ _ _).trans (sameRings_subSet (by rfl))).keepsRings
    · exact (sameRings_applyChange _ _ _).keepsRings
  unfold placeEnt
  dsimp only
  split
  · exact ((sameRings_countNopost _ _).trans (sameRings_applyChange _ _ _)).keepsRings
  · next n hring =>
    have hn : ¬ P n := fun h => he n h hring
    split
    · next hopen =>
      split
      · exact ((keepsRings_ringAskXlate _ _).trans (keepsRings_fifoPlace hn _ _)).trans (note _ _)
      · exact (keepsRings_ringWrite _ _ (ringOpen_enabled (Bool.and_eq_true_iff.mp hopen).1)).trans (note _ _)
    · exact (keepsRings_fifoPlace hn _ _).trans (note _ _)

end

end Sys2Proof.Machine
end

section
/-!
SUPPORT. Entries that waited are tried again (R100, R156), as a completion ring of a function that is reset is emptied (R175).
-/
namespace Sys2Proof.Machine

open Sys2Proof

/-- An entry that is not bound for ring n, and whose subchannel's owner does not own it. -/
def Misses (d : Dev) (n : Nat) (e : Ent) : Prop :=
  e.ring ≠ n ∧ ∀ f, crOwner d n = some f → subOwner (subGet d e.item.sub) ≠ some f

/-- Such an entry is not posted to the ring (R99). -/
theorem Misses.entRing {d : Dev} {n : Nat} {e : Ent} (h : Misses d n e) : entRing d e ≠ some n := by
  obtain ⟨hring, howner⟩ := h
  have fallback : (if (subOwner (subGet d e.item.sub)).isSome ∧ crOwner d (subGet d e.item.sub).cring = subOwner (subGet d e.item.sub)
      then some (subGet d e.item.sub).cring else none) ≠ some n := by
    split
    · next hown =>
      obtain ⟨hsome, hcr⟩ := hown
      obtain ⟨f, hf⟩ := Option.isSome_iff_exists.mp hsome
      intro hn
      rw [Option.some.inj hn, hf] at hcr
      exact howner f hcr hf
    · simp
  unfold Machine.entRing
  split
  · split
    · simpa using hring
    · simp
  · unfold chooseRing
    dsimp only
    split
    · simpa using hring
    · exact fallback

theorem Misses.keeps {d d' : Dev} {n : Nat} {e : Ent} (h : Misses d n e) (k : KeepsOwners d d') : Misses d' n e := by
  obtain ⟨hring, howner⟩ := h
  exact ⟨hring, fun f hf => by rw [k.subOwner]; exact howner f (by rw [← k.crOwner]; exact hf)⟩

/-- No entry that waits is bound for ring n. -/
def Untargeted (d : Dev) (n : Nat) : Prop := ∀ e ∈ d.stalled, Misses d n e

theorem Untargeted.keeps {d d' : Dev} {n : Nat} (h : Untargeted d n) (k : KeepsOwners d d') : Untargeted d' n :=
  fun e he => (h e (k.waits e he)).keeps k

theorem keepsRings_stalled {P : Nat → Prop} {l m : List Ent} {d : Dev} (h : ∀ x ∈ m, x ∈ l) :
    KeepsRings P { d with stalled := l } { d with stalled := m } :=
  ⟨⟨rfl, h, fun _ => rfl, fun _ => rfl⟩, fun _ _ => ⟨rfl, rfl, rfl, rfl⟩, fun _ _ => rfl⟩

/-- What waits behind an entry waits on as the entry is placed. -/
theorem KeepsRings.append {P : Nat → Prop} {d e : Dev} (h : KeepsRings P d e) (l : List Ent) (x : Ent) :
    KeepsRings P { d with stalled := d.stalled ++ x :: l } { e with stalled := e.stalled ++ l } := by
  obtain ⟨⟨hs, hw, ho, hr⟩, hp, hf⟩ := h
  refine ⟨⟨hs, fun y hy => ?_, ho, hr⟩, hp, hf⟩
  rcases List.mem_append.mp hy with hy | hy
  · exact List.mem_append_left _ (hw y hy)
  · exact List.mem_append_right _ (List.mem_cons_of_mem _ hy)

theorem keepsRings_unstall {P : Nat → Prop} (l : List Ent) (d : Dev) (h : ∀ e ∈ l, ∀ n, P n → Misses d n e) :
    KeepsRings P { d with stalled := d.stalled ++ l } (unstall l d) := by
  induction l generalizing d with
  | nil => exact keepsRings_stalled (by simp)
  | cons e t ih =>
    rw [unstall]
    split
    · have waiting := ih { d with stalled := d.stalled ++ [e] } fun x hx n hn => h x (List.mem_cons_of_mem _ hx) n hn
      simpa using waiting
    · have placed : KeepsRings P d (placeEnt e d) := keepsRings_placeEnt fun n hn => (h e (List.mem_cons_self ..) n hn).entRing
      exact (placed.append t e).trans
        (ih _ fun x hx n hn => (h x (List.mem_cons_of_mem _ hx) n hn).keeps placed.toKeepsOwners)

theorem keepsRings_retryStalled (d : Dev) : KeepsRings (Untargeted d) d (retryStalled d) := by
  have tried := keepsRings_unstall (P := Untargeted d) d.stalled { d with stalled := [] } fun e he n hn => hn e he
  exact tried.trans (SameRings.foldl (fun e n => sameRings_subSet (by rfl)) _ _).keepsRings

/-! ### Completion rings of a function that is reset (R175) -/

/-- A completion ring as its owner's reset leaves it: disabled and empty, with phase 1. -/
def cringStopped (r : CRing) : CRing :=
  { r with ctl := setBit r.ctl 31 false, prod := 0, cons := 0, phase := true, full := false, stall := false
           xwait := none, fifo := ⟨[], 0, 0⟩ }

/-- The ring is disabled and stands at its start. -/
def AtStart (r : CRing) : Prop := bit r.ctl 31 = false ∧ r.prod = 0 ∧ r.cons = 0 ∧ r.phase = true

theorem bit_setBit_false {w : Nat} (x : BitVec w) (k : Nat) : bit (setBit x k false) k = false := by
  have hmask : (2 ^ (k + 1 - k) - 1) * 2 ^ k = 2 ^ k := by simp
  unfold bit setBit setBits
  dsimp only
  rw [hmask, BitVec.getLsbD_or, BitVec.getLsbD_and, BitVec.getLsbD_not, BitVec.getLsbD_ofNat, BitVec.getLsbD_ofNat]
  simp only [Bool.toNat_false, Nat.zero_mod, Nat.zero_mul, Nat.zero_testBit, Nat.testBit_two_pow_self, Bool.and_true, Bool.and_false,
    Bool.or_false]
  cases decide (k < w) <;> simp

theorem atStart_cringStopped (r : CRing) : AtStart (cringStopped r) := ⟨bit_setBit_false _ _, rfl, rfl, rfl⟩

theorem keepsOwners_crSet {n : Nat} {r : CRing} {d : Dev} (h : r.own = (crGet d n).own) : KeepsOwners d (crSet n r d) := by
  refine ⟨rfl, fun _ hx => hx, fun _ => rfl, fun m => ?_⟩
  by_cases hm : m = n
  · subst hm
    rw [crGet_crSet_self, h]
  · rw [crGet_crSet_other _ _ hm]

theorem KeepsRings.mono {P Q : Nat → Prop} {d e : Dev} (h : KeepsRings Q d e) (hPQ : ∀ n, P n → Q n) : KeepsRings P d e :=
  ⟨h.toKeepsOwners, h.place, fun n hn => h.fifo n (hPQ n hn)⟩

/-- As a ring stops, entries that waited may go to other rings. -/
theorem keepsRings_crResetRing (n : Nat) (d : Dev) :
    KeepsRings (Untargeted d) (crSet n (cringStopped (crGet d n)) d) (crResetRing n d) := by
  have stopped : KeepsOwners d (crSet n (cringStopped (crGet d n)) d) := keepsOwners_crSet rfl
  have emptied (l : List FifoItem) (e : Dev) : SameRings e
      (l.foldl (fun d x => if x.status then subSet x.sub { subGet d x.sub with swHeld := false } d else d) e) := by
    refine SameRings.foldl (fun e x => ?_) l e
    split
    · exact sameRings_subSet (by rfl)
    · exact .refl e
  have audited (e : Dev) (a b c : Nat) (v w : Word) : KeepsRings (Untargeted d) e
      (if bit (crGet d n).ctl 31 then auditHw a b c v w e else e) := by
    split
    · exact (sameButLog_auditPut _ _ _ _ _ _ _ _).logged.sameRings.keepsRings
    · exact .refl _ e
  refine KeepsRings.trans ?_ (audited _ _ _ _ _ _)
  refine (emptied (crGet d n).fifo.items _).keepsRings.trans ?_
  refine (keepsRings_retryStalled _).mono fun m hm => ?_
  exact (hm.keeps stopped).keeps (emptied _ _).keepsOwners

end Sys2Proof.Machine
end

section
/-!
SUPPORT. The rings and the functions that a reset affects (R131, R175, R413, R550), one after another.
-/
namespace Sys2Proof.Machine

open Sys2Proof

/-- A table holds what it answers, unless that is the default. -/
theorem mem_of_tget_ne {α : Type} {t : Tbl α} {k : Nat} {d : α} (h : tget t k d ≠ d) : (k, tget t k d) ∈ t := by
  induction t with
  | nil => exact absurd rfl h
  | cons e t ih =>
    obtain ⟨j, v⟩ := e
    by_cases hj : j = k
    · simp [tget, hj]
    · have htail : tget ((j, v) :: t) k d = tget t k d := by simp [tget, hj]
      rw [htail] at h ⊢
      exact List.mem_cons_of_mem _ (ih h)

/-! ### Start rings (R175) -/

/-- A start ring that is disabled and stands at its start. -/
def SrAtStart (r : SRing) : Prop := bit r.ctl 31 = false ∧ r.cons = 0 ∧ r.phase = true

/-- A start ring as its owner's reset leaves it. -/
def sringStopped (r : SRing) : SRing :=
  { r with ctl := setBit r.ctl 31 false, cons := 0, phase := true, pref := [], rd := .idle, stale := 0, dirty := false }

theorem logged_srResetRing (n : Nat) (d : Dev) : Logged (srSet n (sringStopped (srGet d n)) d) (srResetRing n d) := by
  unfold srResetRing
  dsimp only
  split
  · exact (sameButLog_auditPut _ _ _ _ _ _ _ _).logged
  · exact .refl _

theorem srGet_srResetRing (n k : Nat) (d : Dev) :
    srGet (srResetRing n d) k = if k = n then sringStopped (srGet d n) else srGet d k := by
  have hs : (srResetRing n d).srings = (srSet n (sringStopped (srGet d n)) d).srings :=
    (logged_srResetRing n d).keeps (·.srings) (fun _ _ _ _ _ _ _ _ _ _ _ _ => rfl)
  have hg : srGet (srResetRing n d) k = srGet (srSet n (sringStopped (srGet d n)) d) k := by simp [srGet, hs]
  rw [hg]
  split
  · next h => rw [h, srGet_srSet_self]
  · next h => rw [srGet_srSet_other _ _ h]

/-- Start rings that stop, one after another: no ring changes its owner, and each of them stands at its start. -/
theorem srResetRings (l : List Nat) (d : Dev) (n : Nat) :
    (srGet (l.foldl (fun d k => srResetRing k d) d) n).own = (srGet d n).own
    ∧ (n ∈ l ∨ SrAtStart (srGet d n) → SrAtStart (srGet (l.foldl (fun d k => srResetRing k d) d) n)) := by
  induction l generalizing d with
  | nil => exact ⟨rfl, fun h => by simpa using h⟩
  | cons k l ih =>
    obtain ⟨hown, hstart⟩ := ih (srResetRing k d)
    have hk := srGet_srResetRing k n d
    by_cases hn : n = k
    · subst hn
      rw [if_pos rfl] at hk
      exact ⟨hown.trans (by rw [hk]; rfl), fun _ => hstart (.inr (by rw [hk]; exact ⟨bit_setBit_false _ _, rfl, rfl⟩))⟩
    · rw [if_neg hn] at hk
      refine ⟨hown.trans (by rw [hk]), fun h => hstart ?_⟩
      rw [hk]
      exact h.imp_left fun hm => (List.mem_cons.mp hm).resolve_left hn

/-! ### Completion rings (R175) -/

theorem keepsOwners_crResetRing (n : Nat) (d : Dev) : KeepsOwners d (crResetRing n d) :=
  (keepsOwners_crSet (r := cringStopped (crGet d n)) rfl).trans (keepsRings_crResetRing n d).toKeepsOwners

theorem atStart_crResetRing {n k : Nat} {d : Dev} (h : n = k ∨ AtStart (crGet d n)) : AtStart (crGet (crResetRing k d) n) := by
  have hset : AtStart (crGet (crSet k (cringStopped (crGet d k)) d) n) := by
    by_cases hn : n = k
    · rw [hn, crGet_crSet_self]
      exact atStart_cringStopped _
    · rw [crGet_crSet_other _ _ hn]
      exact h.resolve_left hn
  obtain ⟨hdis, hprod, hcons, hphase⟩ := hset
  obtain ⟨kctl, kprod, kcons, kphase⟩ := (keepsRings_crResetRing k d).place n hdis
  exact ⟨by rw [kctl, hdis], kprod.trans hprod, kcons.trans hcons, kphase.trans hphase⟩

theorem fifo_crResetRing {n k : Nat} {d : Dev} (hu : Untargeted d n) (h : n = k ∨ (crGet d n).fifo.items = []) :
    (crGet (crResetRing k d) n).fifo.items = [] := by
  rw [(keepsRings_crResetRing k d).fifo n hu]
  by_cases hn : n = k
  · rw [hn, crGet_crSet_self]
    rfl
  · rw [crGet_crSet_other _ _ hn]
    exact h.resolve_left hn

/-- Completion rings that stop, one after another: each of them stands at its start, and holds nothing in its deep FIFO unless an entry
waits that is bound for it. -/
theorem crResetRings (l : List Nat) (d : Dev) :
    KeepsOwners d (l.foldl (fun d k => crResetRing k d) d)
    ∧ (∀ n, n ∈ l ∨ AtStart (crGet d n) → AtStart (crGet (l.foldl (fun d k => crResetRing k d) d) n))
    ∧ ∀ n, Untargeted d n → n ∈ l ∨ (crGet d n).fifo.items = [] →
        (crGet (l.foldl (fun d k => crResetRing k d) d) n).fifo.items = [] := by
  induction l generalizing d with
  | nil => exact ⟨.refl d, fun n h => by simpa using h, fun n _ h => by simpa using h⟩
  | cons k l ih =>
    obtain ⟨howners, hstart, hfifo⟩ := ih (crResetRing k d)
    have hk := keepsOwners_crResetRing k d
    refine ⟨hk.trans howners, fun n h => ?_, fun n hu h => ?_⟩
    · by_cases hn : n ∈ l
      · exact hstart n (.inl hn)
      · exact hstart n (.inr (atStart_crResetRing (h.imp_left fun hm => (List.mem_cons.mp hm).resolve_right hn)))
    · by_cases hn : n ∈ l
      · exact hfifo n (hu.keeps hk) (.inl hn)
      · exact hfifo n (hu.keeps hk) (.inr (fifo_crResetRing hu (h.imp_left fun hm => (List.mem_cons.mp hm).resolve_right hn)))

/-! ### Functions (R550) -/

/-- A function whose slots are free and whose configuration space is at its reset values. -/
def AtReset (x : Fn) : Prop :=
  x.slots = [] ∧ x.vfEnable = false ∧ x.busMaster = false ∧ x.ats = false ∧ x.pasid = false ∧ bit x.jxCtl 31 = false ∧ x.events = []

theorem atReset_fnClear {f g : FnId} {d : Dev} (h : fnKey f = fnKey g ∨ AtReset (fnGet d f)) : AtReset (fnGet (fnClear g d) f) := by
  by_cases hk : fnKey f = fnKey g
  · have hget : fnGet (fnClear g d) f = fnGet (fnClear g d) g := by simp [fnGet, hk]
    rw [hget, fnClear, fnGet_fnSet_self]
    exact ⟨rfl, rfl, rfl, rfl, rfl, bit_setBit_false _ _, rfl⟩
  · have hget : fnGet (fnClear g d) f = fnGet d f := tget_tset_other _ _ _ _ hk
    rw [hget]
    exact h.resolve_left hk

theorem fnClears (l : List FnId) (d : Dev) :
    SameRings d (l.foldl (fun d f => fnClear f d) d)
    ∧ ∀ f, f ∈ l ∨ AtReset (fnGet d f) → AtReset (fnGet (l.foldl (fun d f => fnClear f d) d) f) := by
  induction l generalizing d with
  | nil => exact ⟨.refl d, fun f h => by simpa using h⟩
  | cons g l ih =>
    obtain ⟨hrings, hreset⟩ := ih (fnClear g d)
    refine ⟨(sameRings_fnSet _ _ _).trans hrings, fun f h => ?_⟩
    by_cases hf : f ∈ l
    · exact hreset f (.inl hf)
    · refine hreset f (.inr (atReset_fnClear (h.imp_left fun hm => ?_)))
      rw [(List.mem_cons.mp hm).resolve_right hf]

end Sys2Proof.Machine
end

section
/-!
THEOREM. O51 (ResetClears): what the reset clears leave (R131), then the rings, the functions and what else belongs to them, in the order of
`resetFns`.
-/
namespace Sys2Proof.Machine

open Sys2Proof

/-! ### The reset clears of one reset (R130, R131) -/

/-- Is the owner one of the functions? -/
def ofThese (fs : List FnId) (o : Option FnId) : Bool := match o with | some f => fs.contains f | none => false

theorem ofThese_some {fs : List FnId} {f : FnId} (hf : f ∈ fs) : ofThese fs (some f) = true := by simpa [ofThese] using hf

theorem subOwner_subReset (n : Nat) : subOwner (subReset n) = none := rfl

/-- A subchannel with an owner is in the table. -/
theorem mem_subs_of_subOwner {d : Dev} {k : Nat} {f : FnId} (h : subOwner (subGet d k) = some f) : (k, subGet d k) ∈ d.subs := by
  refine mem_of_tget_ne fun hreset => ?_
  have hnone : subOwner (subGet d k) = none := by rw [subGet, hreset, subOwner_subReset]
  rw [hnone] at h
  exact absurd h (by simp)

theorem resetClear_list (begun : List Nat) (l : List (Nat × Sub)) (d : Dev) :
    (∀ k, subOwner (subGet (l.foldl (fun d e => resetClear begun e.1 d) d) k) = subOwner (subGet d k))
    ∧ ∀ e ∈ (l.foldl (fun d e => resetClear begun e.1 d) d).stalled, e ∈ d.stalled ∧ e.item.sub ∉ l.map (·.1) := by
  induction l generalizing d with
  | nil => exact ⟨fun _ => rfl, fun e he => ⟨he, by simp⟩⟩
  | cons x l ih =>
    obtain ⟨howner, hwaits⟩ := ih (resetClear begun x.1 d)
    refine ⟨fun k => (howner k).trans (subOwner_resetClear begun k), fun e he => ?_⟩
    obtain ⟨hmem, hrest⟩ := hwaits e he
    rw [resetClear_stalled, List.mem_filter] at hmem
    obtain ⟨hd, hx⟩ := hmem
    exact ⟨hd, by simpa using ⟨by simpa using hx, by simpa using hrest⟩⟩

/-- The reset clears go by the owners in the table; the channels follow. -/
theorem resetClears_eq (fs : List FnId) (begun : List Nat) (d : Dev) :
    resetClears fs begun d = fs.foldl (fun d f => chFnReset f d)
      ((d.subs.filter (fun e => ofThese fs (subOwner e.2))).foldl (fun d e => resetClear begun e.1 d) d) := rfl

/-- No entry waits any more whose subchannel one of the functions owns. -/
theorem resetClears_waits (fs : List FnId) (begun : List Nat) (d : Dev) {e : Ent} (he : e ∈ (resetClears fs begun d).stalled)
    {f : FnId} (hf : f ∈ fs) : subOwner (subGet (resetClears fs begun d) e.item.sub) ≠ some f := by
  have hchans := fun d => SameSubs.foldl (fun d f => sameSubs_chFnReset f d) fs d
  obtain ⟨howner, hwaits⟩ := resetClear_list begun (d.subs.filter (fun e => ofThese fs (subOwner e.2))) d
  rw [resetClears_eq, (hchans _).2] at he
  rw [resetClears_eq, (hchans _).subGet, howner]
  intro hown
  obtain ⟨-, hnot⟩ := hwaits e he
  refine hnot (List.mem_map.mpr ⟨_, List.mem_filter.mpr ⟨mem_subs_of_subOwner hown, ?_⟩, rfl⟩)
  exact (congrArg (ofThese fs) hown).trans (ofThese_some hf)

/-! ### The parts of a reset -/

/-- The device without the translations, the requests that wait and the expert modes of the functions (R413, R550). -/
def forgotten (fs : List FnId) (d : Dev) : Dev :=
  { d with
    xlate := d.xlate.filter (fun x => !(fs.any (fun f => fnKey f = x.1)))
    xasked := d.xasked.filter (fun x => !(fs.any (fun f => fnKey f = x.1)))
    outHeld := d.outHeld.filter (fun x => !(fs.contains x.1))
    xmodes := d.xmodes.filter (fun m => !(ofThese fs (originFn m.origin))) }

/-- The start rings of the functions stop. -/
def startRingsStopped (fs : List FnId) (d : Dev) : Dev :=
  (d.srings.filter (fun e => ofThese fs (ownOf e.2.own))).foldl (fun d e => srResetRing e.1 d) d

/-- The completion rings of the functions stop. -/
def complRingsStopped (fs : List FnId) (d : Dev) : Dev :=
  (d.crings.filter (fun e => ofThese fs (ownOf e.2.own))).foldl (fun d e => crResetRing e.1 d) d

theorem logged_auditExportOff (fs : List FnId) (d : Dev) : Logged d (auditExportOff fs d) := by
  unfold auditExportOff
  split
  · exact (logged_regSetFld _ _ _ _ _ _).trans (sameButLog_auditPut _ _ _ _ _ _ _ _).logged
  · exact .refl d

/-- A reset is these parts in this order, and the audit records of what it closes. -/
theorem logged_resetFns (fs : List FnId) (begun : List Nat) (d : Dev) :
    Logged (forgotten fs (fs.foldl (fun d f => fnClear f d) (complRingsStopped fs (startRingsStopped fs (resetClears fs begun
      { d with dsWait := d.dsWait.filter (fun t => !((d.dsWait.filter (fun t => fs.contains t.fn)).contains t)) })))))
      (resetFns fs begun d) :=
  (sameButLog_xClose (fun m => ofThese fs (originFn m.origin)) _).logged.trans (logged_auditExportOff fs _)

/-- A start ring with an owner is in the table. -/
theorem mem_srings_of_owner {fs : List FnId} {d : Dev} {n : Nat} {f : FnId} (hf : f ∈ fs) (h : ownOf (srGet d n).own = some f) :
    n ∈ (d.srings.filter (fun e => ofThese fs (ownOf e.2.own))).map (·.1) := by
  have hmem : (n, srGet d n) ∈ d.srings := mem_of_tget_ne fun hreset => by
    have hnone : ownOf (srGet d n).own = none := by rw [srGet, hreset]; rfl
    rw [hnone] at h
    exact absurd h (by simp)
  exact List.mem_map.mpr ⟨_, List.mem_filter.mpr ⟨hmem, (congrArg (ofThese fs) h).trans (ofThese_some hf)⟩, rfl⟩

/-- A completion ring with an owner is in the table. -/
theorem mem_crings_of_owner {fs : List FnId} {d : Dev} {n : Nat} {f : FnId} (hf : f ∈ fs) (h : ownOf (crGet d n).own = some f) :
    n ∈ (d.crings.filter (fun e => ofThese fs (ownOf e.2.own))).map (·.1) := by
  have hmem : (n, crGet d n) ∈ d.crings := mem_of_tget_ne fun hreset => by
    have hnone : ownOf (crGet d n).own = none := by rw [crGet, hreset]; rfl
    rw [hnone] at h
    exact absurd h (by simp)
  exact List.mem_map.mpr ⟨_, List.mem_filter.mpr ⟨hmem, (congrArg (ofThese fs) h).trans (ofThese_some hf)⟩, rfl⟩

/-- The device but for its start rings, as they stop. -/
theorem startRingsStopped_rest (fs : List FnId) (d : Dev) :
    SameSubs d (startRingsStopped fs d) ∧ (startRingsStopped fs d).crings = d.crings := by
  have rest (l : List (Nat × SRing)) (d : Dev) : SameSubs d (l.foldl (fun d e => srResetRing e.1 d) d)
      ∧ (l.foldl (fun d e => srResetRing e.1 d) d).crings = d.crings := by
    induction l generalizing d with
    | nil => exact ⟨.refl d, rfl⟩
    | cons e l ih =>
      have hlog := logged_srResetRing e.1 d
      obtain ⟨hsubs, hcr⟩ := ih (srResetRing e.1 d)
      exact ⟨(show SameSubs d (srSet e.1 (sringStopped (srGet d e.1)) d) from ⟨rfl, rfl⟩).trans (hlog.sameSubs.trans hsubs),
        hcr.trans (hlog.keeps (·.crings) (fun _ _ _ _ _ _ _ _ _ _ _ _ => rfl))⟩
  exact rest _ d

/-- What the functions of a reset own and hold, once it is over. -/
theorem resetFns_leaves (fs : List FnId) (begun : List Nat) (d : Dev) :
    let t := resetFns fs begun d
    let d1 := resetClears fs begun
      { d with dsWait := d.dsWait.filter (fun t => !((d.dsWait.filter (fun t => fs.contains t.fn)).contains t)) }
    (∀ f ∈ fs, AtReset (fnGet t f))
    ∧ (∀ n f, f ∈ fs → ownOf (srGet d1 n).own = some f → SrAtStart (srGet t n) ∧ (srGet t n).own = (srGet d1 n).own)
    ∧ (∀ n f, f ∈ fs → ownOf (crGet d1 n).own = some f → AtStart (crGet t n) ∧ (crGet t n).own = (crGet d1 n).own
      ∧ ((∀ e ∈ d1.stalled, e.ring ≠ n) → (crGet t n).fifo.items = [] ∧ ∀ e ∈ t.stalled, e.ring ≠ n)) := by
  intro t d1
  have hlog := logged_resetFns fs begun d
  obtain ⟨hsubs, hcrings⟩ := startRingsStopped_rest fs d1
  have hcr (n : Nat) : crGet (startRingsStopped fs d1) n = crGet d1 n := by simp [crGet, hcrings]
  obtain ⟨hclearedRings, hfns⟩ := fnClears fs (complRingsStopped fs (startRingsStopped fs d1))
  have hrings : SameRings (complRingsStopped fs (startRingsStopped fs d1)) t :=
    (hclearedRings.trans (show SameRings _ (forgotten fs _) from .of_eq rfl rfl rfl rfl)).trans hlog.sameRings
  obtain ⟨hstops, hstart, hfifo⟩ := crResetRings
    (((startRingsStopped fs d1).crings.filter (fun e => ofThese fs (ownOf e.2.own))).map (·.1)) (startRingsStopped fs d1)
  rw [List.foldl_map] at hstops hstart hfifo
  have howners : KeepsOwners (startRingsStopped fs d1) t := KeepsOwners.trans hstops hrings.keepsOwners
  refine ⟨fun f hf => ?_, fun n f hf hown => ?_, fun n f hf hown => ⟨?_, ?_, fun hring => ?_⟩⟩
  · have hfn : t.fns = _ := hlog.keeps (·.fns) (fun _ _ _ _ _ _ _ _ _ _ _ _ => rfl)
    have hget := hfns f (.inl hf)
    rw [fnGet] at hget ⊢
    rw [hfn]
    exact hget
  · obtain ⟨hkeeps, hstopped⟩ := srResetRings ((d1.srings.filter (fun e => ofThese fs (ownOf e.2.own))).map (·.1)) d1 n
    rw [List.foldl_map] at hkeeps hstopped
    have hsr : srGet t n = srGet (startRingsStopped fs d1) n := by rw [srGet, howners.srings, srGet]
    rw [hsr]
    exact ⟨hstopped (.inl (mem_srings_of_owner hf hown)), hkeeps⟩
  · rw [hrings.crGet]
    exact hstart n (.inl (mem_crings_of_owner hf (by rw [hcr, hown])))
  · rw [howners.ringOwner, hcr]
  · have huntargeted : Untargeted (startRingsStopped fs d1) n := fun e he => by
      rw [hsubs.2] at he
      refine ⟨hring e he, fun g hg => ?_⟩
      have hgf : g = f := by
        rw [crOwner, hcr, hown] at hg
        exact (Option.some.inj hg).symm
      rw [hsubs.subGet, hgf]
      exact resetClears_waits fs begun _ he hf
    refine ⟨?_, fun e he => hring e (hsubs.2 ▸ howners.waits e he)⟩
    rw [hrings.crGet]
    exact hfifo n huntargeted (.inl (mem_crings_of_owner hf (by rw [hcr, hown])))

/-- Settles O51: what the functions own and hold part by part, what else belongs to them by the filters that take it away, and each
subchannel by its reset clear. -/
theorem resetClears_hold : Obligations.ResetClears := by
  intro fs begun d _
  refine ⟨?_, fun n hn => resetClear_leaves begun d hn⟩
  intro t gone d1
  obtain ⟨hfns, hstart, hcompl⟩ := resetFns_leaves fs begun d
  have hlog := logged_resetFns fs begun d
  have hx : t.xmodes = _ := hlog.keeps (·.xmodes) (fun _ _ _ _ _ _ _ _ _ _ _ _ => rfl)
  have hl : t.xlate = _ := hlog.keeps (·.xlate) (fun _ _ _ _ _ _ _ _ _ _ _ _ => rfl)
  have ha : t.xasked = _ := hlog.keeps (·.xasked) (fun _ _ _ _ _ _ _ _ _ _ _ _ => rfl)
  have ho : t.outHeld = _ := hlog.keeps (·.outHeld) (fun _ _ _ _ _ _ _ _ _ _ _ _ => rfl)
  refine ⟨hfns, fun m hm f hf horigin => ?modes, fun f hf => ⟨fun x hx hk => ?xlate, fun x hx hk => ?xasked, fun x hx hk => ?outHeld⟩,
    fun n f hf hown => ?start, fun n f hf hown => ?compl⟩
  case modes =>
    rw [hx] at hm
    have hnot := (List.mem_filter.mp hm).2
    rw [horigin, ofThese_some hf] at hnot
    exact absurd hnot (by simp)
  case xlate =>
    rw [hl] at hx
    have hnot := (List.mem_filter.mp hx).2
    simp only [Bool.not_eq_true', List.any_eq_false, decide_eq_true_eq] at hnot
    exact hnot f hf hk
  case xasked =>
    rw [ha] at hx
    have hnot := (List.mem_filter.mp hx).2
    simp only [Bool.not_eq_true', List.any_eq_false, decide_eq_true_eq] at hnot
    exact hnot f hf hk
  case outHeld =>
    rw [ho] at hx
    have hnot := (List.mem_filter.mp hx).2
    rw [hk] at hnot
    simp [hf] at hnot
  case start =>
    obtain ⟨⟨hdis, hcons, hphase⟩, hkept⟩ := hstart n f hf hown
    exact ⟨hdis, hcons, hphase, hkept⟩
  case compl =>
    obtain ⟨⟨hdis, hprod, hcons, hphase⟩, hkept, hempty⟩ := hcompl n f hf hown
    exact ⟨hdis, hprod, hcons, hphase, hkept, hempty⟩

end Sys2Proof.Machine
end

section
/-!
SUPPORT. How a function is taken in (R140, R148, R163): its number and what shows it, and that the start rings go on holding the entries
they have read ahead.
-/
namespace Sys2Proof.Machine

open Sys2Proof

/-- A meaning of the ring logic, the engine or a handler while no Fatal fault stands (R436). -/
theorem run_live {s : State} (g : Dev → Dev) (h : Engine s) : run s (live g) = .next (after s (g s.dev)) := by
  obtain ⟨hrun, hfatal⟩ := h
  rw [run_running _ _ hrun, live, if_neg (by simp [hfatal])]

/-! ### The parts of a take-in -/

/-- The next sequence number is taken, and the trace shows it (R450, R506). -/
def announced (f : FnId) (e : BitVec 512) (d : Dev) : Dev :=
  dbEvent 1 (traceEvent 0 (some (f.port * 256 + f.fn)) d.jnHead (seSub e) (jtake d).2)

/-- The device as a function takes its number: JSEQ_LAST of its issuer and LAST_FN of its subchannel show it too (R148, R163, R166). -/
def numbered (f : FnId) (e : BitVec 512) (d : Dev) : Dev :=
  let t := announced f e d
  let u := fnSet f { fnGet t f with jseqLast := BitVec.ofNat 64 d.jnHead } t
  if seSub e < 0x40000 then subSet (seSub e) { subGet u (seSub e) with swLastFn := seFcode e } u else u

/-- The device where a function names a ring its issuer does not own (R140). -/
def misnamed (f : FnId) (srcIx : Nat) (ds : Bool) (d : Dev) : Dev :=
  if ds then regSetFld .dswStat f.port 31 31 1 d else ringError srcIx (srSet srcIx { srGet d srcIx with crverr := true } d)

theorem takeIn_eq (f : FnId) (e : BitVec 512) (j : Nat) (ds : Bool) (d : Dev) :
    takeIn f e j ds d =
      let b := if (namedRing d f e).2 then misnamed f j ds d else d
      let t : TakeIn := ⟨b.jnHead, f, e, j, ds, (namedRing d f e).1⟩
      if seFcode e = 0 ∨ 8 < seFcode e then fnRefuse t 4 (numbered f e b)
      else { numbered f e b with waiting := (numbered f e b).waiting ++ [t] } := rfl

/-- A function with a code of R95 that names no ring, or one of its issuer's, waits under the next number. -/
theorem takeIn_waits {f : FnId} {e : BitVec 512} {d : Dev} (hlo : 1 ≤ seFcode e) (hhi : seFcode e ≤ 8) (hname : (namedRing d f e).2 = false)
    (j : Nat) (ds : Bool) : takeIn f e j ds d =
      { numbered f e d with waiting := (numbered f e d).waiting ++ [⟨d.jnHead, f, e, j, ds, (namedRing d f e).1⟩] } := by
  rw [takeIn_eq, hname]
  exact if_neg (by omega)

/-! ### What taking a number changes -/

theorem SameButLog.jnHead {d e : Dev} (h : SameButLog d e) : e.jnHead = d.jnHead := by
  obtain ⟨⟨_, _, _, _, _, _, _, rfl⟩, -⟩ := h
  rfl

@[simp] theorem pageEvent_jnHead (p b : Nat) (d : Dev) : (pageEvent p b d).jnHead = d.jnHead := (sameButLog_srcLevel _ _ _).jnHead

@[simp] theorem noteHwm_jnHead (n count : Nat) (d : Dev) : (noteHwm n count d).jnHead = d.jnHead := by
  unfold noteHwm
  split <;> rfl

@[simp] theorem dbEvent_jnHead (code : Nat) (d : Dev) : (dbEvent code d).jnHead = d.jnHead := by
  obtain ⟨r, h⟩ := dbEvents_frame code 1 d
  rw [dbEvent, h]

@[simp] theorem traceEvent_jnHead (kind : Nat) (agent : Option Nat) (x y : Nat) (d : Dev) : (traceEvent kind agent x y d).jnHead = d.jnHead := by
  unfold traceEvent feedIn
  dsimp only
  cases agent with
  | none => split_ifs <;> simp
  | some a => split_ifs <;> simp

@[simp] theorem jtake_jnHead (d : Dev) : (jtake d).2.jnHead = d.jnHead + 1 := by
  unfold jtake
  dsimp only
  split <;> simp

theorem logged_jtake (d : Dev) : Logged d (jtake d).2 := by
  have headed : Logged d { d with jnHead := d.jnHead + 1 } := ⟨⟨_, _, _, _, _, _, _, _, _, _, _, rfl⟩, fun _ => rfl⟩
  unfold jtake
  dsimp only
  split
  · exact headed.trans (logged_pageEvent _ _ _)
  · exact headed

theorem announced_waiting (f : FnId) (e : BitVec 512) (d : Dev) : (announced f e d).waiting = d.waiting := by
  obtain ⟨l, h, c, ht⟩ := traceEvent_frame 0 (some (f.port * 256 + f.fn)) d.jnHead (seSub e) (jtake d).2
  obtain ⟨r, hr⟩ := dbEvents_frame 1 1 (traceEvent 0 (some (f.port * 256 + f.fn)) d.jnHead (seSub e) (jtake d).2)
  rw [announced, dbEvent, hr]
  exact (ht.keeps (·.waiting) fun _ _ _ _ _ _ _ _ _ _ _ _ => rfl).trans
    ((logged_jtake d).keeps (·.waiting) fun _ _ _ _ _ _ _ _ _ _ _ _ => rfl)

theorem announced_jnHead (f : FnId) (e : BitVec 512) (d : Dev) : (announced f e d).jnHead = d.jnHead + 1 := by
  simp [announced]

theorem sameRings_announced (f : FnId) (e : BitVec 512) (d : Dev) : SameRings d (announced f e d) :=
  ((logged_jtake d).sameRings.trans (sameRings_traceEvent _ _ _ _ _)).trans (sameRings_dbEvent _ _)

theorem numbered_frame (f : FnId) (e : BitVec 512) (d : Dev) : ∃ u, numbered f e d =
    { fnSet f { fnGet (announced f e d) f with jseqLast := BitVec.ofNat 64 d.jnHead } (announced f e d) with subs := u } := by
  unfold numbered
  dsimp only
  split
  · exact subSet_frame _ _ _
  · exact ⟨_, rfl⟩

@[simp] theorem numbered_waiting (f : FnId) (e : BitVec 512) (d : Dev) : (numbered f e d).waiting = d.waiting := by
  obtain ⟨u, h⟩ := numbered_frame f e d
  rw [h]
  exact announced_waiting f e d

@[simp] theorem numbered_jnHead (f : FnId) (e : BitVec 512) (d : Dev) : (numbered f e d).jnHead = d.jnHead + 1 := by
  obtain ⟨u, h⟩ := numbered_frame f e d
  rw [h]
  exact announced_jnHead f e d

@[simp] theorem numbered_srings (f : FnId) (e : BitVec 512) (d : Dev) : (numbered f e d).srings = d.srings := by
  obtain ⟨u, h⟩ := numbered_frame f e d
  obtain ⟨hs, -⟩ := sameRings_announced f e d
  rw [h]
  exact hs

/-- JSEQ_LAST of the issuer is the number taken (R166). -/
theorem jseqLast_numbered (f : FnId) (e : BitVec 512) (d : Dev) : (fnGet (numbered f e d) f).jseqLast = BitVec.ofNat 64 d.jnHead := by
  obtain ⟨u, h⟩ := numbered_frame f e d
  rw [h]
  exact congrArg Fn.jseqLast (fnGet_fnSet_self f _ (announced f e d))

/-- LAST_FN of the subchannel's window entry is the function taken in (R163). -/
theorem swLastFn_numbered {e : BitVec 512} (f : FnId) (d : Dev) (he : seSub e < 0x40000) :
    (subGet (numbered f e d) (seSub e)).swLastFn = seFcode e := by
  unfold numbered
  dsimp only
  rw [if_pos he]
  obtain ⟨q, hq⟩ := subGet_subSet_self _ _ he
  rw [hq]

/-! ### The entries read ahead -/

theorem placeEnt_srings (e : Ent) (d : Dev) : (placeEnt e d).srings = d.srings :=
  (keepsRings_placeEnt (P := fun _ => False) fun _ h => h.elim).srings

theorem stallEnt_srings (e : Ent) (d : Dev) : (stallEnt e d).srings = d.srings := by
  unfold stallEnt
  dsimp only
  split
  · obtain ⟨t, ht⟩ := subSet_frame e.item.sub
      { subGet { d with stalled := d.stalled ++ [e] } e.item.sub with swStl := true } { d with stalled := d.stalled ++ [e] }
    rw [ht]
  · rfl

theorem postEnt_srings (e : Ent) (d : Dev) : (postEnt e d).srings = d.srings := by
  unfold postEnt
  split
  · exact stallEnt_srings e d
  · exact placeEnt_srings e d

theorem fnFree_srings (t : TakeIn) (d : Dev) : (fnFree t d).srings = d.srings := by
  unfold fnFree
  dsimp only
  split <;> rfl

/-- A refused function leaves the start rings (R96). -/
theorem fnRefuse_srings (t : TakeIn) (resp : Nat) (d : Dev) : (fnRefuse t resp d).srings = d.srings := by
  have freed : (fnFree t (fnRecord 2 resp t d)).srings = d.srings :=
    (fnFree_srings _ _).trans (logged_jenter _ d).sameRings.1
  unfold fnRefuse
  dsimp only
  split
  · exact freed
  · exact (postEnt_srings _ _).trans freed

theorem srGet_congr {d e : Dev} (h : e.srings = d.srings) (n : Nat) : srGet e n = srGet d n := by rw [srGet, h, srGet]

theorem pref_misnamed (f : FnId) (j : Nat) (ds : Bool) (d : Dev) (n : Nat) : (srGet (misnamed f j ds d) n).pref = (srGet d n).pref := by
  unfold misnamed
  split
  · rfl
  · refine (congrArg SRing.pref (srGet_congr (logged_pageEvent _ _ _).sameRings.1 n)).trans ?_
    by_cases hn : n = j
    · subst hn
      rw [srGet_srSet_self]
    · rw [srGet_srSet_other _ _ hn]

/-- A take-in leaves the entries that the start rings have read ahead. -/
theorem pref_takeIn (f : FnId) (e : BitVec 512) (j : Nat) (ds : Bool) (d : Dev) (n : Nat) :
    (srGet (takeIn f e j ds d) n).pref = (srGet d n).pref := by
  have named : (srGet (if (namedRing d f e).2 then misnamed f j ds d else d) n).pref = (srGet d n).pref := by
    split
    · exact pref_misnamed f j ds d n
    · rfl
  rw [← named, takeIn_eq]
  dsimp only
  split
  · exact congrArg SRing.pref (srGet_congr ((fnRefuse_srings _ _ _).trans (numbered_srings _ _ _)) n)
  · exact congrArg SRing.pref (srGet_congr (numbered_srings _ _ _) n)

end Sys2Proof.Machine
end

section
/-!
THEOREM. Start rings: polls, the reads of an entry, its take-in, errors and the shadow (O22).
-/
namespace Sys2Proof.Machine

open Sys2Proof

theorem ringSize_pos (ctl : Word) : 0 < ringSize ctl := Nat.two_pow_pos _

theorem expectPhase_next (r : SRing) : expectPhase r 0 = r.phase := if_pos (Nat.mod_lt _ (ringSize_pos _))

theorem srSet_srSet (n : Nat) (x y : SRing) (d : Dev) : srSet n y (srSet n x d) = srSet n y d := by simp [srSet]

/-- A start ring behind its next entry (R141, R147). -/
def SRing.passed (r : SRing) (rest : List (List Byte)) : SRing :=
  { r with pref := rest, cons := r.cons + 1, stale := 0, dirty := r.dirty || decide (r.shadow ≠ 0)
           phase := if (r.cons + 1).toNat % ringSize r.ctl = 0 then !r.phase else r.phase }

section
variable {d : Dev} {n : Nat} {f : FnId}

theorem takeAhead_nothing (k : Nat) (hpref : (srGet d n).pref = []) : takeAhead n k d = d := by
  cases k with
  | zero => rfl
  | succ k => simp only [takeAhead, hpref]

/-- The one entry read ahead is taken in. -/
theorem takeAhead_single {x : SRing} {b : List Byte} (k : Nat) (hown : ownOf x.own = some f) (hpref : x.pref = [b])
    (htake : takeAllowed d (BitVec.ofNat 512 (leNat b)) = true) :
    takeAhead n (k + 1) (srSet n x d) = takeIn f (BitVec.ofNat 512 (leNat b)) n false (srSet n (x.passed []) d) := by
  simp only [takeAhead, srGet_srSet_self, hpref, hown, srSet_srSet]
  refine (if_pos htake).trans (takeAhead_nothing k ?_)
  exact (pref_takeIn _ _ _ _ _ _).trans (congrArg SRing.pref (srGet_srSet_self _ _ _))

/-- The next entry of a ring is read by its owner (R142, R143). -/
theorem issueHead_next (hown : ownOf (srGet d n).own = some f) (hpoll : ringPolled d (srGet d n) = true) (hrd : (srGet d n).rd = .idle)
    (hpref : (srGet d n).pref = []) : issueHead n d =
      if regFld d .upStat (ringPort d (srGet d n).port) 18 18 = 1
      then hostOut (.kept (srGet d n).port) f (.read (startAddr (srGet d n) 0) 64) (srSet n { srGet d n with rd := .line } d)
      else hostOut (.kept (srGet d n).port) f (.read (startAddr (srGet d n) 0) 16) (srSet n { srGet d n with rd := .head } d) := by
  unfold issueHead
  simp only [hown, hpref]
  rw [if_pos ⟨hpoll, hrd, by decide⟩]
  by_cases hcxl : regFld d .upStat (ringPort d (srGet d n).port) 18 18 = 1
  · simp [hcxl]
  · simp [hcxl]

/-- A ring whose entry is all there takes it in where take-in allows it (R144, R157). -/
theorem ringGot_takes {b : List Byte} (hown : ownOf (srGet d n).own = some f) (hpref : (srGet d n).pref = []) (hb : b.length = 64)
    (htake : takeAllowed d (BitVec.ofNat 512 (leNat b)) = true) : ringGot n b d =
      takeIn f (BitVec.ofNat 512 (leNat b)) n false (srSet n (SRing.passed { srGet d n with rd := .idle } []) d) := by
  have hread : ringGot n b d = takeAhead n 8 (srSet n { srGet d n with rd := .idle, pref := [b] } d) := by
    unfold ringGot
    dsimp only
    rw [hpref, List.nil_append, fitBytes_of_length hb]
  rw [hread]
  exact takeAhead_single 7 hown rfl htake

/-- A read that fails sets RDERR and clears EN (R172). -/
theorem ringReadDone_err (e : BusErr) (hrd : (srGet d n).rd ≠ .idle) : ringReadDone n (.err e) d = ringReadError n d := by
  unfold ringReadDone
  dsimp only
  split <;> simp_all

theorem ringReadDone_head {b : List Byte} (hown : ownOf (srGet d n).own = some f) (hrd : (srGet d n).rd = .head) (hpref : (srGet d n).pref = [])
    (hb : b.length = 16) : ringReadDone n (.ok b) d =
      if bit (BitVec.ofNat 128 (leNat b)) 7 = (srGet d n).phase
      then hostOut (.kept (srGet d n).port) f (.read (startAddr (srGet d n) 0 + 16) 48) (srSet n { srGet d n with rd := .body b } d)
      else ringStale n d := by
  unfold ringReadDone
  simp only [hrd, hpref, hown, fitBytes_of_length hb, List.length_nil, expectPhase_next]

theorem ringReadDone_body {h b : List Byte} (hrd : (srGet d n).rd = .body h) (hb : b.length = 48) :
    ringReadDone n (.ok b) d = ringGot n (h ++ b) d := by
  unfold ringReadDone
  simp only [hrd, fitBytes_of_length hb]

theorem ringReadDone_line {b : List Byte} (hrd : (srGet d n).rd = .line) (hpref : (srGet d n).pref = []) (hb : b.length = 64)
    (hph : bit (BitVec.ofNat 512 (leNat b)) 7 = (srGet d n).phase) : ringReadDone n (.ok b) d = ringGot n b d := by
  unfold ringReadDone
  simp only [hrd, hpref, fitBytes_of_length hb, List.length_nil, expectPhase_next]
  exact if_pos hph

end

/-- Settles O22. -/
theorem startRings : Obligations.StartRings := by
  intro s n f hE hown d r here
  have hfatal : d.fatal = false := hE.2
  have complete (res : HostRead) : exec (.startRingReadComplete n res) s = .next (after s (ringReadDone n res d)) := run_live _ hE
  refine ⟨fun hready hen hd3 hpaused hrd hpref => ?_, fun e hrd => ?_, fun b hb hrd hpref => ⟨fun hph => ?_, fun hph => ?_⟩,
    fun h b hlen hpref hst htake => ?_, fun hdirty hshadow hd3 => ?_⟩
  · have hpoll : ringPolled d r = true := by simp [ringPolled, hen, hready, hfatal, hpaused, r, hown, d, hd3]
    have poll : exec (.startRingPoll n) s = .next (after s (issueHead n d)) := by
      refine (run_running _ _ hE.1).trans (next_after_congr s ?_)
      show (if isReady d && !d.fatal then issueHead n (if d.paused then d else takeAhead n 8 d) else d) = issueHead n d
      simp [hready, hfatal, hpaused, takeAhead_nothing 8 hpref]
    have invalidate : exec (.cxlLineInvalidate n) s
        = .next (after s (if regFld d .upStat (ringPort d r.port) 18 18 = 1 then issueHead n d else d)) := by
      refine (run_live _ hE).trans ?_
      simp only [hown]
      rfl
    have issued := issueHead_next hown hpoll hrd hpref
    refine ⟨fun hcxl => ⟨?_, ?_⟩, fun hcxl => ⟨?_, ?_⟩⟩
    · rw [poll, issued]
      exact next_after_congr s (if_neg (by rw [hcxl]; decide))
    · rw [invalidate]
      exact next_after_congr s (if_neg (by rw [hcxl]; decide))
    · rw [poll, issued]
      exact next_after_congr s (if_pos hcxl)
    · rw [invalidate, poll]
      exact next_after_congr s (if_pos hcxl)
  · rw [complete, ringReadDone_err e hrd]
    rfl
  · rw [complete, ringReadDone_head hown hrd hpref hb]
    exact next_after_congr s (if_pos hph)
  · rw [complete, ringReadDone_head hown hrd hpref hb]
    refine next_after_congr s ((if_neg (by rw [hph]; simp [r, d])).trans ?_)
    simp [ringStale, hpref, r, d]
  · have hgot : ringReadDone n (.ok b) d = ringGot n (h ++ b) d := by
      rcases hst with ⟨hbody, hh⟩ | ⟨hline, rfl, hph⟩
      · exact ringReadDone_body hbody (by omega)
      · exact ringReadDone_line hline hpref (by simpa using hlen) hph
    rw [complete, hgot, ringGot_takes hown hpref (by simpa using hlen) htake]
    rfl
  · refine (run_live _ hE).trans (next_after_congr s ?_)
    simp only [hown]
    exact if_pos (by rw [show (srGet s.dev n).dirty = true from hdirty, hd3]; simpa using hshadow)

end Sys2Proof.Machine
end

section
/-!
THEOREM. Direct starts, the status window, the CXL.mem range, take-in and its resumption (O23).
-/
namespace Sys2Proof.Machine

open Sys2Proof

/-! ### Direct-start writes (R159, R161) -/

section
variable {f : FnId} {off : Nat} {one : Bool} {b : List Byte} {d : Dev}

/-- Anything but one 64-byte write of a whole slot is malformed (R161). -/
theorem directStart_malformed (h : ¬ (one = true ∧ b.length = 64 ∧ off % 64 = 0 ∧ off < 0x4000)) : directStart f off one b d =
    pageEvent (0x10 + f.port) 1 (fnSet f { fnGet d f with dsMalf := satCount (fnGet d f).dsMalf } d) := by
  refine if_pos ?_
  rw [Bool.not_eq_true', Bool.eq_false_iff]
  simpa [and_assoc] using h

section
variable (hone : one = true) (hlen : b.length = 64) (hal : off % 64 = 0) (hin : off < 0x4000) (hready : isReady d = true)
include hone hlen hal hin hready

/-- One that is well-formed finds its slot occupied or free. -/
theorem directStart_ready : directStart f off one b d =
    if (fnGet d f).slots.any (fun p => p.1 = off / 64) then
      jput { jblank 0x06 f with tag := seTag (BitVec.ofNat 512 (leNat b)), ring := off / 64, ds := true }
        (pageEvent (0x10 + f.port) 0 (fnSet f { fnGet d f with dsDrop := satCount (fnGet d f).dsDrop } d))
    else if d.fatal then d
    else if takeAllowed d (BitVec.ofNat 512 (leNat b)) && !d.paused then
      takeIn f (BitVec.ofNat 512 (leNat b)) (off / 64) true
        (fnSet f { fnGet d f with slots := (fnGet d f).slots ++ [(off / 64, d.jnHead)] } d)
    else { fnSet f { fnGet d f with slots := (fnGet d f).slots ++ [(off / 64, 0)] } d with
      dsWait := d.dsWait ++ [⟨0, f, BitVec.ofNat 512 (leNat b), off / 64, true, none⟩]
      paused := d.paused || decide (65536 ≤ d.waiting.length) } :=
  (if_neg (by simp [hone, hlen, hal, hin])).trans (if_neg (by simp [hready]))

/-- On an occupied slot it is dropped and journaled (R159). -/
theorem directStart_occupied (hslot : (fnGet d f).slots.any (fun p => p.1 = off / 64) = true) : directStart f off one b d =
    jput { jblank 0x06 f with tag := seTag (BitVec.ofNat 512 (leNat b)), ring := off / 64, ds := true }
      (pageEvent (0x10 + f.port) 0 (fnSet f { fnGet d f with dsDrop := satCount (fnGet d f).dsDrop } d)) :=
  (directStart_ready hone hlen hal hin hready).trans (if_pos hslot)

/-- Else it occupies the slot and is taken in (R159, R160). -/
theorem directStart_taken (hslot : (fnGet d f).slots.any (fun p => p.1 = off / 64) = false) (hfatal : d.fatal = false)
    (htake : takeAllowed d (BitVec.ofNat 512 (leNat b)) = true) (hpaused : d.paused = false) : directStart f off one b d =
    takeIn f (BitVec.ofNat 512 (leNat b)) (off / 64) true
      (fnSet f { fnGet d f with slots := (fnGet d f).slots ++ [(off / 64, d.jnHead)] } d) := by
  rw [directStart_ready hone hlen hal hin hready, hslot, hfatal, htake, hpaused]
  rfl

end

end

/-! ### The ranges a write comes through (R137, R518) -/

section
variable {s : State} (hs : Running s)
include hs

theorem exec_directStartWrite_bar2 (f : FnId) {off : Nat} (one : Bool) (b : List Byte) (hoff : off < hdmBase) :
    exec (.directStartWrite f off one b) s = .next (after s (directStart f off one b s.dev)) := by
  refine (run_running _ _ hs).trans (next_after_congr s ?_)
  rw [if_pos hoff]

theorem exec_directStartWrite_hdm (f : FnId) (off : Nat) (one : Bool) (b : List Byte) :
    exec (.directStartWrite f (hdmBase + off) one b) s = .next (after s (hdmWrite f.port off one b s.dev)) := by
  refine (run_running _ _ hs).trans (next_after_congr s ?_)
  rw [if_neg (by omega), Nat.add_sub_cancel_left]

theorem exec_statusWindowWrite (f : FnId) : exec (.statusWindowWrite f) s = .next (after s (winError f s.dev)) := run_running _ _ hs

theorem exec_crDoorbell (f : FnId) (n size : Nat) (v : Word) :
    exec (.crDoorbell f n size v) s = .next (after s (live (doorbell f n size v) s.dev)) := run_running _ _ hs

end

/-- A write of the CXL.mem range beyond the functions counts for the PF (R518). -/
theorem hdmWrite_beyond {port off : Nat} (one : Bool) (b : List Byte) (d : Dev) (h : 64 < off / 0x400000) :
    hdmWrite port off one b d = winError ⟨port, 0⟩ d := by
  simp only [hdmWrite, hdmMap, if_neg (Nat.not_le.mpr h)]

/-- One below meets the layout of its function's BAR 2 (R518). -/
theorem hdmWrite_function {port off : Nat} (one : Bool) (b : List Byte) (d : Dev) (h : off / 0x400000 ≤ 64) :
    hdmWrite port off one b d =
      if off % 0x400000 < 0x4000 then directStart ⟨port, off / 0x400000⟩ (off % 0x400000) one b d
      else if off % 0x400000 < 0x8000 then
        live (doorbell ⟨port, off / 0x400000⟩ ((off % 0x400000 - 0x4000) / 4) b.length (BitVec.ofNat 32 (leNat b))) d
      else winError ⟨port, off / 0x400000⟩ d := by
  simp only [hdmWrite, hdmMap, if_pos h]

/-! ### Take-in goes on (R148) -/

theorem takeDirect_single {u : TakeIn} {d : Dev} (htake : takeAllowed d u.entry = true) : takeDirect [u] d =
    takeIn u.fn u.entry u.srcIx true (fnSet u.fn { fnGet d u.fn with
      slots := (fnGet d u.fn).slots.map (fun p => if p.1 = u.srcIx then (p.1, d.jnHead) else p) } d) := by
  simp only [takeDirect]
  exact if_pos htake

theorem foldl_takeAhead_nothing {d : Dev} (h : ∀ n, (srGet d n).pref = []) (l : Tbl SRing) :
    l.foldl (fun d e => takeAhead e.1 8 d) d = d :=
  List.foldl_fixed' (fun e => takeAhead_nothing 8 (h e.1)) l

/-- Settles O23. -/
theorem takingIn : Obligations.TakingIn := by
  intro s f hs d x
  refine ⟨?_, ?_, exec_statusWindowWrite hs f, ?_, ?_⟩
  · intro off one b hoff e
    refine ⟨fun hbad => ?_, fun hone hlen hal hin hready => ⟨fun hslot => ?_, fun hslot hfatal htake hpaused => ?_⟩⟩
    · rw [exec_directStartWrite_bar2 hs f one b hoff, directStart_malformed hbad]
      rfl
    · rw [exec_directStartWrite_bar2 hs f one b hoff, directStart_occupied hone hlen hal hin hready hslot]
      rfl
    · rw [exec_directStartWrite_bar2 hs f one b hoff, directStart_taken hone hlen hal hin hready hslot hfatal htake hpaused]
  · intro off one b g o through
    have hthrough : through = .next (after s (hdmWrite f.port off one b d)) := exec_directStartWrite_hdm hs f off one b
    refine ⟨fun hfar => ?_, fun hnear => ?_⟩
    · rw [hthrough, exec_statusWindowWrite hs, hdmWrite_beyond one b _ hfar]
    · rw [hthrough, hdmWrite_function one b _ hnear, exec_statusWindowWrite hs, exec_crDoorbell hs]
      refine ⟨fun ho => ?_, fun hlo hhi => ?_, fun ho => ?_⟩
      · rw [exec_directStartWrite_bar2 hs g one b (Nat.lt_trans ho (by decide))]
        exact next_after_congr s (if_pos ho)
      · exact next_after_congr s ((if_neg (Nat.not_lt.mpr hlo)).trans (if_pos hhi))
      · exact next_after_congr s ((if_neg (Nat.not_lt.mpr (Nat.le_trans (by decide) ho))).trans (if_neg (Nat.not_lt.mpr ho)))
  · intro e j ds hlo hhi hsub hname t
    have ht : t = _ := takeIn_waits hlo hhi hname j ds
    rw [ht]
    exact ⟨congrArg (· ++ _) (numbered_waiting f e d), numbered_jnHead f e d, jseqLast_numbered f e d, swLastFn_numbered f d hsub⟩
  · intro u hfatal hwait hds htake hpref y
    have resumed : exec .takeInResume s = .next (after s (
        let e := takeDirect d.dsWait { d with paused := false, dsWait := [] }
        e.srings.foldl (fun d e => takeAhead e.1 8 d) e)) := by
      refine (run_live _ ⟨hs, hfatal⟩).trans (next_after_congr s ?_)
      exact if_pos hwait
    have taken := takeDirect_single (d := { d with paused := false, dsWait := [] }) htake
    refine resumed.trans (next_after_congr s ?_)
    rw [hds]
    refine (foldl_takeAhead_nothing (fun n => ?_) _).trans taken
    exact (congrArg (fun e => (srGet e n).pref) taken).trans ((pref_takeIn _ _ _ _ _ _).trans (hpref n))

end Sys2Proof.Machine
end

section
/-!
SUPPORT. Requests of functions to host memory: when one leaves, waits, or asks for a translation (R170, R515).
-/
namespace Sys2Proof.Machine

open Sys2Proof

section
variable {d e : Dev} {v : Via} {f : FnId} {o : HostReq}

theorem fnGet_congr (h : e.fns = d.fns) (f : FnId) : fnGet e f = fnGet d f := by simp only [fnGet, h]

/-- The pages a function lacks depend on its ATS bit and the translations held. -/
theorem untranslated_congr (hats : (fnGet e f).ats = (fnGet d f).ats) (hx : e.xlate = d.xlate) (a : DWord) (n : Nat) :
    untranslated e f a n = untranslated d f a n := by
  simp only [untranslated, hats, hasXlate, hx]

theorem untranslated_atsOff (h : (fnGet d f).ats = false) (a : DWord) (n : Nat) : untranslated d f a n = [] := by
  simp [untranslated, h]

theorem outPages_atsOff (h : (fnGet d f).ats = false) (o : HostReq) : outPages d f o = [] := by
  cases o with
  | zero => rfl
  | read a n => exact untranslated_atsOff h a n
  | write a b => exact untranslated_atsOff h a b.length

/-- In D3hot a request waits (R170). -/
theorem hostOut_d3hot (h : (fnGet d f).d3hot = true) : hostOut v f o d = { d with outHeld := d.outHeld ++ [(f, v, o)] } := if_pos h

/-- With every translation it needs it leaves. -/
theorem hostOut_sends (h : (fnGet d f).d3hot = false) (hp : outPages d f o = []) : hostOut v f o d = sendHost v f o d := by
  simp [hostOut, h, hp]

/-- It waits for those it lacks, and asks for them (R515). -/
theorem hostOut_asks (h : (fnGet d f).d3hot = false) (hp : outPages d f o ≠ []) :
    hostOut v f o d = askXlate f (outPages d f o) { d with outHeld := d.outHeld ++ [(f, v, o)] } := by
  simp only [hostOut, h, Bool.false_eq_true, if_false]

theorem hostOut_write_sends {a : DWord} {b : List Byte} {n : Nat} (h : (fnGet d f).d3hot = false) (hb : b.length = n)
    (ht : untranslated d f a n = []) : hostOut v f (.write a b) d = sendHost v f (.write a b) d :=
  hostOut_sends h (by subst hb; exact ht)

theorem hostOut_write_asks {a : DWord} {b : List Byte} {n : Nat} (h : (fnGet d f).d3hot = false) (hb : b.length = n)
    (ht : untranslated d f a n ≠ []) : hostOut v f (.write a b) d =
      askXlate f (untranslated d f a n) { d with outHeld := d.outHeld ++ [(f, v, .write a b)] } := by
  subst hb
  exact hostOut_asks h ht

/-- A write that needs no translation leaves after a change of its function that keeps D3hot off and ATS. -/
theorem hostOut_write_fnSet {x : Fn} {a : DWord} {b : List Byte} (h : x.d3hot = false) (hats : x.ats = (fnGet d f).ats)
    (ht : untranslated d f a b.length = []) : hostOut v f (.write a b) (fnSet f x d) = sendHost v f (.write a b) (fnSet f x d) := by
  refine hostOut_sends (by rw [fnGet_fnSet_self]; exact h) ?_
  exact (untranslated_congr (e := fnSet f x d) (d := d) (by rw [fnGet_fnSet_self]; exact hats) rfl a b.length).trans ht

/-- One access waits exactly in D3hot or, where it succeeds, for a translation. -/
theorem hostWaits_one (h : (fnGet d f).d3hot = false) (a : DWord) (n : Nat) (k : Bool) :
    hostWaits d f [(a, n, k)] = (k && !(untranslated d f a n).isEmpty) := by
  simp [hostWaits, h]

theorem hostAsk_one (h : (fnGet d f).d3hot = false) (a : DWord) (n : Nat) :
    hostAsk f [(a, n, true)] d = askXlate f (untranslated d f a n) d := by
  simp [hostAsk, h]

end

end Sys2Proof.Machine
end

section
/-!
THEOREM. The exports of the audit log and the journal, and the writes of BAR 4 (first half of O48).
-/
namespace Sys2Proof.Machine

open Sys2Proof

/-! ### The audit export (R428) -/

section
variable {d : Dev}

/-- It stays where it is while it is off, its PF is in D3hot, the ring has no room, or no record is due. -/
theorem auditExport_waits (h : regFld d .auExpCtl 0 31 31 = 0 ∨ (fnGet d ⟨regFld d .auExpCtl 0 7 7, 0⟩).d3hot = true
      ∨ 2 ^ (regFld d .auExpCtl 0 27 24 + 12) ≤ ((regGet d .auExpProd 0).truncate 32 - (regGet d .auExpCons 0).truncate 32 : Word).toNat
      ∨ d.auHead ≤ (regGet d .auExpNext 0).toNat) : auditExport d = d := if_pos h

/-- The device when the export notes the records before `old` that left the ring before it came to them. -/
def auditLost (old : Nat) (d : Dev) : Dev :=
  let next := (regGet d .auExpNext 0).toNat
  if next < old then pageEvent 7 1 (regSetFld .auStat 0 30 30 1 (regAdd .auXlost 0 (old - next) d)) else d

/-- The counts of the export after the record with number n. -/
def auditCounted (size n : Nat) (p : Word) (d : Dev) : Dev :=
  regSet .auExpProd 0 (p.zeroExtend 64) (regSet .auExpNext 0 (BitVec.ofNat 64 (n + 1))
    { d with auPhase := if p.toNat % size = 0 then !d.auPhase else d.auPhase })

theorem Logged.fns {e : Dev} (h : Logged d e) : e.fns = d.fns := by
  obtain ⟨⟨_, _, _, _, _, _, _, _, _, _, _, rfl⟩, -⟩ := h
  rfl

theorem auditLost_fns (old : Nat) (d : Dev) : (auditLost old d).fns = d.fns := by
  refine Logged.fns ?_
  unfold auditLost
  dsimp only
  split
  · exact ((logged_regSetFld _ _ _ _ _ _).trans (logged_regSetFld _ _ _ _ _ _)).trans (logged_pageEvent _ _ _)
  · exact Logged.refl d

theorem auditCounted_fns (size n : Nat) (p : Word) (d : Dev) : (auditCounted size n p d).fns = d.fns := rfl

section
variable (hen : regFld d .auExpCtl 0 31 31 ≠ 0) (h3 : (fnGet d ⟨regFld d .auExpCtl 0 7 7, 0⟩).d3hot = false)
  (hroom : ((regGet d .auExpProd 0).truncate 32 - (regGet d .auExpCons 0).truncate 32 : Word).toNat < 2 ^ (regFld d .auExpCtl 0 27 24 + 12))
  (hnext : (regGet d .auExpNext 0).toNat < d.auHead)
include hen h3 hroom hnext

/-- Else the next record goes to its place with its lap's phase. -/
theorem auditExport_record {old : Nat} (hold : old = d.auHead - 8388608) : auditExport d =
    let size := 2 ^ (regFld d .auExpCtl 0 27 24 + 12)
    let prod : Word := (regGet d .auExpProd 0).truncate 32
    let n := max old (regGet d .auExpNext 0).toNat
    let rec_ := setBit ((auditFind (auditLost old d) n).getD 0) 16 (auditLost old d).auPhase
    hostOut .any ⟨regFld d .auExpCtl 0 7 7, 0⟩
      (.write (regGet d .auExpBase 0 + BitVec.ofNat 64 (32 * (prod.toNat % size))) (leBytes 32 rec_.toNat))
      (auditCounted size n (prod + 1) (auditLost old d)) := by
  unfold auditExport
  rw [← hold]
  refine if_neg ?_
  rintro (h | h | h | h)
  · exact hen h
  · exact Bool.false_ne_true (h3.symm.trans h)
  · exact Nat.not_le.mpr hroom h
  · exact Nat.not_le.mpr hnext h

end

end

/-! ### The journal export (R456) -/

/-- The records that an export ring holds (R456). -/
def jxSize (x : Fn) : Nat := 2 ^ (bits x.jxCtl 27 24 + 10)

/-- The place in host memory of the next record of an export ring (R456). -/
def jxSlot (x : Fn) : DWord := x.jxBase + BitVec.ofNat 64 (64 * (x.jxProd.toNat % jxSize x))

section
variable {f : FnId} {d : Dev} {res : WriteRes}

theorem journalExport_waits (h : bit (fnGet d f).jxCtl 31 = false ∨ (fnGet d f).d3hot = true
      ∨ jxSize (fnGet d f) ≤ ((fnGet d f).jxProd - (fnGet d f).jxCons).toNat ∨ d.jnHead ≤ (fnGet d f).jxNext.toNat) :
    journalExport f res d = d := by
  refine if_pos ?_
  simp only [jxSize] at h
  simpa [or_assoc] using h

section
variable (hen : bit (fnGet d f).jxCtl 31 = true) (h3 : (fnGet d f).d3hot = false)
  (hroom : ((fnGet d f).jxProd - (fnGet d f).jxCons).toNat < jxSize (fnGet d f))
  (hnext : (fnGet d f).jxNext.toNat < d.jnHead)
include hen h3 hroom hnext

theorem journalExport_goes :
    (!(bit (fnGet d f).jxCtl 31) || (fnGet d f).d3hot
      || decide (jxSize (fnGet d f) ≤ ((fnGet d f).jxProd - (fnGet d f).jxCons).toNat)
      || decide (d.jnHead ≤ (fnGet d f).jxNext.toNat)) = false := by
  simp only [hen, h3, decide_eq_false (Nat.not_le.mpr hroom), decide_eq_false (Nat.not_le.mpr hnext), Bool.not_true, Bool.or_self]

/-- With no record left in its scope the export is at the journal's head. -/
theorem journalExport_nothing (hold : jOldest d ≤ (fnGet d f).jxNext.toNat) (hn : jNext d f (fnGet d f).jxNext.toNat = none) :
    journalExport f res d = fnSet f { fnGet d f with jxNext := BitVec.ofNat 64 d.jnHead } d := by
  refine (if_neg (Bool.eq_false_iff.mp (journalExport_goes hen h3 hroom hnext))).trans ?_
  simp only [if_neg (Nat.not_lt.mpr hold), hn]

/-- Records that have left the ring are lost, and counted. -/
theorem journalExport_lost (hold : (fnGet d f).jxNext.toNat < jOldest d) (hn : jNext d f (jOldest d % 2 ^ 64) = none) :
    journalExport f res d = fnSet f { fnGet d f with
      jxNext := BitVec.ofNat 64 d.jnHead, jxLostBit := true
      jxLost := BitVec.ofNat 32 (min 0xFFFFFFFF ((fnGet d f).jxLost.toNat + (jOldest d - (fnGet d f).jxNext.toNat))) } d := by
  have hcount : satCount ((fnGet d f).jxLost.toNat + (jOldest d - (fnGet d f).jxNext.toNat) - 1)
      = min 0xFFFFFFFF ((fnGet d f).jxLost.toNat + (jOldest d - (fnGet d f).jxNext.toNat)) := by
    rw [satCount, Nat.sub_add_cancel (by omega)]
  refine (if_neg (Bool.eq_false_iff.mp (journalExport_goes hen h3 hroom hnext))).trans ?_
  simp only [if_pos hold, BitVec.toNat_ofNat, hn, hcount]

section
variable (hold : jOldest d ≤ (fnGet d f).jxNext.toNat) {r : JRec} (hn : jNext d f (fnGet d f).jxNext.toNat = some r)
include hold hn

/-- The next record goes to its place in the ring. -/
theorem journalExport_record : journalExport f res d =
    let x := fnGet d f
    let a := jxSlot x
    let b := leBytes 64 (setBit r.word 0 x.jxPhase).toNat
    hostGo f [(a, 64, decide (res = .ok))] (fun d =>
      exportWrite f a b res (match res with
        | .ok => fnSet f { x with jxProd := x.jxProd + 1, jxNext := BitVec.ofNat 64 (r.seq + 1)
                                  jxPhase := if (x.jxProd + 1).toNat % jxSize x = 0 then !x.jxPhase else x.jxPhase } d
        | .fail _ => fnSet f { x with jxWrerr := true, jxCtl := setBit x.jxCtl 31 false } d)) d := by
  refine (if_neg (Bool.eq_false_iff.mp (journalExport_goes hen h3 hroom hnext))).trans ?_
  simp only [if_neg (Nat.not_lt.mpr hold), hn]
  rfl

theorem journalExport_asks (ht : untranslated d f (jxSlot (fnGet d f)) 64 ≠ []) :
    journalExport f .ok d = askXlate f (untranslated d f (jxSlot (fnGet d f)) 64) d := by
  rw [journalExport_record hen h3 hroom hnext hold hn]
  refine (hostGo_waits _ ?_).trans (hostAsk_one h3 _ _)
  simp [hostWaits_one h3, ht]

theorem journalExport_writes (ht : untranslated d f (jxSlot (fnGet d f)) 64 = []) :
    journalExport f .ok d =
      let x := fnGet d f
      sendHost .any f (.write (jxSlot x) (leBytes 64 (setBit r.word 0 x.jxPhase).toNat))
        (fnSet f { x with jxProd := x.jxProd + 1, jxNext := BitVec.ofNat 64 (r.seq + 1)
                          jxPhase := if (x.jxProd + 1).toNat % jxSize x = 0 then !x.jxPhase else x.jxPhase } d) := by
  rw [journalExport_record hen h3 hroom hnext hold hn]
  refine (hostGo_now _ ?_).trans (hostOut_write_fnSet h3 rfl ?_)
  · simp [hostWaits_one h3, ht]
  · rw [leBytes_length]; exact ht

/-- A write that fails ends the export; any of its bytes may have arrived (R591). -/
theorem journalExport_fails (l : List Nat) :
    journalExport f (.fail l) d =
      let x := fnGet d f
      exportWrite f (jxSlot x) (leBytes 64 (setBit r.word 0 x.jxPhase).toNat) (.fail l)
        (fnSet f { x with jxWrerr := true, jxCtl := setBit x.jxCtl 31 false } d) := by
  rw [journalExport_record hen h3 hroom hnext hold hn]
  exact hostGo_now _ (hostWaits_one h3 _ _ _)

end

end

end

/-! ### The writes of BAR 4 (R455) -/

section
variable {f : FnId} {d : Dev}

/-- One of the wrong size, at the wrong place, or beyond the registers is dropped. -/
theorem jctlWrite_dropped {off size : Nat} (v : DWord) (h : (size ≠ 4 ∧ size ≠ 8) ∨ off % size ≠ 0 ∨ 0x4C ≤ off) :
    jctlWrite f off size v d = d := by
  by_cases hplace : (size = 4 ∨ size = 8) ∧ off % size = 0
  · have hfar : 0x4C ≤ off := by omega
    have hfind : jxFind off = none := by
      rw [jxFind, List.find?_eq_none]
      simp only [jxRegs, List.mem_cons, List.not_mem_nil, or_false, forall_eq_or_imp, forall_eq, Bool.and_eq_true, decide_eq_true_eq]
      omega
    simp only [jctlWrite, hfind]
    split <;> rfl
  · refine if_pos ?_
    by_cases h1 : size = 4 <;> by_cases h2 : size = 8 <;> simp_all

/-- A write of a whole register of 8 bytes takes the value written. -/
theorem jctlWrite_whole8 {off : Nat} (v : DWord) (hal : off % 8 = 0) (hlt : off < 0x8000) (hfind : jxFind off = some (off, 8)) :
    jctlWrite f off 8 v d = jxWrite f off v (jput { jblank 0x09 f with arg := BitVec.ofNat 32 off, ccw := v } d) := by
  have hmask : BitVec.ofNat 64 (fieldN (8 * (off - off) + 8 * 8 - 1) (8 * (off - off)) (2 ^ 64 - 1)) = BitVec.allOnes 64 := by
    rw [Nat.sub_self]; decide
  have hv : BitVec.ofNat 64 (v.toNat % 2 ^ (8 * 8)) = v := by
    rw [Nat.mod_eq_of_lt (show v.toNat < 2 ^ (8 * 8) from v.isLt), BitVec.ofNat_toNat, BitVec.setWidth_eq]
  have hone : jctlOne f off 8 v.toNat d = jxWrite f off v (jput { jblank 0x09 f with arg := BitVec.ofNat 32 off, ccw := v } d) := by
    simp only [jctlOne, hfind, hmask, hv]
    congr 1
    simp only [Nat.sub_self, Nat.mul_zero, BitVec.shiftLeft_zero, BitVec.not_allOnes, BitVec.and_zero, BitVec.and_allOnes, BitVec.zero_or]
  simp [jctlWrite, hal, hlt, hfind, hone]

/-- The low half of a word that takes a written one there is the written one. -/
theorem truncate_merge (old : DWord) (v : Word) : (old &&& ~~~ 0xFFFFFFFF#64 ||| v.zeroExtend 64 &&& 0xFFFFFFFF#64).truncate 32 = v := by
  apply BitVec.eq_of_getLsbD_eq
  intro i hi
  have hbit : (0xFFFFFFFF#32).getLsbD i = true := by
    rw [show 0xFFFFFFFF#32 = BitVec.allOnes 32 by decide, BitVec.getLsbD_allOnes, decide_eq_true hi]
  rw [BitVec.getLsbD_eq_getElem hi] at hbit
  simp [hi, hbit]

/-- A write of one of 4 bytes takes the value written in its low half. -/
theorem jctlWrite_whole4 {off : Nat} (v : Word) (hal : off % 4 = 0) (hlt : off < 0x8000) (hfind : jxFind off = some (off, 4)) :
    ∃ u : DWord, u.truncate 32 = v ∧ jctlWrite f off 4 (v.zeroExtend 64) d
      = jxWrite f off u (jput { jblank 0x09 f with arg := BitVec.ofNat 32 off, ccw := v.zeroExtend 64 } d) := by
  have hmask : BitVec.ofNat 64 (fieldN (8 * (off - off) + 8 * 4 - 1) (8 * (off - off)) (2 ^ 64 - 1)) = 0xFFFFFFFF#64 := by
    rw [Nat.sub_self]; decide
  have hv : BitVec.ofNat 64 ((v.zeroExtend 64).toNat % 2 ^ (8 * 4)) = v.zeroExtend 64 := by
    apply BitVec.eq_of_toNat_eq
    have := v.isLt
    simp
    omega
  refine ⟨BitVec.ofNat 64 (jxView d f off) &&& ~~~ 0xFFFFFFFF#64 ||| v.zeroExtend 64 <<< (8 * (off - off)) &&& 0xFFFFFFFF#64, ?_, ?_⟩
  · rw [Nat.sub_self, Nat.mul_zero, BitVec.shiftLeft_zero]
    exact truncate_merge _ v
  · simp only [jctlWrite, jctlOne, hfind, hmask, hv]
    simp [hal, hlt]

/-- Bit 31 of JX_CTL is the one written, whatever becomes of SIZE. -/
theorem bit31_jxCtl (v : Word) (c : Prop) [Decidable c] :
    bit (if c then setBits (v &&& 0x8F000000#32) 27 24 14 else v &&& 0x8F000000#32) 31 = bit v 31 := by
  have hc : (v &&& 0x8F000000#32).getLsbD 31 = v.getLsbD 31 := by
    rw [BitVec.getLsbD_and, show (0x8F000000#32).getLsbD 31 = true by decide, Bool.and_true]
  split
  · exact (getLsbD_setBits_of_outside _ (.inr (by decide))).trans hc
  · exact hc

/-- A write of JX_CTL changes its function alone (R456). -/
theorem jxCtlWrite_eq (v : Word) :
    let c := v &&& 0x8F000000#32
    let z := if bits c 27 24 = 15 then setBits c 27 24 14 else c
    let x := fnGet d f
    jxCtlWrite f v d = fnSet f (if bit x.jxCtl 31 = true ∧ bits z 27 24 ≠ bits x.jxCtl 27 24 then { x with jxCfgerr := true }
      else if bit x.jxCtl 31 = false ∧ bit v 31 = true then { x with jxCtl := z, jxNext := x.jxStart, jxProd := 0, jxPhase := true }
      else { x with jxCtl := z }) d := by
  intro c z x
  have hz : bit z 31 = bit v 31 := bit31_jxCtl v _
  change (if bit x.jxCtl 31 && decide (bits z 27 24 ≠ bits x.jxCtl 27 24) then fnSet f { x with jxCfgerr := true } d
    else if !(bit x.jxCtl 31) && bit z 31 then fnSet f { x with jxCtl := z, jxNext := x.jxStart, jxProd := 0, jxPhase := true } d
    else fnSet f { x with jxCtl := z } d) = _
  rw [hz, apply_ite (fnSet f · d), apply_ite (fnSet f · d)]
  simp only [Bool.and_eq_true, decide_eq_true_eq, Bool.not_eq_true']

/-- A write of JX_BASE (R455): it changes only while EN is 0. -/
theorem jxWrite_base (v : DWord) :
    let x := fnGet d f
    jxWrite f 0x20 v d = fnSet f (if bit x.jxCtl 31 = true ∧ setBits v 11 0 0 ≠ x.jxBase then { x with jxCfgerr := true }
      else { x with jxBase := setBits v 11 0 0 }) d := by
  intro x
  change (if bit x.jxCtl 31 && decide (setBits v 11 0 0 ≠ x.jxBase) then fnSet f { x with jxCfgerr := true } d
    else fnSet f { x with jxBase := setBits v 11 0 0 } d) = _
  rw [apply_ite (fnSet f · d)]
  simp only [Bool.and_eq_true, decide_eq_true_eq]

end

theorem logExports : LogExports := by
  intro s hs partly
  refine ⟨?_, fun f => ?_⟩
  · intro d f size prod cons next a ready
    refine ⟨fun h => (run_running _ _ hs).trans (next_after_congr s (auditExport_waits ?_)), fun ⟨hen, h3, hroom, hnext⟩ => ?_⟩
    · simp only [ready, not_and_or, not_not, Bool.not_eq_false, not_lt] at h
      exact h
    · intro old n d1 rec_ d2 b d3
      have hold : old = d.auHead - 8388608 := rfl
      clear_value old
      have hgo : exec .auditExportWrite s = .next (after s (hostOut .any f (.write a b) d3)) :=
        (run_running _ _ hs).trans (next_after_congr s (auditExport_record hen h3 hroom hnext hold))
      have hfns : d3.fns = d.fns := (auditCounted_fns size n (prod + 1) (auditLost old d)).trans (auditLost_fns old d)
      have hd3 : (fnGet d3 f).d3hot = false := (congrArg Fn.d3hot (fnGet_congr hfns f)).trans h3
      refine ⟨fun ht => hgo.trans (next_after_congr s ?_), fun ht => hgo.trans (next_after_congr s ?_)⟩
      · exact hostOut_write_sends hd3 (leBytes_length 32 _) ht
      · exact hostOut_write_asks hd3 (leBytes_length 32 _) ht
  · intro d x size next
    have exports : ∀ res, exec (.journalExportWrite f res) s = .next (after s (journalExport f res d)) := fun _ => run_running _ _ hs
    refine ⟨fun h r => ?_, fun hen h3 hroom hnext hold => ⟨fun hn r => ?_, ?_⟩,
      fun hen h3 hroom hold hn r => ?_, fun off size' v h => ?_, ?_, ?_, ?_⟩
    · exact (exports r).trans (next_after_congr s (journalExport_waits h))
    · exact (exports r).trans (next_after_congr s (journalExport_nothing hen h3 hroom hnext hold hn))
    · intro r hn a b
      refine ⟨fun ht => ?_, fun ht => ?_, fun l => ?_⟩
      · exact (exports _).trans (next_after_congr s (journalExport_asks hen h3 hroom hnext hold hn ht))
      · exact (exports _).trans (next_after_congr s (journalExport_writes hen h3 hroom hnext hold hn ht))
      · exact (exports _).trans (next_after_congr s (journalExport_fails hen h3 hroom hnext hold hn l))
    · have hnext : next < d.jnHead := Nat.lt_of_lt_of_le hold (Nat.sub_le _ _)
      exact (exports r).trans (next_after_congr s (journalExport_lost hen h3 hroom hnext hold hn))
    · exact (run_running _ _ hs).trans (next_after_congr s (jctlWrite_dropped v h))
    · intro v c z d1 x1
      refine ⟨rfl, ?_⟩
      obtain ⟨u, hu, hw⟩ := jctlWrite_whole4 (f := f) (d := s.dev) (off := 0x28) v rfl (by decide) rfl
      refine (run_running _ _ hs).trans (next_after_congr s (hw.trans ?_))
      exact (congrArg (fun w => jxCtlWrite f w d1) hu).trans (jxCtlWrite_eq v)
    · intro v put upd
      have whole : ∀ off, off % 8 = 0 → off < 0x8000 → jxFind off = some (off, 8) →
          exec (.jctlWrite f off 8 v) s = .next (after s (jxWrite f off v (put off))) := fun off hal hlt hfind =>
        (run_running _ _ hs).trans (next_after_congr s (jctlWrite_whole8 v hal hlt hfind))
      refine ⟨whole 0x10 rfl (by decide) rfl, whole 0x38 rfl (by decide) rfl, ?_, ?_⟩
      · exact (whole 0x20 rfl (by decide) rfl).trans (next_after_congr s (jxWrite_base v))
      · rintro r (rfl | rfl | rfl | rfl)
        · exact whole 0 rfl (by decide) rfl
        · exact whole 8 rfl (by decide) rfl
        · exact whole 0x18 rfl (by decide) rfl
        · exact whole 0x40 rfl (by decide) rfl
    · intro v d1
      obtain ⟨u, hu, hw⟩ := jctlWrite_whole4 (f := f) (d := s.dev) (off := 0x2C) v rfl (by decide) rfl
      refine (run_running _ _ hs).trans (next_after_congr s (hw.trans ?_))
      exact congrArg (fun w => fnSet f { fnGet d1 f with jxCons := w } d1) hu

end Sys2Proof.Machine
end

section
/-!
THEOREM. The registers of the audit log and the journal, with which O48 is complete.
-/
namespace Sys2Proof.Machine

open Sys2Proof

/-! ### Selections (R408) -/

/-- A selection register of 8 bytes takes the value written, and its selection acts. -/
theorem write64_selection {s : State} {o : Origin} {page x : Nat} {t : PageTy} {v : DWord} {a : RegAt} (S : Selects s o page x t)
    (hf : regFind page x = some a) (ht : a.ty = t) (hsel : isSelection a.reg = true) (hk : a.reg ≠ .pgXkey)
    (hopen : a.reg ≠ .sgPinSub ∧ a.reg ≠ .sgFnSel) (hb : a.byte = 0) (hw : a.info.bytes = 8) (hm : writeMask a.info = BitVec.allOnes 64)
    (hi : ∀ d, regInst d o a = originKey o) (hn : x ≠ 0x00C) (hp : page < 0x4000) (hx : x < 4096) (h8 : x % 8 = 0) :
    run s (write64 o page x v) = .next (selected s o page a.reg v (selEffect o a.reg v)) := by
  obtain ⟨hrun, hwait, hread, hfatal⟩ := S
  have hread' : mayRead (dropChal o page s.dev) o a.ty = true := ht ▸ hread
  have hfatal' : fatalShut (dropChal o page s.dev) o = false := hfatal
  have hall : BitVec.ofNat 64 (fieldN (8 * (0 + 8) - 1) (8 * 0) (2 ^ 64 - 1)) = BitVec.allOnes 64 := by decide
  have hone : barWrite1 o page x 8 v s.dev
      = (0, selEffect o a.reg v (regSet a.reg (originKey o) v (dropChal o page s.dev))) := by
    simp only [barWrite1, hf, hk, hn, hsel, hopen, hb, hm, hall, hi, if_false, if_true, decide_false,
      Nat.mul_zero, BitVec.shiftLeft_zero, BitVec.and_allOnes, BitVec.not_allOnes, BitVec.and_zero, BitVec.zero_or]
    simp [hread', hfatal']
  rw [run_running _ _ hrun, write64, barWrite, hwait, barWriteNow_8 _ _ hf hb hw hx h8 hp, hone]
  rfl

def auRdAt : RegAt := ⟨.aud, 0, 7, .auRd, ⟨.aud, 0x50, 0, 1, 8, [⟨63, 0, .rw, 0⟩]⟩, 0, 0⟩
def jnRdAt : RegAt := ⟨.jnl, 0, 6, .jnRd, ⟨.jnl, 0x50, 0, 1, 8, [⟨63, 0, .rw, 0⟩]⟩, 0, 0⟩

theorem regFind_auRd : regFind 7 0x050 = some auRdAt := by decide
theorem regFind_jnRd : regFind 6 0x050 = some jnRdAt := by decide

theorem writeMask_auRd : writeMask auRdAt.info = BitVec.allOnes 64 := by decide
theorem writeMask_jnRd : writeMask jnRdAt.info = BitVec.allOnes 64 := by decide
theorem regInst_auRd (o : Origin) (d : Dev) : regInst d o auRdAt = originKey o := rfl
theorem regInst_jnRd (o : Origin) (d : Dev) : regInst d o jnRdAt = originKey o := rfl

section
variable {s : State} {o : Origin}

theorem write_auRd {q : DWord} (S : Selects s o 7 0x050 .aud) :
    run s (write64 o 7 0x050 q) = .next (selected s o 7 .auRd q (selEffect o .auRd q)) :=
  write64_selection (a := auRdAt) (v := q) S regFind_auRd rfl (by decide) (by decide) (by decide) rfl rfl writeMask_auRd
    (regInst_auRd o) (by decide) (by decide) (by decide) (by decide)

theorem write_jnRd {q : DWord} (S : Selects s o 6 0x050 .jnl) :
    run s (write64 o 6 0x050 q) = .next (selected s o 6 .jnRd q (selEffect o .jnRd q)) :=
  write64_selection (a := jnRdAt) (v := q) S regFind_jnRd rfl (by decide) (by decide) (by decide) rfl rfl writeMask_jnRd
    (regInst_jnRd o) (by decide) (by decide) (by decide) (by decide)

end

/-- The stale bit of a selection says that there is no record. -/
theorem isNone_toNat {α : Type} [DecidableEq α] (x : Option α) : x.isNone.toNat = if x = none then 1 else 0 := by
  cases x <;> rfl

/-! ### Registers of the logs (R428, R430, R458) -/

def jnMarkAt : RegAt := ⟨.jnl, 0, 6, .jnMark, ⟨.jnl, 0x800, 0, 1, 4, [⟨31, 0, .wo, 0⟩]⟩, 0, 0⟩
def auExpConsAt : RegAt := ⟨.aud, 0, 7, .auExpCons, ⟨.aud, 0xC0, 0, 1, 4, [⟨31, 0, .rw, 0⟩]⟩, 0, 0⟩
def auExpCtlAt : RegAt := ⟨.aud, 0, 7, .auExpCtl,
  ⟨.aud, 0xA8, 0, 1, 4, [⟨31, 31, .rw, 0⟩, ⟨27, 24, .rw, 0⟩, ⟨7, 7, .rw, 0⟩, ⟨6, 0, .rw, 0⟩]⟩, 0, 0⟩

theorem regFind_jnMark : regFind 6 0x800 = some jnMarkAt := by decide
theorem regFind_auExpCons : regFind 7 0x0C0 = some auExpConsAt := by decide
theorem regFind_auExpCtl : regFind 7 0x0A8 = some auExpCtlAt := by decide

theorem writeMask_jnMark : writeMask jnMarkAt.info = 0xFFFFFFFF := by decide
theorem writeMask_auExpCons : writeMask auExpConsAt.info = 0xFFFFFFFF := by decide
theorem writeMask_auExpCtl : writeMask auExpCtlAt.info = 0x8F0000FF := by decide

/-- A register without fields that act once keeps what is written. -/
theorem kept_all {a : RegAt} (h : accMask a.info (fun x => x = .wo || x = .sc) = 0#64) (v : DWord) : kept a v = v := by
  rw [kept, h, BitVec.not_zero, BitVec.and_allOnes]

theorem store_auExpCons (d0 : Dev) (o : Origin) (v : DWord) : store d0 o auExpConsAt v = regSet .auExpCons 0 v := by
  funext d
  rw [store, kept_all (by decide)]
  rfl

theorem store_auExpCtl (d0 : Dev) (o : Origin) (v : DWord) : store d0 o auExpCtlAt v = regSet .auExpCtl 0 v := by
  funext d
  rw [store, kept_all (by decide)]
  rfl

theorem answerOf_denied (s : State) (o : Origin) (page x size : Nat) (val : DWord) (a : RegAt) :
    answerOf s o page x size val a (.denied id) = deniedWrite s o page x size val := rfl

/-- A field of the writable bits is the one written. -/
theorem bits_merged (s : State) (o : Origin) (page x : Nat) (v : Word) {mask : DWord} {hi lo : Nat}
    (hmask : ∀ k, lo ≤ k → k ≤ hi → mask.getLsbD k = true) : bits (merged s o page x (v.zeroExtend 64) mask) hi lo = bits v hi lo := by
  refine bits_congr fun k hlo hhi => ?_
  rw [merged, getLsbD_merge, hmask k hlo hhi, if_pos rfl, BitVec.getLsbD_setWidth]
  have hk : k < 64 := by
    by_contra h
    have := hmask k hlo hhi
    rw [BitVec.getLsbD_of_ge _ _ (Nat.not_lt.mp h)] at this
    cases this
  simp [hk]

section
variable {s : State} {o : Origin} {v : Word}

theorem write_jnMark (P : Passes s o 6 0x800 [4, 1]) : run s (write32 o 6 0x800 v)
    = .next (wrote s o 6 0x800 4 (v.zeroExtend 64) (fun d => jput { jblank 0x0C ⟨0, 0x7F⟩ with arg := v } d)) := by
  have heff : ∀ d w, regEffect d o jnMarkAt w = .ok (jput { jblank 0x0C deviceWide with arg := w.truncate 32 }) := fun _ _ => rfl
  have hval : (merged s o 6 0x800 (v.zeroExtend 64) 0xFFFFFFFF).truncate 32 = v := truncate_merge _ v
  rw [write32_passed P regFind_jnMark rfl (by decide) rfl (by decide) (by rw [writeMask_jnMark]; decide) (by decide) (by decide)
    (by decide) (by decide) (by decide) (by rw [writeMask_jnMark]; decide), writeMask_jnMark, heff, hval,
    answerOf_ok _ (by decide) (by decide) (by decide)]
  rfl

/-- A write of an export register by a class that may. -/
theorem write_auExpCons (P : Passes s o 7 0x0C0 [4, 3, 1]) : run s (write32 o 7 0x0C0 v) = .next (answerOf s o 7 0x0C0 4 (v.zeroExtend 64)
    auExpConsAt (regEffect (judged o 7 0x0C0 s.dev) o auExpConsAt (merged s o 7 0x0C0 (v.zeroExtend 64) 0xFFFFFFFF))) := by
  rw [write32_passed P regFind_auExpCons rfl (by decide) rfl (by decide) (by rw [writeMask_auExpCons]; decide) (by decide) (by decide)
    (by decide) (by decide) (by decide) (by rw [writeMask_auExpCons]; decide), writeMask_auExpCons]

theorem write_auExpCtl (P : Passes s o 7 0x0A8 [4, 3, 1]) : run s (write32 o 7 0x0A8 v) = .next (answerOf s o 7 0x0A8 4 (v.zeroExtend 64)
    auExpCtlAt (regEffect (judged o 7 0x0A8 s.dev) o auExpCtlAt (merged s o 7 0x0A8 (v.zeroExtend 64) 0x8F0000FF))) := by
  rw [write32_passed P regFind_auExpCtl rfl (by decide) rfl (by decide) (by rw [writeMask_auExpCtl]; decide) (by decide) (by decide)
    (by decide) (by decide) (by decide) (by rw [writeMask_auExpCtl]; decide), writeMask_auExpCtl]

end

/-! ### What the export registers say of a write -/

section
variable {d : Dev} {o : Origin} {v : DWord}

/-- May an origin write the export registers: a PF alone is bound to the one that exports (R430). -/
def expMay (d : Dev) (o : Origin) : Bool :=
  match o with | .hostPf p => !decide (regFld d .auExpCtl 0 31 31 = 1) || decide (regFld d .auExpCtl 0 7 7 = p) | _ => true

theorem expMay_iff : expMay d o = true ↔ ∀ p, o = .hostPf p → regFld d .auExpCtl 0 31 31 = 1 → regFld d .auExpCtl 0 7 7 = p := by
  cases o with
  | hostPf p => simp [expMay, ← imp_iff_not_or]
  | _ => simp [expMay]

theorem regEffect_auExpCons : regEffect d o auExpConsAt v = if expMay d o then .ok (regSet .auExpCons 0 v) else .denied id := by
  rw [← store_auExpCons d o]
  rfl

/-- Does an origin name a PF other than itself as the one that exports? -/
def expNamesOther (o : Origin) (v : DWord) : Bool := match o with | .hostPf p => decide (bits v 7 7 ≠ p) | _ => false

theorem expNamesOther_eq_false : expNamesOther o v = false ↔ ∀ p, o = .hostPf p → bits v 7 7 = p := by
  cases o <;> simp [expNamesOther]

theorem regEffect_auExpCtl : regEffect d o auExpCtlAt v =
    if !expMay d o || expNamesOther o v then .denied id
    else if bits v 6 0 ≠ 0 then .cfgerr id
    else
      let z := if 11 < bits v 27 24 then setBits v 27 24 11 else v
      .ok (fun e =>
        let e := regSet .auExpCtl 0 z e
        if !decide (regFld d .auExpCtl 0 31 31 = 1) && bit z 31 then { regSet .auExpNext 0 (regGet e .auExpStart 0) e with auPhase := true }
        else e) := by
  have h : ∀ e z, regSet .auExpCtl 0 z e = store e o auExpCtlAt z e := fun e z => (congrFun (store_auExpCtl e o z) e).symm
  simp only [h]
  rfl

end

/-- Bit 31 of AU_EXP_CTL is the one written, whatever becomes of SIZE. -/
theorem bit31_auExpCtl (s : State) (o : Origin) (v : Word) (c : Prop) [Decidable c] :
    bit (if c then setBits (merged s o 7 0x0A8 (v.zeroExtend 64) 0x8F0000FF) 27 24 11
      else merged s o 7 0x0A8 (v.zeroExtend 64) 0x8F0000FF) 31 = bit v 31 := by
  have hm : (merged s o 7 0x0A8 (v.zeroExtend 64) 0x8F0000FF).getLsbD 31 = v.getLsbD 31 := by
    have hmask : (0x8F0000FF : DWord).getLsbD 31 = true := by decide
    rw [merged, getLsbD_merge, hmask, if_pos rfl, BitVec.getLsbD_setWidth]
    simp
  split
  · exact (getLsbD_setBits_of_outside _ (.inr (by decide))).trans hm
  · exact hm

/-! ### The logs -/

theorem logRegisters : LogRegisters := by
  intro s o v q w n
  refine ⟨fun S => (write_auRd S).trans ?_, fun S => (write_jnRd S).trans ?_, fun P => write_jnMark P, fun P => ?_, fun P => ?_⟩
  · refine congrArg (fun f => Host.Outcome.next (selected s o 7 .auRd q f)) (funext fun d => ?_)
    exact congrArg (fun k => regSetFld .auStat (1000 + originKey o) 31 31 k _) (isNone_toNat _)
  · refine congrArg (fun f => Host.Outcome.next (selected s o 6 .jnRd q f)) (funext fun d => ?_)
    have hstale := isNone_toNat (jfind d q.toNat)
    simp only [selEffect, hstale]
    rfl
  · intro en
    have hmay : expMay (judged o 7 0x0C0 s.dev) o = true ↔ ∀ p, o = .hostPf p → en → regFld s.dev .auExpCtl 0 7 7 = p := expMay_iff
    refine ⟨fun p ho hen hother => (write_auExpCons P).trans ?_, fun h => (write_auExpCons P).trans ?_⟩
    · rw [regEffect_auExpCons, if_neg (fun h => hother (hmay.mp h p ho hen)), answerOf_denied]
    · rw [regEffect_auExpCons, if_pos (hmay.mpr h)]
      rfl
  · intro en may m z
    have hmay : expMay (judged o 7 0x0A8 s.dev) o = true ↔ ∀ p, o = .hostPf p → en → regFld s.dev .auExpCtl 0 7 7 = p := expMay_iff
    have hnames : expNamesOther o m = false ↔ ∀ p, o = .hostPf p → bits v 7 7 = p := by
      rw [expNamesOther_eq_false, bits_merged s o 7 0x0A8 v (by decide)]
    have hguard : (!expMay (judged o 7 0x0A8 s.dev) o || expNamesOther o m) = true ↔ ¬ may := by
      rw [← not_iff_not, not_not, Bool.not_eq_true, Bool.or_eq_false_iff, Bool.not_eq_false', hmay, hnames]
      exact ⟨fun ⟨hone, hother⟩ p ho => ⟨hone p ho, hother p ho⟩, fun h => ⟨fun p ho => (h p ho).1, fun p ho => (h p ho).2⟩⟩
    have hlow : bits m 6 0 = bits v 6 0 := bits_merged s o 7 0x0A8 v (by decide)
    have hsize : bits m 27 24 = bits v 27 24 := bits_merged s o 7 0x0A8 v (by decide)
    have hbit : bit z 31 = bit v 31 := bit31_auExpCtl s o v _
    have hwrite := write_auExpCtl (v := v) P
    rw [regEffect_auExpCtl] at hwrite
    refine ⟨fun h => hwrite.trans ?_, fun h hfn => hwrite.trans ?_, fun h hfn hoff => hwrite.trans ?_, fun h hfn hnew hon => hwrite.trans ?_⟩
    · rw [if_pos (hguard.mpr h), answerOf_denied]
    · rw [if_neg (fun g => hguard.mp g h), if_pos (by rw [hlow]; exact hfn), answerOf_cfgerr]
    · rw [if_neg (fun g => hguard.mp g h), if_neg (by rw [hlow]; exact not_not.mpr hfn), hsize, answerOf_ok _ (by decide) (by decide) (by decide)]
      refine congrArg (fun f => Host.Outcome.next (wrote s o 7 0x0A8 4 w f)) (funext fun d => if_neg ?_)
      change ¬ (!decide en && bit z 31) = true
      rcases hoff with hoff | hoff <;> simp [hbit, hoff]
    · rw [if_neg (fun g => hguard.mp g h), if_neg (by rw [hlow]; exact not_not.mpr hfn), hsize, answerOf_ok _ (by decide) (by decide) (by decide)]
      refine congrArg (fun f => Host.Outcome.next (wrote s o 7 0x0A8 4 w f)) (funext fun d => if_pos ?_)
      change (!decide en && bit z 31) = true
      simp [hbit, hnew, hon]

/-- Settles O48. -/
theorem logs : Obligations.Logs := ⟨logRegisters, logExports⟩

end Sys2Proof.Machine
end

section
/-!
SUPPORT. SR_CTL, CR_CTL and CR_OWN as a write of a page of rings meets them (R172 to R174).
-/
namespace Sys2Proof.Machine

open Sys2Proof

/-! ### Bits -/

/-- The low half of a value merged from 32-bit words is merged from them. -/
theorem truncate_merged (c v m : Word) :
    ((c.zeroExtend 64 &&& ~~~(m.zeroExtend 64)) ||| (v.zeroExtend 64 &&& m.zeroExtend 64) : DWord).truncate 32 = c &&& ~~~m ||| v &&& m := by
  apply BitVec.eq_of_getLsbD_eq
  intro i hi
  simp [hi]

/-- The writable bits of a merged word are the ones written. -/
theorem merged_and (c v m : Word) : (c &&& ~~~m ||| v &&& m) &&& m = v &&& m := by
  apply BitVec.eq_of_getLsbD_eq
  intro i hi
  simp only [BitVec.getLsbD_and, BitVec.getLsbD_or, BitVec.getLsbD_not]
  cases m.getLsbD i <;> simp

/-- A field of the writable bits of a merged word is the one written. -/
theorem bits_merged_word (c v : Word) {m : Word} {hi lo : Nat} (hm : ∀ k, lo ≤ k → k ≤ hi → m.getLsbD k = true) :
    bits (c &&& ~~~m ||| v &&& m) hi lo = bits v hi lo := by
  refine bits_congr fun k hlo hhi => ?_
  simp only [BitVec.getLsbD_and, BitVec.getLsbD_or, BitVec.getLsbD_not, hm k hlo hhi]
  simp

theorem bits_masked {v m : Word} {hi lo : Nat} (hm : ∀ k, lo ≤ k → k ≤ hi → m.getLsbD k = true) :
    bits (v &&& m) hi lo = bits v hi lo := by
  refine bits_congr fun k hlo hhi => ?_
  rw [BitVec.getLsbD_and, hm k hlo hhi, Bool.and_true]

/-! ### SIZE (R172, R173) -/

/-- A SIZE above 12 is taken as 12. -/
theorem bits_clampSize (x : Word) : bits (clampSize x) 27 24 = min 12 (bits x 27 24) := by
  unfold clampSize
  split
  · have hset : bits (setBits x 27 24 12) 27 24 = bits (0x0C000000#32) 27 24 := by
      refine bits_congr fun k hlo hhi => ?_
      have hmask : (BitVec.ofNat 32 ((2 ^ (27 + 1 - 24) - 1) * 2 ^ 24)).getLsbD k = true := by
        interval_cases k <;> decide
      rw [setBits]
      simp only [BitVec.getLsbD_or, BitVec.getLsbD_and, BitVec.getLsbD_not, hmask]
      simp
    rw [hset, show bits (0x0C000000#32) 27 24 = 12 by decide]
    omega
  · omega

/-- It leaves the other bits. -/
theorem bit31_clampSize (x : Word) : bit (clampSize x) 31 = bit x 31 := by
  unfold clampSize
  split
  · exact getLsbD_setBits_of_outside _ (.inr (by decide))
  · rfl

/-! ### The registers at their places (R398) -/

theorem pageOf_rng {i : Nat} (hi : i < 256) : pageOf (0x200 + i) = some (.rng, i) := by
  simp only [pageOf]
  repeat rw [if_neg (by omega)]
  rw [if_pos (by omega), Nat.add_sub_cancel_left]

/-- A register of ring n, as an access meets it. -/
def ringAt (r : Reg) (i : RegInfo) (n : Nat) : RegAt := ⟨.rng, n / 16, 0x200 + n / 16, r, i, n % 16, 0⟩

theorem ringOf_ringAt (r : Reg) (i : RegInfo) (n : Nat) : ringOf (ringAt r i n) = n := Nat.div_add_mod n 16

def srCtlInfo : RegInfo := ⟨.rng, 0x110, 32, 16, 4, [⟨31, 31, .rw, 0⟩, ⟨30, 30, .rw, 0⟩, ⟨27, 24, .rw, 0⟩, ⟨15, 0, .rw, 999⟩]⟩
def crCtlInfo : RegInfo := ⟨.rng, 0x308, 64, 16, 4, [⟨31, 31, .rw, 0⟩, ⟨30, 30, .rw, 0⟩, ⟨29, 29, .rw, 0⟩, ⟨27, 24, .rw, 0⟩, ⟨10, 0, .rw, 0⟩]⟩
def crOwnInfo : RegInfo := ⟨.rng, 0x30C, 64, 16, 4, [⟨7, 7, .rw, 0⟩, ⟨6, 0, .rw, 127⟩]⟩

theorem regAtOff_srCtl : ∀ k, k < 16 → regAtOff (0x110 + 0x20 * k) (pageRegs .rng) = some (.srCtl, srCtlInfo, k, 0) := by decide
theorem regAtOff_crCtl : ∀ k, k < 16 → regAtOff (0x308 + 0x40 * k) (pageRegs .rng) = some (.crCtl, crCtlInfo, k, 0) := by decide
theorem regAtOff_crOwn : ∀ k, k < 16 → regAtOff (0x30C + 0x40 * k) (pageRegs .rng) = some (.crOwn, crOwnInfo, k, 0) := by decide

theorem writeMask_srCtl : writeMask srCtlInfo = (0xCF00FFFF#32).zeroExtend 64 := by decide
theorem writeMask_crCtl : writeMask crCtlInfo = (0xEF0007FF#32).zeroExtend 64 := by decide
theorem writeMask_crOwn : writeMask crOwnInfo = (0xFF#32).zeroExtend 64 := by decide

section
variable {s : State} {o : Origin} {v m : Word} {n x : Nat} {r : Reg} {i : RegInfo}

theorem regFind_ringAt (hn : n < 4096) (hx : 0x40 ≤ x) (hat : regAtOff x (pageRegs .rng) = some (r, i, n % 16, 0)) :
    regFind (ringPage n) x = some (ringAt r i n) :=
  regFind_of_page (e := (r, i, n % 16, 0)) (pageOf_rng (by omega)) (by decide) (by omega) hat

/-- The value a write leaves in a register of a ring that shows a whole word. -/
theorem merged_ringAt (hfind : regFind (ringPage n) x = some (ringAt r i n)) {c : Word}
    (hshown : regShown (dropChal o (ringPage n) s.dev) o (ringAt r i n) = c.zeroExtend 64) :
    (merged s o (ringPage n) x (v.zeroExtend 64) (m.zeroExtend 64)).truncate 32 = c &&& ~~~m ||| v &&& m := by
  simp only [merged, hfind, hshown]
  exact truncate_merged c v m

/-- A write of a register of a ring by a class that may. -/
theorem write_ringAt (P : Passes s o (ringPage n) x [4, 3, 2]) (hn : n < 4096) (hlo : 0x40 ≤ x) (hhi : x < 0x800) (h4 : x % 4 = 0)
    (hat : regAtOff x (pageRegs .rng) = some (r, i, n % 16, 0)) (hr : r = .srCtl ∨ r = .crCtl ∨ r = .crOwn)
    (hmask : writeMask i = m.zeroExtend 64) (hm : m ≠ 0) (hpage : i.page = .rng) :
    run s (write32 o (ringPage n) x v) = .next (answerOf s o (ringPage n) x 4 (v.zeroExtend 64) (ringAt r i n)
      (effRng (dropChal o (ringPage n) s.dev) o (ringAt r i n) (merged s o (ringPage n) x (v.zeroExtend 64) (m.zeroExtend 64)))) := by
  have hclass : ∀ c ∈ [4, 3, 2], inSet (writers (ringAt r i n) x) c = true := by
    have hw : writers (ringAt r i n) x = pageBw .rng := by
      rcases hr with rfl | rfl | rfl <;> exact if_neg (by omega)
    rw [hw]
    decide
  have hne : writeMask (ringAt r i n).info ≠ 0 := by
    change writeMask i ≠ 0
    rw [hmask]
    exact fun h => hm (by simpa using congrArg (BitVec.truncate 32) h)
  have hlow : writeMask (ringAt r i n).info &&& BitVec.ofNat 64 (fieldN (8 * 4 - 1) 0 (2 ^ 64 - 1)) = writeMask (ringAt r i n).info := by
    change writeMask i &&& _ = writeMask i
    rw [hmask, show BitVec.ofNat 64 (fieldN (8 * 4 - 1) 0 (2 ^ 64 - 1)) = (BitVec.allOnes 32).zeroExtend 64 by decide,
      BitVec.zeroExtend_eq_setWidth, BitVec.zeroExtend_eq_setWidth, ← BitVec.setWidth_and, BitVec.and_allOnes]
  have hreg : isSelection (ringAt r i n).reg = false ∧ (ringAt r i n).reg ≠ .pgXkey := by
    change isSelection r = false ∧ r ≠ .pgXkey
    rcases hr with rfl | rfl | rfl <;> decide
  have hjudged : judged o (ringPage n) x s.dev = dropChal o (ringPage n) s.dev := if_neg (by omega)
  have heff : ∀ d w, regEffect d o (ringAt r i n) w = effRng d o (ringAt r i n) w := fun d w => if_neg (by rw [ringAt, hpage]; decide)
  rw [write32_passed P (regFind_ringAt hn hlo hat) hreg.1 hreg.2 rfl hclass hne (by omega) (by unfold ringPage; omega) (by omega) h4
    (by unfold ringPage; omega) hlow, hjudged, heff]
  exact congrArg (fun k => Host.Outcome.next (answerOf s o (ringPage n) x 4 (v.zeroExtend 64) (ringAt r i n)
    (effRng (dropChal o (ringPage n) s.dev) o (ringAt r i n) (merged s o (ringPage n) x (v.zeroExtend 64) k)))) hmask

end

/-! ### What the registers show and say of a write (R172 to R174) -/

section
variable (d : Dev) (o : Origin) (n : Nat) (w : DWord)

/-- A register that keeps every bit and has none that acts once shows what it holds. -/
theorem regShown_ringAt {r : Reg} {i : RegInfo} (hr : r = .srCtl ∨ r = .crCtl ∨ r = .crOwn)
    (hkeep : accMask i (fun x => x = .wo || x = .sc) = 0#64) : regShown d o (ringAt r i n) = regView d o (ringAt r i n) := by
  have hbusy : selfBusy d (ringAt r i n) = 0 := by rcases hr with rfl | rfl | rfl <;> rfl
  have hmask : accMask (ringAt r i n).info (fun x => x = .wo || x = .sc) = 0#64 := hkeep
  rw [regShown, hmask, hbusy, BitVec.not_zero, BitVec.and_allOnes]
  exact BitVec.or_zero

theorem regShown_srCtl : regShown d o (ringAt .srCtl srCtlInfo n) = (srGet d n).ctl.zeroExtend 64 := by
  have hview : regView d o (ringAt .srCtl srCtlInfo n) = (srGet d (ringOf (ringAt .srCtl srCtlInfo n))).ctl.zeroExtend 64 := rfl
  rw [regShown_ringAt d o n (.inl rfl) (by decide), hview, ringOf_ringAt]

theorem regShown_crCtl : regShown d o (ringAt .crCtl crCtlInfo n) = (crGet d n).ctl.zeroExtend 64 := by
  have hview : regView d o (ringAt .crCtl crCtlInfo n) = (crGet d (ringOf (ringAt .crCtl crCtlInfo n))).ctl.zeroExtend 64 := rfl
  rw [regShown_ringAt d o n (.inr (.inl rfl)) (by decide), hview, ringOf_ringAt]

theorem regShown_crOwn : regShown d o (ringAt .crOwn crOwnInfo n) = (crGet d n).own.zeroExtend 64 := by
  have hview : regView d o (ringAt .crOwn crOwnInfo n) = (crGet d (ringOf (ringAt .crOwn crOwnInfo n))).own.zeroExtend 64 := rfl
  rw [regShown_ringAt d o n (.inr (.inr rfl)) (by decide), hview, ringOf_ringAt]

/-- SR_CTL: its origin must be the ring's, and SIZE is fixed under EN. -/
theorem effRng_srCtl : effRng d o (ringAt .srCtl srCtlInfo n) w =
    if !(mayRing o (srGet d n).own) then .denied id
    else if bit (srGet d n).ctl 31 && decide (bits (clampSize (w.truncate 32)) 27 24 ≠ bits (srGet d n).ctl 27 24) then .cfgerr (srCfgErr n)
    else .ok (srCtlWrite n (w.truncate 32)) := by
  have h : effRng d o (ringAt .srCtl srCtlInfo n) w =
      let k := ringOf (ringAt .srCtl srCtlInfo n)
      let r := srGet d k
      if !(mayRing o r.own) then .denied id
      else if srLocked d k r.base r.shadow (w.truncate 32) r.own then .cfgerr (srCfgErr k) else .ok (srCtlWrite k (w.truncate 32)) := rfl
  rw [h, ringOf_ringAt]
  simp only [srLocked, ne_eq, not_true, decide_false, Bool.false_or, Bool.or_false]

/-- Class P may set EN of a ring that has an owner, alone (R174). -/
def setsEnAlone (q : CRing) (o : Origin) (u : Word) : Bool :=
  isP o && (ownOf q.own).isSome && bit u 31 && decide (clampSize u = setBit q.ctl 31 true)

/-- CR_CTL: the same, but for class P. -/
theorem effRng_crCtl : effRng d o (ringAt .crCtl crCtlInfo n) w =
    if setsEnAlone (crGet d n) o (w.truncate 32) then .ok (crCtlWrite n (w.truncate 32))
    else if !(mayRing o (crGet d n).own) then .denied id
    else if bit (crGet d n).ctl 31 && decide (bits (clampSize (w.truncate 32)) 27 24 ≠ bits (crGet d n).ctl 27 24) then .cfgerr (crCfgErr n)
    else .ok (crCtlWrite n (w.truncate 32)) := by
  have h : effRng d o (ringAt .crCtl crCtlInfo n) w =
      let k := ringOf (ringAt .crCtl crCtlInfo n)
      let r := crGet d k
      if setsEnAlone r o (w.truncate 32) then .ok (crCtlWrite k (w.truncate 32))
      else if !(mayRing o r.own) then .denied id
      else if crLocked d k r.base (w.truncate 32) r.own then .cfgerr (crCfgErr k) else .ok (crCtlWrite k (w.truncate 32)) := rfl
  rw [h, ringOf_ringAt]
  simp only [crLocked, ne_eq, not_true, decide_false, Bool.false_or, Bool.or_false]

/-- CR_OWN: class P names any owner, a PF one of its port; it is fixed under EN and while the ring is not empty. -/
theorem effRng_crOwn : effRng d o (ringAt .crOwn crOwnInfo n) w =
    if !(isP o || isPf o (bits w 7 7)) then .denied id
    else if crLocked d n (crGet d n).base (crGet d n).ctl (w.truncate 32) || crOwnBusy d n then .cfgerr (crCfgErr n)
    else .ok (crOwnWrite n (w.truncate 32)) := by
  have h : effRng d o (ringAt .crOwn crOwnInfo n) w =
      let k := ringOf (ringAt .crOwn crOwnInfo n)
      if !(isP o || isPf o (bits w 7 7)) then .denied id
      else if crLocked d k (crGet d k).base (crGet d k).ctl (w.truncate 32) || crOwnBusy d k then .cfgerr (crCfgErr k)
      else .ok (crOwnWrite k (w.truncate 32)) := rfl
  rw [h, ringOf_ringAt]

end

/-- Two effects that agree on devices with the rings there were leave the same machine. -/
theorem wrote_rings {s : State} {o : Origin} {page x size : Nat} {val : DWord} {f g : Dev → Dev} (hx : x < 0x800)
    (h : ∀ d, d.srings = s.dev.srings → d.crings = s.dev.crings → f d = g d) :
    wrote s o page x size val f = wrote s o page x size val g := by
  have hjudged : judged o page x s.dev = dropChal o page s.dev := if_neg (by omega)
  obtain ⟨⟨_, _, _, _, _, _, _, he⟩, -⟩ := sameButLog_auditWords o page x size val (oldShown s o page x size) (if 0x800 ≤ x then 0x10 else 0)
    (judged o page x s.dev)
  unfold wrote
  rw [h _ (by rw [he, hjudged]; rfl) (by rw [he, hjudged]; rfl)]

end Sys2Proof.Machine
end

section
/-!
THEOREM. Writes of the registers of rings (O33).
-/
namespace Sys2Proof.Machine

open Sys2Proof

/-! ### What a write keeps of its value -/

theorem srCtlWrite_congr {n : Nat} {u v : Word} (h : u &&& 0xCF00FFFF#32 = v &&& 0xCF00FFFF#32) : srCtlWrite n u = srCtlWrite n v := by
  funext d
  simp only [srCtlWrite, h]

theorem crCtlWrite_congr {n : Nat} {u v : Word} (h : u &&& 0xEF0007FF#32 = v &&& 0xEF0007FF#32) : crCtlWrite n u = crCtlWrite n v := by
  funext d
  simp only [crCtlWrite, h]

section
variable {s : State} {o : Origin} {n : Nat} {v : Word} (hn : n < 4096)
include hn

/-! ### The writes (R405) -/

/-- A write of SR_CTL. -/
theorem exec_srCtlEnSet (P : Passes s o (ringPage n) (startRegs n + 0x10) [4, 3, 2]) :
    exec (.srCtlEnSet o n v) s = .next (
      let r := srGet s.dev n
      if mayRing o r.own = false then deniedWrite s o (ringPage n) (startRegs n + 0x10) 4 (v.zeroExtend 64)
      else if bit r.ctl 31 = true ∧ bits (clampSize (v &&& 0xCF00FFFF#32)) 27 24 ≠ bits r.ctl 27 24
        then ignoredWrite s o (ringPage n) (startRegs n + 0x10) 4 (v.zeroExtend 64) (srCfgErr n)
      else wrote s o (ringPage n) (startRegs n + 0x10) 4 (v.zeroExtend 64) (srCtlWrite n v)) := by
  have hoff : startRegs n + 0x10 = 0x110 + 0x20 * (n % 16) := by unfold startRegs; omega
  have hat : regAtOff (startRegs n + 0x10) (pageRegs .rng) = some (.srCtl, srCtlInfo, n % 16, 0) :=
    hoff ▸ regAtOff_srCtl (n % 16) (by omega)
  have hval := merged_ringAt (v := v) (m := 0xCF00FFFF#32) (regFind_ringAt hn (by omega) hat)
    (regShown_srCtl (dropChal o (ringPage n) s.dev) o n)
  have hsize : bits (clampSize ((srGet s.dev n).ctl &&& ~~~0xCF00FFFF#32 ||| v &&& 0xCF00FFFF#32)) 27 24
      = bits (clampSize (v &&& 0xCF00FFFF#32)) 27 24 := by
    rw [bits_clampSize, bits_clampSize, bits_merged_word _ _ (by decide), bits_masked (by decide)]
  have hwrite := write_ringAt (v := v) P hn (by omega) (by omega) (by omega) hat (.inl rfl) writeMask_srCtl (by decide) rfl
  have hrings : srGet (dropChal o (ringPage n) s.dev) n = srGet s.dev n := rfl
  rw [effRng_srCtl, hval, hrings, hsize, srCtlWrite_congr (merged_and _ _ _)] at hwrite
  have hexec : exec (.srCtlEnSet o n v) s = run s (write32 o (ringPage n) (startRegs n + 0x10) v) := by rw [hoff]; rfl
  rw [hexec, hwrite]
  refine congrArg Host.Outcome.next ?_
  dsimp only
  cases hmay : mayRing o (srGet s.dev n).own with
  | false => rfl
  | true =>
    by_cases hlock : bit (srGet s.dev n).ctl 31 = true ∧ bits (clampSize (v &&& 0xCF00FFFF#32)) 27 24 ≠ bits (srGet s.dev n).ctl 27 24
    · rw [if_neg (by decide), if_pos (by simpa using hlock), if_neg (by decide), if_pos hlock, answerOf_cfgerr]
    · rw [if_neg (by decide), if_neg (by simpa using hlock), if_neg (by decide), if_neg hlock,
        answerOf_ok _ (by simp [ringAt]) (by simp [ringAt]) (by simp [ringAt])]

/-- CR_CTL with the bits of a word in it. -/
def crCtlMerged (q : CRing) (v : Word) : Word := q.ctl &&& 0x10FFF800#32 ||| v &&& 0xEF0007FF#32

/-- A write of CR_CTL. -/
theorem exec_crCtlEnWrite (P : Passes s o (ringPage n) (complRegs n + 8) [4, 3, 2]) :
    exec (.crCtlEnWrite o n v) s = .next (
      let q := crGet s.dev n
      if setsEnAlone q o (crCtlMerged q v) = true then wrote s o (ringPage n) (complRegs n + 8) 4 (v.zeroExtend 64) (crCtlWrite n v)
      else if mayRing o q.own = false then deniedWrite s o (ringPage n) (complRegs n + 8) 4 (v.zeroExtend 64)
      else if bit q.ctl 31 = true ∧ bits (clampSize (v &&& 0xEF0007FF#32)) 27 24 ≠ bits q.ctl 27 24
        then ignoredWrite s o (ringPage n) (complRegs n + 8) 4 (v.zeroExtend 64) (crCfgErr n)
      else wrote s o (ringPage n) (complRegs n + 8) 4 (v.zeroExtend 64) (crCtlWrite n v)) := by
  have hoff : complRegs n + 8 = 0x308 + 0x40 * (n % 16) := by unfold complRegs; omega
  have hat : regAtOff (complRegs n + 8) (pageRegs .rng) = some (.crCtl, crCtlInfo, n % 16, 0) :=
    hoff ▸ regAtOff_crCtl (n % 16) (by omega)
  have hval := merged_ringAt (v := v) (m := 0xEF0007FF#32) (regFind_ringAt hn (by omega) hat)
    (regShown_crCtl (dropChal o (ringPage n) s.dev) o n)
  have hsize : bits (clampSize ((crGet s.dev n).ctl &&& ~~~0xEF0007FF#32 ||| v &&& 0xEF0007FF#32)) 27 24
      = bits (clampSize (v &&& 0xEF0007FF#32)) 27 24 := by
    rw [bits_clampSize, bits_clampSize, bits_merged_word _ _ (by decide), bits_masked (by decide)]
  have hwrite := write_ringAt (v := v) P hn (by omega) (by omega) (by omega) hat (.inr (.inl rfl)) writeMask_crCtl (by decide) rfl
  have hrings : crGet (dropChal o (ringPage n) s.dev) n = crGet s.dev n := rfl
  rw [effRng_crCtl, hval, hrings, hsize, crCtlWrite_congr (merged_and _ _ _)] at hwrite
  have hexec : exec (.crCtlEnWrite o n v) s = run s (write32 o (ringPage n) (complRegs n + 8) v) := by rw [hoff]; rfl
  rw [hexec, hwrite]
  refine congrArg Host.Outcome.next ?_
  dsimp only
  have hok := answerOf_ok (s := s) (o := o) (page := ringPage n) (x := complRegs n + 8) (size := 4) (val := v.zeroExtend 64)
    (a := ringAt .crCtl crCtlInfo n) (crCtlWrite n v) (by simp [ringAt]) (by simp [ringAt]) (by simp [ringAt])
  by_cases halone : setsEnAlone (crGet s.dev n) o (crCtlMerged (crGet s.dev n) v) = true
  · rw [if_pos halone, ← hok]
    exact congrArg _ (if_pos halone)
  rw [if_neg halone]
  refine (congrArg _ (if_neg halone)).trans ?_
  cases hmay : mayRing o (crGet s.dev n).own with
  | false => rfl
  | true =>
    by_cases hlock : bit (crGet s.dev n).ctl 31 = true ∧ bits (clampSize (v &&& 0xEF0007FF#32)) 27 24 ≠ bits (crGet s.dev n).ctl 27 24
    · rw [if_neg (by decide), if_pos (by simpa using hlock), if_neg (by decide), if_pos hlock, answerOf_cfgerr]
    · rw [if_neg (by decide), if_neg (by simpa using hlock), if_neg (by decide), if_neg hlock, hok]

/-- CR_OWN with the bits of a word in it. -/
def crOwnMerged (q : CRing) (v : Word) : Word := q.own &&& 0xFFFFFF00#32 ||| v &&& 0xFF#32

/-- Is a write of CR_OWN ignored? -/
def crOwnKept (d : Dev) (n : Nat) (z : Word) : Prop :=
  bit (crGet d n).ctl 31 = true ∧ (12 < bits (crGet d n).ctl 27 24 ∨ z ≠ (crGet d n).own)
    ∨ ¬ ((crGet d n).fifo.items = [] ∧ stalledCount d n = 0)

omit hn in
theorem crOwnKept_iff (d : Dev) (n : Nat) (z : Word) :
    (crLocked d n (crGet d n).base (crGet d n).ctl z || crOwnBusy d n) = true ↔ crOwnKept d n z := by
  have hsize : bits (clampSize (crGet d n).ctl) 27 24 ≠ bits (crGet d n).ctl 27 24 ↔ 12 < bits (crGet d n).ctl 27 24 := by
    rw [bits_clampSize]
    omega
  simp only [crLocked, crOwnBusy, crOwnKept, Bool.or_eq_true, Bool.and_eq_true, decide_eq_true_eq, hsize, Bool.not_eq_true',
    List.isEmpty_eq_false_iff, ne_eq, not_true, decide_false, Bool.false_or, not_and_or]

/-- A write of CR_OWN. -/
theorem exec_crOwnWrite (P : Passes s o (ringPage n) (complRegs n + 0xC) [4, 3, 2]) :
    (¬ (originClass o = 4 ∨ o = .hostPf (bits v 7 7)) → exec (.crOwnWrite o n v) s
      = .next (deniedWrite s o (ringPage n) (complRegs n + 0xC) 4 (v.zeroExtend 64)))
    ∧ (originClass o = 4 ∨ o = .hostPf (bits v 7 7) →
      (crOwnKept s.dev n (crOwnMerged (crGet s.dev n) v) → exec (.crOwnWrite o n v) s
        = .next (ignoredWrite s o (ringPage n) (complRegs n + 0xC) 4 (v.zeroExtend 64) (crCfgErr n)))
      ∧ (¬ crOwnKept s.dev n (crOwnMerged (crGet s.dev n) v) → exec (.crOwnWrite o n v) s
        = .next (wrote s o (ringPage n) (complRegs n + 0xC) 4 (v.zeroExtend 64) (crOwnWrite n (crOwnMerged (crGet s.dev n) v))))) := by
  have hoff : complRegs n + 0xC = 0x30C + 0x40 * (n % 16) := by unfold complRegs; omega
  have hat : regAtOff (complRegs n + 0xC) (pageRegs .rng) = some (.crOwn, crOwnInfo, n % 16, 0) :=
    hoff ▸ regAtOff_crOwn (n % 16) (by omega)
  have hval : _ = crOwnMerged (crGet s.dev n) v := merged_ringAt (v := v) (m := 0xFF#32) (regFind_ringAt hn (by omega) hat)
    (regShown_crOwn (dropChal o (ringPage n) s.dev) o n)
  have hport : bits (merged s o (ringPage n) (complRegs n + 0xC) (v.zeroExtend 64) ((0xFF#32).zeroExtend 64)) 7 7 = bits v 7 7 :=
    bits_merged s o _ _ v (by decide)
  have hwrite := write_ringAt (v := v) P hn (by omega) (by omega) (by omega) hat (.inr (.inr rfl)) writeMask_crOwn (by decide) rfl
  rw [effRng_crOwn, hval, hport] at hwrite
  have hexec : exec (.crOwnWrite o n v) s = run s (write32 o (ringPage n) (complRegs n + 0xC) v) := by rw [hoff]; rfl
  have howns : (!(isP o || isPf o (bits v 7 7))) = true ↔ ¬ (originClass o = 4 ∨ o = .hostPf (bits v 7 7)) := by
    simp [isP, isPf]
  have hkept := crOwnKept_iff (dropChal o (ringPage n) s.dev) n (crOwnMerged (crGet s.dev n) v)
  rw [hexec, hwrite]
  refine ⟨fun h => ?_, fun h => ⟨fun k => ?_, fun k => ?_⟩⟩
  · rw [if_pos (howns.mpr h), answerOf_denied]
  · rw [if_neg (fun g => howns.mp g h), if_pos (hkept.mpr k), answerOf_cfgerr]
  · rw [if_neg (fun g => howns.mp g h), if_neg (fun g => k (hkept.mp g)),
      answerOf_ok _ (by simp [ringAt]) (by simp [ringAt]) (by simp [ringAt])]

end

/-! ### The effects, on a device with the rings there were -/

section
variable {n : Nat} {v : Word} {d : Dev}

theorem bit31_srCtl (v : Word) : bit (clampSize (v &&& 0xCF00FFFF#32)) 31 = bit v 31 := by
  rw [bit31_clampSize, bit, BitVec.getLsbD_and, show (0xCF00FFFF#32).getLsbD 31 = true by decide, Bool.and_true, bit]

theorem bit31_crCtl (v : Word) : bit (clampSize (v &&& 0xEF0007FF#32)) 31 = bit v 31 := by
  rw [bit31_clampSize, bit, BitVec.getLsbD_and, show (0xEF0007FF#32).getLsbD 31 = true by decide, Bool.and_true, bit]

/-- Setting EN begins anew (R172). -/
theorem srCtlWrite_enables (hoff : bit (srGet d n).ctl 31 = false) (hon : bit v 31 = true) : srCtlWrite n v d =
    srSet n { srGet d n with
      ctl := clampSize (v &&& 0xCF00FFFF#32), cons := 0, phase := true, pref := [], rd := .idle, stale := 0
      dirty := (srGet d n).dirty || (decide ((srGet d n).shadow ≠ 0) && decide ((srGet d n).cons ≠ 0))
      port := ringChoice d (srGet d n).own (srGet d n).base } d :=
  if_pos (by rw [bit31_srCtl, hoff, hon]; rfl)

/-- Under EN the other fields change alone. -/
theorem srCtlWrite_stays (hen : bit (srGet d n).ctl 31 = true) (hon : bit v 31 = true) : srCtlWrite n v d =
    srSet n { srGet d n with ctl := clampSize (v &&& 0xCF00FFFF#32) } d :=
  (if_neg (by simp [hen])).trans (if_pos (by rw [bit31_srCtl, hon]))

/-- Clearing EN discards what was read ahead (R172). -/
theorem srCtlWrite_disables (hoff : bit v 31 = false) : srCtlWrite n v d =
    srSet n { srGet d n with ctl := clampSize (v &&& 0xCF00FFFF#32), pref := [], rd := .idle } d :=
  (if_neg (by rw [bit31_srCtl, hoff, Bool.and_false]; decide)).trans (if_neg (by rw [bit31_srCtl, hoff]; decide))

/-- Setting EN resets the counts and places what the deep FIFO holds (R158, R173). -/
theorem crCtlWrite_enables (hoff : bit (crGet d n).ctl 31 = false) (hon : bit v 31 = true) : crCtlWrite n v d =
    ringProgress n (crSet n { crGet d n with
      ctl := clampSize (v &&& 0xEF0007FF#32), prod := 0, cons := 0, phase := true
      port := ringChoice d (crGet d n).own (crGet d n).base } d) :=
  if_pos (by rw [bit31_crCtl, hoff, hon]; rfl)

/-- Any other write changes the register alone. -/
theorem crCtlWrite_stays (h : bit (crGet d n).ctl 31 = true ∨ bit v 31 = false) : crCtlWrite n v d =
    crSet n { crGet d n with ctl := clampSize (v &&& 0xEF0007FF#32) } d :=
  if_neg (by rw [bit31_crCtl]; rcases h with h | h <;> simp [h])

end

theorem crGet_congr {d e : Dev} (h : e.crings = d.crings) (n : Nat) : crGet e n = crGet d n := by rw [crGet, h, crGet]

theorem bit31_crCtlMerged (q : CRing) (v : Word) : bit (crCtlMerged q v) 31 = bit v 31 := by
  simp only [crCtlMerged, bit, BitVec.getLsbD_or, BitVec.getLsbD_and, show (0x10FFF800#32).getLsbD 31 = false by decide,
    show (0xEF0007FF#32).getLsbD 31 = true by decide, Bool.and_false, Bool.and_true, Bool.false_or]

theorem setsEnAlone_iff {q : CRing} {o : Origin} {v : Word} : setsEnAlone q o (crCtlMerged q v) = true ↔
    originClass o = 4 ∧ ownOf q.own ≠ none ∧ bit v 31 = true ∧ clampSize (crCtlMerged q v) = setBit q.ctl 31 true := by
  simp only [setsEnAlone, isP, bit31_crCtlMerged, Bool.and_eq_true, decide_eq_true_eq, Option.isSome_iff_ne_none, and_assoc]

/-- Class P sets EN alone only where SIZE stays as it is. -/
theorem setsEnAlone_size {q : CRing} {o : Origin} {v : Word} (h : setsEnAlone q o (crCtlMerged q v) = true) :
    bits (clampSize (v &&& 0xEF0007FF#32)) 27 24 = bits q.ctl 27 24 := by
  obtain ⟨-, -, -, heq⟩ := setsEnAlone_iff.mp h
  have hmerged : bits (crCtlMerged q v) 27 24 = bits v 27 24 := bits_merged_word q.ctl v (m := 0xEF0007FF#32) (by decide)
  calc bits (clampSize (v &&& 0xEF0007FF#32)) 27 24
    _ = bits (clampSize (crCtlMerged q v)) 27 24 := by rw [bits_clampSize, bits_clampSize, bits_masked (by decide), hmerged]
    _ = bits (setBit q.ctl 31 true) 27 24 := by rw [heq]
    _ = bits q.ctl 27 24 := bits_congr fun k _ hhi => getLsbD_setBits_of_outside _ (.inl (by omega))

/-- Settles O33. -/
theorem ringRegisters : Obligations.RingRegisters := by
  intro s o n v hn page w r q
  refine ⟨?_, ?_, ?_⟩
  · intro x z P
    have hwrite := exec_srCtlEnSet (v := v) hn P
    have hlow : x < 0x800 := by simp only [x, startRegs]; omega
    have same : ∀ d : Dev, d.srings = s.dev.srings → srGet d n = r := fun d h => srGet_congr h n
    refine ⟨fun hno => hwrite.trans (congrArg _ (if_pos hno)), fun hmay => ?_⟩
    have hmay' : ¬ mayRing o r.own = false := by rw [hmay]; decide
    have hgood : ¬ (bit r.ctl 31 = true ∧ bits z 27 24 ≠ bits r.ctl 27 24) →
        exec (.srCtlEnSet o n v) s = .next (wrote s o page x 4 w (srCtlWrite n v)) := fun h =>
      hwrite.trans (congrArg _ ((if_neg hmay').trans (if_neg h)))
    refine ⟨fun hen hsize => ?_, fun hen hon => ?_, fun hen hsize hon => ?_, fun hfree hoff => ?_⟩
    · exact hwrite.trans (congrArg _ ((if_neg hmay').trans (if_pos ⟨hen, hsize⟩)))
    · rw [hgood (by simp [hen])]
      refine congrArg _ (wrote_rings hlow fun d hs hc => ?_)
      have hr := same d hs
      rw [srCtlWrite_enables (by rw [hr]; exact hen) hon, hr]
    · rw [hgood (by simp [hsize])]
      refine congrArg _ (wrote_rings hlow fun d hs hc => ?_)
      exact srCtlWrite_stays (by rw [same d hs]; exact hen) hon
    · rw [hgood (by rcases hfree with h | h <;> simp [h])]
      exact congrArg _ (wrote_rings hlow fun d hs hc => srCtlWrite_disables hoff)
  · intro x z only P
    have hwrite := exec_crCtlEnWrite (v := v) hn P
    have hlow : x < 0x800 := by simp only [x, complRegs]; omega
    have same : ∀ d : Dev, d.crings = s.dev.crings → crGet d n = q := fun d h => crGet_congr h n
    have honly : setsEnAlone q o (crCtlMerged q v) = true ↔ only := setsEnAlone_iff
    have hgood : only ∨ mayRing o q.own = true ∧ ¬ (bit q.ctl 31 = true ∧ bits z 27 24 ≠ bits q.ctl 27 24) →
        exec (.crCtlEnWrite o n v) s = .next (wrote s o page x 4 w (crCtlWrite n v)) := by
      intro h
      refine hwrite.trans (congrArg _ ?_)
      by_cases hal : only
      · exact if_pos (honly.mpr hal)
      · obtain ⟨hmay, hfree⟩ := h.resolve_left hal
        exact (if_neg (fun g => hal (honly.mp g))).trans ((if_neg (by rw [hmay]; decide)).trans (if_neg hfree))
    have henables : bit q.ctl 31 = false → bit v 31 = true → wrote s o page x 4 w (crCtlWrite n v) = wrote s o page x 4 w (fun d =>
        ringProgress n (crSet n { crGet d n with ctl := z, prod := 0, cons := 0, phase := true, port := ringChoice d q.own q.base } d)) :=
      fun hen hon => wrote_rings hlow fun d hs hc => by
        have hq := same d hc
        rw [crCtlWrite_enables (by rw [hq]; exact hen) hon, hq]
    have hstays : bit q.ctl 31 = true ∨ bit v 31 = false →
        wrote s o page x 4 w (crCtlWrite n v) = wrote s o page x 4 w (fun d => crSet n { crGet d n with ctl := z } d) :=
      fun h => wrote_rings hlow fun d hs hc => crCtlWrite_stays (by rw [same d hc]; exact h)
    refine ⟨fun hno hal => ?_, fun hmay hen hsize => ?_, fun hwho hen hon => ?_, fun h => ?_⟩
    · exact hwrite.trans (congrArg _ ((if_neg (fun g => hal (honly.mp g))).trans (if_pos hno)))
    · have hal : ¬ setsEnAlone q o (crCtlMerged q v) = true := fun g => hsize (setsEnAlone_size g)
      exact hwrite.trans (congrArg _ ((if_neg hal).trans ((if_neg (by rw [hmay]; decide)).trans (if_pos ⟨hen, hsize⟩))))
    · rw [hgood (hwho.symm.imp_right fun hmay => ⟨hmay, by simp [hen]⟩), henables hen hon]
    · rcases h with ⟨hmay, hen, hsize⟩ | ⟨hal, hen⟩ | ⟨hmay, hen, hoff⟩
      · rw [hgood (.inr ⟨hmay, by simp [hsize]⟩), hstays (.inl hen)]
      · rw [hgood (.inl hal), hstays (.inl hen)]
      · rw [hgood (.inr ⟨hmay, by simp [hen]⟩), hstays (.inr hoff)]
  · intro x z empty P
    obtain ⟨hdenied, howner⟩ := exec_crOwnWrite (v := v) hn P
    refine ⟨fun hp hf => hdenied (not_or.mpr ⟨hp, hf⟩), fun hown => ?_⟩
    obtain ⟨hkept, hnamed⟩ := howner hown
    refine ⟨fun hfree hempty => hnamed ?_, fun h => hkept ?_⟩
    · rintro (⟨hen, hbad⟩ | hfull)
      · rcases hfree with hoff | ⟨hle, heq⟩
        · exact Bool.false_ne_true (hoff.symm.trans hen)
        · exact hbad.elim (Nat.not_lt.mpr hle) (fun hne => hne heq)
      · exact hfull hempty
    · exact h.imp_left fun ⟨hen, hne⟩ => ⟨hen, .inr hne⟩

end Sys2Proof.Machine
end

section
/-!
THEOREM. The messages of armed rings, and requests to host memory (parts of O24).
-/
namespace Sys2Proof.Machine

open Sys2Proof

/-! ### Requests to host memory (R43, R271, R515) -/

/-- A choice of a port notes itself and nothing else. -/
theorem takePort_frame (v : Via) (f : FnId) (a : Nat) (d : Dev) :
    ∃ l t, takePort v f a d = (portOf d v f a, { d with sgLast := l, subs := t }) := by
  have hnote : ∀ p, ∃ l t, notePort v p d = { d with sgLast := l, subs := t } := by
    intro p
    unfold notePort
    dsimp only
    split
    · split
      · exact ⟨_, d.subs, rfl⟩
      · obtain ⟨t, h⟩ := subSet_frame ‹Nat› { subGet { d with sgLast := tset d.sgLast 2 p 63 } ‹Nat› with sgUp := some p }
          { d with sgLast := tset d.sgLast 2 p 63 }
        exact ⟨_, t, h⟩
    · exact ⟨_, d.subs, rfl⟩
  obtain ⟨l, t, h⟩ := hnote (portOf d v f a)
  unfold takePort
  dsimp only
  split
  · exact ⟨d.sgLast, d.subs, rfl⟩
  · exact ⟨d.sgLast, d.subs, rfl⟩
  · exact ⟨l, t, by rw [h]⟩

section
variable {d : Dev} {v : Via} {f : FnId} {a : DWord} {len : Nat}

theorem sendHost_eq (o : HostReq) : sendHost v f o d =
    if (fnGet d f).pasid = true ∧ regFld d .upFnpasid (fnKey f) 31 31 = 1 then
      emit (o.out f (portOf d v f o.addr.toNat)) (emit (.pasid f (regFld d .upFnpasid (fnKey f) 19 0)) (takePort v f o.addr.toNat d).2)
    else emit (o.out f (portOf d v f o.addr.toNat)) (takePort v f o.addr.toNat d).2 := by
  obtain ⟨l, t, h⟩ := takePort_frame v f o.addr.toNat d
  unfold sendHost
  rw [h]
  simp only [Bool.and_eq_true, decide_eq_true_eq]
  rfl

/-- An access within one page touches it alone. -/
theorem pagesOf_one (hfit : a.toNat % 4096 + len ≤ 4096) : pagesOf a len = [a.toNat / 4096] := by
  have hcount : (a.toNat % 4096 + max len 1 + 4095) / 4096 = 1 := by omega
  rw [pagesOf, hcount]
  rfl

theorem untranslated_one (hats : (fnGet d f).ats = true) (hfit : a.toNat % 4096 + len ≤ 4096) :
    untranslated d f a len = if hasXlate d f (a.toNat / 4096) = true then [] else [a.toNat / 4096] := by
  rw [untranslated, if_pos hats, pagesOf_one hfit]
  cases h : hasXlate d f (a.toNat / 4096) <;> simp [h]

theorem askXlate_one (pg : Nat) (d : Dev) : askXlate f [pg] d =
    if (fnKey f, pg) ∈ d.xasked then d else emit (.xlate f pg) { d with xasked := d.xasked ++ [(fnKey f, pg)] } := by
  simp only [askXlate, List.foldl_cons, List.foldl_nil, List.contains_iff_mem]

end

theorem hostAccesses : HostAccesses := by
  intro d v f a len x o wait pg q
  have hq : q.1 = portOf d v f a.toNat := by
    obtain ⟨l, t, h⟩ := takePort_frame v f a.toNat d
    exact congrArg Prod.fst h
  have hsend : sendHost v f o d = _ := sendHost_eq o
  refine ⟨hq, hostOut_d3hot, fun hp hr => ?_, fun h => ?_, fun h3 ha => hostOut_sends h3 (outPages_atsOff ha o),
    fun h3 ha _ hfit => ?_, fun hheld h3 ha => ?_⟩
  · rw [hsend, if_pos ⟨hp, hr⟩, hq]
    rfl
  · rw [hsend, if_neg ?_, hq]
    · rfl
    · rintro ⟨hp, hr⟩
      rcases h with h | h
      · exact Bool.false_ne_true (h.symm.trans hp)
      · omega
  · have hpages : outPages d f o = if hasXlate d f pg = true then [] else [pg] := untranslated_one ha hfit
    have hask : hasXlate d f pg = false → hostOut v f o d = askXlate f [pg] wait := fun hx => by
      have hone : outPages d f o = [pg] := hpages.trans (if_neg (by rw [hx]; decide))
      rw [hostOut_asks h3 (by rw [hone]; exact List.cons_ne_nil _ _), hone]
    refine ⟨fun hx => hostOut_sends h3 (hpages.trans (if_pos hx)), fun hx hin => ?_, fun hx hout => ?_⟩
    · rw [hask hx, askXlate_one]
      exact if_pos hin
    · rw [hask hx, askXlate_one]
      exact if_neg hout
  · rw [releaseOut, hheld]
    exact hostOut_sends h3 (outPages_atsOff ha o)

/-! ### Messages (R167, R168, R170) -/

section
variable {d : Dev} {n : Nat} {f : FnId}

/-- The ring stands unarmed as its message is due. -/
def unarmed (n : Nat) (d : Dev) : Dev := crSet n { crGet d n with armed := false, armCnt := 0 } d

section
variable (hown : ownOf (crGet d n).own = some f) (hv : bits (crGet d n).ctl 10 0 < msixSize d f) (h3 : (fnGet d f).d3hot = false)
include hown hv h3

theorem sendMessage_d0 : sendMessage n d =
    if ((fnGet d f).msixMask || (fnGet d f).vecMask.contains (bits (crGet d n).ctl 10 0)) = true then
      fnSet f { fnGet d f with pba := if (fnGet d f).pba.contains (bits (crGet d n).ctl 10 0) then (fnGet d f).pba
                                      else (fnGet d f).pba ++ [bits (crGet d n).ctl 10 0] } (unarmed n d)
    else emit (.msix f (bits (crGet d n).ctl 10 0)) (unarmed n d) := by
  have hsize : ¬ msixSize (unarmed n d) f ≤ bits (crGet d n).ctl 10 0 := Nat.not_le.mpr hv
  have hfn : ¬ (fnGet (unarmed n d) f).d3hot = true := by
    change ¬ (fnGet d f).d3hot = true
    rw [h3]
    decide
  unfold sendMessage
  simp only [hown]
  refine (if_neg hsize).trans ((if_neg hfn).trans ?_)
  rfl

theorem sendMessage_sent (hmask : (fnGet d f).msixMask = false) (hvec : bits (crGet d n).ctl 10 0 ∉ (fnGet d f).vecMask) :
    sendMessage n d = emit (.msix f (bits (crGet d n).ctl 10 0)) (unarmed n d) := by
  rw [sendMessage_d0 hown hv h3, if_neg (by simp [hmask, hvec])]

theorem sendMessage_pending (hmask : (fnGet d f).msixMask = true ∨ bits (crGet d n).ctl 10 0 ∈ (fnGet d f).vecMask)
    (hpba : bits (crGet d n).ctl 10 0 ∉ (fnGet d f).pba) : sendMessage n d =
    fnSet f { fnGet d f with pba := (fnGet d f).pba ++ [bits (crGet d n).ctl 10 0] } (unarmed n d) := by
  rw [sendMessage_d0 hown hv h3, if_pos (by simpa using hmask), if_neg (by simpa using hpba)]

end

theorem fnSet_fnSet (f : FnId) (x y : Fn) (d : Dev) : fnSet f y (fnSet f x d) = fnSet f y d := by
  simp [fnSet]

/-- The device with a vector unmasked (R168). -/
def vecUnmasked (f : FnId) (k : Nat) (d : Dev) : Dev := fnSet f { fnGet d f with vecMask := (fnGet d f).vecMask.filter (· ≠ k) } d

/-- A vector that has just been unmasked is due exactly while it pends and the function does not mask all. -/
theorem mem_unmasked_vecUnmasked (k : Nat) : (unmasked (vecUnmasked f k d) f).contains k = true ↔
    k ∈ (fnGet d f).pba ∧ (fnGet d f).msixMask = false := by
  rw [vecUnmasked, unmasked, fnGet_fnSet_self]
  cases hm : (fnGet d f).msixMask <;> simp

/-- The function whose vector it is pends no longer, once its message leaves in D0. -/
theorem vecOut_sent (k : Nat) (h3 : (fnGet d f).d3hot = false) : vecOut f k (vecUnmasked f k d) = emit (.msix f k)
    (fnSet f { fnGet d f with vecMask := (fnGet d f).vecMask.filter (· ≠ k), pba := (fnGet d f).pba.filter (· ≠ k) } d) := by
  simp only [vecOut, vecUnmasked, fnGet_fnSet_self, fnSet_fnSet, h3, Bool.false_eq_true, if_false]

theorem vecOut_requests (k : Nat) (h3 : (fnGet d f).d3hot = true) : vecOut f k (vecUnmasked f k d) =
    if (fnGet d f).pmeEn = true then emit (.pme f) (fnSet f { fnGet d f with
      vecMask := (fnGet d f).vecMask.filter (· ≠ k), pmeStatus := true } d) else vecUnmasked f k d := by
  simp only [vecOut, vecUnmasked, fnGet_fnSet_self, fnSet_fnSet, h3, if_true]

end

/-- An owner is a function of one of the two ports. -/
theorem port_of_ownOf {w : Word} {f : FnId} (h : ownOf w = some f) : f.port < 2 := by
  unfold ownOf at h
  split at h
  · cases h
  · cases h
    exact Nat.mod_lt _ (by decide)

theorem msixSize_advanceTo {f : FnId} (hf : f.port < 2) (t : DWord) (d : Dev) : msixSize (advanceTo t d) f = msixSize d f := by
  simp only [msixSize, regFld, regGet_advanceTo t d (by decide : Reg.upVfvec ≠ .dbCnt) (by omega : f.port < 1048576)]

theorem exec_msixUnmask {s : State} (hs : Running s) (f : FnId) (k : Nat) : exec (.msixUnmask f k) s = .next (after s (
    if (unmasked (vecUnmasked f k s.dev) f).contains k then vecOut f k (vecUnmasked f k s.dev) else vecUnmasked f k s.dev)) := by
  have hexec : exec (.msixUnmask f k) s = run s (fun d =>
      let e := vecUnmasked f k d
      if (unmasked e f).contains k then vecOut f k e else e) := rfl
  exact hexec.trans (run_running _ _ hs)

/-- Where a function has one ring, that one goes on at its return to D0 (R170). -/
theorem d0Return_single {d : Dev} {f : FnId} {n : Nat}
    (h : ringsOf (hostResume (fnSet f { fnGet d f with d3hot := false, dueMsgs := [] } d)) f = [n]) :
    d0Return f d =
      let sent := (fnGet d f).dueMsgs.foldl (fun d k => sendMessage k d)
        (ringProgress n (hostResume (fnSet f { fnGet d f with d3hot := false, dueMsgs := [] } d)))
      (unmasked sent f).foldl (fun d v => vecOut f v d) sent := by
  unfold d0Return
  dsimp only
  rw [h, List.foldl_cons, List.foldl_nil]

theorem messages : Messages := by
  intro s f n hs d r x v off
  have hexpiry : exec (.msixHoldoffExpiry n) s = .next (after s (if r.armed then sendMessage n (advanceTo r.due d) else d)) :=
    run_running _ _ hs
  obtain ⟨u, g, he, -, -⟩ := advanceTo_frame r.due d
  refine ⟨fun h => hexpiry.trans (next_after_congr s (if_neg (by simp [h]))), fun h hown hv h3 => ?_, fun k => ?_, run_running _ _ hs, ?_⟩
  · have hdue : exec (.msixHoldoffExpiry n) s = .next (after s (sendMessage n (advanceTo r.due d))) :=
      hexpiry.trans (next_after_congr s (if_pos h))
    have hsize : msixSize (advanceTo r.due d) f = msixSize d f := msixSize_advanceTo (port_of_ownOf hown) _ _
    have hring : crGet (advanceTo r.due d) n = r := by rw [he]; rfl
    have hfn : fnGet (advanceTo r.due d) f = x := by rw [he]; rfl
    refine ⟨fun hm hvec => hdue.trans (next_after_congr s ?_), fun hm hp => hdue.trans (next_after_congr s ?_)⟩
    · rw [sendMessage_sent (f := f) (by rw [hring]; exact hown) (by rw [hring, hsize]; exact hv) (by rw [hfn]; exact h3) (by rw [hfn]; exact hm)
        (by rw [hring, hfn]; exact hvec), unarmed, hring]
    · rw [sendMessage_pending (f := f) (by rw [hring]; exact hown) (by rw [hring, hsize]; exact hv) (by rw [hfn]; exact h3)
        (by rw [hring, hfn]; exact hm) (by rw [hring, hfn]; exact hp), unarmed, hring, hfn]
  · have hunmask : exec (.msixUnmask f k) s = .next (after s (if (unmasked (vecUnmasked f k d) f).contains k then
        vecOut f k (vecUnmasked f k d) else vecUnmasked f k d)) := exec_msixUnmask hs f k
    have hdue := mem_unmasked_vecUnmasked (d := d) (f := f) k
    refine ⟨fun hk hm h3 => ?_, fun hk hm h3 hp => ?_, fun h => ?_⟩
    · exact hunmask.trans (next_after_congr s ((if_pos (hdue.mpr ⟨hk, hm⟩)).trans (vecOut_sent k h3)))
    · exact hunmask.trans (next_after_congr s ((if_pos (hdue.mpr ⟨hk, hm⟩)).trans ((vecOut_requests k h3).trans (if_pos hp))))
    · refine hunmask.trans (next_after_congr s ?_)
      split
      case isTrue hc =>
        obtain ⟨hk, hm⟩ := hdue.mp hc
        obtain ⟨h3, hp⟩ := (h.resolve_left (not_not.mpr hk)).resolve_left (by rw [hm]; decide)
        exact (vecOut_requests k h3).trans (if_neg (by rw [hp]; decide))
      case isFalse => rfl
  · intro back sent hfatal hback
    refine (run_liveP (d0Return f) ⟨hs, hfatal⟩).trans ?_
    have hsent : d0Return f s.dev = (unmasked sent f).foldl (fun d v => vecOut f v d) sent := d0Return_single hback
    rw [hsent]

end Sys2Proof.Machine
end

section
/-!
SUPPORT. What a ring that drains its last entry leaves alone, and what follows a command (R151, R154, R156).
-/
namespace Sys2Proof.Machine

open Sys2Proof

/-! ### After a command -/

/-- The completion rings and what was sent are the same. -/
def SameWire (d e : Dev) : Prop := e.crings = d.crings ∧ e.out = d.out

theorem SameWire.trans {a b c : Dev} (h : SameWire a b) (k : SameWire b c) : SameWire a c := ⟨k.1.trans h.1, k.2.trans h.2⟩

theorem sameWire_wakeCp (i : Nat) (d : Dev) : SameWire d (wakeCp i d) := by
  unfold wakeCp
  dsimp only
  split <;> exact ⟨rfl, rfl⟩

theorem sameWire_wakeSweep (d : Dev) : SameWire d (wakeSweep d) := by
  unfold wakeSweep
  have fold : ∀ (l : List Pres) (e : Dev), SameWire d e →
      SameWire d (l.foldl (fun d p => if decide ((cpGet d p.cp).run = .wait) then wakeCp p.cp d else d) e) := by
    intro l
    induction l with
    | nil => exact fun _ h => h
    | cons p t ih =>
      intro e h
      rw [List.foldl_cons]
      refine ih _ ?_
      split
      · exact h.trans (sameWire_wakeCp _ _)
      · exact h
  exact fold _ d ⟨rfl, rfl⟩

theorem sameWire_enterPack (k : PackCall) (d : Dev) : SameWire d (enterPack k d) := by
  unfold enterPack
  split <;> exact ⟨rfl, rfl⟩

theorem sameWire_tryCalls (l : List PackCall) (d : Dev) : SameWire d (tryCalls l d) := by
  induction l generalizing d with
  | nil => exact ⟨rfl, rfl⟩
  | cons k t ih =>
    unfold tryCalls
    split
    · exact (sameWire_enterPack k d).trans (ih _)
    · exact .trans (b := { d with packCalls := d.packCalls ++ [k] }) ⟨rfl, rfl⟩ (ih _)

/-- Waking CPs and calling packs touches no completion ring and sends nothing. -/
theorem sameWire_settle (d : Dev) : SameWire d (settle d) := by
  unfold settle
  dsimp only
  split
  · exact ⟨rfl, rfl⟩
  · split
    · exact sameWire_wakeSweep d
    · exact (sameWire_wakeSweep d).trans (.trans (b := { wakeSweep d with packCalls := [] }) ⟨rfl, rfl⟩ (sameWire_tryCalls _ _))

/-! ### Sweeps that find nothing -/

section
variable {d : Dev}

theorem retryStalled_nothing (h : d.stalled = []) : retryStalled d = d := by
  have same : ∀ l, d.stalled = l → ({ d with stalled := l } : Dev) = d := by rintro _ rfl; rfl
  rw [retryStalled, h]
  exact same [] h

theorem fnSweep_nothing (h : d.fnHeld = []) : fnSweep d = d := by
  have same : ∀ l, d.fnHeld = l → ({ d with fnHeld := l } : Dev) = d := by rintro _ rfl; rfl
  rw [fnSweep, h]
  exact same [] h

theorem attnSweep_nothing (h : ∀ k, (subGet d k).heldAttn = false) : attnSweep d = d := by
  refine List.foldl_fixed' (fun e => if_neg ?_) _
  rw [h e.1]
  exact fun hc => Bool.false_ne_true hc.1

end

/-! ### What an entry that leaves notes -/

/-- The rings, what waits, the subchannels and the ports' states are the same. -/
def SameWaits (d e : Dev) : Prop :=
  e.crings = d.crings ∧ e.stalled = d.stalled ∧ e.fnHeld = d.fnHeld ∧ e.subs = d.subs ∧ e.upDown = d.upDown

theorem SameWaits.trans {a b c : Dev} (h : SameWaits a b) (k : SameWaits b c) : SameWaits a c := by
  obtain ⟨h1, h2, h3, h4, h5⟩ := h
  obtain ⟨k1, k2, k3, k4, k5⟩ := k
  exact ⟨k1.trans h1, k2.trans h2, k3.trans h3, k4.trans h4, k5.trans h5⟩

theorem Logged.sameWaits {d e : Dev} (h : Logged d e) : SameWaits d e := by
  obtain ⟨⟨_, _, _, _, _, _, _, _, _, _, _, rfl⟩, -⟩ := h
  exact ⟨rfl, rfl, rfl, rfl, rfl⟩

theorem sameWaits_dbEvent (code : Nat) (d : Dev) : SameWaits d (dbEvent code d) := by
  obtain ⟨r, h⟩ := dbEvents_frame code 1 d
  rw [dbEvent, h]
  exact ⟨rfl, rfl, rfl, rfl, rfl⟩

theorem sameWaits_traceEvent (kind : Nat) (agent : Option Nat) (a b : Nat) (d : Dev) : SameWaits d (traceEvent kind agent a b d) := by
  obtain ⟨l, h, c, hlog⟩ := traceEvent_frame kind agent a b d
  exact .trans (b := { d with trace := l, trHead := h, freeCtr := c }) ⟨rfl, rfl, rfl, rfl, rfl⟩ hlog.sameWaits

section
variable {d : Dev} {n : Nat} {x : FifoItem} {f : FnId}

/-- A request by a ring's port leaves as the last thing sent, behind a PASID where the function has one. -/
theorem sendHost_kept (p : Nat) (f : FnId) (o : HostReq) (d : Dev) :
    ∃ e, SameWaits d e ∧ sendHost (.kept p) f o d = emit (o.out f (ringPort d p)) e := by
  by_cases h : (fnGet d f).pasid = true ∧ regFld d .upFnpasid (fnKey f) 31 31 = 1
  · exact ⟨emit (.pasid f (regFld d .upFnpasid (fnKey f) 19 0)) d, ⟨rfl, rfl, rfl, rfl, rfl⟩, (sendHost_eq o).trans (if_pos h)⟩
  · exact ⟨d, ⟨rfl, rfl, rfl, rfl, rfl⟩, (sendHost_eq o).trans (if_neg h)⟩

/-- A ring that has taken one entry more. -/
def CRing.advanced (r : CRing) : CRing :=
  { r with prod := r.prod + 1, phase := if (r.prod + 1).toNat % ringSize r.ctl = 0 then !r.phase else r.phase }

/-- An entry from the deep FIFO that neither arms the ring nor is split is one write to the ring's next place (R151). -/
theorem ringWrite_whole (hown : ownOf (crGet d n).own = some f) (hsplit : bit (crGet d n).ctl 30 = false) (hdly : x.dly = true)
    (harms : x.arms = false) : ∃ e, SameWaits d e ∧ ringWrite n x false d = crSet n (crGet d n).advanced
      (emit (.hostWrite f (ringPort d (crGet d n).port) (ringAddr (crGet d n)) (entryBytes (crGet d n) x)) e) := by
  let noted := dbEvent 3 (dbEvent 2 (traceEvent 1 (some (f.port * 256 + f.fn)) (bits x.word 255 192) x.sub d))
  have hnoted : SameWaits d noted := ((sameWaits_traceEvent _ _ _ _ _).trans (sameWaits_dbEvent _ _)).trans (sameWaits_dbEvent _ _)
  obtain ⟨e, he, hsent⟩ := sendHost_kept (crGet d n).port f (.write (ringAddr (crGet d n)) (entryBytes (crGet d n) x)) noted
  have hport : ringPort noted (crGet d n).port = ringPort d (crGet d n).port := by
    obtain ⟨-, -, -, -, hup⟩ := hnoted
    simp only [ringPort, hup]
  refine ⟨e, hnoted.trans he, ?_⟩
  rw [hport] at hsent
  simp only [ringWrite, hown, hdly, hsplit, armRing, harms, Bool.false_eq_true, if_false, if_true, Bool.false_and, Bool.not_false]
  exact congrArg (crSet n (crGet d n).advanced) hsent

/-- A ring whose deep FIFO is empty. -/
def CRing.drained (r : CRing) : CRing := { r with fifo := ⟨[], 0, 0⟩, full := false, stall := false }

/-- The last entry of a deep FIFO moves into its open ring (R154). -/
theorem drainRing_last (hopen : ringOpen d (crGet d n) = true) (hzlr : (crGet d n).zlr = none)
    (hx : ringUntranslated d (crGet d n) = false) (hfifo : (crGet d n).fifo = ⟨[x], 1, 0⟩) (hports : x.ports = [])
    (hstatus : x.status = false) : drainRing n 1 d = ringWrite n { x with dly := true } false (crSet n (crGet d n).drained d) := by
  have hpop : (crGet d n).fifo.pop (midSize d n) = some (x, ⟨[], 0, 0⟩) := by
    rw [hfifo]
    simp [Fifo.pop, Fifo.settle, Fifo.mid]
  have hhead : ¬ (crGet d n).fifo.head = 0 := by simp [hfifo]
  simp only [drainRing, hopen, hzlr, hx, hpop, hports, hstatus, Option.isNone_none, Bool.and_self, if_true, if_neg hhead,
    Bool.false_eq_true, if_false, List.find?_nil, Bool.false_and]
  simp [CRing.drained, Fifo.isFull, hzlr]

end

end Sys2Proof.Machine
end

section
/-!
THEOREM. Completion rings: doorbells, translations, the middle of a deep FIFO, feeds and zero-length reads, with which O24 is complete.
-/
namespace Sys2Proof.Machine

open Sys2Proof

section
variable {d : Dev} {n : Nat} {f : FnId}

/-! ### Doorbells (R153) -/

theorem doorbell_valid {v : Word} (hown : ownOf (crGet d n).own = some f)
    (hv : (v - (crGet d n).cons).toNat ≤ ((crGet d n).prod - (crGet d n).cons).toNat) : doorbell f n 4 v d =
    ringProgress n (crSet n { crGet d n with cons := v } (jput { jblank 0x08 f with ring := n, arg := v } d)) := by
  refine if_neg ?_
  rintro (h | h | h)
  · exact h rfl
  · exact h hown
  · exact Nat.not_lt.mpr hv h

theorem doorbell_wrong {v : Word} {size : Nat} (h : size ≠ 4 ∨ ownOf (crGet d n).own ≠ some f
      ∨ ((crGet d n).prod - (crGet d n).cons).toNat < (v - (crGet d n).cons).toNat) :
    doorbell f n size v d = ringError n (crSet n { crGet d n with dberr := true } d) := if_pos h

/-! ### Translations (R515) -/

/-- The one ring of a function, where it waits for a page, is the one that acts. -/
theorem foldl_waiting {pg : Nat} (g : Nat → Dev → Dev) (hrings : ringsOf d f = [n])
    (hwait : (crGet d n).xwait.map (fun x => x.toNat / 4096) = some pg) :
    ((ringsOf d f).filter (fun n => (crGet d n).xwait.map (fun x => x.toNat / 4096) = some pg)).foldl (fun d n => g n d) d = g n d := by
  rw [hrings, List.filter_cons_of_pos (by simpa using hwait)]
  rfl

/-- The device with a translation granted, and what waited for it alone gone on. -/
def xlateGranted (f : FnId) (a x : DWord) (d : Dev) : Dev :=
  let asked := { d with xasked := d.xasked.filter (· ≠ (fnKey f, a.toNat / 4096)) }
  hostResume { asked with
    xlate := d.xlate.filter (fun y => !(decide (y.1 = fnKey f) && decide (y.2.1 = a.toNat / 4096)))
      ++ [(fnKey f, a.toNat / 4096, x.toNat / 4096)] }

/-- The device with a translation denied. -/
def xlateDenied (f : FnId) (a : DWord) (d : Dev) : Dev :=
  let asked := { d with xasked := d.xasked.filter (· ≠ (fnKey f, a.toNat / 4096)) }
  hostResume (moverDenied f (a.toNat / 4096) { asked with
    outHeld := d.outHeld.filter (fun x => !(decide (x.1 = f) && (outPages asked f x.2.2).contains (a.toNat / 4096))) })

theorem atsAnswer_granted {a x : DWord} (hrings : ringsOf (xlateGranted f a x d) f = [n])
    (hwait : (crGet (xlateGranted f a x d) n).xwait.map (fun x => x.toNat / 4096) = some (a.toNat / 4096)) :
    atsAnswer f a (some x) d = ringProgress n (crSet n { crGet (xlateGranted f a x d) n with xwait := none } (xlateGranted f a x d)) := by
  simp only [atsAnswer, Option.isSome_some, if_true]
  exact foldl_waiting (fun n d => ringProgress n (crSet n { crGet d n with xwait := none } d)) hrings hwait

theorem atsAnswer_denied {a : DWord} (hrings : ringsOf (xlateDenied f a d) f = [n])
    (hwait : (crGet (xlateDenied f a d) n).xwait.map (fun x => x.toNat / 4096) = some (a.toNat / 4096)) :
    atsAnswer f a none d = ringWriteError n (crSet n { crGet (xlateDenied f a d) n with xwait := none } (xlateDenied f a d)) :=
  foldl_waiting (fun n d => ringWriteError n (crSet n { crGet d n with xwait := none } d)) hrings hwait

/-! ### The middle of a deep FIFO (R248) -/

theorem refillHead_one (m : Nat) (x : FifoItem) : Fifo.refillHead m ⟨[x], 1, 0⟩ = ⟨[x], 1, 0⟩ := by
  simp [Fifo.refillHead, Fifo.settle, Fifo.mid]

/-- Behind the last entry nothing is left to do. -/
theorem ringProgress_rest (hstalled : d.stalled = []) (hheld : d.fnHeld = []) (hattn : ∀ k, (subGet d k).heldAttn = false)
    (hfifo : (crGet d n).fifo.items = []) :
    attnSweep (fnSweep (drainRing n (crGet (retryStalled d) n).fifo.items.length (retryStalled d))) = d := by
  rw [retryStalled_nothing hstalled, hfifo, List.length_nil, drainRing, fnSweep_nothing hheld, attnSweep_nothing hattn]

/-- A ring whose deep FIFO held one entry has written it, and nothing else waits (R154). -/
theorem ringProgress_last {x : FifoItem} (hopen : ringOpen d (crGet d n) = true) (hzlr : (crGet d n).zlr = none)
    (hx : ringUntranslated d (crGet d n) = false) (hfifo : (crGet d n).fifo = ⟨[x], 1, 0⟩) (hports : x.ports = [])
    (hstatus : x.status = false) (harms : x.arms = false) (hown : ownOf (crGet d n).own = some f)
    (hsplit : bit (crGet d n).ctl 30 = false) (hstalled : d.stalled = []) (hheld : d.fnHeld = [])
    (hattn : ∀ k, (subGet d k).heldAttn = false) :
    ∃ e, ringProgress n d = crSet n (crGet d n).drained.advanced
      (emit (.hostWrite f (ringPort d (crGet d n).port) (ringAddr (crGet d n)) (entryBytes (crGet d n) { x with dly := true })) e) := by
  obtain ⟨e, ⟨-, hstall, hfn, hsubs, -⟩, hwrite⟩ := ringWrite_whole (d := crSet n (crGet d n).drained d) (n := n) (f := f)
    (x := { x with dly := true }) (by rw [crGet_crSet_self]; exact hown) (by rw [crGet_crSet_self]; exact hsplit) rfl harms
  rw [crGet_crSet_self] at hwrite
  have hlength : (crGet d n).fifo.items.length = 1 := by rw [hfifo]; rfl
  have hfirst := (drainRing_last hopen hzlr hx hfifo hports hstatus).trans hwrite
  refine ⟨e, ?_⟩
  unfold ringProgress
  dsimp only
  rw [hlength, hfirst]
  refine ringProgress_rest (hstall.trans hstalled) (hfn.trans hheld) (fun k => ?_) (by rw [crGet_crSet_self]; rfl)
  have hget : subGet e k = subGet d k := congrArg (fun t => subGet { d with subs := t } k) hsubs
  exact (congrArg Sub.heldAttn hget).trans (hattn k)

/-! ### Zero-length reads (R21) -/

/-- A port on which one waiting entry alone had a read outstanding is done. -/
theorem portDone_entry {p : Nat} {e : Ent} (hstalled : d.stalled = [e]) (hzlr : e.zlr = some p) (hhold : ∀ k, (subGet d k).swHold = none)
    (hsync : ∀ q ∈ d.progs, q.2.sync ≠ some p) (hrings : ∀ k, (crGet d k).zlr ≠ some p) :
    portDone p d = retryStalled { d with stalled := [{ e with zlr := none }] } := by
  have hprogs : d.progs.map (fun q : Nat × Prog => if q.2.sync = some p then (q.1, { q.2 with sync := none, lastPort := none }) else q)
      = d.progs := by
    refine (List.map_congr_left fun q hq => if_neg (hsync q hq)).trans ?_
    exact List.map_id d.progs
  have hdrained : (d.crings.map (·.1)).foldl (fun d n => ringZlrDone p n d) d = d :=
    List.foldl_fixed' (fun k => if_neg (hrings k)) _
  have hshown : d.subs.foldl (fun d q =>
      let x := subGet d q.1
      if (x.swHold.map (·.1)) = some p then subSet q.1 { x with swHold := none } d else d) d = d :=
    List.foldl_fixed' (fun q => if_neg (by simp [hhold q.1])) _
  have same : ∀ l, l = d.progs → ({ d with progs := l } : Dev) = d := by rintro _ rfl; rfl
  unfold portDone
  rw [same _ hprogs]
  dsimp only
  rw [hdrained, hshown, hstalled, List.map_singleton, if_pos hzlr]

end

/-! ### The commands -/

section
variable {s : State}

theorem exec_journalFeedResume (hs : Running s) : exec .journalFeedResume s = .next (after s { s.dev with jnFeed := 0 }) := by
  have hexec : exec .journalFeedResume s = run s (fun d => { d with jnFeed := 0 }) := rfl
  exact hexec.trans (run_running _ _ hs)

theorem exec_deepFifoMiddleMove (hs : Engine s) (k : Nat) : exec (.deepFifoMiddleMove k false) s = .next (after s (
    if k < 4096 then
      let r := crGet s.dev k
      let g := r.fifo.refillHead (midSize s.dev k)
      ringProgress k (crSet k { r with fifo := g, stall := r.stall && g.isFull } s.dev)
    else if k = 4177 then { s.dev with auFeed := 0 }
    else if k = 4178 then { s.dev with jnFeed := 0 }
    else { s.dev with feeds := tdel s.dev.feeds k })) := run_live _ hs

theorem after_dev (s : State) (d : Dev) : (after s d).dev = settle d := rfl

/-- The last entry of a deep FIFO goes to its open ring as the middle moves (R248). -/
theorem middleMove_writes {f : FnId} {n : Nat} {x : FifoItem} (hs : Engine s) (hn : n < 4096)
    (hen : bit (crGet s.dev n).ctl 31 = true)
    (hroom : ((crGet s.dev n).prod - (crGet s.dev n).cons).toNat ≠ ringSize (crGet s.dev n).ctl) (hxw : (crGet s.dev n).xwait = none)
    (hown : ownOf (crGet s.dev n).own = some f) (h3 : (fnGet s.dev f).d3hot = false) (hats : (fnGet s.dev f).ats = false)
    (hfifo : (crGet s.dev n).fifo = ⟨[x], 1, 0⟩) (hzlr : (crGet s.dev n).zlr = none) (hports : x.ports = []) (harms : x.arms = false)
    (hstatus : x.status = false) (hsplit : bit (crGet s.dev n).ctl 30 = false) (hstalled : s.dev.stalled = [])
    (hattn : ∀ k, (subGet s.dev k).heldAttn = false) (hheld : s.dev.fnHeld = []) :
    ∃ t, exec (.deepFifoMiddleMove n false) s = .next t
      ∧ (crGet t.dev n).prod = (crGet s.dev n).prod + 1 ∧ (crGet t.dev n).fifo.items = []
      ∧ (crGet t.dev n).phase = (if ((crGet s.dev n).prod + 1).toNat % ringSize (crGet s.dev n).ctl = 0 then !(crGet s.dev n).phase
                                 else (crGet s.dev n).phase)
      ∧ Out.hostWrite f (ringPort s.dev (crGet s.dev n).port) (ringAddr (crGet s.dev n))
          (entryBytes (crGet s.dev n) { x with dly := true }) ∈ t.dev.out := by
  let g := (crGet s.dev n).fifo.refillHead (midSize s.dev n)
  let moved := crSet n { crGet s.dev n with fifo := g, stall := (crGet s.dev n).stall && g.isFull } s.dev
  have hring : crGet moved n = { crGet s.dev n with fifo := g, stall := (crGet s.dev n).stall && g.isFull } := crGet_crSet_self _ _ _
  have hg : g = ⟨[x], 1, 0⟩ := by
    simp only [g, hfifo]
    exact refillHead_one _ x
  have hopen : ringOpen moved (crGet moved n) = true := by
    have hd3 : ringD3 moved (crGet moved n) = false := by
      simp only [ringD3, hring, hown]
      exact h3
    rw [ringOpen, hd3]
    simp only [ringFull, hring, hen, hxw, decide_eq_false hroom]
    rfl
  have hxlate : ringUntranslated moved (crGet moved n) = false := by
    have hoff : (fnGet moved f).ats = false := hats
    simp only [ringUntranslated, hring, hown, hoff, Bool.false_and]
  obtain ⟨e, he⟩ := ringProgress_last (d := moved) (n := n) (f := f) (x := x) hopen (by rw [hring]; exact hzlr) hxlate
    (by rw [hring]; exact hg) hports hstatus harms (by rw [hring]; exact hown) (by rw [hring]; exact hsplit) hstalled hheld hattn
  obtain ⟨hcrings, hout⟩ := sameWire_settle (ringProgress n moved)
  have hlast : crGet (settle (ringProgress n moved)) n = (crGet moved n).drained.advanced := by
    rw [crGet_congr hcrings, he, crGet_crSet_self]
  have hprod : (crGet moved n).drained.advanced.prod = (crGet s.dev n).prod + 1 := by rw [hring]; rfl
  have hphase : (crGet moved n).drained.advanced.phase = (if ((crGet s.dev n).prod + 1).toNat % ringSize (crGet s.dev n).ctl = 0
      then !(crGet s.dev n).phase else (crGet s.dev n).phase) := by rw [hring]; rfl
  refine ⟨after s (ringProgress n moved), (exec_deepFifoMiddleMove hs n).trans (next_after_congr s (if_pos hn)), ?_⟩
  rw [after_dev, hlast, hprod, hphase, hout, he, hring]
  exact ⟨rfl, rfl, rfl, List.mem_append_right _ (List.mem_singleton.mpr rfl)⟩

end

theorem completionRingEvents : CompletionRingEvents := by
  intro s f n hs d r
  have hrun := hs.1
  refine ⟨fun v hown hv => ?_, fun v size hbad => ?_, fun a x => ?_, rfl, ?_, ?_, ?_, ?_, exec_journalFeedResume hrun, ?_, ?_⟩
  · rw [exec_crDoorbell hrun, live, hs.2, ← doorbell_valid hown hv]
    rfl
  · rw [exec_crDoorbell hrun, live, hs.2, ← doorbell_wrong hbad]
    rfl
  · intro pg asked kept yes no
    refine ⟨fun hrings hwait => (run_liveP _ hs).trans ?_, fun hrings hwait => (run_liveP _ hs).trans ?_⟩
    · exact congrArg (fun e => Host.Outcome.next (sweptP s e)) (atsAnswer_granted hrings hwait)
    · exact congrArg (fun e => Host.Outcome.next (sweptP s e)) (atsAnswer_denied hrings hwait)
  · intro x hn hen hroom hxw hown h3 hats hfifo hzlr hports harms hstatus hsplit hstalled hattn hheld
    exact middleMove_writes hs hn hen hroom hxw hown h3 hats hfifo hzlr hports harms hstatus hsplit hstalled hattn hheld
  · exact (run_live _ hs).trans (next_after_congr s rfl)
  · exact (run_live _ hs).trans (next_after_congr s rfl)
  · exact (run_live _ hs).trans (next_after_congr s rfl)
  · intro k hk ha hb
    rw [exec_deepFifoMiddleMove hs, if_neg (Nat.not_lt.mpr hk), if_neg ha, if_neg hb]
  · intro p e hstalled hzlr hhold hsync hrings
    refine (run_liveP _ hs).trans ?_
    exact congrArg (fun e => Host.Outcome.next (sweptP s (opHeldGo (moverPort p e)))) (portDone_entry hstalled hzlr hhold hsync hrings)

/-- Settles O24. -/
theorem completionRings : Obligations.CompletionRings := ⟨completionRingEvents, messages, hostAccesses⟩

end Sys2Proof.Machine
end

section
/-!
SUPPORT. The instruction that a channel fetches, as its row executes it (R182, R184, R185, R202).
-/
namespace Sys2Proof.Machine

open Sys2Proof

section
variable {s : State} {c : Nat} {w : QWord} {io : MovIo} {d e : Dev}

/-- A channel that holds the line with CH_PC fetches nothing (R182). -/
theorem lineFetch_held (h : (chGet d c).line.map (·.1) = some ((chGet d c).pc &&& ~~~63#64)) :
    lineFetch c io d = d := if_pos h

theorem st_of_chBegins {x : Chan} (h : chBegins d c x = true) : x.st = .run := by
  simp only [chBegins, Bool.and_eq_true, decide_eq_true_eq] at h
  obtain ⟨⟨⟨⟨⟨hrun, -⟩, -⟩, -⟩, -⟩, -⟩ := h
  exact hrun

theorem ChanFetches.engine (H : ChanFetches s c w io d) : Engine s := by
  obtain ⟨h, -⟩ := H
  exact h

/-- The row of the opcode that the instruction has acts. -/
theorem ChanFetches.chExec_eq (H : ChanFetches s c w io d) : chExec (bits w 7 0) c w io s.dev = doInstr c w io d := by
  obtain ⟨-, hbegins, hhdr, hst, hagain, hword, hplain, hdata⟩ := H
  have hrun := st_of_chBegins hbegins
  simp only [chExec, hbegins, hhdr, hrun, hst, hagain, hword, if_true, Bool.false_eq_true, if_false, ne_eq, not_true_eq_false,
    or_self, true_or, and_self]
  cases hop : dataOp w
  case false => rw [if_neg Bool.false_ne_true, hplain hop]
  case true =>
    obtain ⟨hturn, h, hroom, rfl⟩ := hdata hop
    simp only [if_true, dataTurn, hturn, hroom]

/-- A row answers what its instruction makes of the device it finds. -/
theorem ChanFetches.exec_eq {i : Instr} {op : Nat} (H : ChanFetches s c w io d) (hop : bits w 7 0 = op)
    (hi : exec i s = run s (liveM (chExec op c w io))) (he : doInstr c w io d = e) : exec i s = .next (sweptM s e) := by
  subst hop he
  rw [hi, run_liveM _ H.engine, H.chExec_eq]

/-! ### The rows, one for each opcode (R184) -/

theorem ChanFetches.nop (H : ChanFetches s c w io d) (hop : bits w 7 0 = 0) (he : doNop c w d = e) :
    exec (.moverNop c w io) s = .next (sweptM s e) := H.exec_eq hop rfl (by simpa only [doInstr, hop] using he)

theorem ChanFetches.move (H : ChanFetches s c w io d) (hop : bits w 7 0 = 1) (he : doMove c w io d = e) :
    exec (.move c w io) s = .next (sweptM s e) := H.exec_eq hop rfl (by simpa only [doInstr, hop] using he)

theorem ChanFetches.movex (H : ChanFetches s c w io d) (hop : bits w 7 0 = 2) (he : doMovex c w io d = e) :
    exec (.movex c w io) s = .next (sweptM s e) := H.exec_eq hop rfl (by simpa only [doInstr, hop] using he)

theorem ChanFetches.loop (H : ChanFetches s c w io d) (hop : bits w 7 0 = 3) (he : doLoop c w d = e) :
    exec (.loop c w io) s = .next (sweptM s e) := H.exec_eq hop rfl (by simpa only [doInstr, hop] using he)

theorem ChanFetches.wait (H : ChanFetches s c w io d) (hop : bits w 7 0 = 4) (he : doWait c w d = e) :
    exec (.moverWait c w io) s = .next (sweptM s e) := H.exec_eq hop rfl (by simpa only [doInstr, hop] using he)

theorem ChanFetches.signal (H : ChanFetches s c w io d) (hop : bits w 7 0 = 5) (he : doSignal c w d = e) :
    exec (.signal c w io) s = .next (sweptM s e) := H.exec_eq hop rfl (by simpa only [doInstr, hop] using he)

theorem ChanFetches.xform (H : ChanFetches s c w io d) (hop : bits w 7 0 = 6) (he : doXform c w d = e) :
    exec (.xform c w io) s = .next (sweptM s e) := H.exec_eq hop rfl (by simpa only [doInstr, hop] using he)

theorem ChanFetches.parity (H : ChanFetches s c w io d) (hop : bits w 7 0 = 7) (he : doParity c w io d = e) :
    exec (.parity c w io) s = .next (sweptM s e) := H.exec_eq hop rfl (by simpa only [doInstr, hop] using he)

theorem ChanFetches.progEnd (H : ChanFetches s c w io d) (hop : bits w 7 0 = 0xF) (he : doEnd c w d = e) :
    exec (.progEnd c w io) s = .next (sweptM s e) := H.exec_eq hop rfl (by simpa only [doInstr, hop] using he)

/-! ### Waiting for earlier writes (R185) -/

/-- An instruction without FENCE, or with no burst still to become visible, need not wait (R185). -/
theorem not_fenced {b : Bool} (h : b = true → (chGet d c).bursts = []) : ¬ (b && chBusy d c) = true := by
  intro hc
  obtain ⟨hb, hbusy⟩ := Bool.and_eq_true_iff.mp hc
  simp [chBusy, h hb] at hbusy

theorem chBusy_iff : chBusy d c = true ↔ (chGet d c).bursts ≠ [] := by simp [chBusy]

/-- Neither of the two errors of a transform that has its length and whose ranges are disjoint (R196). -/
theorem transform_allowed {used fits lap : Bool} (h : used = true → fits = true ∧ lap = false) :
    ¬ (used && !fits) = true ∧ ¬ (used && lap) = true := by
  cases used
  case false => exact ⟨Bool.false_ne_true, Bool.false_ne_true⟩
  case true =>
    obtain ⟨rfl, rfl⟩ := h rfl
    exact ⟨Bool.false_ne_true, Bool.false_ne_true⟩

end

end Sys2Proof.Machine
end

section
/-!
THEOREM. O35 (MoverInstructions): each instruction of a mover program.
-/
namespace Sys2Proof.Machine

open Sys2Proof

/-- Settles O35, instruction by instruction along the branches of its meaning. -/
theorem moverInstructions : Obligations.MoverInstructions := by
  intro s c w io d H x op bad ar sd free
  -- The displacements go by the model's name, so that the hypotheses speak of the same terms as the meanings.
  have hsd : sd = sfield w := rfl
  clear_value sd
  subst hsd
  refine ⟨fun hop => ?nop, fun hop => ⟨fun hbad => H.move hop (if_pos hbad), ?move⟩,
    fun hop => ⟨fun hbad => H.movex hop (if_pos hbad), ?movex⟩, fun hop => ?loop, fun hop => ?wait, fun hop => ?signal,
    fun hop => ?xform, fun hop => ?parity, fun hop => ?progEnd⟩
  case nop =>
    refine (H.nop hop rfl).trans ?_
    unfold doNop
    split <;> rfl
  case move =>
    dsimp only [ar, free, x]
    rintro _ _ _ _ _ h21 h15 rfl rfl hsp hdp rfl rfl rfl hfree
    have hfields : ¬ (bits w 21 20 ≠ 0 ∨ bits w 15 8 ≠ 0 ∨ bits w 23 22 = 3 ∨ bits w 25 24 = 3) := by omega
    have hfence := not_fenced hfree
    refine ⟨fun hxf hlength => H.move hop ?length, fun hxf hlength hlap => H.move hop ?overlap, fun hfits =>
      ⟨fun e a herr => H.move hop ?error, fun l rest e hok hread => H.move hop ?done⟩⟩
    case length => simp only [doMove, if_neg hfields, if_neg hfence, hxf, hlength, Bool.not_false, Bool.and_self, if_true]
    case overlap =>
      simp only [doMove, if_neg hfields, if_neg hfence, hxf, hlength, hlap, Bool.not_true, Bool.and_false, Bool.false_eq_true, if_false,
        Bool.and_self, if_true]
    case error =>
      obtain ⟨hshort, hlap⟩ := transform_allowed hfits
      simp only [doMove, if_neg hfields, if_neg hfence, if_neg hshort, if_neg hlap, herr]
    case done =>
      obtain ⟨hshort, hlap⟩ := transform_allowed hfits
      simp only [doMove, if_neg hfields, if_neg hfence, if_neg hshort, if_neg hlap, hok, hread]
  case movex =>
    dsimp only [ar, free, x]
    rintro _ _ _ _ _ h83 h48 h15 rfl rfl rfl htsp hxsp hlsp rfl rfl hfree
    have hfields : ¬ (bits w 83 64 ≠ 0 ∨ bits w 48 20 ≠ 0 ∨ bits w 15 8 ≠ 0 ∨ 2 ≤ bits w 60 59 ∨ bits w 55 54 = 3
        ∨ bits w 50 49 = 3) := by omega
    have hfence := not_fenced hfree
    refine ⟨fun hk => H.movex hop ?none, fun tb r1 d1 hk hok htab =>
      ⟨fun e a herr => H.movex hop ?error, fun l r2 d2 hok2 hread hclear => H.movex hop ?done⟩⟩
    case none => simp only [doMovex, if_neg hfields, if_neg hfence, if_pos hk]
    case error => simp only [doMovex, if_neg hfields, if_neg hfence, if_neg (Nat.ne_of_gt hk), hok, htab, herr]
    case done =>
      have hclash := List.any_eq_false.mpr fun a ha => ne_true_of_eq_false (hclear a ha)
      simp only [doMovex, if_neg hfields, if_neg hfence, if_neg (Nat.ne_of_gt hk), hok, htab, hok2, hread, hclash, Bool.false_and,
        Bool.false_eq_true, if_false]
  case loop =>
    intro k back i good l
    have goes {e : Dev} (hgood : good) := fun he => H.loop hop (e := e) ((if_neg (by omega)).trans he)
    exact ⟨fun hbad => H.loop hop (if_pos (by omega)),
      fun hgood hlast => goes hgood (if_pos hlast),
      fun hgood hmore hearly => goes hgood ((if_neg hmore).trans (if_pos hearly)),
      fun hgood hmore hback => goes hgood ((if_neg hmore).trans (if_neg (Nat.not_lt.mpr hback)))⟩
  case wait =>
    intro v t good
    exact ⟨fun hbad => H.wait hop (if_pos (by omega)),
      fun hgood ht hv => H.wait hop ((if_neg (by omega)).trans (if_pos ht)),
      fun hgood ht hv hsig => H.wait hop ((if_neg (by omega)).trans ((if_neg (by omega)).trans ((if_pos ht).trans (if_pos hsig)))),
      fun hgood ht hv hsig => H.wait hop ((if_neg (by omega)).trans ((if_neg (by omega)).trans ((if_pos ht).trans (if_neg hsig)))),
      fun hgood ht => H.wait hop ((if_neg (by omega)).trans ((if_neg (by omega)).trans (if_neg (by omega))))⟩
  case signal =>
    intro k t good
    have hbad : ¬ good ↔ (bits w 127 76 ≠ 0 ∨ bits w 63 18 ≠ 0 ∨ bits w 15 8 ≠ 0 ∨ t = 3
        ∨ (t = 1 ∧ (256 ≤ k ∨ chOwner x = none))) := by
      simp only [good, ← Nat.not_lt]
      tauto
    have goes {e : Dev} (hgood : good) (hb : x.bursts = []) := fun he => H.signal hop (e := e)
      ((if_neg fun h => hbad.mpr h hgood).trans ((if_neg fun h => chBusy_iff.mp h hb).trans he))
    exact ⟨fun h => H.signal hop (if_pos (hbad.mp h)),
      fun hgood hb => H.signal hop ((if_neg fun h => hbad.mpr h hgood).trans (if_pos (chBusy_iff.mpr hb))),
      fun hgood hb ht ho => goes hgood hb (if_pos ⟨ht, ho⟩),
      fun hgood hb ht ho => goes hgood hb ((if_neg fun h => h.2 ho).trans (congrArg (chEvent c .signal) (if_pos ht))),
      fun hgood hb ht => goes hgood hb ((if_neg (by omega)).trans
        (congrArg (chEvent c .signal) ((if_neg (by omega)).trans (if_pos ht)))),
      fun hgood hb ht => goes hgood hb ((if_neg (by omega)).trans
        (congrArg (chEvent c .signal) ((if_neg (by omega)).trans (if_neg (by omega)))))⟩
  case xform =>
    refine (H.xform hop rfl).trans ?_
    unfold doXform
    split <;> rfl
  case parity =>
    dsimp only [ar, free, x]
    have hnone : (!bit w 18 && !bit w 19) = true ↔ bit w 18 = false ∧ bit w 19 = false := by simp
    refine ⟨fun hbad => H.parity hop (if_pos (by rwa [hnone])), fun h45 h15 hgen hsp hdp hfree => ?_⟩
    have hfields : ¬ (bits w 45 20 ≠ 0 ∨ bits w 15 8 ≠ 0 ∨ bits w 49 48 = 3 ∨ bits w 47 46 = 3
        ∨ (!bit w 18 && !bit w 19) = true) := by
      rcases hgen with h | h <;> simp [h45, h15, hsp, hdp, h]
    have hfence := not_fenced hfree
    refine ⟨fun hlap => H.parity hop ?overlap, fun hlap =>
      ⟨fun e a herr => H.parity hop ?error, fun l rest e hok hread => H.parity hop ?done⟩⟩
    case overlap => simp only [doParity, if_neg hfields, if_neg hfence, hlap, if_true]
    case error => simp only [doParity, if_neg hfields, if_neg hfence, hlap, Bool.false_eq_true, if_false, herr]
    case done => simp only [doParity, if_neg hfields, if_neg hfence, hlap, Bool.false_eq_true, if_false, hok, hread]
  case progEnd =>
    exact ⟨fun hbad => H.progEnd hop (if_pos hbad),
      fun hgood hb => H.progEnd hop ((if_neg (not_not.mpr hgood)).trans (if_pos (chBusy_iff.mpr hb))),
      fun hgood hb => H.progEnd hop ((if_neg (not_not.mpr hgood)).trans (if_neg fun h => chBusy_iff.mp h hb))⟩

end Sys2Proof.Machine
end

section
/-!
THEOREM. O36 (MoveWritesItsRange): a refutation. A MOVE whose read of a check block is held (R228) keeps in the mover what its earlier
bursts have read (R201), and goes on with it once the block is refilled. The statement compares the destination with the source at the command
that completes the MOVE, and asks nothing of what the channel has read by then: a source byte that another writer changes during the hold
reads otherwise. PLAZA_CRC_MISMATCH of block 0x10, the MOVE, a write of Plaza at 0xFF8 and PLAZA_REFILL_COMPLETE of block 0x10 lead to
such a state.
-/
namespace Sys2Proof.Machine

open Sys2Proof

/-- A MOVE of 16 bytes from AR0 to AR1, both in Plaza. -/
def plazaMove : QWord := BitVec.ofNat 128 (1 + 0x14000 * 2 ^ 8 + 2 ^ 29 + 16 * 2 ^ 96)

/-- A firmware channel at that MOVE. A 4 KiB boundary cuts its source into two bursts of 8 bytes, and the first has been read. -/
def resumedChan : Chan :=
  { chReset with st := .run, prog := 0x10, pc := 0x40, ar := [0xFF8, 0x2000, 0, 0, 0, 0, 0, 0]
                 line := some (0x40, leBytes 64 plazaMove.toNat), got := [List.replicate 8 1] }

/-- Plaza is empty: what the first burst read, eight bytes 1, no longer stands there. -/
def resumedState : State := { State.reset with dev := { Dev.reset with chans := [(4095, resumedChan)] } }

/-- Its stream has its slices (R225). -/
def resumedRoom : Bool × Dev :=
  chanRoom 4095 (chSlices (chGet resumedState.dev 4095) plazaMove)
    (chEnds resumedState.dev (chGet resumedState.dev 4095) plazaMove) resumedState.dev

/-- The device the MOVE finds in its turn (R202). -/
def resumedTurn : Dev :=
  { resumedRoom.2 with movServed := tset resumedRoom.2.movServed (bits (chGet resumedRoom.2 4095).cfg 31 29) 4095 4095 }

theorem chanFetches_resumed : ChanFetches resumedState 4095 plazaMove ⟨.ok [], .ok [], []⟩ resumedTurn := by
  have hgranted : resumedRoom.1 = true := by decide +kernel
  have hroom : resumedRoom = (true, resumedRoom.2) := by rw [← hgranted]
  unfold ChanFetches
  rw [lineFetch_held (show (chGet resumedState.dev 4095).line.map (·.1) = _ by decide)]
  refine ⟨⟨rfl, rfl⟩, ?_, rfl, rfl, rfl, ?_, fun h => absurd h (by decide), fun _ => ⟨?_, resumedRoom.2, ?_, rfl⟩⟩
  case refine_4 => exact hroom
  all_goals decide +kernel

/-- A byte of Plaza in what a command answers. -/
def plazaAfter (r : Host.Outcome State Fault Refusal) (a : Nat) : Option Byte :=
  match r with
  | .next t => some (memGet t.dev.plaza a)
  | _ => none

/-- The MOVE writes the byte read before. -/
theorem plazaAfter_move : plazaAfter (exec (.move 4095 plazaMove ⟨.ok [], .ok [], []⟩) resumedState) 0x2000 = some 1 := by
  decide +kernel

/-- Refutes O36: a MOVE that goes on behind a burst read earlier writes that burst's bytes, and its source holds others by then. -/
theorem not_moveWritesItsRange : ¬ Obligations.MoveWritesItsRange := by
  intro h
  obtain ⟨t, hexec, -, hmem⟩ := h _ _ _ _ _ chanFetches_resumed rfl rfl rfl rfl (fun _ => rfl) (by decide +kernel) (by decide +kernel)
    (by decide +kernel) (by decide +kernel) (by decide +kernel)
  have hread : memGet t.dev.plaza 0x2000 = 0 := (hmem 0x2000).trans (by decide +kernel)
  have hwrote := plazaAfter_move
  rw [hexec, plazaAfter, hread] at hwrote
  exact absurd hwrote (by decide)

end Sys2Proof.Machine
end

section
/-!
SUPPORT. What the slices of a grant are (R225, R269): free slices, of banks in service or fenced, that become the stream's.
-/
namespace Sys2Proof.Machine

open Sys2Proof

theorem span_eq_range' (a n : Nat) : span a n = List.range' a n := List.range'_eq_map_range.symm

/-! ### The choice of a bank (R261) -/

theorem nextAfter_mem {last x : Nat} {l : List Nat} (h : nextAfter last l = some x) : x ∈ l := by
  unfold nextAfter at h
  split at h
  · next y t hl =>
    cases h
    exact List.mem_of_mem_filter (hl ▸ foldl_min_mem y t)
  · split at h
    · cases h
    · cases h
      exact foldl_min_mem _ _

theorem bestBank_mem {d : Dev} {ends prev cands : List Nat} {b : Nat} (h : bestBank d ends prev cands = some b) : b ∈ cands := by
  unfold bestBank at h
  split at h
  · cases h
  · exact List.mem_of_mem_filter (nextAfter_mem h)

/-! ### Taking slices (R269) -/

/-- May a stream take a slice of the bank: in service or fenced, with a free one? -/
def bankGives (d : Dev) (b : Nat) : Bool := bankUp d b && !(bankFree d b).isEmpty

/-- The slice that a bank gives is free, and the bank's. -/
theorem bankFree_head {d : Dev} {b : Nat} (h : bankGives d b = true) :
    sliceGet d ((bankFree d b).headD 0) = .free ∧ (bankFree d b).headD 0 / 256 = b := by
  obtain ⟨-, hfree⟩ : bankUp d b = true ∧ bankFree d b ≠ [] := by simpa [bankGives] using h
  obtain ⟨x, t, hx⟩ := List.exists_cons_of_ne_nil hfree
  have hmem : x ∈ bankFree d b := by simp [hx]
  obtain ⟨hspan, hslice, -⟩ : (∃ k < 256, 256 * b + k = x) ∧ sliceGet d x = .free ∧ x ∉ d.fenceWait := by
    simpa [bankFree, span] using hmem
  rw [hx, List.headD_cons]
  exact ⟨hslice, by omega⟩

/-- The first slice taken is free and of a bank that is up; the rest are taken once it is the stream's. -/
theorem takeSlices_first {elig ends set l rest : List Nat} {v : Slice} {n : Nat} {d e : Dev}
    (h : takeSlices elig v ends set (n + 1) d = some (l, rest, e)) :
    ∃ x l' set' m, l = x :: l' ∧ sliceGet d x = .free ∧ bankUp d (x / 256) = true
      ∧ takeSlices elig v ends set' n (sliceSet x v { d with sgLast := m }) = some (l', rest, e) := by
  simp only [takeSlices] at h
  split at h
  · cases h
  next b set' hpick =>
    obtain ⟨⟨l', rest', e'⟩, ht, he⟩ := Option.map_eq_some_iff.mp h
    cases he
    have hgives : bankGives d b = true := by
      split at hpick
      next c hc =>
        cases hpick
        exact List.find?_some hc
      next =>
        obtain ⟨c, hc, hcb⟩ := Option.map_eq_some_iff.mp hpick
        cases hcb
        exact (List.mem_filter.mp (bestBank_mem hc)).2
    obtain ⟨hslice, hbank⟩ := bankFree_head hgives
    have hup : bankUp d b = true := (Bool.and_eq_true_iff.mp hgives).1
    exact ⟨_, l', set', _, rfl, hslice, hbank.symm ▸ hup, ht⟩

theorem sliceGet_sliceSet_self (x : Nat) (v : Slice) (d : Dev) : sliceGet (sliceSet x v d) x = v := tget_tset_self ..

theorem sliceGet_sliceSet_other {x y : Nat} (v : Slice) (d : Dev) (h : y ≠ x) : sliceGet (sliceSet x v d) y = sliceGet d y :=
  tget_tset_other _ _ _ _ h

/-- As many slices as asked for are taken, each free before, of a bank that is up, and the stream's afterwards; no other slice changes. -/
theorem takeSlices_takes {elig ends set l rest : List Nat} {v : Slice} {n : Nat} {d e : Dev} (hv : v ≠ .free)
    (h : takeSlices elig v ends set n d = some (l, rest, e)) :
    l.length = n ∧ (∀ x ∈ l, sliceGet d x = .free ∧ bankUp d (x / 256) = true ∧ sliceGet e x = v)
      ∧ ∀ x, x ∉ l → sliceGet e x = sliceGet d x := by
  induction n generalizing set d l with
  | zero =>
    cases h
    exact ⟨rfl, nofun, fun _ _ => rfl⟩
  | succ n ih =>
    obtain ⟨x, l', set', m, rfl, hx, hup, ht⟩ := takeSlices_first h
    obtain ⟨hlen, htaken, hrest⟩ := ih ht
    have hxl : x ∉ l' := fun hm => hv ((sliceGet_sliceSet_self x v _).symm.trans (htaken x hm).1)
    refine ⟨congrArg (· + 1) hlen, fun y hy => ?_, fun y hy => ?_⟩
    · rcases List.mem_cons.mp hy with rfl | hyl
      · exact ⟨hx, hup, (hrest y hxl).trans (sliceGet_sliceSet_self ..)⟩
      · obtain ⟨hfree, hyup, hyv⟩ := htaken y hyl
        have hne : y ≠ x := by
          rintro rfl
          exact hxl hyl
        exact ⟨(sliceGet_sliceSet_other v _ hne).symm.trans hfree, hyup, hyv⟩
    · obtain ⟨hne, hyl⟩ : y ≠ x ∧ y ∉ l' := by simpa using hy
      exact (hrest y hyl).trans (sliceGet_sliceSet_other v _ hne)

/-- A grant keeps to its class's limit (R225). -/
theorem pzGrant_some {n c k : Nat} {ends l : List Nat} {d e : Dev} (h : pzGrant n c k ends d = some (l, e)) :
    pzHeld d c + k ≤ regFld d .pzQuota c 30 16 ∧ ∃ rest f, (∀ x, sliceGet e x = sliceGet f x)
      ∧ takeSlices (tget d.bankElig n []) (.stream c n .hand) ends (tget d.bankSets n []) k d = some (l, rest, f) := by
  unfold pzGrant at h
  split at h
  next hfits =>
    obtain ⟨⟨l', rest, f⟩, ht, he⟩ := Option.map_eq_some_iff.mp h
    cases he
    exact ⟨of_decide_eq_true (Bool.and_eq_true_iff.mp hfits).1, rest, f, fun _ => rfl, ht⟩
  · cases h

theorem bankUp_iff {d : Dev} {b : Nat} : bankUp d b = true ↔ bankState d b = 0 ∨ bankState d b = 3 := by simp [bankUp]

/-- A grant is of free slices in banks that are up, which the stream then holds in its class (R225, R269). -/
theorem pzGrant_takes {n c k : Nat} {ends l : List Nat} {d e : Dev} (h : pzGrant n c k ends d = some (l, e)) :
    l.length = k ∧ pzHeld d c + k ≤ regFld d .pzQuota c 30 16
      ∧ ∀ x ∈ l, sliceGet d x = .free ∧ sliceGet e x = .stream c n .hand
          ∧ (bankState d (x / 256) = 0 ∨ bankState d (x / 256) = 3) := by
  obtain ⟨hquota, rest, f, hsame, ht⟩ := pzGrant_some h
  obtain ⟨hlen, htaken, -⟩ := takeSlices_takes (v := .stream c n .hand) (by simp) ht
  refine ⟨hlen, hquota, fun x hx => ?_⟩
  obtain ⟨hfree, hup, hv⟩ := htaken x hx
  exact ⟨hfree, (hsame x).trans hv, bankUp_iff.mp hup⟩

end Sys2Proof.Machine
end


section
/-!
SUPPORT. What follows a command leaves Plaza's slices and bytes alone, and where the copy of a scratch slice goes (R220, R233).
-/
namespace Sys2Proof.Machine

open Sys2Proof

/-! ### After a command -/

/-- What follows a command changes only what a woken CP, an entered pack and the calls that still wait are seen by. -/
theorem settle_keeps {α : Type} {φ : Dev → α} (hwake : ∀ i d, φ (wakeCp i d) = φ d) (henter : ∀ k d, φ (enterPack k d) = φ d)
    (hcalls : ∀ l d, φ { d with packCalls := l } = φ d) (d : Dev) : φ (settle d) = φ d := by
  have hsweep : φ (wakeSweep d) = φ d := by
    unfold wakeSweep
    refine List.foldlRecOn (motive := fun e => φ e = φ d) _ _ rfl fun e he p _ => ?_
    split
    · exact (hwake _ _).trans he
    · exact he
  have htry : ∀ l e, φ (tryCalls l e) = φ e := by
    intro l
    induction l with
    | nil => exact fun _ => rfl
    | cons k t ih =>
      intro e
      unfold tryCalls
      split
      · exact (ih _).trans (henter k e)
      · exact (ih _).trans (hcalls _ e)
  unfold settle
  dsimp only
  split
  · rfl
  · split
    · exact hsweep
    · exact (htry _ _).trans ((hcalls _ _).trans hsweep)

/-- What Plaza's slices are for, which of them the scratch areas hold, and Plaza's bytes. -/
def plazaState (d : Dev) : Tbl Slice × Tbl (List Nat) × List Host.Cell := (d.slices, d.scratch, d.plaza)

theorem plazaState_wakeCp (i : Nat) (d : Dev) : plazaState (wakeCp i d) = plazaState d := by
  unfold wakeCp
  dsimp only
  split <;> rfl

theorem plazaState_enterPack (k : PackCall) (d : Dev) : plazaState (enterPack k d) = plazaState d := by
  unfold enterPack
  split <;> rfl

theorem plazaState_settle (d : Dev) : plazaState (settle d) = plazaState d :=
  settle_keeps plazaState_wakeCp plazaState_enterPack (fun _ _ => rfl) d

theorem settle_slices (d : Dev) : (settle d).slices = d.slices := congrArg (·.1) (plazaState_settle d)

theorem settle_scratch (d : Dev) : (settle d).scratch = d.scratch := congrArg (·.2.1) (plazaState_settle d)

theorem settle_plaza (d : Dev) : (settle d).plaza = d.plaza := congrArg (·.2.2) (plazaState_settle d)

/-! ### The bytes of a slice -/

theorem tget_filter_kept {α : Type} {p : Nat × α → Bool} {t : Tbl α} {k : Nat} (d : α) (h : ∀ v, p (k, v) = true) :
    tget (t.filter p) k d = tget t k d := by
  induction t with
  | nil => rfl
  | cons e t ih =>
    obtain ⟨j, v⟩ := e
    by_cases hj : j = k
    · subst hj
      simp [tget, h]
    · by_cases hp : p (j, v) = true <;> simp [tget, hp, hj, ih]

/-- Zeros in a slice leave the bytes of the others. -/
theorem memGet_zeroSlice {s a : Nat} (d : Dev) (h : a / 4096 ≠ s) : memGet (zeroSlice s d).plaza a = memGet d.plaza a :=
  tget_filter_kept 0 (by simpa using h)

theorem length_memRead (m : List Host.Cell) (a n : Nat) : (memRead m a n).length = n := by simp [memRead, span]

theorem getElem_memRead (m : List Host.Cell) (a n i : Nat) (h : i < (memRead m a n).length) : (memRead m a n)[i] = memGet m (a + i) := by
  simp [memRead, span]

/-! ### The copy of a scratch slice (R233) -/

theorem fenceSweep_idle {d : Dev} (h : d.fenceWait = []) : fenceSweep d = d := by simp [fenceSweep, h]

/-- Plaza's bytes as those of slice x are copied to slice y, and x holds zeros. -/
def sliceMoved (x y : Nat) (d : Dev) : List Host.Cell :=
  (zeroSlice x { d with plaza := memWrite (zeroSlice y d).plaza (4096 * y) (memRead d.plaza (4096 * x) 4096) }).plaza

/-- The device as scratch slice x of an area has become slice y: the bytes are there, x is free, and the area's list names y. -/
def scratchMoved (x y a : Nat) (d : Dev) : Dev :=
  { d with
    plaza := sliceMoved x y d
    slices := tset (tset d.slices x .free .free) y (.scratch a) .free
    scratch := tset d.scratch a ((scratchOf d a).map (fun z => if z = x then y else z)) [] }

section
variable {x y a : Nat} {d : Dev}

theorem scratchCopy_moves (hx : sliceGet d x = .scratch a) (hbank : bankState d (x / 256) = 1) (hne : y / 256 ≠ x / 256)
    (hy : y < Config.plazaSlices) (hup : bankState d (y / 256) = 0) (hfree : sliceGet d y = .free) (hwait : d.fenceWait = [])
    (hnone : refilling d (4096 * x) 4096 = []) (hheld : ∀ z ∈ d.refills, z.reader ≠ .copy x) :
    scratchCopy x y d = scratchMoved x y a d := by
  have hread : readHeld d (.copy x) = false := by simpa [readHeld] using hheld
  have hmay : (bankState d (x / 256) = 1 ∨ d.fenceWait.contains x = true) ∧ y / 256 ≠ x / 256 ∧ y < Config.plazaSlices
      ∧ bankUp d (y / 256) = true ∧ sliceGet d y = .free ∧ d.fenceWait.contains y = false :=
    ⟨.inl hbank, hne, hy, bankUp_iff.mpr (.inl hup), hfree, by simp [hwait]⟩
  unfold scratchCopy
  rw [hx]
  simp only [if_pos hmay, hread, hnone]
  refine (fenceSweep_idle ?_).trans ?_
  · simpa only [sliceSet, zeroSlice] using hwait
  · simp only [scratchMoved, sliceMoved, sliceSet, scratchOf, zeroSlice]

theorem scratchMoved_slices : (scratchMoved x y a d).slices = tset (tset d.slices x .free .free) y (.scratch a) .free := rfl

theorem scratchMoved_plaza : (scratchMoved x y a d).plaza = sliceMoved x y d := by simp only [scratchMoved]

theorem scratchMoved_from (h : x ≠ y) : sliceGet (scratchMoved x y a d) x = .free := by
  rw [sliceGet, scratchMoved_slices, tget_tset_other _ _ _ _ h, tget_tset_self]

theorem scratchMoved_to : sliceGet (scratchMoved x y a d) y = .scratch a := by
  rw [sliceGet, scratchMoved_slices, tget_tset_self]

theorem scratchMoved_area : scratchOf (scratchMoved x y a d) a = (scratchOf d a).map (fun z => if z = x then y else z) :=
  tget_tset_self ..

theorem memGet_sliceMoved (h : x ≠ y) {i : Nat} (hi : i < 4096) :
    memGet (sliceMoved x y d) (4096 * y + i) = memGet d.plaza (4096 * x + i) := by
  have hlen : i < (memRead d.plaza (4096 * x) 4096).length := by rwa [length_memRead]
  have hslice : (4096 * y + i) / 4096 ≠ x := by omega
  rw [sliceMoved, memGet_zeroSlice _ hslice, memGet_memWrite_inside _ _ _ i hlen, getElem_memRead]

end

end Sys2Proof.Machine
end

section
/-!
THEOREM. O38 (R222, R225, R233, R234, R269): Plaza's slices.
-/
namespace Sys2Proof.Machine

open Sys2Proof

/-! ### Bank faults (R234) -/

/-- The device after a bank fault that no spare mends: what `bankLost` settles. -/
def lostBank (b : Nat) (l : List Nat) (d : Dev) : Dev :=
  if banksRetired d < 4 then deviceFault 1 3 b (repairUse 2 (bankSet b 1 d))
  else deviceFault 2 3 b (l.foldl (fun d x => fence x d) (if bankState d b = 3 then d else bankSet b 3 d))

theorem bankLost_eq (s : State) (b : Nat) (l : List Nat) : bankLost s b l = after s (lostBank b l s.dev) := by
  unfold bankLost lostBank
  exact (apply_ite (after s) _ _ _).symm

section
variable {d : Dev} {b : Nat}

/-- A bank that has failed, or that there is not, has no further fault. -/
theorem bankFault_off (k : BankFault) (h : bankState d b = 1 ∨ bankState d b = 2 ∨ 64 ≤ b) : bankFault b k d = d := by
  have hoff : 64 ≤ b ∨ bankState d b = 1 ∨ bankState d b = 2 := by tauto
  simp only [bankFault, if_pos hoff]

variable (hb : b < 64) (hst : bankState d b = 0 ∨ bankState d b = 3)
include hb hst

theorem bank_on : ¬ (64 ≤ b ∨ bankState d b = 1 ∨ bankState d b = 2) := by omega

theorem bankFault_row (i : Nat) : bankFault b (.row i) d =
    if regFld d .bkStat b 12 8 < 16 then
      deviceFault 0 3 b (repairUse 3 (regSetFld .bkStat b 12 8 (regFld d .bkStat b 12 8 + 1) d))
    else lostBank b [256 * b + i % 256] d := by
  simp only [bankFault, if_neg (bank_on hb hst)]
  rfl

theorem bankFault_column (i : Nat) : bankFault b (.column i) d =
    if regFld d .bkStat b 2 0 < 4 then
      deviceFault 0 3 b (repairUse 4 (regSetFld .bkStat b 2 0 (regFld d .bkStat b 2 0 + 1) d))
    else lostBank b (List.range' (256 * b + 16 * (i % 16)) 16) d := by
  simp only [bankFault, if_neg (bank_on hb hst), span_eq_range']
  rfl

theorem bankFault_bank : bankFault b .bank d = lostBank b [] d := by
  simp only [bankFault, if_neg (bank_on hb hst)]
  rfl

end

/-- A bank that retires is retired once each of its slices is fenced or free (R233). -/
theorem bankRetired_empty {d : Dev} {b : Nat} (hst : bankState d b = 1) (h : ∀ e ∈ d.slices, e.1 / 256 = b → e.2 = .fenced) :
    bankRetired b d =
      let e := bankSet b 2 (regSetFld .pzSlices 0 14 0 (pzSlices d - (256 - regFld d .bkFenced b 8 0)) d)
      qshortCheck (regSetFld .pzStat 0 2 0 (regFld e .pzStat 0 2 0 + 1) e) := by
  have hused : d.slices.any (fun e => decide (e.1 / 256 = b) && decide (e.2 ≠ .fenced)) = false := by
    simpa using h
  simp only [bankRetired, hused, hst, and_self, if_true]

/-! ### The grant of a waiting reservation (R225) -/

theorem run_liveA {s : State} (f : Dev → Dev) (h : Engine s) : run s (liveA f) = answers (swept s (f s.dev)) :=
  run_live (fun d => attnSweep (fnSweep (f d))) h

section
variable {d : Dev} {c : Nat}

/-- A reservation of a lower class that fits goes first. -/
theorem pzGrantFirst_lower (h : ∃ k, k < c ∧ pzNext k d ≠ none) : pzGrantFirst c d = d := by
  obtain ⟨k, hk, hn⟩ := h
  have hany : (List.range c).any (fun k => (pzNext k d).isSome) = true :=
    List.any_eq_true.mpr ⟨k, List.mem_range.mpr hk, Option.isSome_iff_ne_none.mpr hn⟩
  simp only [pzGrantFirst, hany, if_true]

theorem pzGrantFirst_turn (h : ∀ k, k < c → pzNext k d = none) : pzGrantFirst c d =
    match pzNext c d with
    | none => d
    | some (r, l, e) => if ((progOf d r.sub).bind (·.own)).isSome then callEv r.sub 4 3 (pzPages r.sub l e).1 (pzPages r.sub l e).2 else e := by
  have hany : (List.range c).any (fun k => (pzNext k d).isSome) = false := by
    simpa using h
  simp only [pzGrantFirst, hany]
  rfl

variable {r : PzRes} (hr : d.resv.find? (fun q => q.cls = c) = some r) (hturn : ∀ k, k < c → pzNext k d = none)
include hr

theorem pzNext_first : pzNext c d =
    (pzGrant r.sub c r.n r.ends { d with resv := d.resv.filter (fun q => q.id ≠ r.id) }).map (fun g => (r, g)) := by
  simp only [pzNext, hr]

include hturn

theorem pzGrantFirst_none (hg : pzGrant r.sub c r.n r.ends { d with resv := d.resv.filter (fun q => q.id ≠ r.id) } = none) :
    pzGrantFirst c d = d := by
  rw [pzGrantFirst_turn hturn, pzNext_first hr, hg]
  rfl

theorem pzGrantFirst_some {l : List Nat} {e : Dev}
    (hg : pzGrant r.sub c r.n r.ends { d with resv := d.resv.filter (fun q => q.id ≠ r.id) } = some (l, e)) :
    pzGrantFirst c d = if ((progOf d r.sub).bind (·.own)).isSome then callEv r.sub 4 3 (pzPages r.sub l e).1 (pzPages r.sub l e).2 else e := by
  rw [pzGrantFirst_turn hturn, pzNext_first hr, hg]
  rfl

end

/-! ### The obligation -/

/-- The copy of a scratch slice, seen after the command. -/
theorem scratchSliceCopy_moves {s : State} {x y a : Nat} (hs : Running s) (hx : sliceGet s.dev x = .scratch a)
    (hbank : bankState s.dev (x / 256) = 1) (hne : y / 256 ≠ x / 256) (hy : y < Config.plazaSlices)
    (hup : bankState s.dev (y / 256) = 0) (hfree : sliceGet s.dev y = .free) (hwait : s.dev.fenceWait = [])
    (hnone : refilling s.dev (4096 * x) 4096 = []) (hheld : ∀ z ∈ s.dev.refills, z.reader ≠ .copy x) :
    exec (.scratchSliceCopy x y) s = .next (after s (scratchMoved x y a s.dev)) :=
  (run_running _ _ hs).trans (by rw [scratchCopy_moves hx hbank hne hy hup hfree hwait hnone hheld])

/-- Settles O38: a bank fault by its kind and the spares left; the copy of a slice by the device it makes; a grant by induction on the
slices it takes. -/
theorem plazaSlices : Obligations.PlazaSlices := by
  intro s hs
  refine ⟨fun b i hb hst => ?_, fun b k h => ?_, fun b hb hst h => ?_, fun x y a hx hbank hne hy hup hfree hwait hnone hheld _ => ?_,
    fun c r hfatal hr => ?_, fun n c k ends l d h => pzGrant_takes h⟩
  · have hexec : ∀ k, exec (.plazaBankFault b k) s = .next (after s (bankFault b k s.dev)) := fun k => run_running _ _ hs
    refine ⟨fun h => ?_, fun h => ?_, fun h => ?_, fun h => ?_, ?_⟩
    · rw [hexec, bankFault_row hb hst, if_pos h]
    · rw [hexec, bankFault_row hb hst, if_neg (Nat.not_lt.mpr h), bankLost_eq]
    · rw [hexec, bankFault_column hb hst, if_pos h]
    · rw [hexec, bankFault_column hb hst, if_neg (Nat.not_lt.mpr h), bankLost_eq]
    · rw [hexec, bankFault_bank hb hst, bankLost_eq]
  · exact (run_running _ _ hs).trans (by rw [bankFault_off k h])
  · exact (run_running _ _ hs).trans (by rw [bankRetired_empty hst h])
  · have hxy : x ≠ y := by
      rintro rfl
      exact hne rfl
    refine ⟨_, scratchSliceCopy_moves hs hx hbank hne hy hup hfree hwait hnone hheld, ?_, ?_, ?_, fun i hi => ?_⟩
    · simp only [after, sliceGet, settle_slices]
      exact scratchMoved_from hxy
    · simp only [after, sliceGet, settle_slices]
      exact scratchMoved_to
    · simp only [after, scratchOf, settle_scratch]
      exact scratchMoved_area
    · simp only [after, settle_plaza, scratchMoved_plaza]
      exact memGet_sliceMoved hxy hi
  · have hexec : exec (.pzReservationGrant c) s = answers (swept s (fenceSweep (pzGrantFirst c s.dev))) :=
      run_liveA _ ⟨hs, hfatal⟩
    refine ⟨fun h => ?_, fun hturn => ⟨fun hg => ?_, fun l d hg => ⟨fun hown => ?_, fun hown => ?_⟩⟩⟩
    · rw [hexec, pzGrantFirst_lower h]
    · rw [hexec, pzGrantFirst_none hr hturn hg]
    · rw [hexec, pzGrantFirst_some hr hturn hg, if_pos hown]
    · rw [hexec, pzGrantFirst_some hr hturn hg, if_neg (by simp [hown])]

end Sys2Proof.Machine
end

section
/-!
SUPPORT. A failing check block (R228 to R231): what its mismatch leaves alone, and how its refill goes by what it brings.
-/
namespace Sys2Proof.Machine

open Sys2Proof

/-! ### The mismatch (R228, R253) -/

theorem mismatch_eq (b : Nat) (r : BlockUser) (d : Dev) : mismatch b r d = crcRaised b r d := rfl

theorem readFailed_eq (s : State) (b : Nat) (r : BlockUser) (d : Dev) : after s (readFailed b r d) = readLost s b r d := rfl

theorem refillAsk_eq (g : BlockSrc) (d : Dev) : refillAsk g d = askAgain g d := by cases g <;> rfl

theorem Logged.refills {d e : Dev} (h : Logged d e) : e.refills = d.refills := h.keeps (φ := Dev.refills) fun _ _ _ _ _ _ _ _ _ _ _ _ => rfl

@[simp] theorem dbEvent_refills (c : Nat) (d : Dev) : (dbEvent c d).refills = d.refills := by
  obtain ⟨r, h⟩ := dbEvents_frame c 1 d
  rw [dbEvent, h]

@[simp] theorem traceEvent_refills (k : Nat) (g : Option Nat) (x y : Nat) (d : Dev) : (traceEvent k g x y d).refills = d.refills := by
  obtain ⟨l, h, c, hl⟩ := traceEvent_frame k g x y d
  exact hl.refills

@[simp] theorem rbtHeld_refills (k : Nat) (mine : RReq → Bool) (d : Dev) : (rbtHeld k mine d).refills = d.refills := by
  unfold rbtHeld
  dsimp only
  split
  · rfl
  · split <;> rfl

/-- A mismatch touches no refill. -/
@[simp] theorem crcRaised_refills (b : Nat) (r : BlockUser) (d : Dev) : (crcRaised b r d).refills = d.refills := by
  simp [crcRaised, (logged_pageEvent _ _ _).refills, (logged_regBump _ _ _).refills]

/-- When the hold of the read r ends that meets a mismatch of block b now (R231): as the refills stand before it. -/
def holdEnds (b : Nat) (r : BlockUser) (d : Dev) : DWord := holdEnd { crcRaised b r d with refills := d.refills } r

theorem holdEnd_crcRaised (b : Nat) (r : BlockUser) (d : Dev) : holdEnd (crcRaised b r d) r = holdEnds b r d := by
  have hsame : { crcRaised b r d with refills := d.refills } = crcRaised b r d := by rw [← crcRaised_refills b r d]
  rw [holdEnds, hsame]

section
variable {b : Nat} {r : BlockUser} {g : BlockSrc} {d : Dev} (hb : b < 0x40000)
include hb

/-- The first read that meets a mismatch at a block, as it is raised (R228). -/
theorem crcMismatch_first (h : ∀ x ∈ d.refills, x.blk ≠ b) : crcMismatch b g r d =
    if noRefill g || decide (regFld (crcRaised b r d) .pzResend 0 2 0 = 0) then readFailed b r (crcRaised b r d)
    else askAgain g { crcRaised b r d with refills := (crcRaised b r d).refills ++ [⟨b, g, r, 0, holdEnds b r d⟩] } := by
  have hnone : ¬ d.refills.any (fun x => decide (x.blk = b)) = true := by simpa using h
  unfold crcMismatch
  rw [if_neg (Nat.not_le.mpr hb), if_neg hnone]
  simp only [mismatch_eq, holdEnd_crcRaised, refillAsk_eq]
  rfl

/-- Another read of a block in refill joins it (R228). -/
theorem crcMismatch_refilling {x : Refill} (h : d.refills.find? (fun y => y.blk = b) = some x) : crcMismatch b g r d =
    if d.refills.any (fun y => decide (y.blk = b) && decide (y.reader = r)) then d
    else { crcRaised b r d with refills := (crcRaised b r d).refills ++ [⟨b, x.origin, r, 0, holdEnds b r d⟩] } := by
  have hany : d.refills.any (fun x => decide (x.blk = b)) = true :=
    List.any_eq_true.mpr ⟨x, List.mem_of_find?_eq_some h, by simpa using List.find?_some h⟩
  unfold crcMismatch
  rw [if_neg (Nat.not_le.mpr hb), if_pos hany]
  simp only [joinRefill, h, mismatch_eq, holdEnd_crcRaised]

end

theorem noRefill_iff {g : BlockSrc} : noRefill g = true ↔ g = .windowFixed ∨ g = .scratch := by cases g <;> simp [noRefill]

/-! ### The refill of one read (R229, R230) -/

section
variable {x : Refill} {b : Nat} {g : BlockSrc} {d : Dev}

theorem refillAgain_below (h : x.tries + 1 < regFld d .pzResend 0 2 0) :
    refillAgain b g [x] d = askAgain g { d with refills := d.refills ++ [{ x with tries := x.tries + 1 }] } := by
  have hlim : ¬ regFld d .pzResend 0 2 0 ≤ x.tries + 1 := Nat.not_le.mpr h
  simp [refillAgain, hlim, refillAsk_eq]

theorem refillAgain_limit (h : regFld d .pzResend 0 2 0 ≤ x.tries + 1) : refillAgain b g [x] d = readFailed b x.reader d := by
  simp [refillAgain, h]

end

/-- What is computed again depends on no refill. -/
theorem produced_refills (l : List Refill) (d : Dev) (q : PlazaProd) : produced { d with refills := l } q = produced d q := by
  cases q <;> rfl

/-- What a refill brings, by its origin (R228, R229). -/
theorem refillBytes_ok {d : Dev} {g : BlockSrc} {l bytes : List Byte}
    (h : (l.length = 256 ∧ bytes = l ∧ (∀ q, g ≠ .plaza q) ∧ ∀ n ns lba k o, g ≠ .nvme n ns lba k o)
      ∨ (∃ n ns lba k o, g = .nvme n ns lba k o ∧ o + 256 ≤ l.length ∧ bytes = (l.drop o).take 256)
      ∨ (∃ q, g = .plaza q ∧ bytes = fitBytes 256 (produced d q))) : refillBytes d g (.ok l) = some bytes := by
  rcases h with ⟨hlen, rfl, hplaza, hnvme⟩ | ⟨n, ns, lba, k, o, rfl, hlen, rfl⟩ | ⟨q, rfl, rfl⟩
  · cases g
    case plaza q => exact absurd rfl (hplaza q)
    case nvme n ns lba k o => exact absurd rfl (hnvme n ns lba k o)
    all_goals exact congrArg some (fitBytes_of_length hlen)
  · have hfit : fitBytes 256 (l.drop o) = (l.drop o).take 256 := by
      have hdrop : 256 ≤ (l.drop o).length := by
        rw [List.length_drop]
        omega
      simp [fitBytes, List.take_append_of_le_length hdrop]
    exact congrArg some hfit
  · rfl

/-! ### What the read of a refilled block does next (R230, R231) -/

section
variable {b : Nat} {x : Refill} {d : Dev}

/-- The movers, the engine, operations, transfers and scratch copies read again themselves. -/
theorem readerGoes_others {c o : Nat} {a : DWord}
    (h : x.reader = .chan c a ∨ x.reader = .cmd o ∨ x.reader = .xfer o ∨ x.reader = .engine o ∨ x.reader = .copy o) :
    readerGoes b d x = d := by
  unfold readerGoes
  rcases h with h | h | h | h | h <;> rw [h]

theorem readerGoes_device {p o off len : Nat} (h : x.reader = .device p o off len) (hlast : ∀ y ∈ d.refills, y.reader ≠ x.reader) :
    readerGoes b d x = emit (.devAnswer p 0 (memRead d.plaza off len)) d := by
  have hnone : ¬ d.refills.any (fun y => decide (y.reader = x.reader)) = true := by simpa using hlast
  rw [h] at hnone
  unfold readerGoes
  simp only [h, if_neg hnone]

theorem readerGoes_load {i : Nat} {a : Word} (h : x.reader = .cpLoad i a) : readerGoes b d x = refreshLoad i a b d := by
  unfold readerGoes
  rw [h]

end

/-- A Corrected fault touches no refill. -/
theorem correctedFault_refills (u i : Nat) (d : Dev) : (deviceFault 0 u i d).refills = d.refills := by
  simp [deviceFault, reportFault, emit, regSet, (logged_regBump _ _ _).refills]

end Sys2Proof.Machine
end

section
/-!
THEOREM. O37 (R228 to R231): Plaza reads whose check fails.
-/
namespace Sys2Proof.Machine

open Sys2Proof

section
variable {b : Nat} {x : Refill} {d : Dev}

/-- The device without the refills of a block. -/
def unrefilled (b : Nat) (d : Dev) : Dev := { d with refills := d.refills.filter (fun y => y.blk ≠ b) }

/-- The same with the bytes of the block written: the block alone is (R229). -/
def blockWritten (b : Nat) (bytes : List Byte) (d : Dev) : Dev :=
  { unrefilled b d with plaza := memWrite d.plaza (256 * b) bytes }

/-- The device after a refill whose bytes pass, reported Corrected (R228). -/
def refillPassed (b : Nat) (bytes : List Byte) (d : Dev) : Dev :=
  deviceFault 0 3 (b / 4096) (regBump .resendOk (b / 4096) (blockWritten b bytes d))

theorem refillPassed_refills (b : Nat) (bytes : List Byte) (d : Dev) : (refillPassed b bytes d).refills = (unrefilled b d).refills := by
  rw [refillPassed, correctedFault_refills, (logged_regBump ..).refills]
  rfl

variable (hx : d.refills.filter (fun y => y.blk = b) = [x])
include hx

theorem refillDone_err (e : BusErr) (ps : Bool) : refillDone b (.err e) ps d = refillAgain b x.origin [x] (unrefilled b d) := by
  simp only [refillDone, hx]
  rfl

section
variable {l bytes : List Byte} (hbytes : refillBytes d x.origin (.ok l) = some bytes)
include hbytes

theorem refillDone_passes : refillDone b (.ok l) true d = readerGoes b (refillPassed b bytes d) x := by
  simp only [refillDone, hx, hbytes]
  rfl

theorem refillDone_mismatch :
    refillDone b (.ok l) false d = refillAgain b x.origin [x] (crcRaised b x.reader (blockWritten b bytes d)) := by
  simp only [refillDone, hx, hbytes]
  rfl

end

end

/-- Settles O37: the first mismatch, one that joins, the end of a refill by what it brings, and the end of a hold. -/
theorem plazaReads : Obligations.PlazaReads := by
  intro s b r hs hb
  have hmis : ∀ g, exec (.plazaCrcMismatch b g r) s = .next (after s (crcMismatch b g r s.dev)) := fun g => run_running _ _ hs
  have hdone : ∀ res ps, exec (.plazaRefillComplete b res ps) s = .next (after s (refillDone b res ps s.dev)) :=
    fun res ps => run_running _ _ hs
  refine ⟨fun g hfirst => ⟨fun hfix hscr hlim => ?_, fun hnone => ?_⟩, fun g x hx => ⟨fun hother => ?_, fun hsame => ?_⟩,
    fun x hx => ⟨fun e ps => ⟨fun hlt => ?_, fun hle => ?_⟩, fun l bytes hsrc => ⟨?_, ?_, ?_, ?_, ?_⟩⟩, fun x hx => ?_⟩
  · rw [hmis, crcMismatch_first hb hfirst, if_neg (by simp [noRefill_iff, hfix, hscr, hlim])]
    rfl
  · have hlost : (noRefill g || decide (regFld (crcRaised b r s.dev) .pzResend 0 2 0 = 0)) = true := by
      rw [Bool.or_eq_true, noRefill_iff, decide_eq_true_eq]
      tauto
    rw [hmis, crcMismatch_first hb hfirst, if_pos hlost]
    rfl
  · rw [hmis, crcMismatch_refilling hb hx, if_neg (by simpa using hother)]
    rfl
  · rw [hmis, crcMismatch_refilling hb hx, if_pos (by simpa using hsame)]
  · rw [hdone, refillDone_err hx]
    exact congrArg (fun d => Host.Outcome.next (after s d)) (refillAgain_below hlt)
  · rw [hdone, refillDone_err hx]
    exact congrArg (fun d => Host.Outcome.next (after s d)) (refillAgain_limit hle)
  · intro c a o hr
    rw [hdone, refillDone_passes hx (refillBytes_ok hsrc), readerGoes_others hr]
    rfl
  · intro p o off len hr hlast
    rw [hdone, refillDone_passes hx (refillBytes_ok hsrc), readerGoes_device hr (by rwa [refillPassed_refills])]
    rfl
  · intro i a hr
    rw [hdone, refillDone_passes hx (refillBytes_ok hsrc), readerGoes_load hr]
    rfl
  · intro hlt
    rw [hdone, refillDone_mismatch hx (refillBytes_ok hsrc)]
    exact congrArg (fun d => Host.Outcome.next (after s d)) (refillAgain_below hlt)
  · intro hle
    rw [hdone, refillDone_mismatch hx (refillBytes_ok hsrc)]
    exact congrArg (fun d => Host.Outcome.next (after s d)) (refillAgain_limit hle)
  · refine (run_running _ _ hs).trans ?_
    simp only [holdExpiry, hx]
    rfl

end Sys2Proof.Machine
end

section
/-!
SUPPORT. A sample of Signpost's averages (R258 to R260).
-/
namespace Sys2Proof.Machine

open Sys2Proof

/-- The step of an average, as the shift of R258. -/
theorem avgStep_eq (alpha : Nat) (a : Word) (x : Nat) : avgStep alpha a x
    = BitVec.ofInt 32 (a.toNat + ((((min x 65535) <<< 16 : Nat) : Int) - a.toNat) >>> alpha) := by
  rw [Int.shiftRight_eq_div_pow, Nat.shiftLeft_eq]
  rfl

theorem signpostSamples : SignpostSamples := by
  intro s k i lat q load hs hrange
  have hin : ¬ ((k = 0 ∧ 8 ≤ i) ∨ (k = 1 ∧ 64 ≤ i) ∨ (k = 2 ∧ 2 ≤ i) ∨ (k = 3 ∧ 32 ≤ i) ∨ 4 ≤ k) := by omega
  refine (run_running _ _ hs).trans ?_
  rw [sample, if_neg hin]
  simp only [avgStep_eq, Nat.mul_comm 2, Nat.mul_comm 256 (bankUsed _ _)]
  cases lat <;> rfl

end Sys2Proof.Machine
end

section
/-!
SUPPORT. The registers of Signpost and of the deep FIFOs as a write of their pages meets them (R249, R250, R255, R276, R277, R280 to
R282).
-/
namespace Sys2Proof.Machine

open Sys2Proof

/-! ### The registers at their places (R398) -/

def ffCfgAt : RegAt := ⟨.dff, 0, 5, .ffCfg, ⟨.dff, 0x44, 0, 1, 4, [⟨4, 0, .rw, 0⟩]⟩, 0, 0⟩
def ffHwmAt : RegAt := ⟨.dff, 0, 5, .ffHwm, ⟨.dff, 0x54, 0, 1, 4, [⟨20, 0, .rw, 0⟩]⟩, 0, 0⟩
def sgPinCtlAt : RegAt := ⟨.sgn, 0, 3, .sgPinCtl,
  ⟨.sgn, 0x804, 0, 1, 4, [⟨31, 31, .sc, 0⟩, ⟨11, 11, .rw, 0⟩, ⟨10, 8, .rw, 0⟩, ⟨1, 1, .rw, 0⟩, ⟨0, 0, .rw, 0⟩]⟩, 0, 0⟩
def sgExclAt : RegAt := ⟨.sgn, 0, 3, .sgExcl, ⟨.sgn, 0x810, 0, 1, 8, [⟨63, 0, .rw, 0⟩]⟩, 0, 0⟩
def sgExclAllAt : RegAt := ⟨.sgn, 0, 3, .sgExclAll, ⟨.sgn, 0x818, 0, 1, 8, [⟨63, 0, .rw, 0⟩]⟩, 0, 0⟩
def sgRecSelAt : RegAt := ⟨.sgn, 0, 3, .sgRecSel, ⟨.sgn, 0x48, 0, 1, 4, [⟨19, 0, .rw, 0⟩]⟩, 0, 0⟩
def sgLogRdAt : RegAt := ⟨.sgn, 0, 3, .sgLogRd, ⟨.sgn, 0x88, 0, 1, 8, [⟨63, 0, .rw, 0⟩]⟩, 0, 0⟩

theorem regFind_ffCfg : regFind 5 0x044 = some ffCfgAt := by decide
theorem regFind_ffHwm : regFind 5 0x054 = some ffHwmAt := by decide
theorem regFind_sgPinCtl : regFind 3 0x804 = some sgPinCtlAt := by decide
theorem regFind_sgExcl : regFind 3 0x810 = some sgExclAt := by decide
theorem regFind_sgExclAll : regFind 3 0x818 = some sgExclAllAt := by decide
theorem regFind_sgRecSel : regFind 3 0x048 = some sgRecSelAt := by decide
theorem regFind_sgLogRd : regFind 3 0x088 = some sgLogRdAt := by decide

theorem writeMask_ffCfg : writeMask ffCfgAt.info = 0x1F := by decide
theorem writeMask_ffHwm : writeMask ffHwmAt.info = 0x1FFFFF := by decide
theorem writeMask_sgPinCtl : writeMask sgPinCtlAt.info = 0x80000F03 := by decide
theorem writeMask_sgExcl : writeMask sgExclAt.info = BitVec.allOnes 64 := by decide
theorem writeMask_sgExclAll : writeMask sgExclAllAt.info = BitVec.allOnes 64 := by decide
theorem writeMask_sgRecSel : writeMask sgRecSelAt.info = 0xFFFFF := by decide
theorem writeMask_sgLogRd : writeMask sgLogRdAt.info = BitVec.allOnes 64 := by decide

/-! ### What they keep (R405) -/

theorem store_ffCfg (d0 : Dev) (o : Origin) (v : DWord) : store d0 o ffCfgAt v = regSet .ffCfg (selOf d0 o .ffSel) v := by
  funext d
  rw [store, kept_all (by decide)]
  rfl

/-- SG_PIN_CTL keeps all but APPLY. -/
theorem store_sgPinCtl (d0 : Dev) (o : Origin) (v : DWord) : store d0 o sgPinCtlAt v = regSet .sgPinCtl 0 (v &&& ~~~0x80000000#64) := by
  funext d
  have hmask : accMask sgPinCtlAt.info (fun x => x = .wo || x = .sc) = 0x80000000#64 := by decide
  rw [store, kept, hmask]
  rfl

theorem store_sgExcl (d0 : Dev) (o : Origin) (v : DWord) :
    store d0 o sgExclAt v = regSet .sgExcl (fnCode (selFn d0 o .sgFnSel)) v := by
  funext d
  rw [store, kept_all (by decide)]
  rfl

theorem store_sgExclAll (d0 : Dev) (o : Origin) (v : DWord) : store d0 o sgExclAllAt v = regSet .sgExclAll 0 v := by
  funext d
  rw [store, kept_all (by decide)]
  rfl

/-! ### What their own rules say of a write (R405) -/

/-- Does an origin stand for the PF of a completion ring's owner? -/
def ringPf (d : Dev) (o : Origin) (n : Nat) : Bool :=
  decide (n < 4096) && (match ownOf (crGet d n).own with | some f => isPf o f.port | none => false)

theorem ringPf_iff {d : Dev} {o : Origin} {n : Nat} :
    ringPf d o n = true ↔ n < 4096 ∧ ∃ f, ownOf (crGet d n).own = some f ∧ o = .hostPf f.port := by
  unfold ringPf
  cases ownOf (crGet d n).own <;> simp [isPf]

section
variable {d : Dev} {o : Origin} {v : DWord}

theorem regEffect_ffCfg : regEffect d o ffCfgAt v =
    let n := selOf d o .ffSel
    let m := bits v 4 0
    if !(isF o || ringPf d o n) then .denied id
    else if !(m = 0 || (decide (4 ≤ m) && decide (m ≤ 20))) || decide ((fifoParts d n).1 ≠ 0) then .cfgerr id
    else if poolFree d + middleCap (regFld d .ffCfg n 4 0) < middleCap m then
      .cfgerr (fun d => pageEvent 5 0 (regSetFld .ffStat 0 31 31 1 d))
    else .ok (regSet .ffCfg n v) := by
  dsimp only
  rw [← store_ffCfg d o]
  rfl

theorem regEffect_ffHwm : regEffect d o ffHwmAt v =
    .ok (regSet .ffHwm (selOf d o .ffSel) (BitVec.ofNat 64 (fifoParts d (selOf d o .ffSel)).1)) := rfl

theorem regEffect_sgPinCtl : regEffect d o sgPinCtlAt v =
    let n := selOf d o .sgPinSub
    let put := regSet .sgPinCtl 0 (v &&& ~~~0x80000000#64)
    if bit v 31 then
      gate (mayPin d o n) (fun d => if n < Config.subchannels then applyPin n (v.truncate 32) (put d) else put d)
    else .ok put := by
  rw [← store_sgPinCtl d o]
  rfl

theorem regEffect_sgExcl : regEffect d o sgExclAt v =
    let f := selFn d o .sgFnSel
    if isP o || isF o || isPf o f.port then
      unlessErr (leavesNone d v (regGet d .sgExclAll 0))
        (.ok (fun d => exclRestore d (sgLogPut 3 4 v.toNat (fnCode f) 0 (regSet .sgExcl (fnCode f) v d))))
    else .denied id := by
  dsimp only
  rw [← store_sgExcl d o]
  rfl

theorem regEffect_sgExclAll : regEffect d o sgExclAllAt v =
    unlessErr ((List.range 130).any (fun k => leavesNone d (regGet d .sgExcl (fnCode ⟨k / 65, k % 65⟩)) v))
      (.ok (fun d => exclRestore d (sgLogPut 3 4 v.toNat 0xFFFFFFFF 0 (regSet .sgExclAll 0 v d)))) := by
  rw [← store_sgExclAll d o]
  rfl

end

/-! ### Writes that pass the first three checks of R405 -/

theorem merged_all (s : State) (o : Origin) (page x : Nat) (v : DWord) : merged s o page x v (BitVec.allOnes 64) = v := by
  rw [merged, BitVec.not_allOnes, BitVec.and_zero, BitVec.zero_or, BitVec.and_allOnes]

section
variable {s : State} {o : Origin} {v : Word} {w : DWord}

theorem write_ffCfg (P : Passes s o 5 0x044 [4, 3, 1]) : run s (write32 o 5 0x044 v) = .next (answerOf s o 5 0x044 4 (v.zeroExtend 64)
    ffCfgAt (regEffect (judged o 5 0x044 s.dev) o ffCfgAt (merged s o 5 0x044 (v.zeroExtend 64) 0x1F))) := by
  rw [write32_passed P regFind_ffCfg rfl (by decide) rfl (by decide) (by rw [writeMask_ffCfg]; decide) (by decide) (by decide)
    (by decide) (by decide) (by decide) (by rw [writeMask_ffCfg]; decide), writeMask_ffCfg]

theorem write_ffHwm (P : Passes s o 5 0x054 [4, 3, 1]) : run s (write32 o 5 0x054 v) = .next (answerOf s o 5 0x054 4 (v.zeroExtend 64)
    ffHwmAt (regEffect (judged o 5 0x054 s.dev) o ffHwmAt (merged s o 5 0x054 (v.zeroExtend 64) 0x1FFFFF))) := by
  rw [write32_passed P regFind_ffHwm rfl (by decide) rfl (by decide) (by rw [writeMask_ffHwm]; decide) (by decide) (by decide)
    (by decide) (by decide) (by decide) (by rw [writeMask_ffHwm]; decide), writeMask_ffHwm]

theorem write_sgPinCtl (P : Passes s o 3 0x804 [4, 3, 1]) : run s (write32 o 3 0x804 v) = .next (answerOf s o 3 0x804 4 (v.zeroExtend 64)
    sgPinCtlAt (regEffect (judged o 3 0x804 s.dev) o sgPinCtlAt (merged s o 3 0x804 (v.zeroExtend 64) 0x80000F03))) := by
  rw [write32_passed P regFind_sgPinCtl rfl (by decide) rfl (by decide) (by rw [writeMask_sgPinCtl]; decide) (by decide) (by decide)
    (by decide) (by decide) (by decide) (by rw [writeMask_sgPinCtl]; decide), writeMask_sgPinCtl]

theorem write_sgExcl (P : Passes s o 3 0x810 [4, 3, 1]) : run s (write64 o 3 0x810 w)
    = .next (answerOf s o 3 0x810 8 w sgExclAt (regEffect (judged o 3 0x810 s.dev) o sgExclAt w)) := by
  rw [write64_passed P regFind_sgExcl rfl (by decide) rfl rfl (by decide) (by rw [writeMask_sgExcl]; decide) (by decide) (by decide)
    (by decide) (by decide), writeMask_sgExcl, merged_all]

theorem write_sgExclAll (P : Passes s o 3 0x818 [4, 3, 1]) : run s (write64 o 3 0x818 w)
    = .next (answerOf s o 3 0x818 8 w sgExclAllAt (regEffect (judged o 3 0x818 s.dev) o sgExclAllAt w)) := by
  rw [write64_passed P regFind_sgExclAll rfl (by decide) rfl rfl (by decide) (by rw [writeMask_sgExclAll]; decide) (by decide) (by decide)
    (by decide) (by decide), writeMask_sgExclAll, merged_all]

/-- A selection register of 4 bytes takes the value written, and its selection acts (R408). -/
theorem write32_selection {page x : Nat} {t : PageTy} {a : RegAt} (S : Selects s o page x t)
    (hf : regFind page x = some a) (ht : a.ty = t) (hsel : isSelection a.reg = true) (hk : a.reg ≠ .pgXkey)
    (hopen : a.reg ≠ .sgPinSub ∧ a.reg ≠ .sgFnSel) (hb : a.byte = 0)
    (hm : writeMask a.info &&& BitVec.ofNat 64 (fieldN (8 * 4 - 1) 0 (2 ^ 64 - 1)) = writeMask a.info)
    (hi : ∀ d, regInst d o a = originKey o) (hn : x ≠ 0x00C) (hp : page < 0x4000) (hx : x < 4096) (h4 : x % 4 = 0)
    (h0 : ¬ (page = 0 ∧ (x = 0x80 ∨ x = 0x84))) :
    run s (write32 o page x v) = .next (selected s o page a.reg (merged s o page x (v.zeroExtend 64) (writeMask a.info))
      (selEffect o a.reg (merged s o page x (v.zeroExtend 64) (writeMask a.info)))) := by
  obtain ⟨hrun, hwait, hread, hfatal⟩ := S
  have hread' : mayRead (dropChal o page s.dev) o a.ty = true := ht ▸ hread
  have hfatal' : fatalShut (dropChal o page s.dev) o = false := hfatal
  have hv : BitVec.ofNat 64 ((v.zeroExtend 64).toNat % 2 ^ 32) = v.zeroExtend 64 := by
    apply BitVec.eq_of_toNat_eq
    have := v.isLt
    simp
    omega
  have hone : barWrite1 o page x 4 (v.zeroExtend 64) s.dev
      = (0, selEffect o a.reg (merged s o page x (v.zeroExtend 64) (writeMask a.info))
          (regSet a.reg (originKey o) (merged s o page x (v.zeroExtend 64) (writeMask a.info)) (dropChal o page s.dev))) := by
    simp only [barWrite1, merged, hf, hk, hn, hsel, hopen, hb, hi, if_false, if_true, decide_false,
      Nat.mul_zero, Nat.zero_add, hm, BitVec.shiftLeft_zero]
    simp [hread', hfatal']
  rw [run_running _ _ hrun, write32, barWrite, hwait, barWriteNow_4 _ _ h0 hx h4 hp, hv, hone]
  rfl

theorem write_sgRecSel (S : Selects s o 3 0x048 .sgn) :
    run s (write32 o 3 0x048 v) = .next (selected s o 3 .sgRecSel (merged s o 3 0x048 (v.zeroExtend 64) 0xFFFFF)
      (sgSnapshot o (bits v 19 0))) := by
  rw [write32_selection (a := sgRecSelAt) S regFind_sgRecSel rfl (by decide) (by decide) (by decide) rfl
    (by rw [writeMask_sgRecSel]; decide) (fun _ => rfl) (by decide) (by decide) (by decide) (by decide) (by decide), writeMask_sgRecSel,
    ← bits_merged s o 3 0x048 v (mask := 0xFFFFF) (by decide)]
  rfl

theorem write_sgLogRd (S : Selects s o 3 0x088 .sgn) :
    run s (write64 o 3 0x088 w) = .next (selected s o 3 .sgLogRd w (selEffect o .sgLogRd w)) :=
  write64_selection (a := sgLogRdAt) (v := w) S regFind_sgLogRd rfl (by decide) (by decide) (by decide) rfl rfl writeMask_sgLogRd
    (fun _ => rfl) (by decide) (by decide) (by decide) (by decide)

end

end Sys2Proof.Machine
end

section
/-!
THEOREM. O40 (R249, R250, R255, R258 to R261, R276, R277, R280 to R282): Signpost's samples and registers.
-/
namespace Sys2Proof.Machine

open Sys2Proof

/-! ### What the checks before a write leave alone -/

theorem subGet_judged (o : Origin) (page x : Nat) (d : Dev) (n : Nat) : subGet (judged o page x d) n = subGet d n := by
  unfold judged
  split
  · exact (sameButLog_xExpire (dropChal o page d)).logged.sameSubs.subGet n
  · rfl

theorem bankState_judged {o : Origin} {page x : Nat} {d : Dev} {b : Nat} (hb : b < 1048576) : bankState (judged o page x d) b = bankState d b := by
  rw [bankState, regFld, regGet_judged _ _ _ _ hb (by decide) (by decide) (by decide) (by decide)]
  rfl

/-! ### Exclusions (R277) -/

/-- Exclusions leave a bank when one that is up is in neither. -/
theorem leavesNone_eq_false {d : Dev} {own all : DWord} : leavesNone d own all = false ↔
    ∃ b, b < 64 ∧ (bankState d b = 0 ∨ bankState d b = 3) ∧ bit own b = false ∧ bit all b = false := by
  rw [leavesNone, List.all_eq_false]
  simp only [List.mem_filter, List.mem_range, bankUp_iff, Bool.or_eq_true, not_or, Bool.not_eq_true, and_assoc]

theorem leavesNone_judged_eq_false {o : Origin} {page x : Nat} {d : Dev} {own all : DWord} :
    leavesNone (judged o page x d) own all = false ↔
      ∃ b, b < 64 ∧ (bankState d b = 0 ∨ bankState d b = 3) ∧ bit own b = false ∧ bit all b = false := by
  refine leavesNone_eq_false.trans (exists_congr fun b => and_congr_right fun hb => ?_)
  rw [bankState_judged (by omega)]

/-- Every function has a place among the 130. -/
theorem forall_fn_iff {p : FnId → Prop} : (∀ k, k < 130 → p ⟨k / 65, k % 65⟩) ↔ ∀ f : FnId, f.port < 2 → f.fn ≤ 64 → p f := by
  constructor
  · rintro h ⟨u, n⟩ hu hn
    have hk := h (65 * u + n) (by dsimp only at hu hn; omega)
    have hdiv : (65 * u + n) / 65 = u := by dsimp only at hn; omega
    have hmod : (65 * u + n) % 65 = n := by dsimp only at hn; omega
    rwa [hdiv, hmod] at hk
  · exact fun h k hk => h _ (by dsimp only; omega) (by dsimp only; omega)

/-! ### Pins (R276) -/

/-- A writable bit is the one written. -/
theorem bit_merged (s : State) (o : Origin) (page x : Nat) (v : Word) {mask : DWord} {k : Nat} (hmask : mask.getLsbD k = true) :
    bit (merged s o page x (v.zeroExtend 64) mask) k = bit v k := by
  have hk : k < 64 := BitVec.lt_of_getLsbD hmask
  rw [bit, merged, getLsbD_merge, hmask, if_pos rfl, BitVec.getLsbD_setWidth]
  simp [bit, hk]

theorem bit_truncate_merged (s : State) (o : Origin) (page x : Nat) (v : Word) {mask : DWord} {k : Nat} (hk : k < 32)
    (hmask : mask.getLsbD k = true) : bit ((merged s o page x (v.zeroExtend 64) mask).truncate 32) k = bit v k := by
  rw [← bit_merged s o page x v hmask, bit, BitVec.truncate_eq_setWidth, BitVec.getLsbD_setWidth]
  simp [bit, hk]

theorem mayPin_iff {d : Dev} {o : Origin} {n : Nat} :
    mayPin d o n = true ↔ ∀ p, o = .hostPf p → ∃ f, subOwner (subGet d n) = some f ∧ f.port = p := by
  cases o with
  | hostPf p => cases h : subOwner (subGet d n) <;> simp [mayPin, h]
  | _ => simp [mayPin]

theorem mayPin_judged (o : Origin) (page x : Nat) (d : Dev) (q : Origin) (n : Nat) : mayPin (judged o page x d) q n = mayPin d q n := by
  unfold mayPin
  rw [subGet_judged]

/-- APPLY sets the pins of the subchannel from the value written (R276, R281). -/
theorem applyPin_merged (s : State) (o : Origin) (v : Word) (n : Nat) (put : Dev → Dev) (hput : ∀ d, subGet (put d) n = subGet d n) (d : Dev) :
    let z := merged s o 3 0x804 (v.zeroExtend 64) 0x80000F03
    let x := subGet d n
    applyPin n (z.truncate 32) (put d) = sgLogPut 2 2 (z.toNat % 2 ^ 32) n 0 (subSet n { x with
      pinned := bit v 11, pbrk := false, mpend := if bit v 11 = true ∧ x.home ≠ bits v 10 8 then some (bits v 10 8) else none
      portPin := if bit v 1 then some (bits v 0 0) else none } (put d)) := by
  intro z x
  have hbit : ∀ k, k < 32 → (0x80000F03 : DWord).getLsbD k = true → bit (z.truncate 32) k = bit v k :=
    fun k hk hm => bit_truncate_merged s o 3 0x804 v hk hm
  have hhome : bits (z.truncate 32) 10 8 = bits v 10 8 := bits_congr fun k hlo hhi =>
    hbit k (by omega) ((by decide : ∀ k, 8 ≤ k → k ≤ 10 → (0x80000F03 : DWord).getLsbD k = true) k hlo hhi)
  have hport : bits (z.truncate 32) 0 0 = bits v 0 0 := bits_congr fun k hlo hhi =>
    hbit k (by omega) ((by decide : ∀ k, 0 ≤ k → k ≤ 0 → (0x80000F03 : DWord).getLsbD k = true) k hlo hhi)
  have hval : (z.truncate 32).toNat = z.toNat % 2 ^ 32 := BitVec.toNat_setWidth 32 z
  simp only [applyPin, hput, hbit 11 (by decide) (by decide), hbit 1 (by decide) (by decide), hhome, hport, hval,
    Bool.and_eq_true, decide_eq_true_eq]
  rfl

/-! ### The writes -/

section
variable {s : State} {o : Origin} {v : Word} {w : DWord}

theorem ffCfg_written (P : Passes s o 5 0x044 [4, 3, 1]) : exec (.ffCfgWrite o v) s = .next (
    let n := selOf s.dev o .ffSel
    let m := bits v 4 0
    let z := merged s o 5 0x044 (v.zeroExtend 64) 0x1F
    answerOf s o 5 0x044 4 (v.zeroExtend 64) ffCfgAt (
      if !(isF o || ringPf s.dev o n) then .denied id
      else if !(m = 0 || (decide (4 ≤ m) && decide (m ≤ 20))) || decide ((fifoParts s.dev n).1 ≠ 0) then .cfgerr id
      else if poolFree s.dev + middleCap (regFld s.dev .ffCfg n 4 0) < middleCap m then
        .cfgerr (fun d => pageEvent 5 0 (regSetFld .ffStat 0 31 31 1 d))
      else .ok (regSet .ffCfg n z))) := by
  refine (write_ffCfg P).trans ?_
  rw [regEffect_ffCfg]
  simp only [bits_merged s o 5 0x044 v (mask := 0x1F) (hi := 4) (lo := 0) (by decide)]
  rfl

theorem sgPinCtl_written (P : Passes s o 3 0x804 [4, 3, 1]) : exec (.sgPinApply o v) s = .next (
    let n := selOf (judged o 3 0x804 s.dev) o .sgPinSub
    let z := merged s o 3 0x804 (v.zeroExtend 64) 0x80000F03
    let put := regSet .sgPinCtl 0 (z &&& ~~~0x80000000#64)
    answerOf s o 3 0x804 4 (v.zeroExtend 64) sgPinCtlAt (
      if bit v 31 then
        gate (mayPin s.dev o n) (fun d => if n < Config.subchannels then applyPin n (z.truncate 32) (put d) else put d)
      else .ok put)) := by
  have hbit : bit (merged s o 3 0x804 (v.zeroExtend 64) 0x80000F03) 31 = bit v 31 :=
    bit_merged s o 3 0x804 v (by decide)
  refine (write_sgPinCtl P).trans ?_
  simp only [regEffect_sgPinCtl, hbit, mayPin_judged]

theorem sgExcl_written (P : Passes s o 3 0x810 [4, 3, 1]) : exec (.sgExclWrite o false w) s = .next (
    let f := selFn (judged o 3 0x810 s.dev) o .sgFnSel
    answerOf s o 3 0x810 8 w sgExclAt (
      if isP o || isF o || isPf o f.port then
        unlessErr (leavesNone (judged o 3 0x810 s.dev) w (regGet s.dev .sgExclAll 0))
          (.ok (fun d => exclRestore d (sgLogPut 3 4 w.toNat (fnCode f) 0 (regSet .sgExcl (fnCode f) w d))))
      else .denied id)) := by
  refine (write_sgExcl P).trans ?_
  rw [regEffect_sgExcl, regGet_judged _ _ _ _ (by decide) (by decide) (by decide) (by decide) (by decide)]

theorem sgExclAll_written (P : Passes s o 3 0x818 [4, 3, 1]) : exec (.sgExclWrite o true w) s = .next (
    answerOf s o 3 0x818 8 w sgExclAllAt (
      unlessErr ((List.range 130).any (fun k => leavesNone (judged o 3 0x818 s.dev)
          (regGet (judged o 3 0x818 s.dev) .sgExcl (fnCode ⟨k / 65, k % 65⟩)) w))
        (.ok (fun d => exclRestore d (sgLogPut 3 4 w.toNat 0xFFFFFFFF 0 (regSet .sgExclAll 0 w d)))))) := by
  refine (write_sgExclAll P).trans ?_
  rw [regEffect_sgExclAll]

/-- An exclusion for all leaves each function a bank, as its own exclusions stand before the write. -/
theorem sgExclAll_keeps : (List.range 130).any (fun k => leavesNone (judged o 3 0x818 s.dev)
      (regGet (judged o 3 0x818 s.dev) .sgExcl (fnCode ⟨k / 65, k % 65⟩)) w) = false ↔
    ∀ f : FnId, f.port < 2 → f.fn ≤ 64 → ∃ b, b < 64 ∧ (bankState s.dev b = 0 ∨ bankState s.dev b = 3)
      ∧ bit (regGet s.dev .sgExcl (fnCode f)) b = false ∧ bit w b = false := by
  rw [← forall_fn_iff, List.any_eq_false]
  simp only [List.mem_range, Bool.not_eq_true]
  refine forall₂_congr fun k hk => ?_
  have hcode : fnCode ⟨k / 65, k % 65⟩ < 1048576 := by
    simp only [fnCode]
    omega
  rw [leavesNone_judged_eq_false, regGet_judged _ _ _ _ hcode (by decide) (by decide) (by decide) (by decide)]

/-- A number names the log's record it finds, or none (R282). -/
theorem sgLogFind_eq (d : Dev) (n : Nat) : sgLogFind d n = if d.sgLog.length ≤ n + 1048576 then d.sgLog[n]? else none := by
  simp only [sgLogFind, Nat.sub_le_iff_le_add]

end

/-- Signpost's and the deep FIFOs' registers. -/
theorem signpostRegisters : SignpostRegisters := by
  intro s o v w
  refine ⟨fun P => ?_, fun P => ?_, fun P => ?_, fun P => ?_, fun P => ?_, fun S => write_sgRecSel S, fun S => (write_sgLogRd S).trans ?_⟩
  · intro n m pf room
    have hw := ffCfg_written (v := v) P
    have hmay : (isF o || ringPf s.dev o n) = true ↔ originClass o = 1 ∨ pf := by
      rw [Bool.or_eq_true, ringPf_iff, isF, decide_eq_true_eq]
    have hbad : (!(m = 0 || (decide (4 ≤ m) && decide (m ≤ 20))) || decide ((fifoParts s.dev n).1 ≠ 0)) = true ↔
        (m ≠ 0 ∧ ¬ (4 ≤ m ∧ m ≤ 20)) ∨ (fifoParts s.dev n).1 ≠ 0 := by
      simp only [Bool.or_eq_true, Bool.not_eq_true', Bool.or_eq_false_iff, Bool.and_eq_false_iff, decide_eq_true_eq, decide_eq_false_iff_not]
      omega
    have hfull : poolFree s.dev + middleCap (regFld s.dev .ffCfg n 4 0) < middleCap m ↔ ¬ room := Nat.not_le.symm
    dsimp only at hw
    refine ⟨fun hclass hpf => hw.trans ?_, fun h => ?_⟩
    · rw [if_pos (by rw [Bool.not_eq_true', Bool.eq_false_iff, ne_eq, hmay]; exact not_or.mpr ⟨hclass, hpf⟩), answerOf_denied]
    · rw [if_neg (by rw [Bool.not_eq_true', hmay.mpr h]; simp)] at hw
      refine ⟨fun herr => hw.trans ?_, fun hm hempty hno => hw.trans ?_, fun hm hempty hroom => hw.trans ?_⟩
      · rw [if_pos (hbad.mpr herr), answerOf_cfgerr]
      · rw [if_neg (by rw [hbad]; omega), if_pos (hfull.mpr hno), answerOf_cfgerr]
      · rw [if_neg (by rw [hbad]; omega), if_neg (by rw [hfull]; exact not_not.mpr hroom),
          answerOf_ok _ (by decide) (by decide) (by decide)]
  · refine (write_ffHwm P).trans ?_
    rw [regEffect_ffHwm, answerOf_ok _ (by decide) (by decide) (by decide)]
    rfl
  · intro n z put
    have hw := sgPinCtl_written (v := v) P
    have hok : ∀ f, answerOf s o 3 0x804 4 (v.zeroExtend 64) sgPinCtlAt (.ok f) = wrote s o 3 0x804 4 (v.zeroExtend 64) f :=
      fun f => answerOf_ok f (by decide) (by decide) (by decide)
    refine ⟨fun hoff => hw.trans ?_, fun hon hmay hn => hw.trans ?_, fun p hon ho hother => hw.trans ?_⟩
    · dsimp only
      rw [if_neg (by simp [hoff]), hok]
    · dsimp only
      rw [if_pos hon, mayPin_iff.mpr hmay, gate, if_pos rfl, hok]
      refine congrArg (fun f => Host.Outcome.next (wrote s o 3 0x804 4 (v.zeroExtend 64) f)) (funext fun d => ?_)
      exact (if_pos hn).trans (applyPin_merged s o v n put (fun _ => rfl) d)
    · have hnot : mayPin s.dev o n = false := by
        rw [Bool.eq_false_iff, ne_eq, mayPin_iff]
        intro h
        obtain ⟨f, hf, hp⟩ := h p ho
        exact hother f hf hp
      dsimp only
      rw [if_pos hon, hnot, gate, if_neg (by simp), answerOf_denied]
  · intro f may keeps
    have hw := sgExcl_written (w := w) P
    have hmay : (isP o || isF o || isPf o f.port) = true ↔ may := by
      simp [isP, isF, isPf, may, or_assoc]
    have hkeeps : leavesNone (judged o 3 0x810 s.dev) w (regGet s.dev .sgExclAll 0) = false ↔ keeps := leavesNone_judged_eq_false
    refine ⟨fun h => hw.trans ?_, fun h hnone => hw.trans ?_, fun h hkeep => hw.trans ?_⟩
    · dsimp only
      rw [if_neg (fun g => h (hmay.mp g)), answerOf_denied]
    · dsimp only
      rw [if_pos (hmay.mpr h), unlessErr, if_pos (by rwa [← Bool.not_eq_false, hkeeps]), answerOf_cfgerr]
    · dsimp only
      rw [if_pos (hmay.mpr h), unlessErr, if_neg (by rw [hkeeps.mpr hkeep]; simp), answerOf_ok _ (by decide) (by decide) (by decide)]
  · intro keeps
    have hw := sgExclAll_written (w := w) P
    refine ⟨fun hnone => hw.trans ?_, fun hkeep => hw.trans ?_⟩
    · rw [unlessErr, if_pos (by rwa [← Bool.not_eq_false, sgExclAll_keeps]), answerOf_cfgerr]
    · rw [unlessErr, if_neg (by rw [sgExclAll_keeps.mpr hkeep]; simp), answerOf_ok _ (by decide) (by decide) (by decide)]
  · refine congrArg (fun d => Host.Outcome.next (after s (writeAnswer o 0 d))) ?_
    simp only [selEffect, sgLogFind_eq, isNone_toNat]
    rfl

/-- Settles O40: a sample as the model takes it, and each register's write by the outcome of its checks. -/
theorem signpostRows : Obligations.SignpostRows := ⟨signpostSamples, signpostRegisters⟩

end Sys2Proof.Machine
end

section
/-!
THEOREM. O46 (PackServices): a refutation. XFER_HOST_COMPLETE looks up the owner of its token among all programs of the table, and then
writes back the program that the table gives for the owner's subchannel. The statement takes both for one program, which holds where the
table has each subchannel once, as the invariant says; but it speaks of every state. With two programs under one number, of which the second
has the transfer, the model changes the first, which has no command of an owner pack, and the statement the second.
-/
namespace Sys2Proof.Machine

open Sys2Proof

/-- The command of an owner pack with one transfer, number 0, from the host. -/
def xferCmd : OwnCmd :=
  { cp := 0, ctx := 0, xfers := [(0, false, 0)], segs := [], cdc := none, timers := [], srcs := [], res := [], held := [], sense := none
    toks := [], replay := none, settled := [], fails := [] }

/-- The program with that command. -/
def xferProg : Prog := { fenceProg with own := some xferCmd }

/-- Subchannel 7 with two programs: one of no owner pack, then the one whose transfer ends. -/
def twoProgs : State := { State.reset with dev := { Dev.reset with progs := [(7, fenceProg), (7, xferProg)] } }

/-- The command as its transfer has ended. -/
def xferOver (o : OwnCmd) : OwnCmd :=
  { o with xfers := o.xfers.filter (fun x => x.1 ≠ 0), cdc := o.cdc.orElse (fun _ => none) }

/-- Has subchannel 7 the command of an owner pack in what a command answers? -/
def ownedAfter (r : Host.Outcome State Fault Refusal) : Bool :=
  match r with
  | .next t => ((progOf t.dev 7).bind (·.own)).isSome
  | _ => false

theorem ownerOfToken_twoProgs :
    ownerOfToken twoProgs.dev (fun o => o.xfers.any (fun x => x.1 = 0)) = some (7, xferProg, xferCmd) := by
  decide +kernel

/-- The model goes on from the program that the table gives for the subchannel. -/
theorem ownedAfter_exec_twoProgs : ownedAfter (exec (.xferHostComplete 0 .ok) twoProgs) = false := by
  decide +kernel

/-- The statement goes on from the program that has the transfer. -/
theorem ownedAfter_xferProg : ownedAfter (.next (after twoProgs
    (callEv 7 4 3 0 (ownMod 7 xferOver (progSet 7 (wrotePort xferProg none) twoProgs.dev))))) = true := by
  decide +kernel

/-- Refutes O46: where a subchannel stands twice in the table of programs, the completion of a transfer leaves the first program there
without a command of an owner pack, and the statement says the second with its command. -/
theorem not_packServices : ¬ Obligations.PackServices := by
  intro h
  obtain ⟨-, -, -, -, -, -, -, -, -, -, hxfer, -⟩ := h twoProgs 0 7 xferProg xferCmd ⟨7, 0, 0, false⟩
  obtain ⟨-, -, -, hends⟩ := hxfer rfl 0 0 false .ok ownerOfToken_twoProgs rfl
  have hanswer := hends rfl (by decide +kernel) (by decide +kernel)
  have howned := congrArg ownedAfter hanswer
  rw [ownedAfter_exec_twoProgs] at howned
  exact absurd (howned.trans ownedAfter_xferProg) (by decide)

end Sys2Proof.Machine
end

section
/-!
THEOREM. O41 (Migrations): a refutation. Signpost counts a migration by the home that the subchannel has afterwards. The statement lets
rebalancing examine any number, and counts each swap against MIG_MAX. A number above 0x3_FFFF names no subchannel: it reads as one at
reset, for which a partner can be found, but the swap stores nothing under it, and so its home stays and the model does not count it. For the
numbers that name a subchannel the swap is counted (`rebalance_swap`).
-/
namespace Sys2Proof.Machine

open Sys2Proof

/-! ### What a swap does to the subchannel that moves (R263, R264) -/

/-- A store under a number that names no subchannel stores nothing. -/
theorem subSet_unnamed {n : Nat} (v : Sub) (d : Dev) (h : ¬ n < Config.subchannels) : subSet n v d = d := by
  unfold subSet
  dsimp only
  rw [if_neg h]

theorem subs_regBump (r : Reg) (i : Nat) (d : Dev) : (regBump r i d).subs = d.subs := by
  unfold regBump
  dsimp only
  split <;> rfl

theorem subs_sgLogPut (kind reason val arg diff : Nat) (d : Dev) : (sgLogPut kind reason val arg diff d).subs = d.subs := by
  unfold sgLogPut feedIn noteHwm
  dsimp only
  split <;> rfl

/-- Of the subchannels, a swap stores the two that it names, the partner last. -/
theorem subGet_swapHomes {d : Dev} {n m : Nat} (reason diff : Nat) (hhome : (subGet d n).home ≠ (subGet d m).home) :
    ∃ (e : Dev) (i j : Nat), e.subs = d.subs ∧ ∀ k, subGet (swapHomes n m reason diff d) k
      = subGet (subSet m { subGet d m with home := (subGet d n).home, slot := j, migCnt := sat16 (subGet d m).migCnt }
          (subSet n { subGet d n with home := (subGet d m).home, slot := i, migCnt := sat16 (subGet d n).migCnt } e)) k := by
  unfold swapHomes
  dsimp only
  rw [if_neg hhome]
  exact ⟨_, _, _, by rfl, fun k => congrArg (tget · k (subReset k)) ((subs_sgLogPut ..).trans (subs_regBump ..))⟩

/-- The subchannel that moves takes its partner's home, if its number names one. -/
theorem home_swapHomes {d : Dev} {n m : Nat} (reason diff : Nat) (hne : m ≠ n) (hhome : (subGet d n).home ≠ (subGet d m).home) :
    (subGet (swapHomes n m reason diff d) n).home = if n < Config.subchannels then (subGet d m).home else (subGet d n).home := by
  obtain ⟨e, i, j, he, hget⟩ := subGet_swapHomes reason diff hhome
  rw [hget, subGet_subSet_other _ _ hne.symm]
  split
  next h =>
    obtain ⟨q, hq⟩ := subGet_subSet_self { subGet d n with
      home := (subGet d m).home, slot := i, migCnt := sat16 (subGet d n).migCnt } e h
    rw [hq]
  next h => rw [subSet_unnamed _ _ h, subGet, he, ← subGet]

/-! ### A migration of rebalancing (R266) -/

section
variable {d : Dev} {n m e : Nat}

/-- A subchannel whose home scores more than H above the best district, or serves none, swaps with the partner that is found there. -/
theorem placeByScore_swap (hbest : bestOf d 0 (districts d) = some e) (hoff : e ≠ (subGet d n).home
      ∧ ((regGet d .sgH 0).toNat < score d 0 (subGet d n).home - score d 0 e ∨ cpsIn d (subGet d n).home = 0))
    (hpart : freePartner d e n = some m) :
    placeByScore n 1 d
      = swapHomes n m 1 (score d 0 (subGet d n).home - score d 0 e) { d with sgLast := tset d.sgLast 0 e 63 } := by
  have hpast : e ≠ (subGet d n).home
      ∧ (score d 0 e + (regGet d .sgH 0).toNat < score d 0 (subGet d n).home ∨ cpsIn d (subGet d n).home = 0) :=
    ⟨hoff.1, hoff.2.imp_left (by omega)⟩
  simp only [placeByScore, hbest, hpart, if_pos hpast, if_true]

/-- A migration counts against MIG_MAX where the number that is examined names a subchannel, and only there. -/
theorem rebalance_swap (t : List Nat) (k : Nat) (hmov : movable d n = true) (hbest : bestOf d 0 (districts d) = some e)
    (hoff : e ≠ (subGet d n).home
      ∧ ((regGet d .sgH 0).toNat < score d 0 (subGet d n).home - score d 0 e ∨ cpsIn d (subGet d n).home = 0))
    (hpart : freePartner d e n = some m) (hne : m ≠ n) (hhome : (subGet d m).home = e) :
    rebalance (n :: t) (k + 1) d = rebalance t (if n < Config.subchannels then k else k + 1)
      { swapHomes n m 1 (score d 0 (subGet d n).home - score d 0 e) { d with sgLast := tset d.sgLast 0 e 63 } with
        sgCursor := (n + 1) % Config.subchannels } := by
  have hafter := home_swapHomes (d := { d with sgLast := tset d.sgLast 0 e 63 }) 1
    (score d 0 (subGet d n).home - score d 0 e) hne (fun h => hoff.1 (hhome.symm.trans h.symm))
  simp only [rebalance, if_pos hmov, placeByScore_swap hbest hoff hpart]
  refine congrArg (fun j => rebalance t j _) ((if_congr (Eq.congr_left hafter) rfl rfl).trans ?_)
  by_cases h : n < Config.subchannels
  · simp only [if_pos h]
    exact if_neg (fun hs => hoff.1 (hhome.symm.trans hs))
  · simp only [if_neg h]
    exact if_pos rfl

end

/-! ### The number 0x4_0007 -/

/-- A reset device on which district 7 has worked: the averages of its candidate stand at their largest sample, those of the others at 0. -/
def skewed : Dev := { Dev.reset with sgAvg := [(sgKey 0 7, ⟨0xFFFF0000, 0xFFFF0000, 0xFFFF0000⟩)] }

/-- What rebalancing needs of the number 0x4_0007, which reads as subchannel 7 of a reset device does, homed in district 7: district 0
scores best, and is better by more than H. -/
theorem skewed_unnamed : bestOf skewed 0 (districts skewed) = some 0 ∧ movable skewed 0x40007 = true ∧ 0 ≠ (subGet skewed 0x40007).home
    ∧ (regGet skewed .sgH 0).toNat < score skewed 0 (subGet skewed 0x40007).home - score skewed 0 0 := by
  decide +kernel

/-- The partners that may be taken for it are the fresh subchannels of district 0. -/
theorem freePartner_skewed : ∃ m, freePartner skewed 0 0x40007 = some m ∧ m ≠ 0x40007 ∧ (subGet skewed m).home = 0 := by
  obtain ⟨m, hm⟩ := Option.isSome_iff_exists.mp
    (show (freePartner skewed 0 0x40007).isSome = true by unfold freePartner; rw [onePartner_isSome]; decide +kernel)
  refine ⟨m, hm, ?_⟩
  unfold freePartner at hm
  rcases onePartner_some hm with hfits | hlisted
  · simp only [Bool.and_eq_true, decide_eq_true_eq] at hfits
    obtain ⟨⟨⟨⟨hne, -⟩, hhome⟩, -⟩, -⟩ := hfits
    exact ⟨hne, hhome⟩
  · clear hm
    revert m
    decide +kernel

/-- Refutes O41: with one migration left, rebalancing that moves the number 0x4_0007 goes on to subchannel 0 and leaves its cursor at 1; the
statement says that it ends there, with the cursor at 8. -/
theorem not_migrations : ¬ Obligations.Migrations := by
  rintro ⟨-, -, hrebalance, -⟩
  obtain ⟨hbest, hmov, hother, hscore⟩ := skewed_unnamed
  obtain ⟨m, hm, hne, hhome⟩ := freePartner_skewed
  obtain ⟨-, -, -, -, -, hmoves⟩ := hrebalance skewed [0] 0 0x40007 0 hbest
  have hends := hmoves m hmov ⟨hother, .inl hscore⟩ hm hne hhome
  rw [rebalance_swap [0] 0 hmov hbest ⟨hother, .inl hscore⟩ hm hne hhome, if_neg (by decide)] at hends
  have hcursor : (0 + 1) % Config.subchannels = (0x40007 + 1) % Config.subchannels := congrArg (·.sgCursor) hends
  exact absurd hcursor (by decide)

end Sys2Proof.Machine
end

section
/-!
SUPPORT. What follows a command (R319, R325, R333, R386): the wake of CPs keeps none asleep that a presentation stands at, and the calls of pack
entries leave none waiting for a CP that is free.
-/
namespace Sys2Proof.Machine

open Sys2Proof

@[simp] theorem lkWrite_run (v : Word) (c : Cp) : (lkWrite v c).run = c.run := by unfold lkWrite; split <;> rfl

@[simp] theorem lkWrite_serve (v : Word) (c : Cp) : (lkWrite v c).serve = c.serve := by unfold lkWrite; split <;> rfl

@[simp] theorem gWrite_serve (k : Nat) (v : Word) (c : Cp) : (gWrite k v c).serve = c.serve := by
  unfold gWrite; split
  · rfl
  · split <;> rfl

/-- The device e follows d with the same presentations and stops, and every CP that waits in e waited in d. -/
structure Wakes (d e : Dev) : Prop where
  pres : e.pres = d.pres
  frozen : e.frozen = d.frozen
  fatal : e.fatal = d.fatal
  waits : ∀ j, (cpGet e j).run = .wait → (cpGet d j).run = .wait

theorem Wakes.refl (d : Dev) : Wakes d d := ⟨rfl, rfl, rfl, fun _ h => h⟩

theorem Wakes.trans {a b c : Dev} (h : Wakes a b) (k : Wakes b c) : Wakes a c :=
  ⟨k.pres.trans h.pres, k.frozen.trans h.frozen, k.fatal.trans h.fatal, fun j w => h.waits j (k.waits j w)⟩

/-- A CP that does not wait is stored in a device of the same presentations. -/
theorem Wakes.cpSet {d e : Dev} (h : Wakes d e) {i : Nat} {c : Cp} (hc : c.run ≠ .wait) : Wakes d (cpSet i c e) := by
  refine ⟨h.pres, h.frozen, h.fatal, fun j w => ?_⟩
  by_cases hj : j = i
  · subst hj
    rw [cpGet_cpSet_self] at w
    exact absurd w hc
  · rw [cpGet_cpSet_other c e hj] at w
    exact h.waits j w

/-! ### Waking (R386) -/

theorem wakes_wakeCp (i : Nat) (d : Dev) : Wakes d (wakeCp i d) := by
  have hreg : Wakes d (regSetFld .dsStat (i / 9) 24 24 0 d) := ⟨rfl, rfl, rfl, fun _ h => h⟩
  unfold wakeCp
  dsimp only
  split
  · exact hreg.cpSet CpRun.noConfusion
  · exact hreg

theorem wakeCp_runs (i : Nat) (d : Dev) : (cpGet (wakeCp i d) i).run ≠ .wait := by
  unfold wakeCp
  dsimp only
  split
  · simp
  · assumption

/-- One presentation of the sweep. -/
def wakeOne (d : Dev) (p : Pres) : Dev := if decide ((cpGet d p.cp).run = .wait) then wakeCp p.cp d else d

theorem wakes_wakeOne (d : Dev) (p : Pres) : Wakes d (wakeOne d p) := by
  unfold wakeOne
  split
  · exact wakes_wakeCp p.cp d
  · exact .refl d

theorem wakeOne_runs (d : Dev) (p : Pres) : (cpGet (wakeOne d p) p.cp).run ≠ .wait := by
  unfold wakeOne
  split
  · exact wakeCp_runs p.cp d
  · next h => simpa using h

theorem foldl_wakeOne (l : List Pres) (d : Dev) :
    Wakes d (l.foldl wakeOne d) ∧ ∀ p ∈ l, (cpGet (l.foldl wakeOne d) p.cp).run ≠ .wait := by
  induction l generalizing d with
  | nil => exact ⟨.refl d, by simp⟩
  | cons q t ih =>
    obtain ⟨hwakes, hruns⟩ := ih (wakeOne d q)
    refine ⟨(wakes_wakeOne d q).trans hwakes, fun p hp => ?_⟩
    rcases List.mem_cons.mp hp with rfl | hp
    · exact fun w => wakeOne_runs d p (hwakes.waits p.cp w)
    · exact hruns p hp

theorem wakes_wakeSweep (d : Dev) : Wakes d (wakeSweep d) := (foldl_wakeOne d.pres d).1

/-- After the sweep no CP waits that a presentation stands at. -/
theorem awake_wakeSweep (d : Dev) : Awake (wakeSweep d) := by
  intro p hp _
  rw [(wakes_wakeSweep d).pres] at hp
  exact (foldl_wakeOne d.pres d).2 p hp

theorem Awake.wakes {d e : Dev} (h : Awake d) (k : Wakes d e) : Awake e :=
  fun p hp hc w => h p (k.pres ▸ hp) hc (k.waits p.cp w)

/-! ### Calls (R325, R333) -/

/-- A call is made on its own CP alone, which then runs and serves, or the call names no pack. -/
theorem enterPack_eq (k : PackCall) (d : Dev) : enterPack k d = d
    ∨ ∃ (c : Cp) (n : Nat), enterPack k d = cpSet k.cp c { d with freeCtr := n } ∧ c.run = .run ∧ c.serve.isNone = false := by
  unfold enterPack
  split
  · exact .inl rfl
  · exact .inr ⟨_, _, rfl, by simp, by simp⟩

theorem wakes_enterPack (k : PackCall) (d : Dev) : Wakes d (enterPack k d) := by
  rcases enterPack_eq k d with h | ⟨c, n, h, hrun, -⟩
  · rw [h]
    exact .refl d
  · have hfree : Wakes d { d with freeCtr := n } := ⟨rfl, rfl, rfl, fun _ h => h⟩
    rw [h]
    exact hfree.cpSet fun w => CpRun.noConfusion (hrun.symm.trans w)

theorem enterPack_packCalls (k : PackCall) (d : Dev) : (enterPack k d).packCalls = d.packCalls := by
  rcases enterPack_eq k d with h | ⟨c, n, h, -⟩ <;> rw [h]
  rfl

/-- A call frees no CP. -/
theorem cpFree_enterPack (k : PackCall) (d : Dev) {j : Nat} (h : cpFree (cpGet d j) = false) : cpFree (cpGet (enterPack k d) j) = false := by
  rcases enterPack_eq k d with he | ⟨c, n, he, -, hserve⟩
  · rw [he, h]
  · rw [he]
    by_cases hj : j = k.cp
    · rw [hj, cpGet_cpSet_self]
      simp [cpFree, hserve]
    · rw [cpGet_cpSet_other _ _ hj]
      exact h

theorem wakes_tryCalls (l : List PackCall) (d : Dev) : Wakes d (tryCalls l d) := by
  induction l generalizing d with
  | nil => exact .refl d
  | cons k t ih =>
    unfold tryCalls
    split
    · exact (wakes_enterPack k d).trans (ih _)
    · exact .trans (b := { d with packCalls := d.packCalls ++ [k] }) ⟨rfl, rfl, rfl, fun _ h => h⟩ (ih _)

/-- The calls that could not be made name CPs that are not free. -/
theorem callsMade_tryCalls (l : List PackCall) (d : Dev) (h : CallsMade d) : CallsMade (tryCalls l d) := by
  induction l generalizing d with
  | nil => exact h
  | cons k t ih =>
    unfold tryCalls
    split
    · refine ih _ fun q hq => cpFree_enterPack k d (h q ?_)
      rwa [enterPack_packCalls] at hq
    · next hbusy =>
      refine ih _ fun q hq => ?_
      rcases List.mem_append.mp hq with hq | hq
      · exact h q hq
      · rw [List.mem_singleton.mp hq]
        exact eq_false_of_ne_true hbusy

theorem wakes_packSweep (d : Dev) : Wakes d (packSweep d) :=
  .trans (b := { d with packCalls := [] }) ⟨rfl, rfl, rfl, fun _ h => h⟩ (wakes_tryCalls _ _)

theorem callsMade_packSweep (d : Dev) : CallsMade (packSweep d) :=
  callsMade_tryCalls _ _ (List.forall_mem_nil _)

/-- What follows a command settles the device, whatever the command did. -/
theorem settled_settle (d : Dev) : Settled (settle d) := by
  unfold settle
  dsimp only
  split
  · next hfrozen => exact fun h => absurd (hfrozen.symm.trans h) (by decide)
  · split
    · next hfatal => exact fun _ => ⟨awake_wakeSweep d, fun h => absurd (hfatal.symm.trans h) (by decide)⟩
    · exact fun _ => ⟨(awake_wakeSweep d).wakes (wakes_packSweep _), fun _ => callsMade_packSweep _⟩

end Sys2Proof.Machine
end

section
/-!
THEOREM. O16 and O17: the invariant holds after reset, and every step keeps it.
-/
namespace Sys2Proof.Machine

open Sys2Proof

/-- R494, R497: every command changes the device alone and settles it afterwards, nearly all of them only in a machine that runs. -/
theorem exec_settles (i : Instr) (s : State) :
    ∃ e, exec i s = .next (if s.dev.frozen then s else { s with dev := settle e }) ∨ exec i s = .next { s with dev := settle e } := by
  cases i with
  | coldReset | warmReset | freezeNFall | jtagFreeze | dumpCrc | idcode | tapReset => exact ⟨_, .inr rfl⟩
  | privLatchSet | dumpSel | dumpData | maint | extest | samplePreload | bypass | thermalSample => exact ⟨_, .inr rfl⟩
  | _ => exact ⟨_, .inl rfl⟩

/-- A command leaves the queue behind it as it is, and the device settled. -/
theorem exec_keeps {i : Instr} {s t : State} (hs : Settled s.dev) (h : exec i s = .next t) : t.pending = s.pending ∧ Settled t.dev := by
  obtain ⟨e, he | he⟩ := exec_settles i s
  · obtain rfl := Host.Outcome.next.inj (h.symm.trans he)
    split
    · exact ⟨rfl, hs⟩
    · exact ⟨rfl, settled_settle e⟩
  · obtain rfl := Host.Outcome.next.inj (h.symm.trans he)
    exact ⟨rfl, settled_settle e⟩

theorem fzEnd_frozen (d : Dev) : (fzEnd d).frozen = d.frozen := by
  unfold fzEnd
  dsimp only
  split <;> rfl

/-- An idle nanosecond leaves the device settled: a frozen one stands still. -/
theorem settled_idleTick (d : Dev) : Settled (idleTick d) := by
  unfold idleTick
  dsimp only
  split
  · next hfrozen =>
    split
    · exact fun h => absurd (hfrozen.symm.trans h) (by decide)
    · exact fun h => absurd (hfrozen.symm.trans ((fzEnd_frozen d).symm.trans h)) (by decide)
  · exact settled_settle _

/-- Settles O16: the command in front leaves the rest of the queue and a settled device, an idle nanosecond a settled device. -/
theorem stepKeepsInvariant : Obligations.StepKeepsInvariant := by
  rintro s t ⟨hwf, hs⟩ h
  unfold step at h
  split at h
  case h_1 hnone =>
    obtain rfl := Host.Outcome.next.inj h
    exact ⟨hwf, settled_idleTick _⟩
  case h_2 c rest hqueue =>
    obtain ⟨hpending, hsettled⟩ := exec_keeps (s := { s with pending := rest }) hs h
    refine ⟨fun x hx => hwf x ?_, hsettled⟩
    rw [hpending] at hx
    rw [hqueue]
    exact List.mem_cons_of_mem c hx

/-- Settles O17: after reset nothing is presented, and no call waits. -/
theorem resetMeetsInvariant : Obligations.ResetMeetsInvariant :=
  ⟨List.forall_mem_nil _, fun _ => ⟨List.forall_mem_nil _, fun _ => List.forall_mem_nil _⟩⟩

end Sys2Proof.Machine
end

section
/-!
SUPPORT. An instruction that its CP fetches (R290, R297, R308): how it completes, how it raises its exception, and how it waits.
-/
namespace Sys2Proof.Machine

open Sys2Proof

/-! ### The CP that issues -/

@[simp] theorem issued_sr (c : Cp) : (issued c).sr = c.sr := applySlot_sr c
@[simp] theorem issued_pc (c : Cp) : (issued c).pc = c.pc + 4 := rfl
@[simp] theorem issued_loads (c : Cp) : (issued c).loads = [] := rfl
@[simp] theorem issued_run (c : Cp) : (issued c).run = c.run := applySlot_run c
@[simp] theorem issued_dram (c : Cp) : (issued c).dram = c.dram := applySlot_dram c
@[simp] theorem issued_iram (c : Cp) : (issued c).iram = c.iram := applySlot_iram c

/-- With no long load in progress an instruction's result is a write of its register. -/
theorem rdWrite_of_noLoads {c : Cp} (h : c.loads = []) (k : Nat) (v : Word) : rdWrite k v c = gWrite k v c := by
  have hc : { c with loads := c.loads.map (fun l => { l with dst := l.dst.filter (fun x => x.1 ≠ k) }) } = c := by
    rw [h]
    cases c
    simp_all
  rw [rdWrite, hc]

/-- A CP in base mode may fetch wherever one in handler mode may. -/
theorem fetchOk_of_pc {a b : Cp} (h : fetchOk a = true) (hpc : b.pc = a.pc) (hb : cpBase a = true → cpBase b = true) : fetchOk b = true := by
  simp only [fetchOk, Bool.and_eq_true, Bool.or_eq_true, hpc] at h ⊢
  exact ⟨h.1, h.2.imp_left hb⟩

/-- Where an arithmetic result leaves SR it stays in base mode. -/
theorem cpBase_setFlags {a : Alu} {c : Cp} (h : cpBase c = true) : cpBase (setFlags a c) = true := by
  simp only [cpBase, bit, setFlags, setBit, setBits] at h ⊢
  simp [h]

/-! ### What a fetched instruction does -/

section
variable {s : State} {i : Nat} {x : Instr} {w : Word} {f : Cp → Dev → CpRes}

/-- The instruction completes with the device e. -/
theorem Fetches.ok (H : Fetches s i x) (hw : cpWord x = some (i, w)) {e : Dev}
    (hf : f (cpGet s.dev i) (cpSet i (issued (cpGet s.dev i)) s.dev) = .ok e) :
    run s (cpIssue i w f) = .next (after s (cpAfter i e)) := by
  obtain ⟨hrun, hissues, hloads, hfetch, hword⟩ := H
  have hw : fetchWord (cpGet s.dev i) = w := by simpa [hword] using hw
  rw [run_running s _ hrun, cpIssue_eq i w f s.dev hissues hloads hfetch hw]
  simp only [issued] at hf
  rw [hf]

/-- It raises an exception. -/
theorem Fetches.exc (H : Fetches s i x) (hw : cpWord x = some (i, w)) {cause : Nat} {epc ea : Word}
    (hf : f (cpGet s.dev i) (cpSet i (issued (cpGet s.dev i)) s.dev) = .exc cause epc ea) :
    run s (cpIssue i w f) = .next (after s (cpRaise i cause epc ea (cpSet i (applySlot (cpGet s.dev i)) s.dev))) := by
  obtain ⟨hrun, hissues, hloads, hfetch, hword⟩ := H
  have hw : fetchWord (cpGet s.dev i) = w := by simpa [hword] using hw
  rw [run_running s _ hrun, cpIssue_eq i w f s.dev hissues hloads hfetch hw]
  simp only [issued] at hf
  rw [hf]

/-- It waits. -/
theorem Fetches.wait (H : Fetches s i x) (hw : cpWord x = some (i, w))
    (hf : f (cpGet s.dev i) (cpSet i (issued (cpGet s.dev i)) s.dev) = .wait) :
    run s (cpIssue i w f) = .next (after s s.dev) := by
  obtain ⟨hrun, hissues, hloads, hfetch, hword⟩ := H
  have hw : fetchWord (cpGet s.dev i) = w := by simpa [hword] using hw
  rw [run_running s _ hrun, cpIssue_eq i w f s.dev hissues hloads hfetch hw]
  simp only [issued] at hf
  rw [hf]

/-- It completes with the device e, in which its CP can fetch its next instruction or does not run. -/
theorem Fetches.dev (H : Fetches s i x) (hw : cpWord x = some (i, w)) {e : Dev}
    (hf : f (cpGet s.dev i) (cpSet i (issued (cpGet s.dev i)) s.dev) = .ok e)
    (hl : (cpGet e i).loads = []) (hnext : fetchOk (cpGet e i) = true ∨ (cpGet e i).run ≠ .run) :
    run s (cpIssue i w f) = .next (after s e) := by
  rw [H.ok hw hf]
  rcases hnext with h | h
  · rw [cpAfter_eq i e hl h]
  · rw [cpAfter_stopped i e hl h]

/-- It completes with its CP as c, which can fetch its next instruction or does not run. -/
theorem Fetches.done (H : Fetches s i x) (hw : cpWord x = some (i, w)) {c : Cp}
    (hf : f (cpGet s.dev i) (cpSet i (issued (cpGet s.dev i)) s.dev) = .ok (cpSet i c s.dev))
    (hl : c.loads = []) (hnext : fetchOk c = true ∨ c.run ≠ .run) : run s (cpIssue i w f) = .next (cpDone s i c) :=
  H.dev hw hf (by simpa using hl) (by simpa using hnext)

/-- It completes with the device e, in which its CP goes on behind it in the mode it was in. -/
theorem Issues.dev (H : Issues s i x) (hw : cpWord x = some (i, w)) {e : Dev}
    (hf : f (cpGet s.dev i) (cpSet i (issued (cpGet s.dev i)) s.dev) = .ok e) (hl : (cpGet e i).loads = [])
    (hpc : (cpGet e i).pc = (cpGet s.dev i).pc + 4) (hb : cpBase (cpGet s.dev i) = true → cpBase (cpGet e i) = true) :
    run s (cpIssue i w f) = .next (after s e) :=
  H.1.dev hw hf hl (.inl (fetchOk_of_pc H.2 hpc hb))

/-- It completes with its CP as c, which goes on behind it in the mode it was in. -/
theorem Issues.done (H : Issues s i x) (hw : cpWord x = some (i, w)) {c : Cp}
    (hf : f (cpGet s.dev i) (cpSet i (issued (cpGet s.dev i)) s.dev) = .ok (cpSet i c s.dev))
    (hl : c.loads = []) (hpc : c.pc = (cpGet s.dev i).pc + 4) (hb : cpBase (cpGet s.dev i) = true → cpBase c = true) :
    run s (cpIssue i w f) = .next (cpDone s i c) :=
  H.1.done hw hf hl (.inl (fetchOk_of_pc H.2 hpc hb))

/-- It completes with its CP at the target pc. -/
theorem IssuesTo.done {pc : Word} (H : IssuesTo s i x pc) (hw : cpWord x = some (i, w)) {c : Cp}
    (hf : f (cpGet s.dev i) (cpSet i (issued (cpGet s.dev i)) s.dev) = .ok (cpSet i c s.dev))
    (hl : c.loads = []) (hpc : c.pc = pc) (hb : cpBase (cpGet s.dev i) = true → cpBase c = true) :
    run s (cpIssue i w f) = .next (cpDone s i c) :=
  H.1.done hw hf hl (.inl (fetchOk_of_pc H.2 hpc hb))

end

/-! ### The formats (R297, R298) -/

/-- An RR instruction whose unused and reserved fields are zero. -/
theorem cpRR_wellFormed (i op fn : Nat) {f : RR} {noD noA noB : Bool} (g : Cp → Dev → CpRes) (hr : f.rsv = 0)
    (hd : noD = true → f.rd = 0) (ha : noA = true → f.ra = 0) (hb : noB = true → f.rb = 0) :
    cpRR i op fn f noD noA noB false g = cpIssue i (encRR op fn f) g := by
  have hg : (fun c e => if f.rsv ≠ 0 ∨ (noD = true ∧ f.rd ≠ 0) ∨ (noA = true ∧ f.ra ≠ 0) ∨ (noB = true ∧ f.rb ≠ 0)
      ∨ (false = true ∧ cpBase c = false) then cpIllegal c else g c e) = g := by
    funext c e
    rw [if_neg]
    rintro (h | ⟨h, hn⟩ | ⟨h, hn⟩ | ⟨h, hn⟩ | ⟨h, -⟩)
    · exact h hr
    · exact hn (hd h)
    · exact hn (ha h)
    · exact hn (hb h)
    · cases h
  exact congrArg (cpIssue i (encRR op fn f)) hg

/-- An RI instruction whose unused fields are zero. -/
theorem cpRI_wellFormed (i op : Nat) {f : RI} {noD noA : Bool} (g : Cp → Dev → CpRes)
    (hd : noD = true → f.rd = 0) (ha : noA = true → f.ra = 0) : cpRI i op f noD noA g = cpIssue i (encRI op f) g := by
  have hg : (fun c e => if (noD = true ∧ f.rd ≠ 0) ∨ (noA = true ∧ f.ra ≠ 0) then cpIllegal c else g c e) = g := by
    funext c e
    rw [if_neg]
    rintro (⟨h, hn⟩ | ⟨h, hn⟩)
    · exact hn (hd h)
    · exact hn (ha h)
  exact congrArg (cpIssue i (encRI op f)) hg

/-! ### Instructions that write a register or the flags -/

section
variable {s : State} {i : Nat} {x : Instr} {w : Word} {f : Cp → Dev → CpRes}

/-- A result and its flags. -/
theorem Issues.alu (H : Issues s i x) (hw : cpWord x = some (i, w)) {rd : Nat} {g : Cp → Alu}
    (hf : f = fun c d => aluWrite i rd (g c) d) : run s (cpIssue i w f) = .next (aluDone s i rd (g (cpGet s.dev i))) := by
  refine H.done hw (by simp only [hf, aluWrite, cpMod_cpSet, rdWrite_of_noLoads (issued_loads _)]) (by simp) (by simp) fun h => ?_
  exact cpBase_setFlags (by simpa [cpBase] using h)

/-- The flags alone. -/
theorem Issues.flags (H : Issues s i x) (hw : cpWord x = some (i, w)) {g : Cp → Alu}
    (hf : f = fun c d => aluFlags i (g c) d) : run s (cpIssue i w f) = .next (flagsDone s i (g (cpGet s.dev i))) := by
  refine H.done hw (by simp only [hf, aluFlags, cpMod_cpSet]) (by simp) (by simp) fun h => ?_
  exact cpBase_setFlags (by simpa [cpBase] using h)

/-- A result and no flag. -/
theorem Issues.reg (H : Issues s i x) (hw : cpWord x = some (i, w)) {rd : Nat} {g : Cp → Word}
    (hf : f = fun c d => regWrite i rd (g c) d) : run s (cpIssue i w f) = .next (regDone s i rd (g (cpGet s.dev i))) :=
  H.done hw (by simp only [hf, regWrite, cpMod_cpSet, rdWrite_of_noLoads (issued_loads _)]) (by simp) (by simp) (by simp [cpBase])

end

end Sys2Proof.Machine
end

section
/-!
THEOREM. O4 (BinaryFloatComplete): every binary32 instruction completes.
-/
namespace Sys2Proof.Machine

open Sys2Proof

section
variable {s : State} {i op fn : Nat} {x : Instr} {f : RR} {noD noA noB : Bool}

/-- An RR instruction that writes rd and the flags. -/
theorem Issues.aluRR (H : Issues s i x) {g : Cp → Alu}
    (he : exec x s = run s (cpRR i op fn f noD noA noB false (fun c d => aluWrite i f.d (g c) d))) (hw : cpWord x = some (i, encRR op fn f))
    (hr : f.rsv = 0) (hd : noD = true → f.rd = 0 := by simp) (ha : noA = true → f.ra = 0 := by simp) (hb : noB = true → f.rb = 0 := by simp) :
    exec x s = .next (aluDone s i f.d (g (cpGet s.dev i))) := by
  rw [he, cpRR_wellFormed i op fn _ hr hd ha hb, H.alu hw rfl]

/-- One that writes the flags alone. -/
theorem Issues.flagsRR (H : Issues s i x) {g : Cp → Alu}
    (he : exec x s = run s (cpRR i op fn f noD noA noB false (fun c d => aluFlags i (g c) d))) (hw : cpWord x = some (i, encRR op fn f))
    (hr : f.rsv = 0) (hd : noD = true → f.rd = 0 := by simp) (ha : noA = true → f.ra = 0 := by simp) (hb : noB = true → f.rb = 0 := by simp) :
    exec x s = .next (flagsDone s i (g (cpGet s.dev i))) := by
  rw [he, cpRR_wellFormed i op fn _ hr hd ha hb, H.flags hw rfl]

/-- One that writes rd and no flag. -/
theorem Issues.regRR (H : Issues s i x) {g : Cp → Word}
    (he : exec x s = run s (cpRR i op fn f noD noA noB false (fun c d => regWrite i f.d (g c) d))) (hw : cpWord x = some (i, encRR op fn f))
    (hr : f.rsv = 0) (hd : noD = true → f.rd = 0 := by simp) (ha : noA = true → f.ra = 0 := by simp) (hb : noB = true → f.rb = 0 := by simp) :
    exec x s = .next (regDone s i f.d (g (cpGet s.dev i))) := by
  rw [he, cpRR_wellFormed i op fn _ hr hd ha hb, H.reg hw rfl]

/-- An RI instruction that writes rd and no flag. -/
theorem Issues.regRI {f : RI} (H : Issues s i x) {g : Cp → Word}
    (he : exec x s = run s (cpRI i op f noD noA (fun c d => regWrite i f.d (g c) d))) (hw : cpWord x = some (i, encRI op f))
    (hd : noD = true → f.rd = 0 := by simp) (ha : noA = true → f.ra = 0 := by simp) :
    exec x s = .next (regDone s i f.d (g (cpGet s.dev i))) := by
  rw [he, cpRI_wellFormed i op _ hd ha, H.reg hw rfl]

end

/-- Settles O4: each instruction by the format and the operation of its meaning. -/
theorem binaryFloatComplete : Obligations.BinaryFloatComplete := by
  intro s i f hr
  refine ⟨fun H => H.aluRR (g := fun c => aluFadd (frmOf c) (gRead f.a c) (gRead f.b c)) rfl rfl hr,
    fun H => H.aluRR (g := fun c => aluFsub (frmOf c) (gRead f.a c) (gRead f.b c)) rfl rfl hr,
    fun H => H.aluRR (g := fun c => aluFmul (frmOf c) (gRead f.a c) (gRead f.b c)) rfl rfl hr,
    fun H => H.aluRR (g := fun c => aluFdiv (frmOf c) (gRead f.a c) (gRead f.b c)) rfl rfl hr,
    fun H => H.aluRR (g := fun c => aluFmadd (frmOf c) (gRead f.d c) (gRead f.a c) (gRead f.b c)) rfl rfl hr,
    fun H => H.aluRR (g := fun c => aluFminmax false (gRead f.a c) (gRead f.b c)) rfl rfl hr,
    fun H => H.aluRR (g := fun c => aluFminmax true (gRead f.a c) (gRead f.b c)) rfl rfl hr,
    fun hd H => H.flagsRR (g := fun c => aluFcmp (gRead f.a c) (gRead f.b c)) rfl rfl hr (fun _ => hd), fun hb => ?_⟩
  have hb : true = true → f.rb = 0 := fun _ => hb
  exact ⟨fun H => H.aluRR (g := fun c => aluFsqrt (frmOf c) (gRead f.a c)) rfl rfl hr (hb := hb),
    fun H => H.aluRR (g := fun c => aluFcvtFrom (frmOf c) (gRead f.a c).toInt) rfl rfl hr (hb := hb),
    fun H => H.aluRR (g := fun c => aluFcvtFrom (frmOf c) (gRead f.a c).toNat) rfl rfl hr (hb := hb),
    fun H => H.aluRR (g := fun c => aluFcvtws (frmOf c) (gRead f.a c)) rfl rfl hr (hb := hb),
    fun H => H.aluRR (g := fun c => aluFcvtwus (frmOf c) (gRead f.a c)) rfl rfl hr (hb := hb),
    fun H => H.regRR (g := fun c => fpAbs (gRead f.a c)) rfl rfl hr (hb := hb),
    fun H => H.regRR (g := fun c => fpNeg (gRead f.a c)) rfl rfl hr (hb := hb),
    fun H => H.regRR (g := fun c => fpClass (gRead f.a c)) rfl rfl hr (hb := hb)⟩

end Sys2Proof.Machine
end

section
/-!
THEOREM. O9 (Branches): the condition codes by the flags and after a comparison (R305), and the branches and jumps that go by them (R298, R306).
-/
namespace Sys2Proof.Machine

open Sys2Proof

/-! ### Condition codes (R305) -/

/-- The flags are the low four bits of SR (R286). -/
theorem flags_of_mod {n z c v : Bool} {sr : Word} (h : sr.toNat % 16 = n.toNat * 8 + z.toNat * 4 + c.toNat * 2 + v.toNat) :
    bit sr 3 = n ∧ bit sr 2 = z ∧ bit sr 1 = c ∧ bit sr 0 = v := by
  have hbit : ∀ k, k < 4 → bit sr k = (sr.toNat % 16).testBit k := fun k hk => by
    rw [show (16 : Nat) = 2 ^ 4 from rfl, Nat.testBit_mod_two_pow]
    simp [bit, BitVec.testBit_toNat, hk]
  rw [hbit 3 (by decide), hbit 2 (by decide), hbit 1 (by decide), hbit 0 (by decide), h]
  clear hbit h
  revert n z c v
  decide

theorem conditionCodes : ConditionCodes := by
  intro n z c v sr h
  obtain ⟨hn, hz, hc, hv⟩ := flags_of_mod h
  simp only [bcHolds, hn, hz, hc, hv]
  clear hn hz hc hv h
  revert n z c v
  decide

/-- The sign of a difference is the true one where it does not overflow, and the other where it does. -/
theorem msb_sub_eq_overflows (a b : Word) : (a - b).msb = overflows (a.toInt - b.toInt) ↔ b.toInt ≤ a.toInt := by
  have ha := BitVec.toInt_lt (x := a)
  have ha' := BitVec.le_toInt (x := a)
  have hb := BitVec.toInt_lt (x := b)
  have hb' := BitVec.le_toInt (x := b)
  rw [BitVec.msb_eq_toInt, BitVec.toInt_sub, overflows, decide_eq_decide, Int.bmod]
  simp only [Nat.reducePow, Int.reducePow, Nat.add_one_sub_one, Nat.cast_ofNat] at *
  split <;> omega

theorem conditionsAfterCompare : ConditionsAfterCompare := by
  intro a b sr h
  obtain ⟨h0, h1, h2, h3, h4, -, -, -, -, h9, h10, h11, h12, h13, h14⟩ := conditionCodes _ _ _ _ sr h
  have hnat : a = b ↔ a.toNat = b.toNat := BitVec.toNat_inj.symm
  have hint : a = b ↔ a.toInt = b.toInt := BitVec.toInt_inj.symm
  have hsign := msb_sub_eq_overflows a b
  rw [h0, h1, h2, h3, h4, h9, h10, h11, h12, h13, h14]
  refine ⟨rfl, rfl, rfl, by simp, rfl, ?_, ?_, ?_, ?_, ?_, ?_, ?_⟩
  · simp [← decide_not]
  · rw [← decide_not, ← Bool.decide_and, decide_eq_decide, hnat]
    omega
  · rw [← decide_not, ← Bool.decide_or, decide_eq_decide, hnat]
    omega
  · rw [decide_eq_decide, hsign]
  · rw [decide_eq_decide, ne_eq, hsign]
    omega
  · rw [← decide_not, ← Bool.decide_and, decide_eq_decide, hsign, hint]
    omega
  · rw [← Bool.decide_or, decide_eq_decide, ne_eq, hsign, hint]
    omega

/-! ### Branches and jumps (R298, R306) -/

@[simp] theorem lkWrite_loads (v : Word) (c : Cp) : (lkWrite v c).loads = c.loads := by unfold lkWrite; split <;> rfl
@[simp] theorem lkWrite_pc (v : Word) (c : Cp) : (lkWrite v c).pc = c.pc := by unfold lkWrite; split <;> rfl
@[simp] theorem lkWrite_sr (v : Word) (c : Cp) : (lkWrite v c).sr = c.sr := by unfold lkWrite; split <;> rfl

theorem shiftLeft_two (x : Word) : x <<< 2 = 4 * x := by
  rw [BitVec.shiftLeft_eq_mul_twoPow, BitVec.mul_comm]
  rfl

section
variable {s : State} {i : Nat} {x : Instr} {w pc : Word} {f : Cp → Dev → CpRes}

/-- A jump. -/
theorem IssuesTo.jump (H : IssuesTo s i x pc) (hw : cpWord x = some (i, w))
    (hf : f (cpGet s.dev i) = pcWrite i pc) : run s (cpIssue i w f) = .next (cpDone s i { issued (cpGet s.dev i) with pc := pc }) :=
  H.done hw (by rw [hf, pcWrite, cpMod_cpSet]) rfl rfl (by simp [cpBase])

/-- A call: lk is the address of the next instruction. -/
theorem IssuesTo.call (H : IssuesTo s i x pc) (hw : cpWord x = some (i, w))
    (hf : f (cpGet s.dev i) = linkTo i (cpGet s.dev i).pc pc) :
    run s (cpIssue i w f) = .next (cpDone s i (lkWrite ((cpGet s.dev i).pc + 4) { issued (cpGet s.dev i) with pc := pc })) :=
  H.done hw (by rw [hf, linkTo, cpMod_cpSet]) (by simp) (by simp) (by simp [cpBase])

end

theorem branchResults : BranchResults := by
  intro s i
  refine ⟨fun k off hk => ⟨fun hc H => ?_, fun hc H => ?_⟩, fun off H => ?_, fun off H => ?_, fun f hr hd hb => ⟨fun H => ?_, fun H => ?_⟩,
    fun hserve H => ?_⟩
  · exact H.jump rfl (by simp only [if_neg hk, if_pos hc, shiftLeft_two])
  · exact H.done rfl (by simp only [if_neg hk, hc, Bool.false_eq_true, if_false]) rfl rfl (by simp [cpBase])
  · exact H.exc rfl (by simp only [if_pos, cpIllegal])
  · exact H.call rfl (by simp only [shiftLeft_two])
  · have he : exec (.jr i f) s = run s (cpRR i 0x22 0x00 f true false true false (fun c d => pcWrite i (gRead f.a c) d)) := rfl
    rw [he, cpRR_wellFormed i _ _ _ hr (fun _ => hd) (by simp) (fun _ => hb), H.jump rfl rfl]
  · have he : exec (.blr i f) s = run s (cpRR i 0x22 0x01 f true false true false (fun c d => linkTo i c.pc (gRead f.a c) d)) := rfl
    rw [he, cpRR_wellFormed i _ _ _ hr (fun _ => hd) (by simp) (fun _ => hb), H.call rfl rfl]
  · have he : exec (.ret i ⟨0, 0, 0, 0⟩) s = run s (cpRR i 0x22 0x02 ⟨0, 0, 0, 0⟩ true true true false (cpReturn i)) := rfl
    rw [he, cpRR_wellFormed i _ _ _ rfl (fun _ => rfl) (fun _ => rfl) (fun _ => rfl)]
    exact H.jump rfl (by funext d; simp only [cpReturn, hserve])

/-- Settles O9. -/
theorem branches : Obligations.Branches := ⟨branchResults, conditionCodes, conditionsAfterCompare⟩

end Sys2Proof.Machine
end

section
/-!
SUPPORT. Special registers (R287 to R289): what a read and a write of each answers, and what they leave of their CP.
-/
namespace Sys2Proof.Machine

open Sys2Proof

theorem cpMod_cpMod (i : Nat) (f g : Cp → Cp) (d : Dev) : cpMod i g (cpMod i f d) = cpMod i (fun c => g (f c)) d := by
  simp [cpMod]

@[simp] theorem gWrite_a0 (k : Nat) (v : Word) (c : Cp) : (gWrite k v c).a0 = c.a0 := by
  unfold gWrite; split
  · rfl
  · split <;> rfl

@[simp] theorem gWrite_a1 (k : Nat) (v : Word) (c : Cp) : (gWrite k v c).a1 = c.a1 := by
  unfold gWrite; split
  · rfl
  · split <;> rfl

@[simp] theorem issued_a0 (c : Cp) : (issued c).a0 = c.a0 := foldl_gWrite_keeps Cp.a0 (by simp) _ _
@[simp] theorem issued_a1 (c : Cp) : (issued c).a1 = c.a1 := foldl_gWrite_keeps Cp.a1 (by simp) _ _

@[simp] theorem hiSet_loads (b : Bool) (v : Word) (c : Cp) : (hiSet b v c).loads = c.loads := by
  unfold hiSet; split <;> split <;> rfl
@[simp] theorem hiSet_pc (b : Bool) (v : Word) (c : Cp) : (hiSet b v c).pc = c.pc := by
  unfold hiSet; split <;> split <;> rfl
@[simp] theorem hiSet_sr (b : Bool) (v : Word) (c : Cp) : (hiSet b v c).sr = c.sr := by
  unfold hiSet; split <;> split <;> rfl

/-- Reading CYC changes of its CP the count alone. -/
theorem cpGet_cycNow (i : Nat) (d : Dev) : ∃ n, cpGet (cycNow i d).2 i = { cpGet d i with cyc := n } := by
  unfold cycNow
  dsimp only
  split
  · exact ⟨_, rfl⟩
  · exact ⟨_, cpGet_cpSet_self ..⟩

/-- The countdown of BUDGET changes of its CP the budget alone. -/
theorem cpGet_budgetRuns (i : Nat) (d : Dev) : ∃ n, cpGet (budgetRuns i d) i = { cpGet d i with budget := n } := by
  unfold budgetRuns
  dsimp only
  split
  · exact ⟨_, rfl⟩
  · exact ⟨_, cpGet_cpSet_self ..⟩

/-! ### MFS -/

section
variable {s : State} {i : Nat} {f : RI} {v : Word} {e : Dev}

theorem exec_mfs (ha : f.ra = 0) : exec (.mfs i f) s = run s (cpIssue i (encRI 0x0E f) (fun c d =>
    match mfsValue i f.imm.toNat c d with
    | some (v, d) => regWrite i f.d v d
    | none => cpIllegal c)) :=
  congrArg (run s) (cpRI_wellFormed i 0x0E _ (by simp) (fun _ => ha))

/-- A read that leaves the CP ready for its next instruction. -/
theorem Issues.mfs_dev (H : Issues s i (.mfs i f)) (ha : f.ra = 0)
    (hv : mfsValue i f.imm.toNat (cpGet s.dev i) (cpSet i (issued (cpGet s.dev i)) s.dev) = some (v, e))
    (hl : (cpGet e i).loads = []) (hpc : (cpGet e i).pc = (cpGet s.dev i).pc + 4) (hsr : (cpGet e i).sr = (cpGet s.dev i).sr) :
    exec (.mfs i f) s = .next (after s (cpMod i (gWrite f.d v) e)) := by
  have hwrite : regWrite i f.d v e = .ok (cpMod i (gWrite f.d v) e) := by
    simp only [regWrite, cpMod, rdWrite_of_noLoads hl]
  exact (exec_mfs ha).trans (H.dev rfl (by simp only [hv, hwrite]) (by simpa [cpMod] using hl) (by simpa [cpMod] using hpc)
    (by simp [cpMod, cpBase, hsr]))

/-- A read without an effect of its own. -/
theorem Issues.mfs (H : Issues s i (.mfs i f)) (ha : f.ra = 0)
    (hv : ∀ d, mfsValue i f.imm.toNat (cpGet s.dev i) d = some (v, d)) : exec (.mfs i f) s = .next (regDone s i f.d v) := by
  rw [H.mfs_dev ha (hv _) (by simp) (by simp) (by simp), cpMod_cpSet]
  rfl

/-- A number without the access. -/
theorem Fetches.mfs_illegal (H : Fetches s i (.mfs i f)) (ha : f.ra = 0) (hv : ∀ d, mfsValue i f.imm.toNat (cpGet s.dev i) d = none) :
    exec (.mfs i f) s = .next (after s (cpRaise i 1 (cpGet s.dev i).pc 0 (cpSet i (applySlot (cpGet s.dev i)) s.dev))) := by
  rw [exec_mfs ha, H.exc (cause := 1) (epc := (cpGet s.dev i).pc) (ea := 0) rfl (by simp only [hv, cpIllegal])]

end

/-- The special registers that are read in either mode. -/
theorem mfsValue_anyMode (i : Nat) (c : Cp) (d : Dev) :
    ∀ p ∈ [(0, srRead c), (0x10, cpidWord i), (0x12, hiGet true c), (0x14, hiGet false c), (0x20, c.a0.extractLsb' 0 32),
      (0x21, (c.a0.extractLsb' 32 8).signExtend 32), (0x22, c.a1.extractLsb' 0 32), (0x23, (c.a1.extractLsb' 32 8).signExtend 32)],
      mfsValue i p.1 c d = some (p.2, d) := by
  simp only [List.forall_mem_cons]
  exact ⟨rfl, rfl, rfl, rfl, rfl, rfl, rfl, rfl, List.forall_mem_nil _⟩

/-- Those that are read in base mode. -/
theorem mfsValue_baseMode (i : Nat) {c : Cp} (d : Dev) (h : cpBase c = true) :
    ∀ p ∈ [(1, c.epc), (2, c.esr), (3, c.ecause), (4, c.eaddr), (5, c.npc), (6, c.nsr), (7, c.fpc), (8, c.fsr), (0x18, c.hdlo),
      (0x19, c.hdhi), (0x1A, c.holo), (0x1B, c.hohi), (0x1C, c.budget)], mfsValue i p.1 c d = some (p.2, d) := by
  simp [mfsValue, h]

theorem mfsValue_unlisted (i : Nat) {n : Nat} (c : Cp) (d : Dev) (h : n ∉ [0, 1, 2, 3, 4, 5, 6, 7, 8, 0x10, 0x11, 0x12, 0x13, 0x14, 0x18,
    0x19, 0x1A, 0x1B, 0x1C, 0x20, 0x21, 0x22, 0x23]) : mfsValue i n c d = none := by
  unfold mfsValue
  split <;> simp at h ⊢

theorem mfsValue_handler (i : Nat) {n : Nat} {c : Cp} (d : Dev) (hb : cpBase c = false)
    (h : n ∈ [1, 2, 3, 4, 5, 6, 7, 8, 0x18, 0x19, 0x1A, 0x1B]) : mfsValue i n c d = none := by
  revert n
  simp [mfsValue, hb]

/-! ### MTS -/

/-- MTS changes neither the loads in progress, nor pc, nor the mode. -/
theorem mtsValue_keeps {n : Nat} {v : Word} {m : Bool} {c x : Cp} (h : mtsValue n v m c = some x) :
    x.loads = c.loads ∧ x.pc = c.pc ∧ cpBase x = cpBase c := by
  have hsr : cpBase (srMts v c) = cpBase c := by simp [cpBase, bit, srMts]
  unfold mtsValue at h
  dsimp only at h
  split at h
  case h_1 => cases h; exact ⟨rfl, rfl, hsr⟩
  case h_13 | h_14 | h_15 | h_16 => cases h; exact ⟨rfl, rfl, rfl⟩
  case h_17 => cases h
  all_goals
    obtain ⟨-, h⟩ := Option.ite_none_right_eq_some.mp h
    cases h
    exact ⟨rfl, rfl, rfl⟩

section
variable {s : State} {i : Nat} {f : RI}

theorem exec_mts (hd : f.rd = 0) : exec (.mts i f) s = run s (cpIssue i (encRI 0x0F f) (fun c d =>
    match mtsValue f.imm.toNat (gRead f.a c) (cpBase c) (cpGet d i) with
    | some x => .ok (cpSet i x d)
    | none => cpIllegal c)) :=
  congrArg (run s) (cpRI_wellFormed i 0x0F _ (fun _ => hd) (by simp))

theorem Issues.mts (H : Issues s i (.mts i f)) (hd : f.rd = 0) {x : Cp}
    (hv : mtsValue f.imm.toNat (opAI s i f) (cpBase (cpGet s.dev i)) (issued (cpGet s.dev i)) = some x) :
    exec (.mts i f) s = .next (cpDone s i x) := by
  obtain ⟨hl, hpc, hbase⟩ := mtsValue_keeps hv
  rw [opAI] at hv
  rw [exec_mts hd, H.done rfl (by simp only [cpGet_cpSet_self, hv, cpSet_cpSet]) hl hpc fun h => hbase.trans (by simpa [cpBase] using h)]

theorem Fetches.mts_illegal (H : Fetches s i (.mts i f)) (hd : f.rd = 0)
    (hv : ∀ v x, mtsValue f.imm.toNat v (cpBase (cpGet s.dev i)) x = none) :
    exec (.mts i f) s = .next (after s (cpRaise i 1 (cpGet s.dev i).pc 0 (cpSet i (applySlot (cpGet s.dev i)) s.dev))) := by
  rw [exec_mts hd, H.exc (cause := 1) (epc := (cpGet s.dev i).pc) (ea := 0) rfl (by simp only [hv, cpIllegal])]

end

theorem mtsValue_unlisted {n : Nat} (v : Word) (m : Bool) (c : Cp) (h : n ∉ [0, 1, 2, 5, 6, 7, 8, 0x18, 0x19, 0x1A, 0x1B, 0x1C, 0x20, 0x21,
    0x22, 0x23]) : mtsValue n v m c = none := by
  unfold mtsValue
  dsimp only
  split <;> simp at h ⊢

theorem mtsValue_handler {n : Nat} (v : Word) (c : Cp) (h : n ∈ [1, 2, 5, 6, 7, 8, 0x18, 0x19, 0x1A, 0x1B, 0x1C]) :
    mtsValue n v false c = none := by
  revert n
  simp [mtsValue]

end Sys2Proof.Machine
end

section
/-!
THEOREM. O3 (MovesAndSpecials): moves between registers, and the special registers.
-/
namespace Sys2Proof.Machine

open Sys2Proof

/-- LUI's immediate in the high half. -/
theorem append_zero_eq_shiftLeft (x : BitVec 16) : x ++ 0#16 = x.zeroExtend 32 <<< 16 := by
  refine BitVec.eq_of_getLsbD_eq fun k hk => ?_
  rw [BitVec.getLsbD_append, BitVec.getLsbD_shiftLeft, BitVec.getLsbD_setWidth]
  by_cases h : k < 16
  · simp [h]
  · simp [h, show k < 32 from hk, show k - 16 < 32 by omega]

/-- MOVL keeps the high half. -/
theorem highHalf_append (x : Word) (y : BitVec 16) : x.extractLsb' 16 16 ++ y = (x &&& 0xFFFF0000#32) ||| y.zeroExtend 32 := by
  have hmask : ∀ k, k < 32 → (0xFFFF0000#32).getLsbD k = decide (16 ≤ k) := by decide
  refine BitVec.eq_of_getLsbD_eq fun k hk => ?_
  rw [BitVec.getLsbD_append, BitVec.getLsbD_or, BitVec.getLsbD_and, hmask k hk, BitVec.getLsbD_extractLsb', BitVec.getLsbD_setWidth]
  by_cases h : k < 16
  · simp [h, show k < 32 from hk, show ¬ 16 ≤ k by omega]
  · simp [h, show k - 16 < 16 by omega, show 16 + (k - 16) = k by omega, show 16 ≤ k by omega]

theorem moveResults : MoveResults := by
  intro s i
  refine ⟨fun f hr hb => ⟨fun H => ?_, fun ha H => ?_, fun hd H => ?_⟩, fun f ha => ⟨fun H => ?_, fun H => ?_, fun H => ?_⟩⟩
  · exact H.regRR (g := fun c => gRead f.a c) rfl rfl hr (hb := fun _ => hb)
  · exact H.regRR (g := fun c => lkRead c) rfl rfl hr (ha := fun _ => ha) (hb := fun _ => hb)
  · have he : exec (.mtlk i f) s = run s (cpRR i 0x00 0x12 f true false true false (fun c d => .ok (cpMod i (lkWrite (gRead f.a c)) d))) := rfl
    rw [he, cpRR_wellFormed i _ _ _ hr (fun _ => hd) (by simp) (fun _ => hb)]
    exact H.done rfl (by rw [cpMod_cpSet]; rfl) (by simp) (by simp) (by simp [cpBase])
  · exact H.regRI (g := fun _ => f.sx) rfl rfl (ha := fun _ => ha)
  · rw [← append_zero_eq_shiftLeft]
    exact H.regRI (g := fun _ => f.imm ++ 0#16) rfl rfl (ha := fun _ => ha)
  · rw [← highHalf_append]
    exact H.regRI (g := fun c => (gRead f.d c).extractLsb' 16 16 ++ f.imm) rfl rfl (ha := fun _ => ha)

theorem specialRegisters : SpecialRegisters := by
  intro s i f c a n e q m w bad set
  refine ⟨fun H ha => ⟨fun p hp hn => ?_, fun hn => ?_, fun hn => ?_, fun hb p hp hn => ?_, fun hb hn => ?_⟩,
    fun H hd => ?_, fun H ha hn => ?_, fun H hd hn => ?_⟩
  · exact H.mfs ha fun d => (congrArg (mfsValue i · c d) hn).trans (mfsValue_anyMode i c d p hp)
  · obtain ⟨k, hk⟩ := cpGet_cycNow i e
    have hv : mfsValue i n c e = some (q.1.extractLsb' 0 32, cpMod i (hiSet true (q.1.extractLsb' 32 32)) q.2) := by rw [hn]; rfl
    rw [H.mfs_dev ha hv (by simp [cpMod, q, hk, e]) (by simp [cpMod, q, hk, e, c]) (by simp [cpMod, q, hk, e, c]), cpMod_cpMod]
  · have hv : mfsValue i n c e = some (s.dev.devtime.extractLsb' 0 32, cpMod i (hiSet false (s.dev.devtime.extractLsb' 32 32)) e) := by
      rw [hn]; rfl
    rw [H.mfs_dev ha hv (by simp [cpMod, e]) (by simp [cpMod, e, c]) (by simp [cpMod, e, c]), cpMod_cpMod, cpMod_cpSet]
    rfl
  · exact H.mfs ha fun d => (congrArg (mfsValue i · c d) hn).trans (mfsValue_baseMode i d hb p hp)
  · obtain ⟨k, hk⟩ := cpGet_budgetRuns i e
    have hv : mfsValue i n c e = some ((cpGet (budgetRuns i e) i).budget, budgetRuns i e) := by simp [mfsValue, hn, hb]
    exact H.mfs_dev ha hv (by simp [hk, e]) (by simp [hk, e, c]) (by simp [hk, e, c])
  · have hset {x : Cp} (hv : mtsValue n a (cpBase c) (issued c) = some x) : set x := H.mts hd hv
    refine ⟨fun hn => hset (by rw [hn]; rfl), fun hn => hset (by simp [mtsValue, hn]), fun hn => hset (by simp [mtsValue, hn]),
      fun hn => hset (by simp [mtsValue, hn]), fun hn => hset (by simp [mtsValue, hn]), fun hb => ?_⟩
    rw [hb] at hset
    and_intros <;> exact fun hn => hset (by rw [hn]; rfl)
  · rcases hn with hn | ⟨hb, hn⟩
    · exact H.mfs_illegal ha fun d => mfsValue_unlisted i c d hn
    · exact H.mfs_illegal ha fun d => mfsValue_handler i d hb hn
  · rcases hn with hn | ⟨hb, hn⟩
    · exact H.mts_illegal hd fun v x => mtsValue_unlisted v _ x hn
    · exact H.mts_illegal hd fun v x => hb ▸ mtsValue_handler v x hn

/-- Settles O3. -/
theorem movesAndSpecials : Obligations.MovesAndSpecials := ⟨moveResults, specialRegisters⟩

end Sys2Proof.Machine
end

section
/-!
THEOREM. O10 (SystemInstructions): the SYS group and SVC, and what the fetched word decides.
-/
namespace Sys2Proof.Machine

open Sys2Proof

/-! ### What the fetched word decides (R290, R297, R298) -/

/-- Every instruction of the tables issues under its word. -/
theorem exec_cpWord {x : Instr} {i : Nat} {w : Word} (h : cpWord x = some (i, w)) (s : State) :
    ∃ f, exec x s = run s (cpIssue i w f) := by
  cases x <;> cases h <;> exact ⟨_, rfl⟩

section
variable {i : Nat} {w : Word} {f g : Cp → Dev → CpRes} {c : Cp} {d : Dev}

theorem cpFetch_unfetchable (h : fetchOk c = false) : cpFetch w f c d = .exc 6 c.pc c.pc := by simp [cpFetch, h]

theorem cpFetch_undefined (h : fetchOk c = true) (hne : fetchWord c ≠ w) (hund : cpDefined (fetchWord c) = false) :
    cpFetch w f c d = .exc 1 c.pc 0 := by
  simp [cpFetch, h, hne, hund, cpIllegal]

theorem cpFetch_otherWord (h : fetchOk c = true) (hne : fetchWord c ≠ w) (hdef : cpDefined (fetchWord c) = true) :
    cpFetch w f c d = .wait := by
  simp [cpFetch, h, hne, hdef]

/-- With no load in progress the exception that the fetch decides is taken at once. -/
theorem cpIssue_exc (h : cpIssues d i = true) (hl : (cpGet d i).loads = []) {cause : Nat} {epc ea : Word}
    (hf : ∀ e, cpFetch w f (cpGet d i) e = .exc cause epc ea) :
    cpIssue i w f d = cpRaise i cause epc ea (cpSet i (applySlot (cpGet d i)) d) := by
  simp only [cpIssue, h, if_true, hf, hl, cpMod]

/-- An instruction that does not issue leaves the device as it is. -/
theorem cpIssue_wait (h : cpIssues d i = true) (hf : ∀ e, cpFetch w f (cpGet d i) e = .wait) : cpIssue i w f d = d := by
  simp only [cpIssue, h, if_true, hf]

/-- An instruction is what it does to the CP that issues it. -/
theorem cpIssue_congr (h : ∀ e, f (cpGet d i) e = g (cpGet d i) e) : cpIssue i w f d = cpIssue i w g d := by
  simp only [cpIssue, cpFetch, h]

end

theorem fetchedWord : FetchedWord := by
  intro s i x w hw c raised hrun hissues hloads
  obtain ⟨f, hexec⟩ := exec_cpWord hw s
  rw [hexec, run_running s _ hrun]
  refine ⟨fun hno => ?_, fun hok hne hund => ?_, fun hok hne hdef => ?_⟩
  · rw [cpIssue_exc hissues hloads fun e => cpFetch_unfetchable hno]
  · rw [cpIssue_exc hissues hloads fun e => cpFetch_undefined hok hne hund]
  · rw [cpIssue_wait hissues fun e => cpFetch_otherWord hok hne hdef]

/-! ### Instructions of base mode (R306) -/

section
variable {i op fn : Nat} {f : RR} {noD noA noB : Bool} {g : Cp → Dev → CpRes} {d : Dev}

theorem cpRR_baseMode (hb : cpBase (cpGet d i) = true) (hr : f.rsv = 0) (hd : noD = true → f.rd = 0 := by simp)
    (ha : noA = true → f.ra = 0 := by simp) (hn : noB = true → f.rb = 0 := by simp) :
    cpRR i op fn f noD noA noB true g d = cpIssue i (encRR op fn f) g d := by
  rw [← cpRR_wellFormed i op fn g hr hd ha hn]
  exact cpIssue_congr fun e => by simp [hb]

theorem cpRR_handlerMode (hb : cpBase (cpGet d i) = false) :
    cpRR i op fn f noD noA noB true g d = cpIssue i (encRR op fn f) (fun c _ => cpIllegal c) d :=
  cpIssue_congr fun e => by simp [hb]

end

theorem run_congr {s : State} {f g : Dev → Dev} (h : f s.dev = g s.dev) : run s f = run s g := by
  simp only [run, h]

/-! ### The SYS group and SVC (R306, R310, R311, R314, R316, R319) -/

section
variable {s : State} {i fn : Nat} {x : Instr} {g : Cp → Dev → CpRes}

/-- An instruction of the SYS group without operands. -/
theorem run_sys (g : Cp → Dev → CpRes) : run s (cpRR i 0x30 fn ⟨0, 0, 0, 0⟩ true true true false g)
    = run s (cpIssue i (encRR 0x30 fn ⟨0, 0, 0, 0⟩) g) :=
  congrArg (run s) (cpRR_wellFormed i 0x30 fn g rfl (fun _ => rfl) (fun _ => rfl) (fun _ => rfl))

/-- One of base mode, in base mode. -/
theorem run_sysBase (hb : cpBase (cpGet s.dev i) = true) : run s (cpRR i 0x30 fn ⟨0, 0, 0, 0⟩ true true true true g)
    = run s (cpIssue i (encRR 0x30 fn ⟨0, 0, 0, 0⟩) g) :=
  run_congr (cpRR_baseMode hb rfl)

/-- One of base mode in handler mode is illegal. -/
theorem Fetches.handlerMode {f : RR} {noD noA noB : Bool} (H : Fetches s i x) (hb : cpBase (cpGet s.dev i) = false)
    (he : exec x s = run s (cpRR i 0x30 fn f noD noA noB true g)) (hw : cpWord x = some (i, encRR 0x30 fn f)) :
    exec x s = .next (after s (cpRaise i 1 (cpGet s.dev i).pc 0 (cpSet i (applySlot (cpGet s.dev i)) s.dev))) := by
  rw [he, run_congr (cpRR_handlerMode hb), H.exc hw rfl]

/-- An instruction that only goes on to the next. -/
theorem Issues.next {w : Word} (H : Issues s i x) (hw : cpWord x = some (i, w))
    (hf : g (cpGet s.dev i) (cpSet i (issued (cpGet s.dev i)) s.dev) = .ok (cpSet i (issued (cpGet s.dev i)) s.dev)) :
    run s (cpIssue i w g) = .next (cpDone s i (issued (cpGet s.dev i))) :=
  H.done hw hf rfl rfl (by simp [cpBase])

theorem cpEret_loads (c : Cp) : (cpEret c).loads = c.loads := by
  unfold cpEret srRestore
  split
  · rfl
  · split
    · rfl
    · split <;> rfl

/-- A page event leaves what its CP has in progress. -/
theorem cpGet_pageEvent {p b : Nat} (d : Dev) (hp : p < 16384) (hb : b < 32) (i : Nat) :
    ∃ n f, cpGet (pageEvent p b d) i = { cpGet d i with spurN := n, spurF := f } :=
  (sameButLog_pageEvent d hp hb).2.2 i

end

theorem sysGroup : SysGroup := by
  intro s i c z raised
  refine ⟨⟨fun H => ?nop, fun hw H => ?fence, fun hw H => ?fenceWaits, fun H => ?isync, fun hb H => ?wait, fun hg H => ?brk,
    fun hg H => ?brkGranted, fun f hd ha H => ?svc, fun hb => ?handler⟩, fun hb H hf => ?eret⟩
  case nop => exact (run_sys _).trans (H.next rfl rfl)
  case isync => exact (run_sys _).trans (H.next rfl rfl)
  case fence => exact (run_sys _).trans (H.next rfl (if_neg (ne_true_of_eq_false hw)))
  case fenceWaits => exact (run_sys _).trans (H.wait rfl (if_pos hw))
  case wait => exact (run_sysBase hb).trans (H.1.done rfl (by rw [cpWaits, cpMod_cpSet]) rfl (.inr CpRun.noConfusion))
  case brk => exact (run_sys _).trans (H.exc rfl (if_neg (ne_true_of_eq_false hg)))
  case brkGranted =>
    obtain ⟨n, f, hcp⟩ := cpGet_pageEvent (p := 12) (b := 0) (cpSet i { issued c with run := .stopped, halted := true } s.dev)
      (by decide) (by decide) i
    rw [cpGet_cpSet_self] at hcp
    exact (run_sys _).trans (H.1.dev rfl ((if_pos hg).trans (by rw [cpMod_cpSet])) (by rw [hcp]; rfl)
      (.inr (by rw [hcp]; exact CpRun.noConfusion)))
  case svc => exact (congrArg (run s) (cpRI_wellFormed i 0x31 _ (fun _ => hd) (fun _ => ha))).trans (H.exc rfl rfl)
  case handler =>
    simp only [List.forall_mem_cons]
    exact ⟨fun H => H.handlerMode hb rfl rfl, fun H => H.handlerMode hb rfl rfl, fun H => H.handlerMode hb rfl rfl, List.forall_mem_nil _⟩
  case eret => exact (run_sysBase hb).trans (H.done rfl (by rw [cpMod_cpSet]) (by rw [cpEret_loads]; rfl) (.inl hf))

/-- Settles O10. -/
theorem systemInstructions : Obligations.SystemInstructions := ⟨sysGroup, fetchedWord⟩

end Sys2Proof.Machine
end

section
/-!
THEOREM. O12 (BudgetsAndCheckpoints): the end of a budget, CKPT, and the acknowledgement of its mirror copy.
-/
namespace Sys2Proof.Machine

open Sys2Proof

theorem budgetEnds : BudgetEnds := by
  intro s i hrun hi c hissuing hbase hbudget
  have hexec : exec (.budgetExpiry i) s = run s (budgetExpiry i) := rfl
  rw [hexec, run_running s _ hrun, budgetExpiry, if_pos ⟨hi, hissuing, hbase, hbudget⟩]

/-! ### Writing a slot of the context bank leaves the CPs as they are (R312) -/

theorem recordBits_cps (n : Nat) (d : Dev) : (recordBits n d).2.cps = d.cps := by
  unfold recordBits hprivBits
  dsimp only
  split <;> rfl

theorem bankRead_cps (d : Dev) (e k : Nat) : (bankRead d e k).2.cps = d.cps := by
  unfold bankRead
  split
  · exact recordBits_cps _ d
  · rfl

theorem mirrorRead_cps (d : Dev) (e k : Nat) : (mirrorRead d e k).2.cps = d.cps := by
  unfold mirrorRead
  split
  · rfl
  · exact bankRead_cps d e k

theorem subSet_cps (n : Nat) (v : Sub) (d : Dev) : (subSet n v d).cps = d.cps := by
  obtain ⟨t, h⟩ := subSet_frame n v d
  rw [h]

theorem bankWrite_cps (e k : Nat) (v : BitVec 1024) (d : Dev) : (bankWrite e k v d).cps = d.cps := by
  unfold bankWrite
  dsimp only
  split
  · exact (subSet_cps _ _ _).trans (mirrorRead_cps d e k)
  · exact mirrorRead_cps d e k

/-! ### CKPT (R312) -/

section
variable {s : State} {i : Nat} {f : RR}

theorem exec_ckpt (hb : cpBase (cpGet s.dev i) = true) (hr : f.rsv = 0) (hd : f.rd = 0) : exec (.ckpt i f) s
    = run s (cpIssue i (encRR 0x30 0x06 f) (fun c d => cpCheckpoint i (gRead f.a c) (gRead f.b c) c d)) :=
  run_congr (cpRR_baseMode hb hr (fun _ => hd))

theorem checkpoints : Checkpoints := by
  intro s i f hb hr hd c a k
  refine ⟨fun h128 hlo hhi hk H => ?good, fun hbad H => ?bad, fun d hmem hrun => ?ack⟩
  case good =>
    have hfits : ¬ (a % 128 ≠ 0 ∨ a < 0x10000000 ∨ 0x10020000 < a + 128 ∨ 32783 < k) := by omega
    have hcp : cpGet (bankWrite (i / 9) k (BitVec.ofNat 1024 (leNat (memRead c.dram a 128))) (cpSet i (issued c) s.dev)) i = issued c := by
      rw [cpGet, bankWrite_cps]
      exact cpGet_cpSet_self ..
    exact (exec_ckpt hb hr hd).trans (H.dev rfl (if_neg hfits) ((congrArg Cp.loads hcp).trans rfl) ((congrArg Cp.pc hcp).trans rfl)
      fun hb => (congrArg cpBase hcp).trans (by simpa [cpBase] using hb))
  case bad => rw [exec_ckpt hb hr hd, H.exc rfl (if_pos hbad)]; rfl
  case ack =>
    have hexec : exec (.ckptMirrorAck d k) s = run s (fun e => if e.mirrorWait.contains (d, k) then liveP (mirrorAck d k) e else e) := rfl
    rw [hexec, run_running s _ hrun, if_pos (List.contains_iff_mem.mpr hmem)]

end

/-- Settles O12. -/
theorem budgetsAndCheckpoints : Obligations.BudgetsAndCheckpoints := ⟨budgetEnds, checkpoints⟩

end Sys2Proof.Machine
end

section
/-!
SUPPORT. A load and a store as they issue (R290, R304, R308, R309): what is refused, and what a load that may be made leaves of its CP.
-/
namespace Sys2Proof.Machine

open Sys2Proof

section
variable {s : State} {i op n : Nat} {sg : Bool} {f : RI} {x : Instr}

/-! ### Accesses that take their exception -/

theorem Fetches.load_misaligned (H : Fetches s i x) (hw : cpWord x = some (i, encRI op f)) (hreg : regAligned f.d n = true)
    (ha : (dataAddr f (cpGet s.dev i)).toNat % n ≠ 0) : run s (cpLoad i op f n sg)
      = .next (after s (cpRaise i 2 (cpGet s.dev i).pc (dataAddr f (cpGet s.dev i)) (cpSet i (applySlot (cpGet s.dev i)) s.dev))) :=
  H.exc hw ((if_neg (by simp [hreg])).trans (if_pos ha))

theorem Fetches.store_misaligned (H : Fetches s i x) (hw : cpWord x = some (i, encRI op f)) (hreg : regAligned f.d n = true)
    (ha : (dataAddr f (cpGet s.dev i)).toNat % n ≠ 0) : run s (cpStore i op f n)
      = .next (after s (cpRaise i 3 (cpGet s.dev i).pc (dataAddr f (cpGet s.dev i)) (cpSet i (applySlot (cpGet s.dev i)) s.dev))) :=
  H.exc hw ((if_neg (by simp [hreg])).trans (if_pos ha))

/-- What an access reaches does not depend on the CPs. -/
theorem cpTarget_cpSet (y : Cp) (d : Dev) (c : Cp) (a : Nat) (store : Bool) : cpTarget (cpSet i y d) c a n store = cpTarget d c a n store := rfl

theorem Fetches.load_refused (H : Fetches s i x) (hw : cpWord x = some (i, encRI op f)) (hreg : regAligned f.d n = true)
    (ha : (dataAddr f (cpGet s.dev i)).toNat % n = 0) (ht : cpTarget s.dev (cpGet s.dev i) (dataAddr f (cpGet s.dev i)).toNat n false = none)
    (hshort : shortAddr (dataAddr f (cpGet s.dev i)).toNat = true) : run s (cpLoad i op f n sg)
      = .next (after s (cpRaise i 4 (cpGet s.dev i).pc (dataAddr f (cpGet s.dev i)) (cpSet i (applySlot (cpGet s.dev i)) s.dev))) :=
  H.exc hw (by simp [hreg, ha, cpTarget_cpSet, ht, hshort])

theorem Fetches.store_refused (H : Fetches s i x) (hw : cpWord x = some (i, encRI op f)) (hreg : regAligned f.d n = true)
    (ha : (dataAddr f (cpGet s.dev i)).toNat % n = 0) (ht : cpTarget s.dev (cpGet s.dev i) (dataAddr f (cpGet s.dev i)).toNat n true = none) :
    run s (cpStore i op f n)
      = .next (after s (cpRaise i 5 (cpGet s.dev i).pc (dataAddr f (cpGet s.dev i)) (cpSet i (applySlot (cpGet s.dev i)) s.dev))) :=
  H.exc hw (by simp [hreg, ha, cpTarget_cpSet, ht])

/-! ### Loads that are made -/

/-- A long load that has just issued (R309). -/
def newLoad (c : Cp) (f : RI) (n : Nat) (sg : Bool) (src : LoadSrc) : PendLoad :=
  ⟨c.pc, loadDst f.d n, bit c.sr 29, n, sg, dataAddr f c, src, false⟩

theorem longLoad_of_noLoads {c : Cp} (hl : c.loads = []) (c0 : Cp) (src : LoadSrc) :
    longLoad c0 f n sg (dataAddr f c0) src c = { c with loads := [newLoad c0 f n sg src] } := by
  simp [longLoad, claimDst, hl, newLoad]

/-- Behind a long load its CP goes on (R309). -/
theorem cpAfter_newLoad (d : Dev) (c c0 : Cp) (src : LoadSrc) :
    cpAfter i (cpSet i { c with loads := [newLoad c0 f n sg src] } d) = cpSet i { c with loads := [newLoad c0 f n sg src] } d := by
  simp [cpAfter, newLoad]

/-- A load that the map refuses outside IRAM and DRAM is a long load that has failed (R309). -/
theorem Fetches.load_failed (H : Fetches s i x) (hw : cpWord x = some (i, encRI op f)) (hreg : regAligned f.d n = true)
    (ha : (dataAddr f (cpGet s.dev i)).toNat % n = 0) (ht : cpTarget s.dev (cpGet s.dev i) (dataAddr f (cpGet s.dev i)).toNat n false = none)
    (hlong : shortAddr (dataAddr f (cpGet s.dev i)).toNat = false) : run s (cpLoad i op f n sg)
      = .next (cpDone s i { issued (cpGet s.dev i) with loads := [newLoad (cpGet s.dev i) f n sg .failed] }) := by
  refine (H.ok hw (e := cpSet i { issued (cpGet s.dev i) with loads := [newLoad (cpGet s.dev i) f n sg .failed] } s.dev) ?_).trans
    (by rw [cpAfter_newLoad, cpDone])
  rw [← longLoad_of_noLoads (issued_loads _)]
  simp [hreg, ha, cpTarget_cpSet, ht, hlong]

/-- A load from Plaza that no refill holds is a long load with its bytes (R309). -/
theorem Fetches.load_plaza (H : Fetches s i x) (hw : cpWord x = some (i, encRI op f)) (hreg : regAligned f.d n = true)
    (ha : (dataAddr f (cpGet s.dev i)).toNat % n = 0) {off : Nat}
    (ht : cpTarget s.dev (cpGet s.dev i) (dataAddr f (cpGet s.dev i)).toNat n false = some (.plaza off)) (hr : refilling s.dev off n = []) :
    run s (cpLoad i op f n sg) = .next (cpDone s i
      { issued (cpGet s.dev i) with loads := [newLoad (cpGet s.dev i) f n sg (.plaza off (memRead s.dev.plaza off n))] }) := by
  have hjoin (y : Cp) : refilling (cpSet i y s.dev) off n = [] := hr
  refine (H.ok hw (e := cpSet i { issued (cpGet s.dev i) with
    loads := [newLoad (cpGet s.dev i) f n sg (.plaza off (memRead s.dev.plaza off n))] } s.dev) ?_).trans (by rw [cpAfter_newLoad, cpDone])
  rw [← longLoad_of_noLoads (issued_loads _)]
  simp [hreg, ha, cpTarget_cpSet, ht, loadFrom, hjoin, joinAll]

/-- The bytes of IRAM and DRAM at an address. -/
def localBytes (c : Cp) (a n : Nat) : List Byte := memRead (if a < 0x20000 then c.iram else c.dram) a n

theorem ite_ne {α : Type} {p : Prop} [Decidable p] {x y z : α} (hx : x ≠ z) (hy : y ≠ z) : (if p then x else y) ≠ z := by
  split <;> assumption

/-- No aperture names IRAM (R294). -/
theorem aperTarget_ne_iram {d : Dev} {c : Cp} {k off m b : Nat} {st : Bool} : aperTarget d c k off m st ≠ some (.iram b) := by
  have hplaza (q : QWord) : some (aperPlaza d c k q off) ≠ some (.iram b) := by
    unfold aperPlaza
    repeat' split
    all_goals exact nofun
  unfold aperTarget
  refine ite_ne nofun ?_
  split
  · exact nofun
  · exact ite_ne nofun nofun
  · exact hplaza _
  · exact nofun

/-- IRAM lies below 0x2_0000 (R290). -/
theorem lt_of_cpTarget_iram {d : Dev} {c : Cp} {a m b : Nat} {st : Bool} (h : cpTarget d c a m st = some (.iram b)) : a < 0x20000 := by
  by_contra hlt
  revert h
  rw [cpTarget, if_neg hlt]
  exact ite_ne (ite_ne nofun nofun) <| ite_ne (ite_ne aperTarget_ne_iram nofun) <| ite_ne nofun <| ite_ne (ite_ne nofun nofun) <|
    ite_ne nofun <| ite_ne (ite_ne nofun nofun) <| ite_ne nofun <| ite_ne nofun <| ite_ne nofun <| ite_ne nofun <| ite_ne nofun nofun

/-- DRAM does not. -/
theorem not_lt_of_cpTarget_dram {d : Dev} {c : Cp} {a m b : Nat} {st : Bool} (h : cpTarget d c a m st = some (.dram b)) : ¬ a < 0x20000 := by
  intro hlt
  rw [cpTarget, if_pos hlt] at h
  split at h <;> cases h

theorem claimDst_of_noLoads {c : Cp} (hl : c.loads = []) (rd : Nat) : claimDst rd n c = c := by
  rw [claimDst, hl]
  cases c
  simp_all

/-- A short load has its bytes at once; its registers are written behind the next instruction (R308). -/
theorem Issues.load_short (H : Issues s i x) (hw : cpWord x = some (i, encRI op f)) (hreg : regAligned f.d n = true)
    (ha : (dataAddr f (cpGet s.dev i)).toNat % n = 0)
    (ht : cpTarget s.dev (cpGet s.dev i) (dataAddr f (cpGet s.dev i)).toNat n false
      ∈ [some (.iram (dataAddr f (cpGet s.dev i)).toNat), some (.dram (dataAddr f (cpGet s.dev i)).toNat)]) :
    run s (cpLoad i op f n sg) = .next (cpDone s i { issued (cpGet s.dev i) with
      slot := loadVals n sg (localBytes (cpGet s.dev i) (dataAddr f (cpGet s.dev i)).toNat n) (loadDst f.d n) }) := by
  have hdone {b : List Byte} (hb : b = localBytes (cpGet s.dev i) (dataAddr f (cpGet s.dev i)).toNat n) :
      CpRes.ok (cpMod i (fun c => { claimDst f.d n c with slot := loadVals n sg b (loadDst f.d n) }) (cpSet i (issued (cpGet s.dev i)) s.dev))
        = .ok (cpSet i { issued (cpGet s.dev i) with
          slot := loadVals n sg (localBytes (cpGet s.dev i) (dataAddr f (cpGet s.dev i)).toNat n) (loadDst f.d n) } s.dev) := by
    rw [cpMod_cpSet, claimDst_of_noLoads (issued_loads _), hb]
  simp only [List.mem_cons, List.not_mem_nil, or_false] at ht
  refine H.done hw ?_ rfl rfl (by simp [cpBase])
  rcases ht with ht | ht
  · refine Eq.trans ?_ (hdone (by rw [localBytes, if_pos (lt_of_cpTarget_iram ht)]))
    simp [hreg, ha, cpTarget_cpSet, ht, loadFrom]
  · refine Eq.trans ?_ (hdone (by rw [localBytes, if_neg (not_lt_of_cpTarget_dram ht)]))
    simp [hreg, ha, cpTarget_cpSet, ht, loadFrom]

end

end Sys2Proof.Machine
end

section
/-!
THEOREM. O8 (CpExceptions): exceptions of loads and stores (R304), and the entry to an exception (R315).
-/
namespace Sys2Proof.Machine

open Sys2Proof

/-- The instruction p.1 is a load of p.2.1 bytes, or a store of them where p.2.2 says so. -/
def IsAccess (i : Nat) (f : RI) (p : Instr × Nat × Bool) : Prop :=
  ∃ op, cpWord p.1 = some (i, encRI op f) ∧ (p.2.2 = false ∧ (∃ sg, ∀ s, exec p.1 s = run s (cpLoad i op f p.2.1 sg))
    ∨ p.2.2 = true ∧ ∀ s, exec p.1 s = run s (cpStore i op f p.2.1))

/-- The loads and the stores of R304. -/
theorem isAccess_table (i : Nat) (f : RI) : ∀ p ∈ [(Instr.ldw i f, 4, false), (.ldh i f, 2, false), (.ldhu i f, 2, false), (.ldb i f, 1, false),
    (.ldbu i f, 1, false), (.ldd i f, 8, false), (.ldq i f, 16, false), (.stw i f, 4, true), (.sth i f, 2, true),
    (.stb i f, 1, true), (.std i f, 8, true), (.stq i f, 16, true)], IsAccess i f p := by
  simp only [List.forall_mem_cons]
  refine ⟨?_, ?_, ?_, ?_, ?_, ?_, ?_, ?_, ?_, ?_, ?_, ?_, List.forall_mem_nil _⟩
  case refine_8 | refine_9 | refine_10 | refine_11 | refine_12 => exact ⟨_, rfl, .inr ⟨rfl, fun _ => rfl⟩⟩
  all_goals exact ⟨_, rfl, .inl ⟨rfl, _, fun _ => rfl⟩⟩

theorem loadStoreExceptions : LoadStoreExceptions := by
  intro s i f x n store hx hd c a raised
  have hreg : regAligned f.d n = true := decide_eq_true hd
  obtain ⟨op, hw, ⟨rfl, sg, hexec⟩ | ⟨rfl, hexec⟩⟩ := isAccess_table i f _ hx
  · simp only at hw hexec
    rw [hexec s]
    exact ⟨fun ha H => H.load_misaligned hw hreg ha, fun ha ht hs H => H.load_refused hw hreg ha ht (hs.resolve_left nofun),
      fun ha ht _ hs H => ⟨_, H.1.load_failed hw hreg ha ht hs, rfl, rfl, rfl, rfl, rfl⟩⟩
  · simp only at hw hexec
    rw [hexec s]
    exact ⟨fun ha H => H.store_misaligned hw hreg ha, fun ha ht _ H => H.store_refused hw hreg ha ht, fun _ _ h => nomatch h⟩

/-- EX and M of SR are set (R315). -/
theorem setBit_exBase (x : Word) : setBit (setBit x 30 true) 31 true = x ||| 0xC0000000#32 := by
  have hor : ∀ y m : Word, (y &&& ~~~m) ||| m = y ||| m := fun y m => by
    ext k hk
    simp only [BitVec.getElem_or, BitVec.getElem_and, BitVec.getElem_not]
    cases y[k] <;> cases m[k] <;> rfl
  have h30 : setBit x 30 true = x ||| 0x40000000#32 := hor x _
  have h31 (y : Word) : setBit y 31 true = y ||| 0x80000000#32 := hor y _
  rw [h30, h31, BitVec.or_assoc]
  rfl

theorem exceptionEntry : ExceptionEntry := by
  intro d i cause epc eaddr c hex hbase hcause
  have hne : cause ≠ 8 := by omega
  simp only [cpRaise, hex, leaveHandler, cpBase, hbase, hne, setBit_exBase, cpMod, c]
  rfl

/-- Settles O8. -/
theorem cpExceptions : Obligations.CpExceptions := ⟨loadStoreExceptions, exceptionEntry⟩

end Sys2Proof.Machine
end

section
/-!
THEOREM. O7 (StoresAndReach): the bytes of a store (R298, R304), what handler mode reaches (R290), semaphores and aperture words
(R295, R296, R322, R323).
-/
namespace Sys2Proof.Machine

open Sys2Proof

/-! ### The bytes of a store -/

theorem getElem_leBytes (n v k : Nat) (h : k < (leBytes n v).length) : (leBytes n v)[k] = BitVec.ofNat 8 (v / 2 ^ (8 * k)) := by
  induction n generalizing v k with
  | zero => simp [leBytes] at h
  | succ n ih =>
    cases k with
    | zero => simp [leBytes]
    | succ k =>
      simp only [leBytes, List.getElem_cons_succ, ih]
      rw [Nat.div_div_eq_div_mul, Nat.mul_add, Nat.mul_one, Nat.pow_add, Nat.mul_comm]

/-- The bytes of two numbers, one behind the other. -/
theorem leBytes_append (m n : Nat) {u : Nat} (v : Nat) (h : u < 256 ^ m) : leBytes m u ++ leBytes n v = leBytes (m + n) (u + 256 ^ m * v) := by
  induction m generalizing u with
  | zero =>
    obtain rfl : u = 0 := by simpa using h
    simp [leBytes]
  | succ m ih =>
    have hdiv : (u + 256 ^ (m + 1) * v) / 256 = u / 256 + 256 ^ m * v := by
      rw [Nat.pow_succ, Nat.mul_comm _ 256, Nat.mul_assoc, Nat.add_mul_div_left _ _ (by decide)]
    have hhead : BitVec.ofNat 8 (u + 256 ^ (m + 1) * v) = BitVec.ofNat 8 u := by
      apply BitVec.eq_of_toNat_eq
      rw [BitVec.toNat_ofNat, BitVec.toNat_ofNat, Nat.pow_succ, Nat.mul_comm _ 256, Nat.mul_assoc]
      exact Nat.add_mul_mod_self_left ..
    rw [Nat.add_right_comm]
    simp only [leBytes, List.cons_append]
    rw [ih (Nat.div_lt_of_lt_mul (by rwa [← Nat.pow_succ'])), hdiv, hhead]

theorem storeBytes_word (rd : Nat) (c : Cp) : storeBytes rd 4 c = leBytes 4 (gRead rd c).toNat := rfl
theorem storeBytes_half (rd : Nat) (c : Cp) : storeBytes rd 2 c = leBytes 2 (gRead rd c).toNat := rfl
theorem storeBytes_byte (rd : Nat) (c : Cp) : storeBytes rd 1 c = leBytes 1 (gRead rd c).toNat := rfl

/-- Two words, as STD stores them. -/
theorem leBytes_words (u v : Word) : leBytes 4 u.toNat ++ leBytes 4 v.toNat = leBytes 8 (u.toNat + 2 ^ 32 * v.toNat) :=
  leBytes_append 4 4 v.toNat u.isLt

theorem storeBytes_double (rd : Nat) (c : Cp) :
    storeBytes rd 8 c = leBytes 8 ((gRead rd c).toNat + 2 ^ 32 * (gRead (rd + 1) c).toNat) := (leBytes_words _ _).symm ▸ rfl

theorem storeBytes_quad (rd : Nat) (c : Cp) : storeBytes rd 16 c = leBytes 16 ((gRead rd c).toNat + 2 ^ 32 * (gRead (rd + 1) c).toNat
    + 2 ^ 64 * (gRead (rd + 2) c).toNat + 2 ^ 96 * (gRead (rd + 3) c).toNat) := by
  have hwords : storeBytes rd 16 c = (leBytes 4 (gRead rd c).toNat ++ leBytes 4 (gRead (rd + 1) c).toNat)
      ++ (leBytes 4 (gRead (rd + 2) c).toNat ++ leBytes 4 (gRead (rd + 3) c).toNat) := rfl
  have h0 := (gRead rd c).isLt
  have h1 := (gRead (rd + 1) c).isLt
  rw [hwords, leBytes_words, leBytes_words, leBytes_append 8 8 _ (by omega)]
  congr 1
  omega

/-! ### A store to DRAM (R304) -/

section
variable {s : State} {i op n : Nat} {f : RI} {x : Instr}

theorem Issues.store_dram (H : Issues s i x) (hw : cpWord x = some (i, encRI op f)) (hreg : regAligned f.d n = true)
    (ha : (dataAddr f (cpGet s.dev i)).toNat % n = 0) (ht : cpTarget s.dev (cpGet s.dev i) (dataAddr f (cpGet s.dev i)).toNat n true
      = some (.dram (dataAddr f (cpGet s.dev i)).toNat)) : run s (cpStore i op f n) = .next (cpDone s i { issued (cpGet s.dev i) with
        dram := memWrite (cpGet s.dev i).dram (dataAddr f (cpGet s.dev i)).toNat (storeBytes f.d n (cpGet s.dev i)) }) := by
  refine H.done hw ?_ rfl rfl (by simp [cpBase])
  have hstore : storeTo i (dataAddr f (cpGet s.dev i)) (.dram (dataAddr f (cpGet s.dev i)).toNat) (storeBytes f.d n (cpGet s.dev i))
      (cpSet i (issued (cpGet s.dev i)) s.dev) = cpSet i { issued (cpGet s.dev i) with
        dram := memWrite (cpGet s.dev i).dram (dataAddr f (cpGet s.dev i)).toNat (storeBytes f.d n (cpGet s.dev i)) } s.dev := by
    rw [storeTo, cpMod_cpSet, dramWrite, issued_dram]
  rw [← hstore]
  simp [hreg, ha, cpTarget_cpSet, ht]

/-- The bytes of v stand at the address, every other byte as it was. -/
theorem Issues.stored (H : Issues s i x) (hw : cpWord x = some (i, encRI op f)) (hexec : exec x s = run s (cpStore i op f n))
    (hreg : regAligned f.d n = true) {v : Nat} (hv : storeBytes f.d n (cpGet s.dev i) = leBytes n v)
    (ht : cpTarget s.dev (cpGet s.dev i) (dataAddr f (cpGet s.dev i)).toNat n true = some (.dram (dataAddr f (cpGet s.dev i)).toNat))
    (ha : (dataAddr f (cpGet s.dev i)).toNat % n = 0) :
    ∃ m, exec x s = .next (cpDone s i { issued (cpGet s.dev i) with dram := m })
      ∧ (∀ k, k < n → memGet m ((dataAddr f (cpGet s.dev i)).toNat + k) = BitVec.ofNat 8 (v / 2 ^ (8 * k)))
      ∧ ∀ b, b < (dataAddr f (cpGet s.dev i)).toNat ∨ (dataAddr f (cpGet s.dev i)).toNat + n ≤ b →
          memGet m b = memGet (cpGet s.dev i).dram b := by
  refine ⟨_, hexec.trans (H.store_dram hw hreg ha ht), fun k hk => ?_, fun b hb => ?_⟩
  · rw [hv, memGet_memWrite_inside _ _ _ k (by rwa [leBytes_length]), getElem_leBytes]
  · exact memGet_memWrite_outside _ _ _ b (by rwa [hv, leBytes_length])

end

theorem dramStores : DramStores := by
  intro s i f
  refine ⟨fun H => ?_, fun H => ?_, fun H => ?_, fun hd H => ?_, fun hd H => ?_⟩
  · exact H.stored rfl rfl (decide_eq_true (Nat.mod_one _)) (storeBytes_byte ..)
  · exact H.stored rfl rfl (decide_eq_true (Nat.mod_one _)) (storeBytes_half ..)
  · exact H.stored rfl rfl (decide_eq_true (Nat.mod_one _)) (storeBytes_word ..)
  · exact H.stored rfl rfl (decide_eq_true hd) (storeBytes_double ..)
  · exact H.stored rfl rfl (decide_eq_true hd) (storeBytes_quad ..)

/-! ### The reach of handler mode (R290) -/

theorem handlerReach : HandlerReach := by
  intro d c a n store t hb ht
  rw [cpTarget] at ht
  by_cases hlow : a < 0x20000
  · rw [if_pos hlow, hb, Bool.false_or] at ht
    obtain ⟨hmay, ht⟩ := Option.ite_none_right_eq_some.mp ht
    simp only [Bool.and_eq_true, Bool.not_eq_true', decide_eq_true_eq] at hmay
    exact .inl ⟨(Option.some.inj ht).symm, hmay.1, hmay.2, hlow⟩
  by_cases hdram : 0x10000000 ≤ a ∧ a < 0x10020000
  · rw [if_neg hlow, if_pos hdram, hb, Bool.false_or] at ht
    obtain ⟨hmay, ht⟩ := Option.ite_none_right_eq_some.mp ht
    simp only [dramWindow, Bool.or_eq_true, Bool.and_eq_true, decide_eq_true_eq] at hmay
    exact .inr (.inl ⟨(Option.some.inj ht).symm, hmay⟩)
  by_cases haper : 0x80000000 ≤ a
  · rw [if_neg hlow, if_neg hdram, if_pos haper] at ht
    dsimp only at ht
    rw [hb, Bool.false_or] at ht
    have hk : 8 ≤ (a - 0x80000000) / 0x8000000 := of_decide_eq_true (Option.ite_none_right_eq_some.mp ht).1
    exact .inr (.inr (by omega))
  · rw [if_neg hlow, if_neg hdram, if_neg haper, if_pos hb] at ht
    cases ht

/-! ### Semaphores and aperture words (R294 to R296, R321 to R323) -/

/-- The semaphore of its district that a CP names (R321). -/
theorem semOf_district {i k : Nat} (hk : k < 256) : (if k < 256 then semOf i k else 2048 + (k - 256)) = 256 * (i / 9) + k := by
  rw [if_pos hk, semOf, if_pos (by omega)]

/-- SEM_ACQ of a free semaphore: its holder is the CP, and the read says so, with the poison it met (R322). -/
theorem semAcquire_free {d : Dev} {i j : Nat} (hi : i < 72) (hfree : (semGet d j).holder = none) :
    semAcquire i j d = (BitVec.ofNat 32 (2 ^ 15 + 2 ^ 12 * (i / 9) + 2 ^ 8 * (i % 9) + (if (semGet d j).poisoned then 6 else 0)),
      semSet j ⟨some i, (semGet d j).poisoned⟩ d) := by
  have h8 : i / 9 % 8 = i / 9 := Nat.mod_eq_of_lt (by omega)
  have h16 : i % 9 % 16 = i % 9 := Nat.mod_eq_of_lt (by omega)
  cases hp : (semGet d j).poisoned <;> simp [semAcquire, hfree, hp, fieldN, h8, h16, Nat.mul_comm, Nat.add_assoc]

theorem exec_semAcq (i k : Nat) (s : State) : exec (.semAcq i k) s = run s (fun d =>
    if i < 72 ∧ k < 320 then
      emit (.cpValue i (semAcquire i (if k < 256 then semOf i k else 2048 + (k - 256)) d).1)
        (semAcquire i (if k < 256 then semOf i k else 2048 + (k - 256)) d).2
    else d) := rfl

/-- A CP with word w of its descriptor k written (R294, R295). -/
def descWritten (k w : Nat) (v : Word) (c : Cp) : Cp :=
  { c with apert := lset c.apert k (setBits (lget c.apert k 0) (32 * w + 31) (32 * w) v.toNat &&& descMask) }

theorem descWrite_word {i k w : Nat} {v : Word} {d : Dev} (hw : w < 4) :
    descWrite i (16 * k + 4 * w) v d = cpSet i (descWritten k w v (cpGet d i)) d := by
  have hk : (16 * k + 4 * w) / 16 = k := by omega
  have hlo : 8 * ((16 * k + 4 * w) % 16) = 32 * w := by omega
  rw [descWrite, hk, hlo]
  rfl

theorem semaphoresAndStores : SemaphoresAndStores := by
  intro s i hrun hi
  refine ⟨fun a => ?failed, fun k hk hfree => ?acquire, fun k v hk => ⟨fun hmine => ?release, fun hother => ?notHeld⟩, fun k w v hk hw hlen => ?word⟩
  case failed =>
    have hexec : exec (.postedStoreFail i a) s = run s (fun d => if i < 72 then storeFails i a d else d) := rfl
    rw [hexec, run_running s _ hrun, if_pos hi, storeFails, cpMod]
  case acquire =>
    rw [exec_semAcq, run_running s _ hrun, if_pos ⟨hi, by omega⟩, semOf_district hk, semAcquire_free hi hfree]
  case release =>
    have hsrc : semSource (256 * (i / 9) + k) = 0x2100 + 8 * (i / 9) + k / 32 := by
      rw [semSource, if_pos (by omega)]
      omega
    refine (run_running s _ hrun).trans ?_
    rw [if_pos ⟨hi, by omega⟩, semOf_district hk, semRelease, if_pos hmine, hsrc]
    rfl
  case notHeld =>
    refine (run_running s _ hrun).trans ?_
    rw [if_pos ⟨hi, by omega⟩, semOf_district hk, semRelease, if_neg hother]
    rfl
  case word =>
    refine ⟨descWritten k w v (cpGet s.dev i), ?_, ?_, fun j hj => ?_⟩
    · refine (run_running s _ hrun).trans ?_
      rw [if_pos ⟨hi, by omega, by omega⟩, descWrite_word hw]
      rfl
    · simp [lget, lset, hlen, hk, descWritten, descMask]
    · simp [lget, lset, Ne.symm hj, descWritten]

/-- Settles O7. -/
theorem storesAndReach : Obligations.StoresAndReach := ⟨dramStores, handlerReach, semaphoresAndStores⟩

end Sys2Proof.Machine
end

section
/-!
THEOREM. O6 (Loads): short loads and their slot (R308), long loads and their return (R309).
-/
namespace Sys2Proof.Machine

open Sys2Proof

/-! ### The bytes of a load (R10, R298) -/

theorem ofNat_byte_cons (w x : Nat) (b : Byte) : BitVec.ofNat (w + 8) (b.toNat + 256 * x) = BitVec.ofNat w x ++ b := by
  have hb := b.isLt
  have hmod : (b.toNat + 256 * x) % 256 = b.toNat := by omega
  have hdiv : (b.toNat + 256 * x) / 256 = x := by omega
  have hpow : 2 ^ (w + 8) = 256 * 2 ^ w := by rw [Nat.pow_add, Nat.mul_comm]
  apply BitVec.eq_of_toNat_eq
  rw [BitVec.toNat_append, BitVec.toNat_ofNat, BitVec.toNat_ofNat, ← Nat.shiftLeft_add_eq_or_of_lt hb, Nat.shiftLeft_eq, hpow, Nat.mod_mul,
    hmod, hdiv, Nat.add_comm, Nat.mul_comm]

/-- One, two and four bytes as a number, the lowest address lowest. -/
theorem ofNat_leNat_byte (b0 : Byte) : BitVec.ofNat 8 (leNat [b0]) = b0 := by simp [leNat]

theorem ofNat_leNat_half (b0 b1 : Byte) : BitVec.ofNat 16 (leNat [b0, b1]) = b1 ++ b0 :=
  (ofNat_byte_cons 8 _ b0).trans (by rw [ofNat_leNat_byte])

theorem ofNat_leNat_word (b0 b1 b2 b3 : Byte) : BitVec.ofNat 32 (leNat [b0, b1, b2, b3]) = b3 ++ b2 ++ b1 ++ b0 := by
  refine (ofNat_byte_cons 24 _ b0).trans (congrArg (· ++ b0) ?_)
  exact (ofNat_byte_cons 16 _ b1).trans (congrArg (· ++ b1) (ofNat_leNat_half b2 b3))

/-- The word at an address. -/
def wordAt (m : List Host.Cell) (a : Nat) : Word := memGet m (a + 3) ++ memGet m (a + 2) ++ memGet m (a + 1) ++ memGet m a

/-- A part of what was read is what stands there. -/
theorem memRead_window (m : List Host.Cell) (a : Nat) {n k j : Nat} (h : k + j ≤ n) : ((memRead m a n).drop k).take j = memRead m (a + k) j := by
  refine List.ext_getElem (by simp [length_memRead]; omega) fun x h1 h2 => ?_
  simp [getElem_memRead, Nat.add_assoc]

/-- The words of a load of 4, 8 or 16 bytes. -/
theorem loadWord_memRead (m : List Host.Cell) (a : Nat) {n w : Nat} (hn : 2 < n) (hw : 4 * w + 4 ≤ n) (sg : Bool) :
    loadWord n sg (memRead m a n) w = wordAt m (a + 4 * w) := by
  rw [loadWord, if_neg (by omega), if_neg (by omega), memRead_window m a hw]
  exact ofNat_leNat_word ..

/-! ### Short loads (R308) -/

section
variable {s : State} {i op n : Nat} {sg : Bool} {f : RI} {x : Instr}

/-- A short load leaves its values for the slot. -/
theorem Issues.short (H : Issues s i x) (hw : cpWord x = some (i, encRI op f)) (hexec : exec x s = run s (cpLoad i op f n sg))
    (hreg : regAligned f.d n = true) (ha : (dataAddr f (cpGet s.dev i)).toNat % n = 0)
    (ht : cpTarget s.dev (cpGet s.dev i) (dataAddr f (cpGet s.dev i)).toNat n false
      ∈ [some (.iram (dataAddr f (cpGet s.dev i)).toNat), some (.dram (dataAddr f (cpGet s.dev i)).toNat)])
    {l : List (Nat × Word)} (hl : loadVals n sg (localBytes (cpGet s.dev i) (dataAddr f (cpGet s.dev i)).toNat n) (loadDst f.d n) = l) :
    exec x s = .next (cpDone s i { issued (cpGet s.dev i) with slot := l }) := by
  rw [hexec, H.load_short hw hreg ha ht, hl]

end

theorem shortLoads : ShortLoads := by
  intro s i f c a byte may half word slot
  have hone : regAligned f.d 1 = true := decide_eq_true (Nat.mod_one _)
  have htwo : regAligned f.d 2 = true := decide_eq_true (Nat.mod_one _)
  have hfour : regAligned f.d 4 = true := decide_eq_true (Nat.mod_one _)
  have hbyte : BitVec.ofNat 8 (leNat ((localBytes c a 1).take 1)) = byte 0 := ofNat_leNat_byte _
  have hhalf : BitVec.ofNat 16 (leNat ((localBytes c a 2).take 2)) = half := ofNat_leNat_half ..
  have hword {n w : Nat} (hn : 2 < n) (hw : 4 * w + 4 ≤ n) : loadWord n false (localBytes c a n) w = word (4 * w) :=
    loadWord_memRead _ a hn hw false
  refine ⟨fun ht => ⟨fun H => ?ldb, fun H => ?ldbu⟩, fun ht ha => ⟨fun H => ?ldh, fun H => ?ldhu⟩, fun ht ha H => ?ldw, fun ht ha hd H => ?ldd,
    fun ht ha hd H => ?ldq⟩
  case ldb => exact H.short rfl rfl hone (Nat.mod_one _) ht (congrArg (fun b : Byte => [(f.d, b.signExtend 32)]) hbyte)
  case ldbu => exact H.short rfl rfl hone (Nat.mod_one _) ht (congrArg (fun b : Byte => [(f.d, b.zeroExtend 32)]) hbyte)
  case ldh => exact H.short rfl rfl htwo ha ht (congrArg (fun h : BitVec 16 => [(f.d, h.signExtend 32)]) hhalf)
  case ldhu => exact H.short rfl rfl htwo ha ht (congrArg (fun h : BitVec 16 => [(f.d, h.zeroExtend 32)]) hhalf)
  case ldw =>
    refine H.short rfl rfl hfour ha ht (l := [(f.d, word 0)]) ?_
    rw [← hword (n := 4) (w := 0) (by decide) (by decide)]
    rfl
  case ldd =>
    refine H.short rfl rfl (decide_eq_true hd) ha ht (l := [(f.d, word 0), (f.d + 1, word 4)]) ?_
    rw [← hword (n := 8) (w := 0) (by decide) (by decide), ← hword (n := 8) (w := 1) (by decide) (by decide)]
    rfl
  case ldq =>
    refine H.short rfl rfl (decide_eq_true hd) ha ht
      (l := [(f.d, word 0), (f.d + 1, word 4), (f.d + 2, word 8), (f.d + 3, word 12)]) ?_
    rw [← hword (n := 16) (w := 0) (by decide) (by decide), ← hword (n := 16) (w := 1) (by decide) (by decide),
      ← hword (n := 16) (w := 2) (by decide) (by decide), ← hword (n := 16) (w := 3) (by decide) (by decide)]
    rfl

/-! ### The slot of a load (R308) -/

/-- With nothing presented and no call waiting nothing follows a command. -/
theorem settle_quiet {d : Dev} (hpres : d.pres = []) (hcalls : d.packCalls = []) : settle d = d := by
  have hwake : wakeSweep d = d := by rw [wakeSweep, hpres]; rfl
  have hpack : packSweep d = d := by rw [packSweep, hcalls, tryCalls, ← hcalls]
  unfold settle
  rw [hwake]
  dsimp only
  rw [hpack, ite_self, ite_self]

theorem gWrite_g_length (k : Nat) (v : Word) (c : Cp) : (gWrite k v c).g.length = c.g.length := by
  unfold gWrite; split
  · rfl
  · split <;> simp [lset]

theorem gWrite_gFast_length (k : Nat) (v : Word) (c : Cp) : (gWrite k v c).gFast.length = c.gFast.length := by
  unfold gWrite; split
  · rfl
  · split <;> simp [lset]

theorem loadSlotReadsOldValue : LoadSlotReadsOldValue := by
  intro s t i k rd v H hpres hcalls hslot hk0 hk hrd0 hrd hg hf ht
  have hd : RR.d ⟨BitVec.ofNat 5 rd, BitVec.ofNat 5 k, 0, 0⟩ = rd := Nat.mod_eq_of_lt hrd
  have ha : RR.a ⟨BitVec.ofNat 5 rd, BitVec.ofNat 5 k, 0, 0⟩ = k := Nat.mod_eq_of_lt hk
  have hmov := H.regRR (g := fun c => gRead (RR.a ⟨BitVec.ofNat 5 rd, BitVec.ofNat 5 k, 0, 0⟩) c) rfl rfl rfl (hb := fun _ => rfl)
  rw [hd, ha] at hmov
  obtain rfl := Host.Outcome.next.inj (ht.symm.trans hmov)
  have hcp : cpGet (regDone s i rd (gRead k (cpGet s.dev i))).dev i = gWrite rd (gRead k (cpGet s.dev i)) (issued (cpGet s.dev i)) := by
    rw [regDone, cpDone, after_dev, settle_quiet (d := cpSet i _ s.dev) hpres hcalls, cpGet_cpSet_self]
  have hissued : applySlot (cpGet s.dev i) = gWrite k v { cpGet s.dev i with slot := [] } := by rw [applySlot, hslot]; rfl
  have hold : gRead k (issued (cpGet s.dev i)) = v := by
    have happly : gRead k (issued (cpGet s.dev i)) = gRead k (applySlot (cpGet s.dev i)) := rfl
    rw [happly, hissued]
    exact gRead_gWrite_self k v { cpGet s.dev i with slot := [] } hk0 hk hg hf
  have hlen : (issued (cpGet s.dev i)).g.length = 32 ∧ (issued (cpGet s.dev i)).gFast.length = 8 := by
    have happly : (issued (cpGet s.dev i)).g = (applySlot (cpGet s.dev i)).g
      ∧ (issued (cpGet s.dev i)).gFast = (applySlot (cpGet s.dev i)).gFast := ⟨rfl, rfl⟩
    rw [happly.1, happly.2, hissued, gWrite_g_length, gWrite_gFast_length]
    exact ⟨hg, hf⟩
  rw [hcp]
  refine ⟨gRead_gWrite_self rd _ _ hrd0 hrd hlen.1 hlen.2, fun hne => ?_, ?_⟩
  · rw [gRead_gWrite_other _ _ hne.symm, hold]
  · rw [gWrite_slot]
    exact applySlot_slot _

/-! ### Long loads (R309) -/

theorem longLoadIssues : LongLoadIssues := by
  intro s i f off c a H ha ht hr
  have hexec : exec (.ldw i f) s = run s (cpLoad i 0x10 f 4 false) := rfl
  rw [hexec, H.1.load_plaza rfl (decide_eq_true (Nat.mod_one _)) ha ht hr]
  rfl

section
variable {i : Nat} {l : PendLoad} {d : Dev} {o : Option (FnId × DWord)}

theorem longLoadDone_ok (hl : (cpGet d i).loads = [l]) (hr : d.refills = []) (hsrc : l.src = .outside o) {b : List Byte}
    (hb : l.size = 16 → b.length ≠ 64) : longLoadDone i (.ok b) d = loadDone i l (fitBytes l.size b) d := by
  have hwhole : ¬ (l.size = 16 ∧ b.length = 64) := fun h => hb h.1 h.2
  simp [longLoadDone, hl, readHeld, hr, hsrc, hwhole]

theorem longLoadDone_err (hl : (cpGet d i).loads = [l]) (hr : d.refills = []) (hsrc : l.src = .outside o) (e : BusErr) :
    longLoadDone i (.err e) d = loadFails i l d := by
  simp [longLoadDone, hl, readHeld, hr, hsrc]

/-- Where the instruction behind it has not issued, a load that returns leaves its values for the slot. -/
theorem loadDone_unused (hl : (cpGet d i).loads = [l]) (hu : l.slotUsed = false) (hf : fetchOk (cpGet d i) = true) (b : List Byte) :
    loadDone i l b d = cpSet i { cpGet d i with loads := [], slot := loadVals l.size l.signed b l.dst } d := by
  have hmod : cpMod i (fun c => let v := loadVals l.size l.signed b l.dst; let c := { c with loads := c.loads.drop 1 }
      if l.slotUsed then v.foldl (fun c x => gWriteIn l.fast x.1 x.2 c) c else { c with slot := v }) d
      = cpSet i { cpGet d i with loads := [], slot := loadVals l.size l.signed b l.dst } d := by
    simp [cpMod, hl, hu]
  rw [loadDone, hmod, cpAfter_eq i _ (by simp) (by simpa [fetchOk, cpBase] using hf)]

/-- A load that fails before then keeps its place. -/
theorem loadFails_unused (hl : (cpGet d i).loads = [l]) (hu : l.slotUsed = false) :
    loadFails i l d = cpSet i { cpGet d i with loads := [{ l with src := .failed }] } d := by
  simp [loadFails, cpMod, hl, cpAfter, hu]

/-- Behind it the fault is taken. -/
theorem loadFails_used (hl : (cpGet d i).loads = [l]) (hu : l.slotUsed = true) :
    loadFails i l d = cpRaise i 4 l.pc l.addr
      (cpSet i { applySlot { cpGet d i with loads := [{ l with src := .failed }] } with loads := [] } d) := by
  simp [loadFails, cpMod, hl, cpAfter, hu, loadFault]

end

theorem longLoadReturns : LongLoadReturns := by
  intro s i l b e hrun hi hr hl c vals ⟨o, hsrc⟩ hb
  have hexec (r : HostRead) : exec (.longLoadComplete i r) s = .next (after s (longLoadDone i r s.dev)) :=
    (run_running s _ hrun).trans (by rw [if_pos hi])
  refine ⟨fun hu _ hf => ?_, fun hu => ?_, fun hu => ?_⟩
  · rw [hexec, longLoadDone_ok hl hr hsrc hb, loadDone_unused hl hu hf]
    rfl
  · rw [hexec, longLoadDone_err hl hr hsrc, loadFails_unused hl hu]
    rfl
  · rw [hexec, longLoadDone_err hl hr hsrc, loadFails_used hl hu]

/-- Settles O6. -/
theorem loads : Obligations.Loads := ⟨shortLoads, loadSlotReadsOldValue, longLoadIssues, longLoadReturns⟩

end Sys2Proof.Machine
end

section
/-!
THEOREM. O44 (FailoverAndRotation): a CP that fails and who takes up its work (R441, R442), in-field BIST (R588), and spare rotation (R395,
R460).
-/
namespace Sys2Proof.Machine

open Sys2Proof

/-! ### Failover, part by part (R441, R442, R462) -/

/-- The failed CP has left service: what it held is revoked, released or closed (R324, R394, R413). -/
def leftService (i : Nat) (d : Dev) : Dev :=
  xClose (fun m => decide (m.origin = .cp i)) (semPoison i (junctionFailover i
    (cpSet i { failedCp (cpGet d i) false with failedAt := some d.devtime } d)))

/-- Its logical slot names physical CP `p` (0xF: none). -/
def reslot (i p : Nat) (d : Dev) : Dev :=
  match lslotOf d i with
  | some k => regSetFld .cpMap (i / 9) (4 * k + 3) (4 * k) p d
  | none => d

/-- Its work is taken up by the CPs of `l` (R442), and no rotation of it waits. -/
def takenUp (i : Nat) (l : List Nat) (d : Dev) : Dev := takeOver i l { d with rotWait := d.rotWait.filter (fun w => w.2 / 8 ≠ i) }

/-- A district that is left without a CP gives up its subchannels (R268). -/
def emptied (i : Nat) (d : Dev) : Dev :=
  if cpsIn d (i / 9) ≠ 0 then d
  else ((d.subs.filter (fun x => decide (x.2.home = i / 9) && settledIn x.2)).map (·.1)).foldl (fun d n => liveC (evacuate i n) d) d

/-- A second failover of the CP within 30 days retires it (R462). -/
def failoverEnds (i : Nat) (second : Bool) (d : Dev) : Dev := if second then retires i (emptied i d) else emptied i d

/-- What a failed CP stops with, and what it is then, is one update of it. -/
theorem leftService_eq (i : Nat) (d : Dev) : leftService i d =
    (let d := cpHaltAll i d
     let d := cpSet i { cpGet d i with role := .bist false, run := .bist, failedAt := some d.devtime } d
     xClose (fun m => decide (m.origin = .cp i)) (semPoison i (junctionFailover i d))) := by
  simp only [leftService, cpHaltAll, cpGet_cpSet_self, cpSet_cpSet]
  rfl

theorem emptied_eq (i : Nat) (d : Dev) : emptied i d =
    if cpsIn d (i / 9) = 0 then
      ((d.subs.filter (fun e => decide (e.2.home = i / 9) && settledIn e.2)).map (·.1)).foldl (fun d n => liveC (evacuate i n) d) d
    else d := by
  rw [emptied, ite_not]

section
variable {i j : Nat} {d : Dev}

/-- With a spare that is ready, the spare takes the slot and the work. -/
theorem failover_spare (h : spareOf (leftService i (pageEvent (0x20 + i / 9) 0 (regBump .dsFailov (i / 9) d))) (i / 9) = some j) :
    failover i false d =
      let d2 := pageEvent (0x20 + i / 9) 0 (regBump .dsFailov (i / 9) d)
      let d6 := reslot i (j % 9) (deviceFault 1 1 i (leftService i d2))
      failoverEnds i (secondFail d2 i) (takenUp i [j] (cpSet j { cpGet d6 j with
        role := .inService, run := if (cpGet d6 j).run = .wait then .wait else .run } d6)) := by
  rw [leftService_eq] at h
  unfold failover
  simp only [h, leftService_eq, failoverEnds, emptied_eq, Bool.not_false, Bool.and_true]
  rfl

/-- Without one, the CPs of the district that are in service take up the work, from one of them on. -/
theorem failover_none (h : spareOf (leftService i (pageEvent (0x20 + i / 9) 0 (regBump .dsFailov (i / 9) d))) (i / 9) = none) :
    failover i false d =
      let d2 := pageEvent (0x20 + i / 9) 0 (regBump .dsFailov (i / 9) d)
      let d6 := reslot i 15 (deviceFault 2 1 i (leftService i d2))
      let l := roleIn d6 (i / 9) .inService
      let k := (freeNext d6).1.toNat % l.length
      failoverEnds i (secondFail d2 i) (takenUp i (l.drop k ++ l.take k) { d6 with freeCtr := d6.freeCtr + 1 }) := by
  rw [leftService_eq] at h
  unfold failover
  simp only [h, leftService_eq, failoverEnds, emptied_eq, Bool.not_false, Bool.and_true]
  rfl

end

/-! ### A CP fails (R431, R441) -/

/-- The latch of the cause, and the count of heartbeats. -/
def failNoted (i : Nat) (wdog : Bool) (d : Dev) : Dev :=
  let d := feedIn (4168 + i / 9) (latchSet (if wdog then 0x3F88 + i / 9 else 0x3F80 + i / 9) d)
  if wdog then regBump .dsHbmiss (i / 9) d else d

section
variable {i : Nat} {wdog : Bool} {d : Dev}

/-- A CP that is off, runs BIST or is retired does not fail. -/
theorem cpFail_out (h : (cpGet d i).run = .off ∨ (∃ b, (cpGet d i).role = .bist b) ∨ (cpGet d i).role = .retired) :
    cpFail i wdog false d = d := by
  unfold cpFail
  refine if_pos (.inr ?_)
  rcases h with hoff | ⟨b, hbist⟩ | hret
  · exact .inr hoff
  · exact .inl (by rw [hbist]; exact ⟨nofun, nofun⟩)
  · exact .inl (by rw [hret]; exact ⟨nofun, nofun⟩)

theorem cpFail_spare (hi : i < 72) (hrun : (cpGet d i).run ≠ .off) (hrole : (cpGet d i).role = .spare) :
    cpFail i wdog false d = spareStops i (failNoted i wdog d) := by
  have hin : ¬ (72 ≤ i ∨ ((cpGet d i).role ≠ .inService ∧ (cpGet d i).role ≠ .spare) ∨ (cpGet d i).run = .off) := by
    rw [hrole]; simp [hrun, hi]
  unfold cpFail
  dsimp only
  rw [if_neg hin, if_pos hrole]
  rfl

theorem cpFail_inService (hi : i < 72) (hrun : (cpGet d i).run ≠ .off) (hrole : (cpGet d i).role = .inService) :
    cpFail i wdog false d = failover i false (failNoted i wdog d) := by
  have hin : ¬ (72 ≤ i ∨ ((cpGet d i).role ≠ .inService ∧ (cpGet d i).role ≠ .spare) ∨ (cpGet d i).run = .off) := by
    rw [hrole]; simp [hrun, hi]
  unfold cpFail
  dsimp only
  rw [if_neg hin, if_neg (by rw [hrole]; nofun)]
  rfl

end

/-! ### The events that report it -/

/-- What follows a command unless the machine has failed. -/
def goesOn (s : State) (d : Dev) : State := if d.fatal = true then after s d else sweptP s d

theorem run_liveP_id {s : State} (f : Dev → Dev) (h : Running s) : run s (fun d => liveP id (f d)) = .next (goesOn s (f s.dev)) := by
  rw [run_running _ _ h, goesOn]
  by_cases hf : (f s.dev).fatal = true
  · simp only [liveP, liveC, liveA, live, hf, if_true]
  · simp only [liveP, liveC, liveA, live, hf]
    rfl

/-- The event that a CP has failed: its heartbeat is missing, or it reports an error. -/
def failEvent (i : Nat) (wdog : Bool) (s : State) : Host.Outcome State Fault Refusal :=
  if wdog then exec (.heartbeatTimeout i) s else exec (.cpEccError i) s

section
variable {s : State} {i : Nat} {wdog : Bool}

/-- A CP that a debugger holds counts as waiting (R508). -/
theorem failEvent_halted (h : Running s) (hw : wdog = true) (hh : (cpGet s.dev i).halted = true) : failEvent i wdog s = .next (after s s.dev) := by
  have hexec : exec (.heartbeatTimeout i) s = run s (fun d => if (cpGet d i).halted then d else liveP id (cpFail i true false d)) := rfl
  rw [failEvent, if_pos hw, hexec, run_running _ _ h]
  simp [hh]

theorem failEvent_fails (h : Running s) (hh : wdog = true → (cpGet s.dev i).halted = false) :
    failEvent i wdog s = .next (goesOn s (cpFail i wdog false s.dev)) := by
  cases wdog with
  | false => exact run_liveP_id (cpFail i false false) h
  | true =>
    have hexec : exec (.heartbeatTimeout i) s = run s (fun d => if (cpGet d i).halted then d else liveP id (cpFail i true false d)) := rfl
    have hrun : run s (fun d => if (cpGet d i).halted then d else liveP id (cpFail i true false d))
        = run s (fun d => liveP id (cpFail i true false d)) := by
      rw [run_running _ _ h, run_running _ _ h]
      simp [hh rfl]
    rw [failEvent, if_pos rfl, hexec, hrun, run_liveP_id _ h]

end

/-! ### In-field BIST (R588) -/

section
variable {s : State} {i : Nat} {pass : Bool}

theorem exec_spareBistComplete (h : Running s) (hi : i < 72) : exec (.spareBistComplete i pass) s = .next (after s (bistDone i pass s.dev)) := by
  have hexec : exec (.spareBistComplete i pass) s = run s (fun d => if i < 72 then bistDone i pass d else d) := rfl
  rw [hexec, run_running _ _ h, if_pos hi]

end

/-! ### Spare rotation (R395, R460) -/

theorem exec_spareRotation {s : State} (h : Running s) (e : Nat) :
    exec (.spareRotation e) s = .next (after s (if e < 8 ∧ regFld s.dev .dsRotCtl e 7 0 ≠ 0 then rotate e s.dev else s.dev)) := by
  have hexec : exec (.spareRotation e) s = run s (fun x => if e < 8 ∧ regFld x .dsRotCtl e 7 0 ≠ 0 then rotate e x else x) := rfl
  rw [hexec, run_running _ _ h]

theorem rotate_none {d : Dev} {e : Nat} (h : spareOf d e = none) : rotate e d = d := by simp [rotate, h]

/-- The CP that a rotation replaces, with its logical slot: the one that waits, or the next after the spare. -/
def RotatesOut (d : Dev) (e j i k : Nat) : Prop :=
  ((∀ w ∈ d.rotWait, w.1 ≠ e) ∧ rotPick d e j = some i ∧ lslotOf d i = some k)
    ∨ (k < 8 ∧ d.rotWait.find? (fun w => w.1 = e) = some (e, 8 * i + k))

/-- A rotation of a CP that is named. -/
def rotateCp (e j i k : Nat) (d : Dev) : Dev :=
  if rotReady d i then
    let d := cpMapSet e k (j % 9) { d with rotWait := d.rotWait.filter (fun w => w.1 ≠ e), scWait := d.scWait.filter (· ≠ (0, e)) }
    let d := cpSet j { cpGet d j with role := .inService } d
    let d := cpSet i { cpGet d i with role := .spare } d
    let d := rotMove i j (xClose (fun m => decide (m.origin = .cp i)) d)
    let d := regSet .dsRotLast e d.devtime d
    d.injected.foldl (fun d u => injectEnd u d) { d with injected := [] }
  else { d with rotWait := d.rotWait.filter (fun w => w.1 ≠ e) ++ [(e, 8 * i + k)] }

theorem rotate_eq {d : Dev} {e j i k : Nat} (hj : spareOf d e = some j) (h : RotatesOut d e j i k) : rotate e d = rotateCp e j i k d := by
  rcases h with ⟨hwait, hpick, hslot⟩ | ⟨hk, hwait⟩
  · have hfind : d.rotWait.find? (fun w => w.1 = e) = none := List.find?_eq_none.mpr (by simpa using hwait)
    simp only [rotate, hj, hfind, hpick, hslot, Option.map_some]
    rfl
  · have hdiv : (8 * i + k) / 8 = i := by omega
    have hmod : (8 * i + k) % 8 = k := by omega
    simp only [rotate, hj, hwait, hdiv, hmod]
    rfl

/-! ### A write of DS_ROT_CTL (R12, R460) -/

theorem pageOf_dst : ∀ e, e < 8 → pageOf (0x20 + e) = some (.dst, e) := by decide

/-- DS_ROT_CTL of district e, as an access meets it. -/
def dsRotCtlAt (e : Nat) : RegAt := ⟨.dst, e, 0x20 + e, .dsRotCtl, ⟨.dst, 0x800, 0, 1, 4, [⟨31, 31, .sc, 0⟩, ⟨7, 0, .rw, 24⟩]⟩, 0, 0⟩

theorem regFind_dsRotCtl {e : Nat} (he : e < 8) : regFind (0x20 + e) 0x800 = some (dsRotCtlAt e) :=
  regFind_of_page (e := (.dsRotCtl, (dsRotCtlAt 0).info, 0, 0)) (pageOf_dst e he) (by decide) (by decide) (by decide)

theorem writeMask_dsRotCtl (e : Nat) : writeMask (dsRotCtlAt e).info = 0x800000FF :=
  (by decide : writeMask (dsRotCtlAt 0).info = 0x800000FF)

/-- It keeps its period; NOW acts once. -/
theorem store_dsRotCtl (d0 : Dev) (o : Origin) (e : Nat) (v : DWord) (d : Dev) :
    store d0 o (dsRotCtlAt e) v d = regSet .dsRotCtl e (v &&& ~~~0x80000000#64) d := by
  have hmask : accMask (dsRotCtlAt e).info (fun x => x = .wo || x = .sc) = 0x80000000#64 :=
    (by decide : accMask (dsRotCtlAt 0).info (fun x => x = .wo || x = .sc) = 0x80000000#64)
  rw [← hmask]
  rfl

theorem regEffect_dsRotCtl (d : Dev) (o : Origin) (e : Nat) (v : DWord) : regEffect d o (dsRotCtlAt e) v =
    .ok (fun x => if bit v 31 then rotateNow e (store d o (dsRotCtlAt e) v x) else store d o (dsRotCtlAt e) v x) := rfl

theorem write_dsRotCtl {s : State} {o : Origin} {e : Nat} (v : Word) (he : e < 8) (P : Passes s o (0x20 + e) 0x800 [1, 0]) :
    run s (write32 o (0x20 + e) 0x800 v) =
      .next (wrote s o (0x20 + e) 0x800 4 (v.zeroExtend 64) (fun d =>
        let z := merged s o (0x20 + e) 0x800 (v.zeroExtend 64) 0x800000FF &&& ~~~0x80000000#64
        if bit v 31 then rotateNow e (regSet .dsRotCtl e z d) else regSet .dsRotCtl e z d)) := by
  have hnow : bit (merged s o (0x20 + e) 0x800 (v.zeroExtend 64) 0x800000FF) 31 = bit v 31 := by
    have hmask : (0x800000FF : DWord).getLsbD 31 = true := by decide
    rw [merged, bit, getLsbD_merge, hmask, if_pos rfl, BitVec.getLsbD_setWidth]
    simp [bit]
  rw [write32_passed P (regFind_dsRotCtl he) rfl (by simp [dsRotCtlAt]) rfl
    (by decide : ∀ c ∈ [1, 0], inSet (writers (dsRotCtlAt 0) 0x800) c = true)
    (by rw [writeMask_dsRotCtl]; decide) (by decide) (by omega) (by decide) (by decide) (by omega)
    (by rw [writeMask_dsRotCtl]; decide), writeMask_dsRotCtl, regEffect_dsRotCtl, hnow,
    answerOf_ok _ (by simp [dsRotCtlAt]) (by simp [dsRotCtlAt]) (by simp [dsRotCtlAt])]
  simp only [store_dsRotCtl]

/-! ### The statement -/

/-- Settles O44: the failure of a CP by its role, the end of BIST by its role, and rotation by whether the CP may leave service. -/
theorem failoverAndRotation : Obligations.FailoverAndRotation := by
  intro s h
  refine ⟨fun i wdog hi => ⟨failEvent_halted h, fun hout hh => ?out, fun hh hrun hrole => ?spare,
    fun hh hrun hrole => ⟨fun j hj => ?taken, fun hnone => ?shared⟩⟩,
    fun i pass hi => ⟨fun hrole => ?bistSpare, fun hrole hp => ?bistCp, fun hrole hp => ?bistAgain, fun b hrole hp => ?bistFails,
      fun hrole => ?bistNone⟩,
    fun e he => ?noRotation, fun e he hper => ?rotation, fun e j i k he hper hj hcp => ⟨fun hready => ?waits, fun hready => ?swaps⟩,
    fun o e v he P => ?now⟩
  case out => exact (failEvent_fails h hh).trans (by rw [cpFail_out hout]; rfl)
  case spare => exact (failEvent_fails h hh).trans (by rw [cpFail_spare hi hrun hrole]; rfl)
  case taken => exact (failEvent_fails h hh).trans (by rw [cpFail_inService hi hrun hrole, failover_spare (d := failNoted i wdog s.dev) hj]; rfl)
  case shared => exact ⟨_, (failEvent_fails h hh).trans (by rw [cpFail_inService hi hrun hrole, failover_none (d := failNoted i wdog s.dev) hnone]; rfl)⟩
  case bistSpare => exact (exec_spareBistComplete h hi).trans (by rw [bistDone, hrole]; rfl)
  case bistCp => exact (exec_spareBistComplete h hi).trans (by rw [bistDone, hrole, hp]; rfl)
  case bistAgain => exact (exec_spareBistComplete h hi).trans (by rw [bistDone, hrole, hp]; rfl)
  case bistFails => exact (exec_spareBistComplete h hi).trans (by rw [bistDone, hrole, hp]; rfl)
  case bistNone =>
    rw [exec_spareBistComplete h hi, bistDone]
    rcases hrole with hrole | hrole <;> rw [hrole]
  case noRotation =>
    rw [exec_spareRotation h]
    rcases he with hdist | hper | hnone
    · rw [if_neg fun hc => absurd hc.1 (by omega)]
    · rw [if_neg fun hc => hc.2 hper]
    · rw [rotate_none hnone, ite_self]
  case rotation => rw [exec_spareRotation h, if_pos ⟨he, hper⟩]
  case waits =>
    rw [exec_spareRotation h, if_pos ⟨he, hper⟩, rotate_eq hj hcp, rotateCp, if_neg (by simp [hready])]
  case swaps =>
    rw [exec_spareRotation h, if_pos ⟨he, hper⟩, rotate_eq hj hcp, rotateCp, if_pos hready]
    rfl
  case now =>
    refine (write_dsRotCtl v he P).trans ?_
    cases bit v 31 <;> rfl

end Sys2Proof.Machine
end

section
/-!
SUPPORT. binary32 words (R354 to R360): which of them are NaNs, and that every result is the one NaN or none.
-/
namespace Sys2Proof.Machine

open Sys2Proof

/-! ### NaN words (R355) -/

/-- NaNs are the words above infinity, by magnitude. -/
theorem isNan_fpUnpack (w : Word) : (fpUnpack w).isNan = decide (0x7F800000 < w.toNat % 2 ^ 31) := by
  unfold fpUnpack bits
  dsimp only
  by_cases hexp : w.toNat / 2 ^ 23 % 2 ^ (30 + 1 - 23) = 255
  · rw [if_pos hexp]
    split <;> simp [Bin32.isNan] <;> omega
  · rw [if_neg hexp]
    split <;> simp [Bin32.isNan] <;> omega

/-- The signalling ones have bit 22 clear. -/
theorem signals_fpUnpack (w : Word) : (fpUnpack w).signals = ((fpUnpack w).isNan && !w.getLsbD 22) := by
  unfold fpUnpack bit
  dsimp only
  split
  · split <;> simp [Bin32.isNan, Bin32.signals]
  · split <;> simp [Bin32.isNan, Bin32.signals]

theorem exponent_of_and {w : Word} (h : w &&& 0x7F800000#32 = 0x7F800000#32) : w.toNat / 2 ^ 23 % 2 ^ 8 = 255 := by
  have hfield : w.toNat >>> 23 &&& 255 = 255 := by
    simpa [Nat.shiftRight_and_distrib] using congrArg (fun x : Word => x.toNat >>> 23) h
  rwa [← Nat.shiftRight_eq_div_pow, ← Nat.and_two_pow_sub_one_eq_mod]

theorem and_fraction_eq_zero {w : Word} (h : w.toNat % 2 ^ 23 = 0) : w &&& 0x007FFFFF#32 = 0 := by
  rw [← Nat.and_two_pow_sub_one_eq_mod] at h
  exact BitVec.eq_of_toNat_eq (by simpa using h)

/-- Exponent 0xFF and a fraction other than zero make a NaN. -/
theorem isNan_of_fields {w : Word} (he : w &&& 0x7F800000#32 = 0x7F800000#32) (hf : w &&& 0x007FFFFF#32 ≠ 0) :
    (fpUnpack w).isNan = true := by
  have hexp := exponent_of_and he
  have hfrac := mt and_fraction_eq_zero hf
  rw [isNan_fpUnpack, decide_eq_true_eq]
  omega

/-- The word is the NaN that is written, or none. -/
def OneNan (w : Word) : Prop := w = fpNan ∨ (fpUnpack w).isNan = false

theorem oneNan_of_magnitude {w : Word} (h : w.toNat % 2 ^ 31 ≤ 0x7F800000) : OneNan w :=
  .inr (by rw [isNan_fpUnpack, decide_eq_false_iff_not]; omega)

theorem oneNan_ite {p : Prop} [Decidable p] {x y : Alu} (hx : OneNan x.r) (hy : OneNan y.r) : OneNan (if p then x else y).r := by
  split <;> assumption

/-! ### What an operation delivers -/

theorem oneNan_fpNan : OneNan fpNan := .inl rfl

theorem oneNan_fpZero (s : Bool) : OneNan (fpZero s) := oneNan_of_magnitude (by revert s; decide)

theorem oneNan_fpInf (s : Bool) : OneNan (fpInf s) := oneNan_of_magnitude (by revert s; decide)

theorem oneNan_fpOverflow (frm : Nat) (s : Bool) : OneNan (fpOverflow frm s) := by
  refine oneNan_of_magnitude ?_
  unfold fpOverflow
  split <;> cases s <;> simp [fpInf]

/-- A magnitude below infinity, with a sign. -/
theorem oneNan_signed {w : Nat} (s : Bool) (h : ¬ 0x7F800000 ≤ w) : OneNan (BitVec.ofNat 32 (w + if s then 2147483648 else 0)) := by
  refine oneNan_of_magnitude ?_
  rw [BitVec.toNat_ofNat]
  cases s
  · simp only [Bool.false_eq_true, if_false]
    omega
  · simp only [if_true]
    omega

/-- A rounded value lies below infinity, or overflows. -/
theorem oneNan_fpDeliver (frm : Nat) (s : Bool) (m : Nat) (e : Int) : OneNan (fpDeliver frm s m e).r := by
  unfold fpDeliver
  extract_lets top q
  split
  split
  extract_lets tiny w
  by_cases h : 0x7F800000 ≤ w
  · rw [if_pos h]
    exact oneNan_fpOverflow frm s
  · rw [if_neg h]
    exact oneNan_signed s h

theorem oneNan_fpExact (frm : Nat) (z : Bool) (x e : Int) : OneNan (fpExact frm z x e).r :=
  oneNan_ite (oneNan_fpZero z) (oneNan_fpDeliver ..)

/-! ### The operations -/

theorem oneNan_fpAdd2 (frm : Nat) (a b : Bin32) : OneNan (fpAdd2 frm a b).r := by
  unfold fpAdd2
  split
  · exact oneNan_ite (oneNan_fpInf _) oneNan_fpNan
  · exact oneNan_fpInf _
  · exact oneNan_fpInf _
  · exact oneNan_fpExact ..
  · exact oneNan_fpNan

theorem oneNan_fpMul2 (frm : Nat) (a b : Bin32) : OneNan (fpMul2 frm a b).r := by
  unfold fpMul2
  split
  · exact oneNan_fpInf _
  · exact oneNan_ite oneNan_fpNan (oneNan_fpInf _)
  · exact oneNan_ite oneNan_fpNan (oneNan_fpInf _)
  · exact oneNan_fpExact ..
  · exact oneNan_fpNan

theorem oneNan_fpQuot (frm : Nat) (s : Bool) (m : Nat) (e : Int) (n : Nat) (g : Int) : OneNan (fpQuot frm s m e n g).r := by
  unfold fpQuot
  extract_lets x
  exact oneNan_ite (oneNan_fpZero s) (oneNan_fpDeliver ..)

theorem oneNan_fpDiv2 (frm : Nat) (a b : Bin32) : OneNan (fpDiv2 frm a b).r := by
  unfold fpDiv2
  split
  · exact oneNan_fpNan
  · exact oneNan_fpInf _
  · exact oneNan_fpZero _
  · exact oneNan_ite (oneNan_ite oneNan_fpNan (oneNan_fpInf _)) (oneNan_fpQuot ..)
  · exact oneNan_fpNan

theorem oneNan_aluFsqrt (frm : Nat) (a : Word) : OneNan (aluFsqrt frm a).r := by
  unfold aluFsqrt
  split
  · exact oneNan_fpNan
  · exact oneNan_ite oneNan_fpNan (oneNan_fpInf false)
  · extract_lets odd x g r
    exact oneNan_ite (oneNan_fpZero _) (oneNan_ite oneNan_fpNan (oneNan_fpDeliver ..))

theorem oneNan_aluFmadd (frm : Nat) (d a b : Word) : OneNan (aluFmadd frm d a b).r := by
  unfold aluFmadd
  dsimp only
  split
  · exact oneNan_ite oneNan_fpNan (oneNan_fpAdd2 ..)
  · exact oneNan_ite oneNan_fpNan (oneNan_ite oneNan_fpNan (oneNan_fpAdd2 ..))
  · exact oneNan_ite oneNan_fpNan (oneNan_ite oneNan_fpNan (oneNan_fpAdd2 ..))
  · exact oneNan_fpAdd2 ..
  · exact oneNan_fpNan

/-- The smaller or larger one is an operand that is no NaN, or the NaN of two NaNs. -/
theorem oneNan_aluFminmax (wantMax : Bool) (a b : Word) : OneNan (aluFminmax wantMax a b).r := by
  simp only [aluFminmax, fpOut]
  cases ha : (fpUnpack a).isNan <;> cases hb : (fpUnpack b).isNan
  · simp only [Bool.and_self, Bool.false_eq_true, if_false]
    repeat' split
    all_goals exact .inr ‹_›
  · exact .inr ha
  · exact .inr hb
  · exact oneNan_fpNan

/-- What leaves the bits below the sign alone keeps a NaN from arising. -/
theorem isNan_of_magnitude_eq {v w : Word} (h : v.toNat % 2 ^ 31 = w.toNat % 2 ^ 31) : (fpUnpack v).isNan = (fpUnpack w).isNan := by
  rw [isNan_fpUnpack, isNan_fpUnpack, h]

theorem oneNan_fpAbs (a : Word) : OneNan (fpAbs a) := by
  unfold fpAbs
  split
  · exact oneNan_fpNan
  · next h =>
    have hmag : (a &&& 0x7FFFFFFF#32).toNat % 2 ^ 31 = a.toNat % 2 ^ 31 := by
      rw [BitVec.toNat_and, show (0x7FFFFFFF#32).toNat = 2 ^ 31 - 1 from rfl, Nat.and_two_pow_sub_one_eq_mod, Nat.mod_mod]
    exact .inr ((isNan_of_magnitude_eq hmag).trans (Bool.eq_false_of_not_eq_true h))

theorem oneNan_fpNeg (a : Word) : OneNan (fpNeg a) := by
  unfold fpNeg
  split
  · exact oneNan_fpNan
  · next h =>
    have hmag : (a ^^^ 0x80000000#32).toNat % 2 ^ 31 = a.toNat % 2 ^ 31 := by
      rw [BitVec.toNat_xor, Nat.xor_mod_two_pow]
      simp
    exact .inr ((isNan_of_magnitude_eq hmag).trans (Bool.eq_false_of_not_eq_true h))

end Sys2Proof.Machine
end

section
/-!
THEOREM. O5 (NansAndComparisons): the one NaN that is written (R355), and FCMP (R360).
-/
namespace Sys2Proof.Machine

open Sys2Proof

theorem oneNanIsWritten : OneNanIsWritten := by
  intro m d a b r hr he hf
  have hall : ∀ r ∈ [(aluFadd m a b).r, (aluFsub m a b).r, (aluFmul m a b).r, (aluFdiv m a b).r, (aluFsqrt m a).r,
      (aluFmadd m d a b).r, (aluFminmax false a b).r, (aluFminmax true a b).r, fpAbs a, fpNeg a], OneNan r := by
    simp only [List.forall_mem_cons]
    exact ⟨oneNan_fpAdd2 .., oneNan_fpAdd2 .., oneNan_fpMul2 .., oneNan_fpDiv2 .., oneNan_aluFsqrt .., oneNan_aluFmadd ..,
      oneNan_aluFminmax .., oneNan_aluFminmax .., oneNan_fpAbs a, oneNan_fpNeg a, List.forall_mem_nil _⟩
  exact (hall r hr).resolve_right (by simp [isNan_of_fields he hf])

/-- FCMP with a NaN operand: no order, and FNV when one of them signals. -/
theorem aluFcmp_nan {a b : Word} (h : (fpUnpack a).isNan = true ∨ (fpUnpack b).isNan = true) :
    aluFcmp a b = ⟨0, false, false, true, true, stIf ((fpUnpack a).signals || (fpUnpack b).signals) stFNV⟩ :=
  if_pos (Bool.or_eq_true_iff.mpr h)

/-- FCMP of numbers: the flags are the three relations of their values. -/
theorem aluFcmp_numbers {a b : Word} (ha : (fpUnpack a).isNan = false) (hb : (fpUnpack b).isNan = false) :
    aluFcmp a b = ⟨0, decide (fpVal a < fpVal b), decide (fpVal a = fpVal b), decide (fpVal b ≤ fpVal a), false, 0⟩ := by
  simp only [aluFcmp, ha, hb, Bool.or_self, Bool.false_eq_true, if_false]
  rcases Int.lt_trichotomy (fpVal a) (fpVal b) with h | h | h
  · simp [h, h.ne, h.not_ge]
  · simp [h]
  · simp [h.not_gt, h.ne', h.le]

theorem stIf_eq_self {b : Bool} {st : Word} (h : st ≠ 0) : stIf b st = st ↔ b = true := by
  cases b
  · simpa [stIf] using h.symm
  · simp [stIf]

theorem stIf_eq_zero {b : Bool} {st : Word} (h : st ≠ 0) : stIf b st = 0 ↔ ¬ b = true := by
  cases b
  · simp [stIf]
  · simpa [stIf] using h

theorem compareRelations : CompareRelations := by
  intro a b nan sig key x
  have hnan (w : Word) : (fpUnpack w).isNan = true ↔ nan w := by rw [isNan_fpUnpack, decide_eq_true_eq]
  have hsig (w : Word) : (fpUnpack w).signals = true ↔ sig w := by
    rw [signals_fpUnpack, Bool.and_eq_true, Bool.not_eq_true', hnan]
  have hkey (w : Word) : fpVal w = key w := by simp only [fpVal, bits, pow_zero, Nat.div_one, key]
  refine ⟨fun h => ?unordered, fun ha hb => ?ordered⟩
  case unordered =>
    have hx : x = _ := aluFcmp_nan (h.imp (hnan a).mpr (hnan b).mpr)
    have hsigs : ((fpUnpack a).signals || (fpUnpack b).signals) = true ↔ sig a ∨ sig b := by
      rw [Bool.or_eq_true, hsig, hsig]
    rw [hx, ← hsigs]
    exact ⟨rfl, rfl, rfl, rfl, stIf_eq_self (by decide), stIf_eq_zero (by decide)⟩
  case ordered =>
    have hx : x = _ := aluFcmp_numbers (Bool.eq_false_of_not_eq_true (mt (hnan a).mp ha)) (Bool.eq_false_of_not_eq_true (mt (hnan b).mp hb))
    rw [hx, hkey, hkey]
    exact ⟨rfl, rfl, decide_eq_true_iff, decide_eq_true_iff, decide_eq_true_iff⟩

/-- Settles O5: no operation delivers another NaN, and FCMP by whether an operand is one. -/
theorem nansAndComparisons : Obligations.NansAndComparisons := ⟨oneNanIsWritten, compareRelations⟩

end Sys2Proof.Machine
end

section
/-!
SUPPORT. The results of Alu.lean (R343 to R345) in the words of the rules, and the formats in which they reach a register.
-/
namespace Sys2Proof.Machine

open Sys2Proof

/-! ### Addition and subtraction (R343) -/

theorem outS32_eq (x : Int) : outS32 x = overflows x := by
  rw [outS32, overflows, ← Bool.decide_or, decide_eq_decide]
  omega

theorem aluAdd_eq (a b : Word) (k : Bool) : aluAdd a b k = nzcv (a + b + (if k then 1 else 0))
    (decide (2 ^ 32 ≤ a.toNat + b.toNat + k.toNat)) (overflows (a.toInt + b.toInt + (if k then 1 else 0))) := by
  have hr : BitVec.ofNat 32 (a.toNat + b.toNat + k.toNat) = a + b + (if k then 1 else 0) := by
    cases k <;> simp [BitVec.ofNat_add]
  have hk : (k.toNat : Int) = if k then 1 else 0 := by cases k <;> rfl
  simp only [aluAdd, aluOut, outS32_eq, hr, hk, nzcv]

theorem aluAdd_noCarry (a b : Word) : aluAdd a b false =
    nzcv (a + b) (decide (2 ^ 32 ≤ a.toNat + b.toNat)) (overflows (a.toInt + b.toInt)) := by
  simpa using aluAdd_eq a b false

theorem aluSub_eq (a b : Word) (k : Bool) : aluSub a b (!k) = nzcv (a - b - (if k then 0 else 1))
    (decide (b.toNat + (if k then 0 else 1) ≤ a.toNat)) (overflows (a.toInt - b.toInt - (if k then 0 else 1))) := by
  have hr : BitVec.ofInt 32 (a.toInt - b.toInt - ((!k).toNat : Int)) = a - b - (if k then 0 else 1) := by
    cases k <;> simp [Int.sub_eq_add_neg, BitVec.ofInt_add, BitVec.ofInt_neg, BitVec.sub_eq_add_neg]
  have hn : (!k).toNat = if k then 0 else 1 := by cases k <;> rfl
  have hi : ((!k).toNat : Int) = if k then 0 else 1 := by cases k <;> rfl
  rw [aluSub, hr, hi, hn, aluOut, outS32_eq, nzcv]

theorem aluSub_noBorrow (a b : Word) : aluSub a b false =
    nzcv (a - b) (decide (b.toNat ≤ a.toNat)) (overflows (a.toInt - b.toInt)) := by
  simpa using aluSub_eq a b true

/-! ### Shifts (R344) -/

theorem aluShl_eq (a : Word) (n : Nat) : aluShl a n = shlSpec a n := by
  unfold aluShl shlSpec
  split
  · next h => simp [h, aluOut, nzcv]
  · next h0 =>
    split
    · next h => simp [h0, h.le, aluOut, nzcv, bit]
    · next h =>
      rcases eq_or_ne n 32 with rfl | h32
      · simp [aluOut, nzcv, bit]
      · simp [h32, show ¬ n ≤ 32 by omega, aluOut, nzcv]

theorem aluShr_eq (a : Word) (n : Nat) : aluShr a n = shrSpec a n := by
  unfold aluShr shrSpec
  split
  · next h => simp [h, aluOut, nzcv]
  · next h0 =>
    split
    · next h => simp [h0, h.le, aluOut, nzcv, bit]
    · next h =>
      rcases eq_or_ne n 32 with rfl | h32
      · simp [aluOut, nzcv, bit]
      · simp [h32, show ¬ n ≤ 32 by omega, aluOut, nzcv]

/-- An arithmetic shift by the width leaves copies of the sign. -/
theorem sshiftRight_width (a : Word) : a.sshiftRight 32 = if bit a 31 then BitVec.allOnes 32 else 0 := by
  have hmsb : bit a 31 = a.msb := (BitVec.msb_eq_getLsbD_last a).symm
  rw [hmsb]
  cases h : a.msb
  · rw [BitVec.sshiftRight_eq_of_msb_false h, BitVec.ushiftRight_eq_zero (by decide)]
    rfl
  · rw [BitVec.sshiftRight_eq_of_msb_true h, BitVec.ushiftRight_eq_zero (by decide)]
    rfl

theorem aluSar_eq (a : Word) (n : Nat) : aluSar a n = sarSpec a n := by
  unfold aluSar sarSpec
  split
  · next h => simp [h, aluOut, nzcv]
  · next h0 =>
    split
    · next h => simp [h0, min_eq_left h.le, show min (n - 1) 31 = n - 1 by omega, aluOut, nzcv, bit]
    · next h =>
      rw [show min n 32 = 32 by omega, show min (n - 1) 31 = 31 by omega, sshiftRight_width]
      simp [h0, aluOut, nzcv, bit]

/-! ### Leading zeros (R345) -/

/-- The number of leading zeros of a word. -/
def leadingZeros (a : Word) : Nat := if a = 0 then 32 else 31 - a.toNat.log2

theorem log2_lt_width {a : Word} (h : a ≠ 0) : a.toNat.log2 < 32 :=
  (Nat.log2_lt fun h0 => h (BitVec.eq_of_toNat_eq h0)).mpr a.isLt

/-- It points at the highest bit that is set. -/
theorem leadingZeros_spec (a : Word) : leadingZeros a = 32 ∧ a = 0
    ∨ leadingZeros a < 32 ∧ a.getLsbD (31 - leadingZeros a) = true ∧ ∀ j, 31 - leadingZeros a < j → a.getLsbD j = false := by
  rcases eq_or_ne a 0 with h | h
  · exact .inl ⟨if_pos h, h⟩
  · have hlog := log2_lt_width h
    have hk : leadingZeros a = 31 - a.toNat.log2 := if_neg h
    have htop : 31 - leadingZeros a = a.toNat.log2 := by omega
    rw [htop]
    refine .inr ⟨by omega, ?_, fun j hj => ?_⟩
    · rw [← BitVec.testBit_toNat]
      exact Nat.testBit_log2 fun h0 => h (BitVec.eq_of_toNat_eq h0)
    · rw [← BitVec.testBit_toNat]
      exact Nat.testBit_lt_two_pow (Nat.lt_log2_self.trans_le (Nat.pow_le_pow_right (by decide) hj))

theorem aluClz_eq (a : Word) : aluClz a =
    ⟨BitVec.ofNat 32 (leadingZeros a), false, decide (leadingZeros a = 0), decide (leadingZeros a = 32), false, 0⟩ := by
  have hle : leadingZeros a ≤ 32 := by unfold leadingZeros; split <;> omega
  have hn : (BitVec.ofNat 32 (leadingZeros a)).msb = false := by
    rw [BitVec.msb_eq_false_iff_two_mul_lt, BitVec.toNat_ofNat]
    omega
  have hz : BitVec.ofNat 32 (leadingZeros a) = 0 ↔ leadingZeros a = 0 := by
    rw [← BitVec.toNat_inj, BitVec.toNat_ofNat, show (0 : Word).toNat = 0 from rfl]
    omega
  have hc : a = 0 ↔ leadingZeros a = 32 := by
    unfold leadingZeros
    split
    · next h => simp [h]
    · next h => simp only [h, false_iff]; omega
  rw [aluClz, ← leadingZeros, aluOut, hn, decide_eq_decide.mpr hz, decide_eq_decide.mpr hc]

/-! ### Results that reach a register (R298, R299, R301) -/

section
variable {s : State} {i op fn : Nat} {x : Instr} {noD noA noB : Bool} {g : Cp → Alu} {a : Alu}

/-- An RR instruction that writes rd and the flags, its result in the words of its rule. -/
theorem Issues.aluRR_eq {f : RR} (H : Issues s i x)
    (he : exec x s = run s (cpRR i op fn f noD noA noB false (fun c d => aluWrite i f.d (g c) d))) (hw : cpWord x = some (i, encRR op fn f))
    (hr : f.rsv = 0) (hg : g (cpGet s.dev i) = a) (ha : noA = true → f.ra = 0 := by simp) (hb : noB = true → f.rb = 0 := by simp)
    (hd : noD = true → f.rd = 0 := by simp) : exec x s = .next (aluDone s i f.d a) :=
  hg ▸ H.aluRR he hw hr hd ha hb

/-- One that writes the flags alone. -/
theorem Issues.flagsRR_eq {f : RR} (H : Issues s i x)
    (he : exec x s = run s (cpRR i op fn f noD noA noB false (fun c d => aluFlags i (g c) d))) (hw : cpWord x = some (i, encRR op fn f))
    (hr : f.rsv = 0) (hd : f.rd = 0) (hg : g (cpGet s.dev i) = a) (ha : noA = true → f.ra = 0 := by simp)
    (hb : noB = true → f.rb = 0 := by simp) : exec x s = .next (flagsDone s i a) :=
  hg ▸ H.flagsRR he hw hr (fun _ => hd) ha hb

/-- An RI instruction that writes rd and the flags. -/
theorem Issues.aluRI {f : RI} (H : Issues s i x) (he : exec x s = run s (cpRI i op f false false (fun c d => aluWrite i f.d (g c) d)))
    (hw : cpWord x = some (i, encRI op f)) (hg : g (cpGet s.dev i) = a) : exec x s = .next (aluDone s i f.d a) := by
  rw [he, cpRI_wellFormed i op _ (by simp) (by simp), H.alu hw rfl, hg]

/-- One that writes the flags alone. -/
theorem Issues.flagsRI {f : RI} (H : Issues s i x) (he : exec x s = run s (cpRI i op f true false (fun c d => aluFlags i (g c) d)))
    (hw : cpWord x = some (i, encRI op f)) (hd : f.rd = 0) (hg : g (cpGet s.dev i) = a) : exec x s = .next (flagsDone s i a) := by
  rw [he, cpRI_wellFormed i op _ (fun _ => hd) (by simp), H.flags hw rfl, hg]

end

end Sys2Proof.Machine
end

section
/-!
THEOREM. O1 (IntegerArithmetic): addition, subtraction, logic, shifts, negation and leading zeros (R343 to R345).
-/
namespace Sys2Proof.Machine

open Sys2Proof

theorem addSubResults : AddSubResults := by
  refine fun s i => ⟨fun f hr => ⟨fun H => ?add, fun H => ?addc, fun H => ?sub, fun H => ?subc, fun hd H => ?cmp⟩,
    fun f => ⟨fun H => ?addi, fun hd H => ?cmpi⟩⟩
  case add => exact H.aluRR_eq rfl rfl hr (aluAdd_noCarry ..)
  case addc => exact H.aluRR_eq rfl rfl hr (aluAdd_eq ..)
  case sub => exact H.aluRR_eq rfl rfl hr (aluSub_noBorrow ..)
  case subc => exact H.aluRR_eq rfl rfl hr (aluSub_eq ..)
  case cmp => exact H.flagsRR_eq rfl rfl hr hd (aluSub_noBorrow ..)
  case addi => exact H.aluRI rfl rfl (aluAdd_noCarry ..)
  case cmpi => exact H.flagsRI rfl rfl hd (aluSub_noBorrow ..)

theorem logicResults : LogicResults := by
  refine fun s i => ⟨fun f hr => ⟨fun H => ?and, fun H => ?or, fun H => ?xor, fun H => ?andn, fun hd H => ?tst⟩,
    fun f => ⟨fun H => ?andi, fun H => ?ori, fun H => ?xori, fun hd H => ?tsti⟩⟩
  case and | or | xor | andn => exact H.aluRR_eq rfl rfl hr rfl
  case tst => exact H.flagsRR_eq rfl rfl hr hd rfl
  case andi | ori | xori => exact H.aluRI rfl rfl rfl
  case tsti => exact H.flagsRI rfl rfl hd rfl

/-- The kind of shift and the amount that imm16 of SHI spells (R300). -/
theorem shi_fields {f : RI} {k n : Nat} (hk : k < 3) (hn : n < 256) (h : f.imm.toNat = 256 * k + n) :
    ¬ 2048 ≤ f.imm.toNat ∧ bits f.imm 10 8 = k ∧ bits f.imm 7 0 = n := by
  simp only [bits, Nat.reduceAdd, Nat.reduceSub, Nat.reducePow]
  omega

theorem shiftAmt_eq (f : RR) (c : Cp) : shiftAmt f c = (gRead f.b c).toNat % 256 := by
  simp [shiftAmt, bits]

theorem shiftResults : ShiftResults := by
  refine fun s i => ⟨fun f hr => ⟨fun H => ?shl, fun H => ?shr, fun H => ?sar⟩,
    fun f n hn => ⟨fun himm H => ?shiLeft, fun himm H => ?shiRight, fun himm H => ?shiArith⟩⟩
  case shl => exact H.aluRR_eq rfl rfl hr (by rw [aluShl_eq, shiftAmt_eq]; rfl)
  case shr => exact H.aluRR_eq rfl rfl hr (by rw [aluShr_eq, shiftAmt_eq]; rfl)
  case sar => exact H.aluRR_eq rfl rfl hr (by rw [aluSar_eq, shiftAmt_eq]; rfl)
  case shiLeft =>
    obtain ⟨hok, hkind, hamt⟩ := shi_fields (f := f) (k := 0) (by decide) hn (by omega)
    exact H.aluRI (g := fun c => aluShl (gRead f.a c) n) (by simp only [exec, execShi, hok, if_false, hkind, hamt]) rfl (aluShl_eq ..)
  case shiRight =>
    obtain ⟨hok, hkind, hamt⟩ := shi_fields (f := f) (k := 1) (by decide) hn (by omega)
    exact H.aluRI (g := fun c => aluShr (gRead f.a c) n) (by simp only [exec, execShi, hok, if_false, hkind, hamt]) rfl (aluShr_eq ..)
  case shiArith =>
    obtain ⟨hok, hkind, hamt⟩ := shi_fields (f := f) (k := 2) (by decide) hn (by omega)
    exact H.aluRI (g := fun c => aluSar (gRead f.a c) n) (by simp only [exec, execShi, hok, if_false, hkind, hamt]) rfl (aluSar_eq ..)

theorem negClzResults : NegClzResults := by
  refine fun s i f hr hb => ⟨fun H => ?neg, fun H => ?negs, leadingZeros (opA s i f), leadingZeros_spec _, fun H => ?clz⟩
  case neg | negs => exact H.aluRR_eq rfl rfl hr rfl (hb := fun _ => hb)
  case clz => exact H.aluRR_eq rfl rfl hr (aluClz_eq _) (hb := fun _ => hb)

/-- Settles O1: each instruction by its format and by what its operation computes. -/
theorem integerArithmetic : Obligations.IntegerArithmetic := ⟨addSubResults, logicResults, shiftResults, negClzResults⟩

end Sys2Proof.Machine
end

section
/-!
SUPPORT. Products, quotients and fixed-point values of Alu.lean (R346 to R353) in the words of the rules.
-/
namespace Sys2Proof.Machine

open Sys2Proof

/-! ### Division (R347, R348) -/

/-- The signed quotient of two words, rounded toward zero, modulo 2^32. -/
theorem ofInt_tdiv (a b : Word) : BitVec.ofInt 32 (Int.tdiv a.toInt b.toInt) = a.sdiv b :=
  BitVec.eq_of_toInt_eq (by rw [BitVec.toInt_ofInt, BitVec.toInt_sdiv])

theorem ofInt_tmod (a b : Word) : BitVec.ofInt 32 (Int.tmod a.toInt b.toInt) = a.srem b := by
  rw [← BitVec.toInt_srem, BitVec.ofInt_toInt]

theorem divCorner_eq (a b : Word) : divCorner a b = decide (a = 0x80000000#32 ∧ b = 0xFFFFFFFF#32) := (Bool.decide_and ..).symm

theorem divZero_eq (a : Word) : divZero a = if a.msb then 0x80000000#32 else 0x7FFFFFFF#32 := by
  rw [divZero, bit, BitVec.msb_eq_getLsbD_last]

/-- DZ is set by a zero divisor (R348). -/
theorem divOut_eq (b r : Word) (v : Bool) : divOut b r v 0 = nzcvq r (decide (b = 0)) v (if b = 0 then 0x200 else 0) := by
  simp [divOut, aluOut, nzcvq, stIf, stDZ]

/-- Q by the one quotient that saturates, whose divisor is not zero (R348). -/
theorem aluDivs_eq (a b : Word) : aluDivs a b =
    let big := decide (a = 0x80000000#32 ∧ b = 0xFFFFFFFF#32)
    nzcvq (if b = 0 then (if a.msb then 0x80000000#32 else 0x7FFFFFFF#32) else if big then 0x7FFFFFFF#32 else a.sdiv b) (decide (b = 0)) big
      (if big then 0x100 else if b = 0 then 0x200 else 0) := by
  rw [aluDivs, divCorner_eq, divZero_eq, ofInt_tdiv, divOut, aluOut]
  by_cases hbig : a = 0x80000000#32 ∧ b = 0xFFFFFFFF#32
  · obtain ⟨rfl, rfl⟩ := hbig
    rfl
  · simp [hbig, nzcvq, stIf, stDZ]

theorem aluDiv_eq (a b : Word) : aluDiv a b =
    nzcvq (if b = 0 then (if a.msb then 0x80000000#32 else 0x7FFFFFFF#32) else a.sdiv b) (decide (b = 0))
      (decide (a = 0x80000000#32 ∧ b = 0xFFFFFFFF#32)) (if b = 0 then 0x200 else 0) := by
  rw [aluDiv, divOut_eq, divCorner_eq, divZero_eq, ofInt_tdiv]

theorem aluDivu_eq (a b : Word) : aluDivu a b =
    nzcvq (if b = 0 then 0xFFFFFFFF#32 else a / b) (decide (b = 0)) false (if b = 0 then 0x200 else 0) := by
  rw [aluDivu, divOut_eq, BitVec.udiv_def]
  rfl

theorem aluRem_eq (a b : Word) : aluRem a b =
    nzcvq (if b = 0 then a else a.srem b) (decide (b = 0)) false (if b = 0 then 0x200 else 0) := by
  rw [aluRem, divOut_eq, ofInt_tmod]

theorem aluRemu_eq (a b : Word) : aluRemu a b =
    nzcvq (if b = 0 then a else a % b) (decide (b = 0)) false (if b = 0 then 0x200 else 0) := by
  rw [aluRemu, divOut_eq, BitVec.umod_def]

/-! ### Saturation (R350, R352) -/

/-- The signed word, and the signed 40-bit value, nearest to an exact value. -/
def clip32 (x : Int) : Int := max (-2147483648) (min 2147483647 x)
def clip40 (x : Int) : Int := max (-549755813888) (min 549755813887 x)

/-- A Q31 result: V and Q where it saturates. -/
def satAlu (x : Int) (c : Bool) : Alu :=
  nzcvq (BitVec.ofInt 32 (clip32 x)) c (decide (clip32 x ≠ x)) (if clip32 x = x then 0 else 0x100)

/-- An accumulator's new value with its flags. -/
def satAcc (x : Int) (c : Bool) : BitVec 40 × Alu :=
  let v := BitVec.ofInt 40 (clip40 x)
  (v, ⟨0, v.msb, decide (v = 0), c, decide (clip40 x ≠ x), if clip40 x = x then 0 else 0x100⟩)

theorem qOut_eq (x : Int) (c : Bool) : qOut x c = satAlu x c := by
  rw [satAlu]
  rcases lt_or_ge 2147483647 x with h | h
  · have hclip : clip32 x = 2147483647 := by unfold clip32; omega
    simp [qOut, satS32, h, hclip, h.ne, aluOut, nzcvq, stIf, stQ]
  · rcases lt_or_ge x (-2147483648) with h' | h'
    · have hclip : clip32 x = -2147483648 := by unfold clip32; omega
      simp [qOut, satS32, h.not_gt, h', hclip, h'.ne', aluOut, nzcvq, stIf, stQ]
    · have hclip : clip32 x = x := by unfold clip32; omega
      simp [qOut, satS32, h.not_gt, h'.not_gt, hclip, aluOut, nzcvq, stIf]

theorem accOut_eq (x : Int) (c : Bool) : accOut x c = satAcc x c := by
  rw [accOut, satAcc]
  rcases lt_or_ge 549755813887 x with h | h
  · have hclip : clip40 x = 549755813887 := by unfold clip40; omega
    simp [h, hclip, h.ne, stIf, stQ]
  · rcases lt_or_ge x (-549755813888) with h' | h'
    · have hclip : clip40 x = -549755813888 := by unfold clip40; omega
      simp [h.not_gt, h', hclip, h'.ne', stIf, stQ]
    · have hclip : clip40 x = x := by unfold clip40; omega
      simp [h.not_gt, h'.not_gt, hclip, stIf]

/-! ### Products and rounding (R349, R352) -/

/-- A rounding is inexact where low bits are dropped that are not zero. -/
theorem qround_inexact (q : Nat) (x : Int) (k : Nat) : (qround q x k).2 = decide (x.fmod (2 ^ k) ≠ 0) := by
  have hlow : x.fmod (2 ^ k) = x - x / 2 ^ k * 2 ^ k := by
    rw [Int.fmod_eq_emod_of_nonneg _ (by positivity), Int.emod_def, Int.mul_comm]
  rw [hlow]
  rfl

theorem aluQmul_eq (q : Nat) (a b : Word) : aluQmul q a b =
    satAlu (qround q (a.toInt * b.toInt) 31).1 (decide ((a.toInt * b.toInt).fmod (2 ^ 31) ≠ 0)) := by
  rw [← qround_inexact q, ← qOut_eq]
  rfl

theorem accExt_eq (q : Nat) (v : BitVec 40) : accExt q v = satAlu (qround q v.toInt 4).1 (decide (v.toInt.fmod 16 ≠ 0)) := by
  rw [← qOut_eq, show (16 : Int) = 2 ^ 4 from rfl, ← qround_inexact q v.toInt 4]
  rfl

theorem macProduct_eq (a b : Word) : macProduct a b =
    ((a.toInt * b.toInt).fdiv (2 ^ 27), decide ((a.toInt * b.toInt).fmod (2 ^ 27) ≠ 0)) := by
  rw [macProduct, Int.fdiv_eq_ediv_of_nonneg _ (by decide), Int.fmod_eq_emod_of_nonneg _ (by decide)]

theorem accMac_eq (v : BitVec 40) (a b : Word) : accMac v a b =
    accOut (v.toInt + (a.toInt * b.toInt).fdiv (2 ^ 27)) (decide ((a.toInt * b.toInt).fmod (2 ^ 27) ≠ 0)) := by
  rw [accMac, macProduct_eq]

theorem accMsu_eq (v : BitVec 40) (a b : Word) : accMsu v a b =
    accOut (v.toInt - (a.toInt * b.toInt).fdiv (2 ^ 27)) (decide ((a.toInt * b.toInt).fmod (2 ^ 27) ≠ 0)) := by
  rw [accMsu, macProduct_eq]

theorem accMula_eq (a b : Word) : accMula a b =
    accOut ((a.toInt * b.toInt).fdiv (2 ^ 27)) (decide ((a.toInt * b.toInt).fmod (2 ^ 27) ≠ 0)) := by
  rw [accMula, macProduct_eq]

end Sys2Proof.Machine
end

section
/-!
THEOREM. O2 (MultiplyAndDivide): multiplication (R346), division (R347, R348), and fixed-point arithmetic (R349 to R353).
-/
namespace Sys2Proof.Machine

open Sys2Proof

/-! ### Register pairs (R301, R346) -/

/-- The flags of a 64-bit product: N and Z over its 64 bits. -/
def productFlags (p : DWord) : Alu := ⟨0, p.msb, decide (p = 0), false, false, 0⟩

theorem setFlags_aluWide (p : DWord) (c : Cp) : setFlags (aluWide p).1 c = setFlags (productFlags p) c := by
  simp only [setFlags, aluWide, productFlags]

/-- The machine after an instruction that writes the product p to the pair rd, rd + 1. -/
def pairDone (s : State) (i rd : Nat) (p : DWord) : State :=
  cpDone s i (setFlags (productFlags p) (gWrite (rd + 1) (p.extractLsb' 32 32) (gWrite rd (p.extractLsb' 0 32) (issued (cpGet s.dev i)))))

section
variable {s : State} {i op fn : Nat} {x : Instr} {f : RR} {noA noB : Bool}

/-- A product goes to a pair that begins at an even register. -/
theorem Issues.pairRR {g : Cp → DWord} (H : Issues s i x)
    (he : exec x s = run s (cpRR i op fn f false false false false (fun c d => wideWrite i f c (aluWide (g c)) d)))
    (hw : cpWord x = some (i, encRR op fn f)) (hr : f.rsv = 0) (heven : f.d % 2 = 0) :
    exec x s = .next (pairDone s i f.d (g (cpGet s.dev i))) := by
  have hodd : ¬ f.d % 2 = 1 := by omega
  have hloads : (gWrite f.d (aluWide (g (cpGet s.dev i))).1.r (issued (cpGet s.dev i))).loads = [] := by simp
  rw [he, cpRR_wellFormed i op fn _ hr (by simp) (by simp) (by simp)]
  refine H.done hw ?_ (by simp) (by simp) fun h => cpBase_setFlags (by simpa [cpBase] using h)
  simp only [wideWrite, if_neg hodd, cpMod_cpSet, rdWrite_of_noLoads (issued_loads _), rdWrite_of_noLoads hloads, setFlags_aluWide]
  rfl

/-- Where it begins at an odd one the instruction is illegal. -/
theorem Fetches.pairRR_odd {g : Cp → Alu × Word} (H : Fetches s i x)
    (he : exec x s = run s (cpRR i op fn f false false false false (fun c d => wideWrite i f c (g c) d)))
    (hw : cpWord x = some (i, encRR op fn f)) (hr : f.rsv = 0) (hodd : f.d % 2 = 1) :
    exec x s = .next (after s (cpRaise i 1 (cpGet s.dev i).pc 0 (cpSet i (applySlot (cpGet s.dev i)) s.dev))) := by
  rw [he, cpRR_wellFormed i op fn _ hr (by simp) (by simp) (by simp)]
  exact H.exc hw (if_pos hodd)

/-! ### Accumulators (R302, R352, R353) -/

/-- The machine after an instruction that writes the exact value v, saturated, to accumulator k, with C as given. -/
def accDone (s : State) (i k : Nat) (v : Int) (c : Bool) : State :=
  let x := issued (cpGet s.dev i)
  cpDone s i (setFlags (satAcc v c).2 (if k = 0 then { x with a0 := (satAcc v c).1 } else { x with a1 := (satAcc v c).1 }))

/-- An instruction that writes the accumulator that rd names. -/
theorem Issues.accRR {g : Cp → BitVec 40 × Alu} {v : Int} {k : Bool} (H : Issues s i x)
    (he : exec x s = run s (cpRR i op fn f false noA noB false (fun c d => accWrite i f c (g c) d)))
    (hw : cpWord x = some (i, encRR op fn f)) (hr : f.rsv = 0) (hd : f.d < 2) (hg : g (cpGet s.dev i) = accOut v k)
    (ha : noA = true → f.ra = 0 := by simp) (hb : noB = true → f.rb = 0 := by simp) : exec x s = .next (accDone s i f.d v k) := by
  have hacc : ¬ 1 < f.d := by omega
  rw [accOut_eq] at hg
  rw [he, cpRR_wellFormed i op fn _ hr (by simp) ha hb]
  refine H.done hw (by simp only [accWrite, if_neg hacc, hg, cpMod_cpSet]) ?_ ?_ fun h => cpBase_setFlags ?_
  · split <;> simp
  · split <;> simp
  · split <;> simpa [cpBase] using h

end

/-! ### The statements -/

theorem mulResults : MulResults := by
  refine fun s i f hr => ⟨fun H => ?mul, fun heven => ⟨fun H => ?mulw, fun H => ?mulwu⟩, fun hodd x hx H => ?odd⟩
  case mul => exact H.aluRR_eq rfl rfl hr (by rw [aluMul, outS32_eq]; rfl)
  case mulw => exact H.pairRR (g := fun c => BitVec.ofInt 64 ((gRead f.a c).toInt * (gRead f.b c).toInt)) rfl rfl hr heven
  case mulwu => exact H.pairRR (g := fun c => BitVec.ofNat 64 ((gRead f.a c).toNat * (gRead f.b c).toNat)) rfl rfl hr heven
  case odd => rcases hx with rfl | rfl <;> exact H.pairRR_odd rfl rfl hr hodd

theorem divResults : DivResults := by
  refine fun s i f hr => ⟨fun H => ?div, fun H => ?divs, fun H => ?divu, fun H => ?rem, fun H => ?remu⟩
  case div => exact H.aluRR_eq rfl rfl hr (aluDiv_eq ..)
  case divs => exact H.aluRR_eq rfl rfl hr (aluDivs_eq ..)
  case divu => exact H.aluRR_eq rfl rfl hr (aluDivu_eq ..)
  case rem => exact H.aluRR_eq rfl rfl hr (aluRem_eq ..)
  case remu => exact H.aluRR_eq rfl rfl hr (aluRemu_eq ..)

/-- EXT of an accumulator that there is. -/
theorem exec_extA {s : State} {i : Nat} {f : RR} (h : f.a < 2) : exec (.extA i f) s = run s (cpRR i 0x0C 0x07 f false false true false
    (fun c d => aluWrite i f.d (accExt (qrmOf c) (accOf f.a c)) d)) :=
  congrArg (fun g => run s (cpRR i 0x0C 0x07 f false false true false g)) (funext fun _ => funext fun _ => if_neg (by omega))

theorem fixedPointResults : FixedPointResults := by
  refine fun s i f hr => ⟨fun H => ?qadd, fun H => ?qsub, fun H => ?qmul,
    fun hd => ⟨fun H => ?mac, fun H => ?msu, fun H => ?mula, fun ha hb H => ?aclr⟩, fun ha hb H => ?ext⟩
  case qadd => exact H.aluRR_eq rfl rfl hr (qOut_eq ..)
  case qsub => exact H.aluRR_eq rfl rfl hr (qOut_eq ..)
  case qmul => exact H.aluRR_eq rfl rfl hr (aluQmul_eq ..)
  case mac => exact H.accRR rfl rfl hr hd (accMac_eq ..)
  case msu => exact H.accRR rfl rfl hr hd (accMsu_eq ..)
  case mula => exact H.accRR rfl rfl hr hd (accMula_eq ..)
  case aclr => exact H.accRR (v := 0) (k := false) rfl rfl hr hd rfl (ha := fun _ => ha) (hb := fun _ => hb)
  case ext => exact H.aluRR_eq (exec_extA ha) rfl hr (accExt_eq ..) (hb := fun _ => hb)

/-- Settles O2: each instruction by where its result goes and by what its operation computes. -/
theorem multiplyAndDivide : Obligations.MultiplyAndDivide := ⟨mulResults, divResults, fixedPointResults⟩

end Sys2Proof.Machine
end
